-- ==== Sys2Proof/Word.lean ====
section
/-! DEFINITION. The word types of the NM3-384 model: a byte, a 32-bit word, and the index types of its repeated units (spec 01 R34). -/

namespace Sys2Proof

/-- One byte of memory. -/
abbrev Byte := BitVec 8

/-- A 32-bit word: an event counter, an FP32 pattern, a status field. -/
abbrev Word := BitVec 32

/-- A stored FP32 bit pattern (R130). -/
abbrev F32 := BitVec 32

/-- One of the 24 compute cores (R34). -/
abbrev CoreId := Fin 24

/-- One of a core's four command queues (R97). -/
abbrev QueueId := Fin 4

/-- One of the 18 Bilpoys ports (R439). -/
abbrev PortId := Fin 18

/-- One of the 64 mailbox channels (R53). -/
abbrev ChanId := Fin 64

end Sys2Proof
end

