-- ==== Sys2Proof/Syntax.lean ====
section
/-! DEFINITION. The commands of the block: one constructor of `Instr` per row of spec/opcode_table.json, in the table's order, with the row's operands. A choice that the spec leaves to the device and that the row resolves (a handle, a nonce, a port) travels as an operand of the row (log entry 11). -/

namespace Sys2Proof

/-- What carries a management message: PCIe vendor-defined messages, I3C to a bus address, or SMBus to a bus address (R89, R705). -/
inductive MgmtPath where
  | pcie
  | i3c (addr : BitVec 7)
  | smbus (addr : BitVec 7)
  deriving DecidableEq, Repr

/-- Where a firmware message came from: a mailbox channel, or the management path with its carrier and MCTP tag (R85 to R89). -/
inductive MsgSrc where
  | chan (n : ChanId)
  | mctp (path : MgmtPath) (tag : Fin 8)
  deriving DecidableEq, Repr

/-- One request as the firmware dequeues it: the request header's fields less OPCODE (the row names it), the 48-byte payload or pointer block, and what the request buffer holds (R64, R739). `extra` holds payload bytes 48 and up, which only the management path carries (R85). `reqError` and `rspError` say that PCIe failed while the firmware read or wrote a buffer (R68), `cplError` that it failed while the completion was written (R53). -/
structure Msg where
  src : MsgSrc
  requestId : BitVec 32
  session : BitVec 32
  ptr : Bool
  payloadLen : Nat
  hdrReserved : BitVec 31
  payload : BitVec 384
  extra : List Byte
  req : List Byte
  reqError : Bool
  rspError : Bool
  cplError : Bool
  deriving DecidableEq, Repr

/-- The path a link frame travels: a Bilpoys port, or a RoCE v2 FRAME connection (R574). -/
inductive Via where
  | port (p : PortId)
  | conn (c : BitVec 12)
  deriving DecidableEq, Repr

/-- A link frame's header fields less TYPE (the row names it), and its payload (spec 12, Frame header). -/
structure Frame where
  mb : BitVec 32
  slotGen : BitVec 16
  offset : BitVec 32
  slot : BitVec 8
  queue : BitVec 2
  window : BitVec 6
  core : BitVec 5
  publish : Bool
  last : Bool
  poison : Bool
  reason : BitVec 8
  srcEp : BitVec 12
  dstEp : BitVec 12
  tagGen : BitVec 8
  tag : BitVec 16
  lenM1 : BitVec 12
  ack : BitVec 16
  seq : BitVec 16
  crVc : BitVec 2
  crUnits : BitVec 14
  replayReq : Bool
  payload : List Byte
  deriving DecidableEq, Repr

/-- The link fields that a HELLO, TIME or RETRAIN_SYNC frame carries beside its payload: ACK and the credits it returns (R444, R456). -/
structure LinkFields where
  ack : BitVec 16
  crVc : BitVec 2
  crUnits : BitVec 14
  deriving DecidableEq, Repr

/-- The payload of a HELLO frame (R448). -/
structure Hello where
  wiringHash : BitVec 64
  pod : BitVec 16
  board : BitVec 16
  slot : BitVec 16
  profiles : BitVec 16
  mbxRev : BitVec 16
  fwVersion : BitVec 32
  generation : BitVec 8
  linkVersion : BitVec 8
  port : BitVec 8
  status : BitVec 4
  deriving DecidableEq, Repr

/-- The payload of a TIME frame (R518). -/
structure TimeMsg where
  gtcTx : BitVec 64
  echoTx : BitVec 64
  echoHold : BitVec 64
  correction : BitVec 64
  rootCoord : BitVec 48
  hops : BitVec 8
  mode : BitVec 2
  deriving DecidableEq, Repr

/-- The meta-value of a CXL.mem request (R560). -/
inductive Meta where
  | i | s | a
  deriving DecidableEq, Repr

/-- What a BIRsp reports of the host's copy (R561): none, a clean shared copy, or a copy that may be modified. -/
inductive SnoopRsp where
  | i | s | e
  deriving DecidableEq, Repr

/-- One range of a checkpoint image or of a range list: address, length and digest (R423, R430). -/
structure RangeDigest where
  addr : Nat
  len : Nat
  digest : BitVec 128
  deriving DecidableEq, Repr

/-- What an optimizer slot holds (R348, spec 09): formats, algorithm and hyperparameters. -/
structure OptSlot where
  configured : Bool
  algorithm : BitVec 3
  masterBf16 : Bool
  bs8 : Bool
  gradBf16 : Bool
  copyFmt : BitVec 3
  beta1 : F32
  beta2 : F32
  eps : F32
  decay : F32
  omb1 : F32
  omb2 : F32
  deriving DecidableEq, Repr

/-- A checkpoint image's header and range table (R430). The byte positions of its fields are not stated (log entry 31). -/
structure CkptImage where
  magic : BitVec 32
  format : BitVec 32
  pipelineId : BitVec 32
  stageId : BitVec 32
  seed : BitVec 64
  step : BitVec 32
  opt : List OptSlot
  ranges : List RangeDigest
  digest : BitVec 128
  deriving DecidableEq, Repr

/-- A bank conflict that delayed an access for a cycle: the delayed and the granted engine, and bits 23:7 of the local address (R262, R264). -/
structure Conflict where
  delayed : BitVec 5
  granted : BitVec 5
  line : BitVec 17
  deriving DecidableEq, Repr

/-- An error of the array hardware that a matrix command meets, by the FP32 value it puts in place of the right one (R220). Passes are numbered as in R219, vectors and tokens from 0, span positions from 0 in their chunk. -/
inductive ArrayUpset where
  /-- A lane cell, or the weight delivery to one lane: a column's output for a vector. -/
  | cell (pass vector : Nat) (column : Fin 16) (value : BitVec 32)
  /-- A row bus ahead of its fan-out: an element of a weight vector. -/
  | bus (pass vector position : Nat) (value : BitVec 32)
  /-- The checksum lane or the loader's sums: the lane's value for a vector. -/
  | lane (pass vector : Nat) (value : BitVec 32)
  /-- The feeder's checksum vector after a group of an array's vectors. -/
  | inserted (pass : Nat) (array : Fin 4) (group position : Nat) (value : BitVec 32)
  /-- The checker or the magnitude accumulator: M of a group. -/
  | magnitude (pass : Nat) (array : Fin 4) (group : Nat) (value : BitVec 32)
  /-- The Shallows tree, the drain accumulator, or a product of ELTWISE: an output ahead of its epilogue. -/
  | drain (token vector : Nat) (value : BitVec 32)
  /-- A stationary register of an array: the value that a physical column holds at a position of its segment, for every vector of the pass and the checksum vectors alike. -/
  | register (pass : Nat) (array : Fin 4) (column : Fin 16) (position : Nat) (value : BitVec 32)
  /-- A lane cell while the checksum vector of a group passes: a column's output for it. -/
  | checkCell (pass : Nat) (array : Fin 4) (group : Nat) (column : Fin 16) (value : BitVec 32)
  /-- The epilogue or an output write: the code that is written for an output. -/
  | output (token vector : Nat) (code : BitVec 32)
  deriving DecidableEq, Repr

/-- The causes of a HOST_LINK reset (R670). -/
inductive HostLinkCause where
  | perst | hotReset | linkDown | flr
  deriving DecidableEq, Repr

/-- One SPDM requester's fields that the subset of R651 reads. -/
structure SpdmReq where
  version : BitVec 8
  slot : BitVec 8
  nonce : BitVec 256
  measOp : BitVec 8
  signed : Bool
  offset : BitVec 16
  length : BitVec 16
  hashAlgos : BitVec 32
  asymAlgos : BitVec 32
  deriving DecidableEq, Repr

/-- What a register write names: the base address register, or configuration space (R549, R552). -/
inductive Bar where
  | bar0 | bar4 | config
  deriving DecidableEq, Repr

/-- What the JTAG port meets, as far as the spec names it: JTAG_TRST_N driven low or high, IDCODE, BYPASS, an instruction of the debug facilities, and the start or stop of trace capture (R656, R706). -/
inductive JtagInstr where
  | trst (low : Bool)
  | idcode
  | bypass
  | debug
  | trace (on : Bool)
  deriving DecidableEq, Repr

/-- A PTP message that the slave clock of a port takes: a Sync with its origin, or to be followed by it; a Follow_Up; a Delay_Resp. Times and corrections are in nanoseconds (R580). -/
inductive PtpMsg where
  | sync (domain : BitVec 8) (seq : BitVec 16) (twoStep : Bool) (origin correction : BitVec 64)
  | followUp (domain : BitVec 8) (seq : BitVec 16) (origin correction : BitVec 64)
  | delayResp (domain : BitVec 8) (seq : BitVec 16) (received correction : BitVec 64)
  deriving DecidableEq, Repr

/-- The four acknowledgement forms of a RoCE v2 packet (R575, R578). -/
inductive RoceAckKind where
  | ack | nak | rnr
  deriving DecidableEq, Repr

/-- What the device's own logic detects: a single-bit error that the control SRAM's code corrected; bad parity of a fabric quadrant's headers, tag table or sequencer state; bad parity of a payload in a fabric buffer, one that a command's transfer holds or will hand over, by its number among them, or one that a port hands over; a bank conflict of a core, with the queue and id of the command that the delayed access belongs to, if any (R6, R262, R624, R629). -/
inductive HwEvent where
  | sramCorrected
  | fabricState (quadrant : Fin 8)
  | fabricPayload (core : CoreId) (queue : QueueId) (id : Nat) (part : Nat)
  | portPayload (skip : Nat)
  | bankConflict (core : CoreId) (cmd : Option (QueueId × Nat)) (conflict : Conflict)
  deriving DecidableEq, Repr

/-- The commands: one constructor per row of spec/opcode_table.json. -/
inductive Instr where
  -- Sessions and channels (spec 02)
  | openSession (m : Msg) (handle : BitVec 32)
  | closeSession (m : Msg)
  | attachChannel (m : Msg)
  | detachChannel (m : Msg)
  | getDeviceInfo (m : Msg)
  | getCapabilities (m : Msg)
  | echo (m : Msg)
  | unknownOpcode (m : Msg) (opcode : BitVec 16)
  | resetRequestStage (m : Msg)
  | resetRequestDevice (m : Msg)
  -- Scratchpad (spec 07)
  | setRegion (m : Msg)
  | setCircular (m : Msg)
  | openWindow (m : Msg)
  | closeWindow (m : Msg)
  | setCounter (m : Msg)
  | setConflictPolicy (m : Msg)
  | setSegmentPower (m : Msg)
  | segmentZeroed (core : CoreId) (segment : Fin 4)
  -- External memory (spec 08, 15)
  | reserveStore (m : Msg)
  | setSaveMode (m : Msg)
  | getHbmState (m : Msg)
  | setHostWindow (m : Msg)
  -- Stage and micro-batch queues (spec 03)
  | setStageIdentity (m : Msg)
  | setStageAddress (m : Msg)
  | configureQueue (m : Msg)
  | configureSlot (m : Msg)
  | resetSlots (m : Msg)
  | getQueueState (m : Msg)
  -- Rings and admission (spec 03)
  | createRing (m : Msg)
  | submitBlock (m : Msg)
  | abortQueue (m : Msg) (abortStarted : List Nat)
  | setCompletionRing (m : Msg)
  | getRingState (m : Msg)
  -- Tables and held messages (spec 06, 02)
  | loadMicroprogram (m : Msg)
  | loadTable (m : Msg)
  | heldMessageApply (src : MsgSrc)
  | longRunningLimit (src : MsgSrc)
  -- Tarn messages (spec 10)
  | createIndex (m : Msg)
  | destroyIndex (m : Msg)
  | setReaderFloor (m : Msg)
  | startRewrite (m : Msg)
  | getIndexState (m : Msg)
  -- Update unit and buckets (spec 09, 14)
  | configureOptimizer (m : Msg)
  | setHyperparameters (m : Msg)
  | createBucket (m : Msg)
  | setGroup (m : Msg)
  -- Fabric (spec 13)
  | setCoordinates (m : Msg)
  | setWiringMap (m : Msg)
  | setWiringPolicy (m : Msg)
  | setProfilePolicy (m : Msg)
  | setEndpoint (m : Msg)
  | removeEndpoint (m : Msg)
  -- Ports (spec 12)
  | trainPortTrain (m : Msg)
  | trainPortDisable (m : Msg)
  | trainPortRetrain (m : Msg)
  | getPortState (m : Msg)
  -- Ethernet (spec 15)
  | setPort (m : Msg)
  | connect (m : Msg)
  | disconnect (m : Msg)
  | setPtp (m : Msg)
  | getStatus (m : Msg)
  -- Time (spec 13)
  | setTimeMode (m : Msg)
  | getTime (m : Msg)
  | scheduleEdge (m : Msg)
  | cancelEdge (m : Msg)
  -- Errors and telemetry (spec 17, 16)
  | readErrorLog (m : Msg)
  | clearError (m : Msg)
  | getLastGasp (m : Msg)
  | readTelemetry (m : Msg)
  | setTelemetryRate (m : Msg)
  -- Security (spec 18)
  | getSecurityState (m : Msg)
  | debugChallenge (m : Msg) (nonce : BitVec 256)
  | debugUnlock (m : Msg)
  | firmwareUpdate (m : Msg)
  | advanceRollback (m : Msg)
  -- Replay and checkpoints (spec 11)
  | setReplayLog (m : Msg)
  | replayStep (m : Msg)
  | checkpointOut (m : Msg)
  | checkpointIn (m : Msg)
  | adoptStage (m : Msg)
  -- Power messages (spec 19)
  | setPowerState (m : Msg)
  | setClockLimits (m : Msg)
  | setRipple (m : Msg)
  | getPower (m : Msg)
  -- SPDM (spec 18)
  | getVersion (r : SpdmReq)
  | spdmGetCapabilities (r : SpdmReq)
  | negotiateAlgorithms (r : SpdmReq)
  | getDigests (r : SpdmReq)
  | getCertificate (r : SpdmReq)
  | challenge (r : SpdmReq)
  | getMeasurements (r : SpdmReq)
  -- Stream commands: the queue's next command starts (spec 03, 05 to 10, 14)
  | nop (core : CoreId) (queue : QueueId)
  | wait (core : CoreId) (queue : QueueId)
  | signal (core : CoreId) (queue : QueueId)
  | waitSlot (core : CoreId) (queue : QueueId)
  | releaseSlot (core : CoreId) (queue : QueueId)
  | sendSlot (core : CoreId) (queue : QueueId) (port : PortId)
  | matmul (core : CoreId) (queue : QueueId) (upsets : List ArrayUpset) (late : List Nat)
  | conv (core : CoreId) (queue : QueueId) (upsets : List ArrayUpset) (late : List Nat)
  | eltwise (core : CoreId) (queue : QueueId) (upsets : List ArrayUpset) (late : List Nat)
  | vecElem (core : CoreId) (queue : QueueId)
  | vecFunc (core : CoreId) (queue : QueueId)
  | vecRowstat (core : CoreId) (queue : QueueId)
  | vecSoftmax (core : CoreId) (queue : QueueId)
  | vecNorm (core : CoreId) (queue : QueueId)
  | copy (core : CoreId) (queue : QueueId) (port : PortId)
  | remoteWrite (core : CoreId) (queue : QueueId) (port : PortId)
  | remoteRead (core : CoreId) (queue : QueueId) (port : PortId)
  | tag (core : CoreId) (queue : QueueId)
  | saveOpen (core : CoreId) (queue : QueueId)
  | saveCopy (core : CoreId) (queue : QueueId)
  | saveClose (core : CoreId) (queue : QueueId)
  | restore (core : CoreId) (queue : QueueId)
  | tarnQuery (core : CoreId) (queue : QueueId)
  | tarnInsert (core : CoreId) (queue : QueueId)
  | tarnDelete (core : CoreId) (queue : QueueId) (first : List Nat)
  | epochPublish (core : CoreId) (queue : QueueId)
  | bucketAdd (core : CoreId) (queue : QueueId) (first : List Nat)
  | bucketFlush (core : CoreId) (queue : QueueId) (port : PortId)
  | update (core : CoreId) (queue : QueueId) (first : List Nat)
  | commandComplete (core : CoreId) (queue : QueueId) (id : Nat) (port : PortId)
  | waitTimeout (core : CoreId) (queue : QueueId) (id : Option Nat)
  | consumerHeadUpdate (core : CoreId) (queue : QueueId) (head : BitVec 32)
  | rampDown (core : CoreId) (array : Fin 4) (ends : Bool)
  | rampGrant
  | rendezvousTimeout (index : Fin 16)
  | batchRun (index : Fin 16) (port : PortId)
  -- Mailbox registers and timers (spec 02, 21)
  | mbxDoorbell (chan : ChanId) (value : BitVec 32)
  | channelReset (chan : ChanId)
  | enable (chan : ChanId) (on : Bool)
  | mbxCplHead (chan : ChanId) (value : BitVec 32)
  | moderationTimer (chan : ChanId)
  | sessionLeaseExpiry (handle : BitVec 32)
  | bootGo (value : BitVec 32)
  | resetCtl (value : BitVec 32)
  | fwIrqStatus (value : BitVec 32)
  | spadConflictClr (core : CoreId) (value : BitVec 32)
  | registerWrite (bar : Bar) (offset : Nat) (size : Nat) (value : BitVec 64) (poison : Bool)
  -- Host window (spec 15)
  | bar2Read (offset : Nat) (len : Nat)
  | bar2Write (offset : Nat) (data : List Byte) (poison : Bool)
  | memRd (line : Nat) (mv : Meta)
  | memRdData (line : Nat) (mv : Meta)
  | memInv (line : Nat)
  | memClnEvct (line : Nat)
  | memWr (line : Nat) (mv : Meta) (data : List Byte) (poison : Bool)
  | memWrPtl (line : Nat) (mv : Meta) (data : List Byte) (byteEnable : List Bool) (poison : Bool)
  | biRsp (line : Nat) (rsp : SnoopRsp)
  | biConflict (line : Nat)
  | snoopTimeout (line : Nat)
  | hostLinkReset (cause : HostLinkCause)
  -- Link frames (spec 12, 13)
  | linkCtl (port : PortId) (f : Frame)
  | hello (port : PortId) (h : Hello) (l : LinkFields)
  | write (via : Via) (f : Frame)
  | read (via : Via) (f : Frame)
  | slotWrite (via : Via) (f : Frame)
  | readData (via : Via) (f : Frame)
  | writeAck (via : Via) (f : Frame)
  | slotCredit (via : Via) (f : Frame)
  | time (port : PortId) (t : TimeMsg) (l : LinkFields)
  | retrainSync (port : PortId) (sessionId : BitVec 32) (l : LinkFields)
  | frameDrop (port : PortId)
  | laneLock (port : PortId) (sessionId : BitVec 32)
  | laneUnlock (port : PortId) (lane : Fin 8)
  | trainingAttemptTimeout (port : PortId)
  | reequalizationTimeout (port : PortId)
  | replayRequestRepeat (port : PortId)
  | linkLostTimer (port : PortId)
  | responseTimer (port : PortId)
  | endpointWaitTimeout (core : CoreId) (queue : QueueId) (id : Nat)
  | timeFrameTx (port : PortId)
  | v1CreditHold (queue : Fin 2)
  -- Ethernet events (spec 15)
  | cnp (conn : BitVec 12) (spill : Bool)
  | rateRecovery (conn : BitVec 12) (spill : Bool)
  | pfcPause (port : Fin 2) (priority : BitVec 3) (on : Bool)
  | rdmaInbound (conn : BitVec 12)
  | ethernetOtherFrame (port : Fin 2)
  | rcRetransmit (conn : BitVec 12)
  | connectionError (conn : BitVec 12)
  | ptpMessage (port : Fin 2) (p : PtpMsg)
  -- Time events (spec 13, 20)
  | ppsEdge
  | referenceValid
  | referenceLost
  | edgeFire (edge : Fin 64)
  -- Memory, error and reset events (spec 08, 17, 19)
  | patrolScrub
  | hbmChannelFailure (channel : Fin 128)
  | errorEventHandle (detected : List HwEvent)
  | watchdogTrip (cause : BitVec 4) (hart : BitVec 2) (hartState : BitVec 2048) (handling : Bool)
  | itkanStart
  | imageCheck (image : Option (List Byte))
  | fuseSense
  | hbmTrainingDone (failed : BitVec 128)
  | hbmZeroingDone
  | powerOn
  | pwrgoodFall
  | deviceReset
  | powerManagerTick (powerLimit : List (BitVec 16)) (hold : BitVec 8) (avsAcked : Bool)
  | avsRetry (acked : Bool)
  | telemetrySample (avgW : BitVec 16) (peakW : BitVec 16) (energy : BitVec 64) (temps : List (BitVec 8)) (limiter : List (BitVec 64))
  | telemetrySnapshot
  | thermalThrottle (sensor : Fin 41) (temp : BitVec 8)
  | thermalCritical (sensor : Fin 41) (temp : BitVec 8)
  | thermalTrip (sensor : Fin 41) (temp : BitVec 8)
  | nonceExpiry
  | jtagAccess (i : JtagInstr)
  | ethernetLinkUp (port : Fin 2)
  | ethernetLinkDown (port : Fin 2)
  | pcieLinkTrained (width : Nat) (gts : Nat)
  | hdmDecoderCommit (base : BitVec 64) (size : BitVec 64) (ways : Nat)
  | fetchError (chan : ChanId)
  | roceAck (conn : BitVec 12) (kind : RoceAckKind)
  | rdmaReadResponse (conn : BitVec 12) (data : List Byte)
  | refreshThreshold (stack : Fin 8) (temp : BitVec 8)
  | rewriteComplete (index : Fin 16) (list : Nat)
  | digestWritten
  | fuseBlown (readsBlown : Bool)
  deriving DecidableEq, Repr

end Sys2Proof
end

