-- ==== Sys2Proof/Machine/Table.lean ====
section
/-! DEFINITION. Sparse tables: the one form in which the model holds everything indexed (memory bytes, tag slots, counters, slots, endpoints). A table lists (index, value) pairs with strictly rising indexes and no value equal to the table's default. -/

namespace Sys2Proof.Machine

/-- A sparse table of values by index. -/
abbrev Tbl (α : Type) := List (Nat × α)

/-- The value at an index; an unlisted index holds the default. -/
def tget {α : Type} (d : α) : Tbl α → Nat → α
  | [], _ => d
  | (k, v) :: t, i => if i = k then v else tget d t i

/-- The table without an index. -/
def tdel {α : Type} (t : Tbl α) (i : Nat) : Tbl α := t.filter fun e => e.1 != i

/-- The table with a value put at an index, in the order of the indexes. -/
def tput {α : Type} : Tbl α → Nat → α → Tbl α
  | [], i, v => [(i, v)]
  | (k, w) :: t, i, v => if i < k then (i, v) :: (k, w) :: t else if i = k then (k, v) :: t else (k, w) :: tput t i v

/-- The table with one index set. Setting the default removes the entry, so equal tables are equal lists. -/
def tset {α : Type} [DecidableEq α] (d : α) (t : Tbl α) (i : Nat) (v : α) : Tbl α := if v = d then tdel t i else tput t i v

/-- The indexes rise strictly from a bound on, and no value is the default. -/
def tblWfFrom {α : Type} [DecidableEq α] (d : α) : Nat → Tbl α → Bool
  | _, [] => true
  | lo, (k, v) :: t => decide (lo ≤ k) && decide (v ≠ d) && tblWfFrom d (k + 1) t

/-- The canonical form of a table. -/
def tblWf {α : Type} [DecidableEq α] (d : α) (t : Tbl α) : Bool := tblWfFrom d 0 t

/-- A table with consecutive indexes set from a list. -/
def tsetList {α : Type} [DecidableEq α] (d : α) : Tbl α → Nat → List α → Tbl α
  | t, _, [] => t
  | t, i, v :: vs => tsetList d (tset d t i v) (i + 1) vs

/-- The values at `n` consecutive indexes. -/
def tgetList {α : Type} (d : α) (t : Tbl α) (i : Nat) : Nat → List α
  | 0 => []
  | n + 1 => tget d t i :: tgetList d t (i + 1) n

/-- A table with every index of a range returned to the default. -/
def tclear {α : Type} (t : Tbl α) (lo hi : Nat) : Tbl α :=
  t.filter fun e => decide (e.1 < lo) || decide (hi ≤ e.1)

/-- A table with every value changed by a function; values that become the default leave it. -/
def tmapVals {α : Type} [DecidableEq α] (d : α) (f : α → α) (t : Tbl α) : Tbl α :=
  (t.map fun e => (e.1, f e.2)).filter fun e => decide (e.2 ≠ d)

/-- A table with one index changed by a function. -/
def tmod {α : Type} [DecidableEq α] (d : α) (t : Tbl α) (i : Nat) (f : α → α) : Tbl α :=
  tset d t i (f (tget d t i))

end Sys2Proof.Machine
end

