-- ==== Sys2Proof/Machine/Bits.lean ====
section
/-! DEFINITION. Bit fields, byte order and small arithmetic that every family uses (R16 to R18). -/

namespace Sys2Proof.Machine

/-- Bits high:low of a vector as a number (R17). -/
def fld {n : Nat} (x : BitVec n) (hi lo : Nat) : Nat := (x.toNat >>> lo) % 2 ^ (hi + 1 - lo)

/-- `w` bits from `lo` upward. -/
def fb {n : Nat} (x : BitVec n) (lo w : Nat) : BitVec w := x.extractLsb' lo w

/-- One bit. -/
def bit {n : Nat} (x : BitVec n) (i : Nat) : Bool := x.getLsbD i

/-- Every listed high:low range is zero (reserved fields, R22, R23). -/
def zeros {n : Nat} (x : BitVec n) (rs : List (Nat × Nat)) : Bool :=
  rs.all fun r => fld x r.1 r.2 == 0

/-- The little-endian bytes of a number (R18). -/
def leBytes : Nat → Nat → List Byte
  | 0, _ => []
  | n + 1, v => BitVec.ofNat 8 v :: leBytes n (v / 256)

/-- The number that little-endian bytes hold (R18). -/
def leNat : List Byte → Nat
  | [] => 0
  | b :: bs => b.toNat + 256 * leNat bs

/-- The big-endian bytes of a number (octet strings of R640). -/
def beBytes (n v : Nat) : List Byte := (leBytes n v).reverse

/-- The number that a big-endian octet string holds. -/
def beNat (bs : List Byte) : Nat := leNat bs.reverse

/-- Bytes of a vector, lowest first. -/
def vecBytes {n : Nat} (x : BitVec n) : List Byte := leBytes (n / 8) x.toNat

/-- Quotient rounded up. -/
def ceilDiv (a b : Nat) : Nat := (a + b - 1) / b

/-- Two ranges of bytes share an address. -/
def overlaps (a la b lb : Nat) : Bool := decide (a < b + lb) && decide (b < a + la) && decide (0 < la) && decide (0 < lb)

/-- A saturating 32-bit addition, and whether it passed 0xFFFF_FFFF (R94, R292). -/
def satAdd32 (x : BitVec 32) (n : Nat) : BitVec 32 × Bool :=
  if x.toNat + n ≤ 0xFFFFFFFF then (BitVec.ofNat 32 (x.toNat + n), false) else (0xFFFFFFFF#32, true)

/-- A saturating 32-bit count. -/
def satInc (x : BitVec 32) (n : Nat) : BitVec 32 := (satAdd32 x n).1

/-- A number less than 2 to the 32 reading a two's-complement byte. -/
def sbyte (b : Byte) : Int := b.toInt

/-- The first `n` bytes of a list, short lists extended by zero bytes. -/
def padTo (n : Nat) (bs : List Byte) : List Byte := (bs ++ List.replicate (n - bs.length) 0#8).take n

/-- A list cut into pieces of `n`; `fuel` bounds the number of pieces. -/
def chunksOf {α : Type} (n : Nat) : Nat → List α → List (List α)
  | 0, _ => []
  | fuel + 1, xs => if xs.isEmpty then [] else xs.take n :: chunksOf n fuel (xs.drop n)

/-- Insertion of a value into a list sorted by a strict order. -/
def insSorted {α : Type} (lt : α → α → Bool) (x : α) : List α → List α
  | [] => [x]
  | y :: ys => if lt y x then y :: insSorted lt x ys else x :: y :: ys

/-- A list sorted by a strict order; equal keys keep their order. -/
def sortBy {α : Type} (lt : α → α → Bool) : List α → List α
  | [] => []
  | x :: xs => insSorted lt x (sortBy lt xs)

/-- A list without the first element that satisfies a test. -/
def dropFirst {α : Type} (p : α → Bool) : List α → List α
  | [] => []
  | x :: xs => if p x then xs else x :: dropFirst p xs

end Sys2Proof.Machine
end

