-- ==== Sys2Proof/Machine/Float.lean ====
section
/-! DEFINITION. Floating-point encodings, exact arithmetic and the one rounding (R130 to R160). A value is held exactly as sign, mantissa and power of two; narrowing to a format happens in `roundTo` alone. -/

namespace Sys2Proof.Machine

/-- A value: NaN, an infinity, or ±m × 2^e (m = 0 is a signed zero). -/
inductive FV where
  | nan
  | inf (neg : Bool)
  | fin (neg : Bool) (m : Nat) (e : Int)
  deriving DecidableEq, Repr

/-- A floating-point format (R130): exponent and fraction bits, bias; `noInf` is FP8-E4M3. -/
structure Fmt where
  ebits : Nat
  fbits : Nat
  bias : Nat
  noInf : Bool
  deriving DecidableEq, Repr

def fp32 : Fmt := { ebits := 8, fbits := 23, bias := 127, noInf := false }
def bf16 : Fmt := { ebits := 8, fbits := 7, bias := 127, noInf := false }
def fp16 : Fmt := { ebits := 5, fbits := 10, bias := 15, noInf := false }
def e4m3 : Fmt := { ebits := 4, fbits := 3, bias := 7, noInf := true }
def e5m2 : Fmt := { ebits := 5, fbits := 2, bias := 15, noInf := false }

/-- The array format codes 0 to 4 (R176). -/
def fmtOf (code : Nat) : Option Fmt :=
  match code with
  | 0 => some fp32
  | 1 => some bf16
  | 2 => some fp16
  | 3 => some e4m3
  | 4 => some e5m2
  | _ => none

/-- Width of a format in bytes. -/
def Fmt.bytes (f : Fmt) : Nat := (1 + f.ebits + f.fbits) / 8

/-- Exponent of the smallest normal. -/
def Fmt.emin (f : Fmt) : Int := 1 - f.bias

/-- Power of two of the smallest subnormal. -/
def Fmt.qmin (f : Fmt) : Int := 1 - f.bias - f.fbits

/-- The largest finite value as mantissa and power of two (R130). -/
def Fmt.maxFin (f : Fmt) : Nat × Int :=
  if f.noInf then (14, 5)
  else (2 ^ (f.fbits + 1) - 1, (2 ^ f.ebits - 2 : Int) - f.bias - f.fbits)

/-- The sticky flags of a command, in the order of FP_FLAGS: NV, DZ, OF, UF, NX, SAT, DN (spec 03, Completion record). -/
abbrev Flags := BitVec 7

def fNV : Flags := 1
def fDZ : Flags := 2
def fOF : Flags := 4
def fUF : Flags := 8
def fNX : Flags := 16
def fSAT : Flags := 32
def fDN : Flags := 64

/-- A flag if a condition holds. -/
def flagIf (c : Bool) (f : Flags) : Flags := if c then f else 0

/-- The rounding modes (R142). -/
inductive Rnd where
  | rne | rtz | rdn | rup
  deriving DecidableEq, Repr

/-- The arithmetic control byte (R142). -/
structure Actl where
  sat : Bool
  ftz : Bool
  daz : Bool
  rnd : Rnd
  deriving DecidableEq, Repr

/-- RNE with SAT, FTZ and DAZ clear. -/
def Actl.plain : Actl := { sat := false, ftz := false, daz := false, rnd := .rne }

/-- The control byte's meaning. A reserved RND fails admission (R149). -/
def actlOf (b : BitVec 8) : Actl :=
  { sat := bit b 5, ftz := bit b 4, daz := bit b 3,
    rnd := match fld b 2 0 with
      | 1 => .rtz
      | 2 => .rdn
      | 3 => .rup
      | _ => .rne }

/-- The control byte holds a listed RND and no reserved bit (R149). -/
def actlOk (b : BitVec 8) : Bool := decide (fld b 7 6 = 0) && decide (fld b 2 0 < 4)

/-- The canonical NaN of a format (R130, R131). -/
def Fmt.nanBits (f : Fmt) : Nat :=
  if f.noInf then 0x7F else (2 ^ f.ebits - 1) * 2 ^ f.fbits + 2 ^ (f.fbits - 1)

/-- Decoding of a bit pattern (R130, R134). -/
def decodeFp (f : Fmt) (x : Nat) : FV :=
  let sgn := (x >>> (f.ebits + f.fbits)) % 2 == 1
  let ex := (x >>> f.fbits) % 2 ^ f.ebits
  let fr := x % 2 ^ f.fbits
  if f.noInf && ex == 15 && fr == 7 then .nan
  else if !f.noInf && ex == 2 ^ f.ebits - 1 then (if fr == 0 then .inf sgn else .nan)
  else if ex == 0 then .fin sgn fr f.qmin
  else .fin sgn (2 ^ f.fbits + fr) ((ex : Int) - f.bias - f.fbits)

/-- A bit pattern is a subnormal of its format. -/
def isSub (f : Fmt) (x : Nat) : Bool :=
  (x >>> f.fbits) % 2 ^ f.ebits == 0 && x % 2 ^ f.fbits != 0

/-- Encoding of a value that the format represents. -/
def encodeFp (f : Fmt) (v : FV) : Nat :=
  let sb (n : Bool) : Nat := if n then 2 ^ (f.ebits + f.fbits) else 0
  match v with
  | .nan => f.nanBits
  | .inf n => sb n + (2 ^ f.ebits - 1) * 2 ^ f.fbits
  | .fin n m e =>
    if m = 0 then sb n
    else
      let top : Int := Nat.log2 m + e
      if top < f.emin then
        sb n + (if f.qmin ≤ e then m * 2 ^ (e - f.qmin).toNat else m / 2 ^ (f.qmin - e).toNat)
      else
        let q : Int := top - f.fbits
        let mant := if q ≤ e then m * 2 ^ (e - q).toNat else m / 2 ^ (q - e).toNat
        sb n + (top + f.bias).toNat * 2 ^ f.fbits + (mant - 2 ^ f.fbits)

/-- The integer nearest m × 2^e ÷ 2^q under a rounding mode, and whether it differs. `sticky` says that the exact value lies strictly between m and m + 1 units of 2^e. -/
def quantize (rnd : Rnd) (neg : Bool) (m : Nat) (e : Int) (sticky : Bool) (q : Int) : Nat × Bool :=
  if q ≤ e then
    let n := m * 2 ^ (e - q).toNat
    if sticky then
      match rnd with
      | .rup => (if neg then n else n + 1, true)
      | .rdn => (if neg then n + 1 else n, true)
      | _ => (n, true)
    else (n, false)
  else
    let s := (q - e).toNat
    let n := m / 2 ^ s
    let r := m % 2 ^ s
    let half := 2 ^ (s - 1)
    let inexact := r != 0 || sticky
    let up :=
      match rnd with
      | .rne => decide (half < r) || (r == half && (sticky || n % 2 == 1))
      | .rtz => false
      | .rdn => neg && inexact
      | .rup => !neg && inexact
    (if up then n + 1 else n, inexact)

/-- What one rounding did: the value, an overflow, an IEEE underflow (tiny after rounding and inexact), an exact value below the smallest normal, inexactness, a SAT replacement, an FTZ flush. -/
structure Rounded where
  val : FV
  ovf : Bool
  unf : Bool
  tiny : Bool
  inx : Bool
  sat : Bool
  flush : Bool
  deriving DecidableEq, Repr

def Rounded.exact (v : FV) : Rounded :=
  { val := v, ovf := false, unf := false, tiny := false, inx := false, sat := false, flush := false }

/-- m × 2^e compared with another such value. -/
def magLt (a : Nat × Int) (b : Nat × Int) : Bool :=
  let e := min a.2 b.2
  decide (a.1 * 2 ^ (a.2 - e).toNat < b.1 * 2 ^ (b.2 - e).toNat)

/-- Rounding of an exact value into a format (R145 to R147, R150, R159). -/
def roundTo (f : Fmt) (a : Actl) (v : FV) (sticky : Bool) : Rounded :=
  match v with
  | .nan => .exact .nan
  | .inf n =>
    if f.noInf then { Rounded.exact (.fin n f.maxFin.1 f.maxFin.2) with sat := true } else .exact (.inf n)
  | .fin n m e =>
    if m = 0 && !sticky then .exact (.fin n 0 0)
    else
      let top : Int := Nat.log2 m + e
      let q : Int := max (top - f.fbits) f.qmin
      let r := quantize a.rnd n m e sticky q
      let free := quantize a.rnd n m e sticky (top - f.fbits)
      let tiny := decide (top < f.emin)
      let tinyAfter := magLt (free.1, top - f.fbits) (1, f.emin)
      let res : FV := .fin n r.1 (if r.1 = 0 then 0 else q)
      if magLt f.maxFin (r.1, q) then
        let big : FV := .fin n f.maxFin.1 f.maxFin.2
        if f.noInf || a.sat then
          { val := big, ovf := true, unf := false, tiny := false, inx := true, sat := true, flush := false }
        else
          let toMax :=
            match a.rnd with
            | .rne => false
            | .rtz => true
            | .rdn => !n
            | .rup => n
          { val := if toMax then big else .inf n, ovf := true, unf := false, tiny := false, inx := true, sat := false, flush := false }
      else if a.ftz && r.1 != 0 && magLt (r.1, q) (1, f.emin) then
        { val := .fin n 0 0, ovf := false, unf := true, tiny := tiny, inx := true, sat := false, flush := true }
      else
        { val := res, ovf := false, unf := tinyAfter && r.2, tiny := tiny, inx := r.2, sat := false, flush := false }

/-- Flags of a rounding in the vector unit, conversions, save and update (R152). -/
def Rounded.flags (r : Rounded) : Flags :=
  flagIf r.ovf fOF ||| flagIf r.unf fUF ||| flagIf r.inx fNX ||| flagIf r.sat fSAT

/-- Flags of a rounding in the epilogue, which never raises NX (R223). -/
def Rounded.flagsEpi (r : Rounded) : Flags :=
  flagIf r.ovf fOF ||| flagIf r.unf fUF ||| flagIf r.sat fSAT

/-- Flags of a rounding in the matrix arrays and Tarn re-ranking (R152). -/
def Rounded.flagsArr (r : Rounded) : Flags :=
  flagIf r.ovf fOF ||| flagIf (r.tiny || r.flush) fUF ||| flagIf r.sat fSAT

/-- An exact product, and whether it made a NaN from numbers (R132). -/
def mulX (a b : FV) : FV × Bool :=
  match a, b with
  | .nan, _ => (.nan, false)
  | _, .nan => (.nan, false)
  | .inf s, .inf t => (.inf (s != t), false)
  | .inf s, .fin t m _ => if m = 0 then (.nan, true) else (.inf (s != t), false)
  | .fin s m _, .inf t => if m = 0 then (.nan, true) else (.inf (s != t), false)
  | .fin s m e, .fin t n f => (.fin (s != t) (m * n) (e + f), false)

/-- An exact sum, and whether it made a NaN from numbers; the sign of an exact zero follows R133. -/
def addX (rnd : Rnd) (a b : FV) : FV × Bool :=
  match a, b with
  | .nan, _ => (.nan, false)
  | _, .nan => (.nan, false)
  | .inf s, .inf t => if s == t then (.inf s, false) else (.nan, true)
  | .inf s, .fin _ _ _ => (.inf s, false)
  | .fin _ _ _, .inf t => (.inf t, false)
  | .fin s m e, .fin t n f =>
    if m = 0 && n = 0 then
      (if s == t then .fin s 0 0 else .fin (rnd == .rdn) 0 0, false)
    else
      let q := min e f
      let x : Int := (if s then -1 else 1) * (m * 2 ^ (e - q).toNat : Nat)
      let y : Int := (if t then -1 else 1) * (n * 2 ^ (f - q).toNat : Nat)
      let z := x + y
      if z = 0 then (.fin (rnd == .rdn) 0 0, false) else (.fin (decide (z < 0)) z.natAbs q, false)

/-- The opposite value; a NaN stays NaN. -/
def negX : FV → FV
  | .nan => .nan
  | .inf s => .inf (!s)
  | .fin s m e => .fin (!s) m e

/-- The magnitude. -/
def absX : FV → FV
  | .nan => .nan
  | .inf _ => .inf false
  | .fin _ m e => .fin false m e

def isNan : FV → Bool
  | .nan => true
  | _ => false

def isZeroV : FV → Bool
  | .fin _ m _ => m == 0
  | _ => false

def isFinV : FV → Bool
  | .fin _ _ _ => true
  | _ => false

def isNegV : FV → Bool
  | .nan => false
  | .inf s => s
  | .fin s _ _ => s

/-- Exact order of two numbers that are not NaN; the zeros are equal. -/
def ltX (a b : FV) : Bool :=
  match a, b with
  | .nan, _ => false
  | _, .nan => false
  | .inf s, .inf t => s && !t
  | .inf s, .fin _ _ _ => s
  | .fin _ _ _, .inf t => !t
  | .fin s m e, .fin t n f =>
    let q := min e f
    let x : Int := (if s then -1 else 1) * (m * 2 ^ (e - q).toNat : Nat)
    let y : Int := (if t then -1 else 1) * (n * 2 ^ (f - q).toNat : Nat)
    decide (x < y)

/-- Numeric equality of two values that are not NaN. -/
def eqX (a b : FV) : Bool := !isNan a && !isNan b && !ltX a b && !ltX b a

def pZero : FV := .fin false 0 0
def one : FV := .fin false 1 0

/-- A quotient with at least 64 bits, and whether it is inexact below its last bit; whether it made a NaN, which Infinity / Infinity does too (log entry 119); whether it divided a nonzero number by zero. -/
def divX (a b : FV) : FV × Bool × Bool × Bool :=
  match a, b with
  | .nan, _ => (.nan, false, false, false)
  | _, .nan => (.nan, false, false, false)
  | .inf _, .inf _ => (.nan, false, true, false)
  | .inf s, .fin t _ _ => (.inf (s != t), false, false, false)
  | .fin s _ _, .inf t => (.fin (s != t) 0 0, false, false, false)
  | .fin s m e, .fin t n f =>
    if n = 0 then (if m = 0 then (.nan, false, true, false) else (.inf (s != t), false, false, true))
    else if m = 0 then (.fin (s != t) 0 0, false, false, false)
    else
      let k := 64 + Nat.log2 n
      let num := m * 2 ^ k
      (.fin (s != t) (num / n) (e - f - k), num % n != 0, false, false)

/-- A square root with at least 64 bits, inexactness, and whether it made a NaN. -/
def sqrtX (a : FV) : FV × Bool × Bool :=
  match a with
  | .nan => (.nan, false, false)
  | .inf s => if s then (.nan, false, true) else (.inf false, false, false)
  | .fin s m e =>
    if m = 0 then (.fin s 0 0, false, false)
    else if s then (.nan, false, true)
    else
      let e' := if e % 2 = 0 then e else e - 1
      let m' := (if e % 2 = 0 then m else 2 * m) * 2 ^ 128
      let r := Nat.sqrt m'
      (.fin false r (e' / 2 - 64), r * r != m', false)

/-- A value read from a format under DAZ, with DN for a subnormal (R145, R152). -/
def readFp (f : Fmt) (a : Actl) (x : Nat) : FV × Flags :=
  let v := decodeFp f x
  if isSub f x then ((if a.daz then .fin (isNegV v) 0 0 else v), fDN) else (v, 0)

/-- A value that its format holds as a subnormal. -/
def subV (f : Fmt) (v : FV) : Bool :=
  match v with
  | .fin _ m e => m != 0 && decide ((Nat.log2 m : Int) + e < f.emin)
  | _ => false

/-- DN for a subnormal FP32 operand (R152). -/
def dnV (v : FV) : Flags := flagIf (subV fp32 v) fDN

/-- A computed FP32 value as the operand of a conversion or an encoding: DAZ acts on it, and DN is raised (R145, R152). -/
def operand32 (a : Actl) (v : FV) : FV × Flags := (if subV fp32 v && a.daz then .fin (isNegV v) 0 0 else v, dnV v)

/-- Rounding of a value to a format under the control byte, with its flags (R146, R147, R158). -/
def convertTo (f : Fmt) (a : Actl) (v : FV) : Nat × Flags :=
  let r := roundTo f a v false
  (encodeFp f r.val, r.flags)

/-- Conversion of an FP32 operand to a format under the control byte (R145, R158). -/
def convert32 (f : Fmt) (a : Actl) (v : FV) : Nat × Flags :=
  let x := operand32 a v
  let c := convertTo f a x.1
  (c.1, x.2 ||| c.2)

/-- The control byte with RNE in place of its RND, for the units whose FP32 roundings RND does not reach (R143, R239, R241). -/
def Actl.rne (a : Actl) : Actl := { a with rnd := .rne }

/-- A value rounded once to FP32 under RNE; SAT and FTZ act as the control byte says (R145, R146). -/
def rne32 (a : Actl) (v : FV) : Rounded := roundTo fp32 a.rne v false

/-- An FP32 sum under RNE, with the flags of the vector column. -/
def add32 (a : Actl) (x y : FV) : FV × Flags :=
  let s := addX .rne x y
  let r := rne32 a s.1
  (r.val, r.flags ||| flagIf s.2 fNV)

/-- An FP32 product under RNE. -/
def mul32 (a : Actl) (x y : FV) : FV × Flags :=
  let s := mulX x y
  let r := rne32 a s.1
  (r.val, r.flags ||| flagIf s.2 fNV)

/-- The exact value of x × y + z, and whether it made a NaN from numbers: a NaN operand z propagates (R132). -/
def fmaX (rnd : Rnd) (x y z : FV) : FV × Bool :=
  let p := mulX x y
  let s := addX rnd p.1 z
  (s.1, (p.2 && !isNan z) || s.2)

/-- x × y + z rounded once to FP32 under RNE. -/
def fma32 (a : Actl) (x y z : FV) : FV × Flags :=
  let s := fmaX .rne x y z
  let r := rne32 a s.1
  (r.val, r.flags ||| flagIf s.2 fNV)

/-- An exact result rounded once to FP32 under the control byte (R143, R144). FTZ acts here too where the destination is BF16 or FP16 and rounds once more: the model's choice (R145; log entry 98). -/
def roundVec (a : Actl) (x : FV × Bool) : FV × Flags :=
  let r := roundTo fp32 a x.1 false
  (r.val, r.flags ||| flagIf x.2 fNV)

/-- An FP32 quotient under RNE. -/
def div32 (a : Actl) (x y : FV) : FV × Flags :=
  let d := divX x y
  let r := roundTo fp32 a.rne d.1 d.2.1
  (r.val, r.flags ||| flagIf d.2.2.1 fNV ||| flagIf d.2.2.2 fDZ)

/-- An FP32 square root under RNE. -/
def sqrt32 (x : FV) : FV × Flags :=
  let d := sqrtX x
  let r := roundTo fp32 .plain d.1 d.2.1
  (r.val, r.flags ||| flagIf d.2.2 fNV)

/-- An FP32 bit pattern's value, subnormals honoured. -/
def v32 (x : F32) : FV := decodeFp fp32 x.toNat

/-- A value's FP32 bit pattern. -/
def b32 (v : FV) : F32 := BitVec.ofNat 32 (encodeFp fp32 v)

/-- DN for a subnormal FP32 pattern. -/
def dn32 (x : F32) : Flags := flagIf (isSub fp32 x.toNat) fDN

/-- The larger value under R233: NaN when either is NaN, +0 above −0. -/
def maxV (a b : FV) : FV :=
  if isNan a || isNan b then .nan
  else if isZeroV a && isZeroV b then (if isNegV a then b else a)
  else if ltX a b then b else a

/-- The smaller value under R233. -/
def minV (a b : FV) : FV :=
  if isNan a || isNan b then .nan
  else if isZeroV a && isZeroV b then (if isNegV a then a else b)
  else if ltX b a then b else a

/-- Decoding of one BS8 element under its block's scale byte (R136). -/
def decodeBs8 (e : Nat) (c : Byte) : FV :=
  if e = 0 then pZero
  else if e = 255 then .nan
  else if c = 0x80#8 then .nan
  else .fin (decide (c.toInt < 0)) c.toInt.natAbs ((e : Int) - 133)

/-- Decoding of one BS8U element (R136). -/
def decodeBs8u (e : Nat) (c : Byte) : FV :=
  if e = 0 then pZero
  else if e = 255 then .nan
  else .fin false c.toNat ((e : Int) - 134)

/-- floor(log2) of a nonzero magnitude. -/
def log2V : FV → Int
  | .fin _ m e => Nat.log2 m + e
  | _ => 0

/-- The flags of operands together. -/
def joinFlags {α : Type} (xs : List (α × Flags)) : Flags := xs.foldl (fun acc x => acc ||| x.2) 0

/-- Encoding of 32 operands, each with its DN, into a BS8 block of 33 bytes (R137, R139 to R141, R147). -/
def encodeBs8 (a : Actl) (ops : List (FV × Flags)) : List Byte × Flags :=
  let xs := ops.map fun x => x.1
  let isInf (v : FV) : Bool := match v with
    | .inf _ => true
    | _ => false
  let mag := xs.foldl (fun acc x => if isNan x then acc else maxV acc (absX x)) pZero
  let e : Nat :=
    if xs.all isNan then 255
    else if xs.any isInf then 254
    else if isZeroV mag then 1
    else (max 1 (log2V mag + 127)).toNat
  let code (x : FV) : Int × Flags :=
    match x with
    | .nan => (-128, 0)
    | .inf s => (if s then -127 else 127, fSAT)
    | .fin s m ex =>
      if m = 0 then (0, 0)
      else
        let q := quantize a.rnd s m ex false ((e : Int) - 133)
        let c := min q.1 127
        ((if s then -(c : Int) else c), flagIf (q.2 || decide (127 < q.1)) fNX ||| flagIf (c == 0) fUF)
  if e = 255 then (List.replicate 32 0x80#8 ++ [0xFF#8], 0)
  else
    let cs := xs.map code
    let fl := cs.foldl (fun acc c => acc ||| c.2) (joinFlags ops)
    let e' := if cs.all (fun c => c.1 == 0) then 0 else e
    (cs.map (fun c => BitVec.ofInt 8 c.1) ++ [BitVec.ofNat 8 e'], fl)

/-- Encoding of 32 operands, each with its DN, into a BS8U block; where the whole block is written NaN, its finite elements raise nothing, DN included (R138 to R141, R147). -/
def encodeBs8u (a : Actl) (ops : List (FV × Flags)) : List Byte × Flags :=
  let xs := ops.map fun x => x.1
  let negNz (v : FV) : Bool := isNegV v && !isZeroV v
  let isInf (v : FV) : Bool := match v with
    | .inf _ => true
    | _ => false
  if xs.any (fun x => isNan x || negNz x) then
    (List.replicate 33 0xFF#8, flagIf (xs.any negNz) fNV)
  else
    let mag := xs.foldl (fun acc x => maxV acc (absX x)) pZero
    let e : Nat :=
      if xs.any isInf then 254
      else if isZeroV mag then 1
      else (max 1 (log2V mag + 127)).toNat
    let code (x : FV) : Nat × Flags :=
      match x with
      | .fin _ m ex =>
        if m = 0 then (0, 0)
        else
          let q := quantize a.rnd false m ex false ((e : Int) - 134)
          let c := min q.1 255
          (c, flagIf (q.2 || decide (255 < q.1)) fNX ||| flagIf (c == 0) fUF)
      | _ => (255, fSAT)
    let cs := xs.map code
    let fl := cs.foldl (fun acc c => acc ||| c.2) (joinFlags ops)
    let e' := if cs.all (fun c => c.1 == 0) then 0 else e
    (cs.map (fun c => BitVec.ofNat 8 c.1) ++ [BitVec.ofNat 8 e'], fl)

end Sys2Proof.Machine
end

