-- ==== Sys2Proof/Config.lean ====
section
/-! DEFINITION. What the spec leaves open: constants with no body, so that no proof can see their value. Each names its log entry. -/

namespace Sys2Proof.Config

/-- A 32-bit value that the spec does not state, by the number of the free value (log entry 3). -/
opaque freeWord : Nat → BitVec 32

/-- A byte that the spec does not state, by the number of the free value, or the bytes it comes from as a number, and by its place (log entry 3). -/
opaque freeByte : Nat → Nat → BitVec 8

/-- RESULT of a command for which the spec states none: by its core, queue, place in its block, descriptor, SEED, STEP and status, so that runs which agree in these agree in it (R409; log entry 3). -/
opaque freeResult : Nat → Nat → Nat → BitVec 512 → BitVec 64 → BitVec 32 → BitVec 16 → BitVec 32

/-- DETAIL of a command's status for which the spec states none, by the same: its core, queue, place in its block, descriptor, SEED, STEP and status (R408, R409; log entry 3). -/
opaque freeDetail : Nat → Nat → Nat → BitVec 512 → BitVec 64 → BitVec 32 → BitVec 16 → BitVec 32

/-- The fixed label under which the DeviceID key pair is derived: not stated (R638; log entry 20). -/
opaque deviceLabel : List (BitVec 8)

/-- The DeviceID signature of an SPDM response, by the derived key, the requester's nonce and the signed bytes: the scalar that the derived value gives and the signature's random number are not stated (R638, R652; log entry 20). -/
opaque spdmSignature : BitVec 384 → BitVec 256 → List (BitVec 8) → BitVec 768

/-- The Henliux vendor ID, for which the spec gives no value (R549; log entry 112). -/
opaque vendorId : BitVec 16

/-- The class code of the function, which the spec does not give (log entry 112). -/
opaque classCode : BitVec 24

/-- The SEC-DED check bits of a protected fuse word: the code is not stated (R634; log entry 10). -/
opaque fuseCheck : BitVec 64 → BitVec 8

/-- The Henliux root and intermediate certificates, carried in the Itkan image at a place that is not stated (R652; log entry 20). -/
opaque rootCerts : List (BitVec 8)

/-- The SHA-384 digest of the boot ROM's contents, measurement block 1 (R653; log entry 20). -/
opaque romDigest : BitVec 384

/-- Where the supply voltage fused for a core clock in MHz lies within its band, in steps of 5 mV (R687; log entry 21). -/
opaque fusedStep : BitVec 16 → BitVec 16

end Sys2Proof.Config
end

