-- ==== Sys2Proof/Machine/State.lean ====
section
/-! DEFINITION. The state of the NM3-384 as plain data: every register, buffer, counter, mode and pin the spec gives the block, the queue of waiting commands, and what the device has sent. INVENTORY.md lists each field with its rule and reset value. -/

namespace Sys2Proof.Machine

/-- Why a step stops with a fault. No rule of the spec stops the block as a whole, so nothing raises one; the type has the one name a total model needs. -/
inductive Fault where
  /-- Raised by nothing. Safe. -/
  | none
  deriving DecidableEq, Repr

/-- Why a step gives no meaning. -/
inductive Refusal where
  /-- Raised only by an arm of `exec` whose row has no meaning yet. Safe: the machine stops. -/
  | notModelled (mnemonic : String)
  deriving DecidableEq, Repr

/-- What a started command is doing between its start and its completion. -/
inductive Wait where
  /-- Nothing is awaited: its work is done, or goes on without a wait. -/
  | none
  /-- A program-defined wait of R111 or R544. -/
  | program
  /-- A tag wait of R275: the tag slot, whether it must be FULL or EMPTY, and the local address of the access that awaits it. -/
  | tagSlot (n : Nat) (full : Bool) (addr : Nat)
  /-- A circular push or pop wait of R288. -/
  | circular (r : Nat)
  /-- Network responses (R475, R476). -/
  | net
  /-- No UP port or no profile of an endpoint yet (R468). -/
  | endpoint (ep : Nat)
  /-- Back-invalidate snoops (R561). -/
  | snoop
  /-- A Tarn batch (R398). -/
  | batch
  /-- A list rewrite that holds the write (R403, R407). -/
  | rewrite
  /-- Earlier writes of the same Tarn index, applied and still in progress (R378, R381). -/
  | applied
  /-- The digest of a recorded input slot (R423). -/
  | digest
  deriving DecidableEq, Repr

/-- What a part of a result brings with it once it is written: the flags of its elements, the failure met while they were computed (status 0: none), the update unit that computes them, and how many elements they are (R155, R344, R355). -/
structure BlockNote where
  flags : BitVec 7
  status : BitVec 16
  detail : BitVec 32
  unit : Nat
  count : Nat
  deriving DecidableEq, Repr

/-- Bytes on their way: their place in the transfer, or their device address, and which of them are marked poisoned. `elt` is how many of them stand together when a reset cuts their write (R357), `note` what they bring with them. -/
structure BufPart where
  off : Nat
  bytes : List Byte
  marks : List Bool
  elt : Nat := 1
  note : Option BlockNote := none
  deriving DecidableEq, Repr

/-- A command between its start and its completion (R108, R109). `cursor` is its progress, `buf` what a transfer has read and not yet put to its place, `ringAt` the ring byte count that its reservation begins at (R287), `profile` the profile a send began with (R507), `granted` the tag conditions it has met at its present place (R272, R276), `strict` its queue's conflict policy at its start (R265), `absent` says that a Tarn command's index did not exist at its admission (R387), `peer` is the endpoint of the operation that gave the command its status, `unit` the update unit that an UPDATE first failed at (R344, R611). `path` is the path of a remote read's READs (R472), `sent` says that a response to one of the command's frames has arrived, `opLost` that one of its network operations was refused or lost (R467, R545), `landed` are the places of its transfer that have been written (R271), `lines` the host-window lines that it waits to access (R563), and `first` the parts of its work that are done at once (log entry 55). -/
structure Started where
  id : Nat
  blockSeq : BitVec 32
  index : Nat
  desc : BitVec 512
  seed : BitVec 64
  step : BitVec 32
  client : BitVec 64
  absent : Bool
  done : Bool
  wait : Wait
  cursor : Nat
  ringAt : Option (BitVec 32)
  profile : Option (BitVec 3)
  granted : List (Nat × Bool)
  strict : Bool
  buf : List BufPart
  status : BitVec 16
  detail : BitVec 32
  result : BitVec 32
  flags : BitVec 7
  suspect : Bool
  peer : BitVec 12
  unit : Nat
  path : Option Via
  sent : Bool
  opLost : Bool
  landed : List (Nat × Nat)
  lines : List Nat
  first : List Nat
  deriving DecidableEq, Repr

/-- An armed stream block, as admitted (R101, R102, R417). `absent` lists its Tarn commands whose index did not exist at admission (R387). -/
structure Block where
  seq : BitVec 32
  start : BitVec 32
  cmds : List (BitVec 512)
  absent : List Nat
  nStarted : Nat
  nDone : Nat
  seed : BitVec 64
  step : BitVec 32
  client : BitVec 64
  deriving DecidableEq, Repr

/-- A queue's command ring (CREATE_RING, R97). -/
structure Ring where
  base : Nat
  log2 : Nat
  waitLimit : Nat
  quota : Nat
  deriving DecidableEq, Repr

/-- A queue's completion ring (SET_COMPLETION_RING, R107, R115, R117). `written` counts the records written and `head` is the last valid head index. -/
structure CplRing where
  base : Nat
  log2 : Nat
  vector : BitVec 7
  headAddr : Nat
  written : BitVec 32
  head : BitVec 32
  deriving DecidableEq, Repr

/-- One command queue of a core. -/
structure CmdQueue where
  ring : Option Ring
  cpl : Option CplRing
  armed : List Block
  nextSeq : BitVec 32
  tail : BitVec 32
  execIndex : BitVec 32
  retiredSeq : BitVec 32
  started : List Started
  nextId : Nat
  hold : Bool
  deriving DecidableEq, Repr

/-- A queue that no CREATE_RING has configured; RETIRED_SEQ reads 0xFFFF_FFFF (R105). -/
def CmdQueue.init : CmdQueue :=
  { ring := none, cpl := none, armed := [], nextSeq := 0, tail := 0, execIndex := 0, retiredSeq := 0xFFFFFFFF, started := [], nextId := 0, hold := false }

/-- One base/bound pair (R279, R280). -/
structure Pair where
  logical : Nat
  size : Nat
  base : Nat
  rd : Bool
  wr : Bool
  deriving DecidableEq, Repr

/-- One arrival counter (R290). -/
structure Counter where
  value : BitVec 32
  overflow : Bool
  messages : Bool
  deriving DecidableEq, Repr

def Counter.init : Counter := { value := 0, overflow := false, messages := false }

/-- One open remote window (R294). -/
structure Window where
  base : Nat
  size : Nat
  srcMask : BitVec 12
  srcEp : BitVec 12
  counter : BitVec 8
  ctrEn : Bool
  publish : Bool
  wr : Bool
  rd : Bool
  deriving DecidableEq, Repr

/-- One circular region (R284 to R287). -/
structure Circ where
  queue : Nat
  pair : Nat
  start : Nat
  size : Nat
  entry : Nat
  head : BitVec 32
  tail : BitVec 32
  resHead : BitVec 32
  resTail : BitVec 32
  deriving DecidableEq, Repr

/-- One save stream's setting (R325): CODING and VIEW. -/
structure StreamMode where
  coding : BitVec 2
  view : BitVec 2
  deriving DecidableEq, Repr

/-- An open record on a save stream (R333, R334). -/
structure SaveRec where
  queue : Nat
  region : Nat
  offset : Nat
  blocks : Nat
  used : Nat
  coding : BitVec 2
  view : BitVec 2
  written : Nat
  deriving DecidableEq, Repr

/-- The configuration of a core that a step record's snapshot holds (R424). -/
structure CoreCfg where
  pairs : Tbl (Option Pair)
  strict : Tbl Bool
  counters : Tbl Counter
  windows : Tbl (Option Window)
  circ : Tbl (Option Circ)
  streams : Tbl StreamMode
  deriving DecidableEq, Repr

def CoreCfg.init : CoreCfg := { pairs := [], strict := [], counters := [], windows := [], circ := [], streams := [] }

/-- LOSSLESS with view BF16 (R328). -/
def StreamMode.init : StreamMode := { coding := 0, view := 0 }

/-- A loadable function table (R248). An entry is c0, c1 and c2. -/
structure FnTable where
  xLo : F32
  invH : F32
  quad : Bool
  entries : Tbl (F32 × F32 × F32)
  deriving DecidableEq, Repr

/-- X_LO +0, INV_H 1, linear mode, all entries +0 (R252). -/
def FnTable.init : FnTable := { xLo := 0, invH := 0x3F800000, quad := false, entries := [] }

/-- A micro-program: its constants and its steps (R250). -/
structure Micro where
  consts : List F32
  steps : List (BitVec 32)
  deriving DecidableEq, Repr

/-- A single END step, which returns its input (R252). -/
def Micro.init : Micro := { consts := List.replicate 16 0, steps := [0] }

/-- One matrix array: the ids of the commands it runs and holds (at most two, R178, written as queue and id), its gated quarters (quarter q is bit q), and the quarter ramps that wait for the arbiter (R204, R205, R691). -/
structure ArrayState where
  cmds : List (Nat × Nat)
  gated : BitVec 4
  rampUp : Bool
  rampDown : Bool
  deriving DecidableEq, Repr

/-- Idle, no pending command, fully ramped down (R171). -/
def ArrayState.init : ArrayState := { cmds := [], gated := 0xF, rampUp := false, rampDown := false }

/-- One compute core. `lastRamp` is its array that the ramp arbiter served last (R691). -/
structure Core where
  events : Tbl (BitVec 32)
  queues : Tbl CmdQueue
  cfg : CoreCfg
  spad : Tbl Byte
  badWords : Tbl Bool
  tags : Tbl Bool
  segOff : BitVec 4
  segZeroing : BitVec 4
  records : Tbl (Option SaveRec)
  tables : Tbl FnTable
  micros : Tbl Micro
  arrays : Tbl ArrayState
  vecCmds : List (Nat × Nat)
  rippleGap : BitVec 8
  conflictCount : BitVec 32
  conflictCapture : BitVec 32
  lastRamp : Nat
  deriving DecidableEq, Repr

/-- A core after a reset that reaches the stage logic (R93, R107, R171, R252, R261, R328); the Ripple gap threshold is 48. -/
def Core.init : Core :=
  { events := [], queues := [], cfg := CoreCfg.init, spad := [], badWords := [], tags := [], segOff := 0, segZeroing := 0, records := [], tables := [], micros := [], arrays := [], vecCmds := [], rippleGap := 48, conflictCount := 0, conflictCapture := 0, lastRamp := 3 }

/-- The external memory (spec 08). `mem` lists the bytes that are not zero, `poison` the 32-byte words that are poisoned, `weak` the words that hold a single-bit error, `broken` those that hold an error no read has met yet and that cannot be corrected. -/
structure Hbm where
  mem : Tbl Byte
  poison : Tbl Bool
  weak : Tbl Bool
  broken : Tbl Bool
  failed : BitVec 128
  uncorrected : BitVec 32
  scrubPasses : BitVec 32
  corrected : Tbl (BitVec 32)
  scrubPos : Nat
  deriving DecidableEq, Repr

def Hbm.init : Hbm :=
  { mem := [], poison := [], weak := [], broken := [], failed := 0, uncorrected := 0, scrubPasses := 0, corrected := [], scrubPos := 0 }

/-- One entry of the stage address table (R27). -/
structure StageAddr where
  peerInSlots : Nat
  peerStageId : BitVec 32
  endpoint : BitVec 12
  deriving DecidableEq, Repr

/-- A configured micro-batch queue (CONFIGURE_QUEUE, R124). -/
structure MbQueue where
  expected : BitVec 32
  base : Nat
  stride : Nat
  slots : Nat
  inSpad : Bool
  core : Nat
  messages : Bool
  deriving DecidableEq, Repr

/-- One slot (R118, R120, R164). `flags` are the inbound conversion flags, `v1Credit` the outstanding credit toward a v1 sender (R512), `profile` the profile its fill began with (R507), `pendingDigest` an ingress digest not yet written (R423). -/
structure Slot where
  state : BitVec 3
  gen : BitVec 16
  mb : BitVec 32
  counter : BitVec 32
  expected : Option (BitVec 32)
  flags : BitVec 7
  v1Credit : Bool
  profile : Option (BitVec 3)
  pendingDigest : Bool
  deriving DecidableEq, Repr

def Slot.init : Slot :=
  { state := 0, gen := 0, mb := 0, counter := 0, expected := none, flags := 0, v1Credit := false, profile := none, pendingDigest := false }

/-- What an output queue knows of one remote slot: the generation of the newest credit accepted (R743), and the credit held (R122). -/
structure RemoteSlot where
  newest : Option (BitVec 16)
  credit : Option (BitVec 16)
  deriving DecidableEq, Repr

def RemoteSlot.init : RemoteSlot := { newest := none, credit := none }

/-- A slot credit that is held until it can be sent: input queue, slot, generation (R124, R467, R512). -/
structure HeldCredit where
  queue : Nat
  slot : Nat
  gen : BitVec 16
  deriving DecidableEq, Repr

/-- The stage: identity, stage address table, micro-batch queues and their slots (spec 03). `everSlots` is the greatest slot count that a configuration of the queue has had: those slots keep their generation (R124). -/
structure Stage where
  identity : Option (BitVec 32 × BitVec 32)
  addr : Tbl (Option StageAddr)
  queues : Tbl (Option MbQueue)
  slots : Tbl (Tbl Slot)
  remote : Tbl (Tbl RemoteSlot)
  heldCredits : List HeldCredit
  v1Hold : Tbl Bool
  everSlots : Tbl Nat
  deriving DecidableEq, Repr

/-- No stage, no configured queue (R31). -/
def Stage.init : Stage :=
  { identity := none, addr := [], queues := [], slots := [], remote := [], heldCredits := [], v1Hold := [], everSlots := [] }

/-- One optimizer slot, unconfigured, with every hyperparameter +0 (R347). -/
def optInit : OptSlot :=
  { configured := false, algorithm := 0, masterBf16 := false, bs8 := false, gradBf16 := false, copyFmt := 0, beta1 := 0, beta2 := 0, eps := 0, decay := 0, omb1 := 0, omb2 := 0 }

/-- A candidate of a Tarn query: its key (R390), its attribute word and its vector's board address. -/
structure Cand where
  dist : Nat
  item : Nat
  list : Nat
  pos : Nat
  attr : BitVec 64
  vec : Nat
  deriving DecidableEq, Repr

/-- A query that has joined a batch: core, queue and id of its command (R398), and its pool once its batch has been streamed (R391, R399). -/
structure QueryRef where
  core : Nat
  queue : Nat
  id : Nat
  pool : Option (List Cand)
  deriving DecidableEq, Repr

/-- A list rewrite in progress (R403): its message's source, its list, the new log's and tombstones' bases and capacity, and the reader floor it drops below. -/
structure Rewrite where
  src : MsgSrc
  list : Nat
  newLog : Nat
  newTomb : Nat
  newCap : Nat
  floor : BitVec 32
  deriving DecidableEq, Repr

/-- One Tarn index (spec 10). -/
structure Index where
  width : BitVec 2
  lists : Nat
  dir : Nat
  centroid : Nat
  rdvWait : Nat
  rdvMax : Nat
  published : BitVec 32
  pendingEpoch : BitVec 32
  floor : BitVec 32
  collecting : List QueryRef
  closed : Option (List QueryRef)
  running : List QueryRef
  rewrites : List Rewrite
  deriving DecidableEq, Repr

/-- A collective frame that has landed for a flush: its bucket, the rank that sent it, whether it is of the all-gather, and whether it was its message's last (R540 to R543). -/
structure Landing where
  bucket : BitVec 12
  rank : Nat
  gather : Bool
  last : Bool
  deriving DecidableEq, Repr

/-- A data-parallel group (R525 to R528). `landed` holds, for even (0) and odd (1) flushes, what has landed for them (R540 to R543). -/
structure Group where
  ranks : List (BitVec 12)
  selfRank : Nat
  core : Nat
  queue : Nat
  coreA : Nat
  winA : Nat
  coreB : Nat
  winB : Nat
  flushCount : Nat
  broken : Bool
  landed : Tbl (List Landing)
  deriving DecidableEq, Repr

/-- A gradient bucket (R533). -/
structure Bucket where
  addr : Nat
  length : Nat
  bf16 : Bool
  group : Nat
  deriving DecidableEq, Repr

/-- One admitted block in a step record (R424). -/
structure BlockEntry where
  core : Nat
  queue : Nat
  seq : BitVec 32
  cmds : List (BitVec 512)
  digest : BitVec 128
  deriving DecidableEq, Repr

/-- One input slot fill in a step record (R424), with its inbound conversion flags (R164; log entry 30). -/
structure IngressEntry where
  queue : Nat
  slot : Nat
  mb : BitVec 32
  gen : BitVec 16
  flags : BitVec 7
  digest : BitVec 128
  data : List Byte
  deriving DecidableEq, Repr

/-- One SEND_SLOT in a step record (R424). -/
structure OutputEntry where
  queue : Nat
  mb : BitVec 32
  digest : BitVec 128
  flags : BitVec 7
  deriving DecidableEq, Repr

/-- One queue's QUEUE_FMT word (R502). -/
structure QueueFmt where
  fmt : BitVec 3
  rowLen : Nat
  deriving DecidableEq, Repr

/-- BF16 and ROW_LEN 8,192 (R502). -/
def QueueFmt.init : QueueFmt := { fmt := 1, rowLen := 8192 }

/-- The configuration snapshot of a step record (R424). `expected` holds the slots' own EXPECTED settings, and `digests` the digests of each core's tables (at twice its number) and of its micro-programs (after it). -/
structure Snap where
  cores : Tbl CoreCfg
  queues : Tbl (Option MbQueue)
  expected : Tbl (Tbl (Option (BitVec 32)))
  opt : Tbl OptSlot
  regions : Tbl (Nat × Nat)
  epochs : List (Nat × BitVec 32 × BitVec 32)
  queueFmt : Tbl QueueFmt
  profileMask : BitVec 5
  wiringPolicy : BitVec 2
  digests : Tbl (BitVec 128)
  profiles : List (Option (BitVec 3))
  deriving DecidableEq, Repr

/-- A step record (R424), as it is gathered while its step is open and as its bytes at LOG_BASE tell it (log entry 30). -/
structure StepRec where
  base : Nat
  size : Nat
  payloads : Bool
  pipelineId : BitVec 32
  stageId : BitVec 32
  seed : BitVec 64
  step : BitVec 32
  closed : Bool
  overrun : Bool
  aborted : Bool
  used : Nat
  snap : Snap
  inputs : List RangeDigest
  blocks : List BlockEntry
  ingress : List IngressEntry
  outputs : List OutputEntry
  results : List RangeDigest
  digest : BitVec 128
  deriving DecidableEq, Repr

/-- Digests still to be written (R422, R423): input ranges of a step being opened, or an ingress slot, with the lines of it whose snoops it awaits (R561). -/
inductive DigestJob where
  | range (addr len : Nat)
  | slot (queue slot : Nat) (lines : List Nat)
  deriving DecidableEq, Repr

/-- A replay in progress (R426, R427): its message's source, none once a control-complex reset has dropped the message (R52), the recorded step, and which of its ingress entries have been placed. -/
structure Replay where
  src : Option MsgSrc
  record : StepRec
  isolate : Bool
  placed : List Nat
  next : Nat
  deriving DecidableEq, Repr

/-- The step in force and Overturn (spec 11). -/
structure Overturn where
  seed : BitVec 64
  step : BitVec 32
  current : Option StepRec
  jobs : List DigestJob
  replay : Option Replay
  ckpt : Option CkptImage
  stepFaults : BitVec 32
  deriving DecidableEq, Repr

/-- SEED and STEP 0, no step open (R417). -/
def Overturn.init : Overturn :=
  { seed := 0, step := 0, current := none, jobs := [], replay := none, ckpt := none, stepFaults := 0 }

/-- The counts of GET_PORT_STATE (R452). -/
structure PortCounts where
  retrains : BitVec 32
  crcErrors : BitVec 32
  replays : BitVec 32
  sessions : BitVec 32
  opsFailed : BitVec 32
  deriving DecidableEq, Repr

def PortCounts.init : PortCounts := { retrains := 0, crcErrors := 0, replays := 0, sessions := 0, opsFailed := 0 }

/-- A frame waiting for or holding a place on a port: its TYPE and itself. -/
structure TxFrame where
  ty : BitVec 4
  f : Frame
  deriving DecidableEq, Repr

/-- One Bilpoys port (spec 12). `conflict` says that a later HELLO from another device carries coordinates that this port's partner gave or relayed (R489). `adopted` says that the wiring check has adopted the partner (R499). `stayDisabled` is a TRAIN_PORT DISABLE recorded before the coordinates were set (R453). `peerHello` is the partner's last own HELLO since the port's reset (R452), `ids` the session identifiers the port has used (R447), `askTimes` when its replay requests left (R462), `lostTimer` says that the link-lost timer runs (R467), `replayDue` that a replay waits until the port is UP (R446, R462). `credits` are the 256-byte units held for VC0 to VC2, `unacked` the frames no ACK covers, `queued` the frames that wait for credit, for an acknowledgement or for the retrain. -/
structure Port where
  state : BitVec 4
  maxVersion : BitVec 2
  linkLostMs : BitVec 16
  stayDisabled : Bool
  version : BitVec 4
  lanes : BitVec 8
  agreed : BitVec 4
  ownHello : Option Hello
  switchSeen : Bool
  switchHello : Option Hello
  peerHello : Option Hello
  conflict : Bool
  adopted : Bool
  sessionId : BitVec 32
  ids : List (BitVec 32)
  peerSessionId : Option (BitVec 32)
  inSession : Bool
  txSeq : BitVec 16
  rxSeq : BitVec 16
  unacked : List TxFrame
  queued : List TxFrame
  credits : List Nat
  replayAsked : Option (BitVec 16)
  askTimes : List (BitVec 64)
  lostTimer : Bool
  replayDue : Bool
  lastTimeRx : BitVec 64
  lastTimeAt : BitVec 64
  lastHops : BitVec 8
  lastMode : BitVec 2
  lastRoot : BitVec 48
  counts : PortCounts
  deriving DecidableEq, Repr

/-- DISABLED, LINK_LOST_MS 50, MAX_VERSION 3, no session, counts zero (R452, R453). -/
def Port.init : Port :=
  { state := 0, maxVersion := 3, linkLostMs := 50, stayDisabled := false, version := 0, lanes := 0, agreed := 0, ownHello := none, switchSeen := false, switchHello := none, peerHello := none, conflict := false, adopted := false, sessionId := 0, ids := [], peerSessionId := none, inSession := false, txSeq := 0, rxSeq := 0, unacked := [], queued := [], credits := [0, 0, 0], replayAsked := none, askTimes := [], lostTimer := false, replayDue := false, lastTimeRx := 0, lastTimeAt := 0, lastHops := 0xFF, lastMode := 0, lastRoot := 0xFFFFFFFFFFFF, counts := PortCounts.init }

/-- One endpoint table entry (R490). -/
structure Endpoint where
  coord : BitVec 48
  conn : BitVec 12
  portMask : BitVec 18
  rprofile : BitVec 3
  self : Bool
  roce : Bool
  profile : Option (BitVec 3)
  quarantine : Option (BitVec 16)
  deriving DecidableEq, Repr

/-- One end of a wiring map entry (R497, R498). -/
structure WireEnd where
  pod : BitVec 16
  board : BitVec 16
  slot : BitVec 16
  port : BitVec 8
  deriving DecidableEq, Repr

/-- The fabric: coordinates, endpoints, peers, wiring and profiles (spec 13). A peer record keeps the port that carried its HELLO (R489). -/
structure Fabric where
  coord : BitVec 48
  coordEver : Bool
  endpoints : Tbl (Option Endpoint)
  peers : List (Hello × Nat)
  wiring : List (WireEnd × WireEnd)
  wiringLoaded : Bool
  wiringHash : BitVec 64
  wiringPolicy : BitVec 2
  profileMask : BitVec 5
  queueFmt : Tbl QueueFmt
  ports : Tbl Port
  deriving DecidableEq, Repr

/-- Coordinates unset, endpoint table empty, policy STRICT, every profile (R453, R482, R496, R499, R502). -/
def Fabric.init : Fabric :=
  { coord := 0xFFFFFFFFFFFF, coordEver := false, endpoints := [], peers := [], wiring := [], wiringLoaded := false, wiringHash := 0, wiringPolicy := 0, profileMask := 0x1F, queueFmt := [], ports := [] }

/-- For whom a network operation runs: a command (core, queue, id) or the firmware (R112). -/
inductive OpOwner where
  | cmd (core queue id : Nat)
  | firmware
  deriving DecidableEq, Repr

/-- What the responses of an outstanding operation do (R475, R476). -/
inductive OpKind where
  /-- A remote write: each WRITE_ACK counts; a slot send also carries its queue and slot. -/
  | write
  | slotSend (queue slot : Nat)
  /-- A READ: the place of its data in the command's transfer, and its length. -/
  | read (off : Nat) (len : Nat)
  deriving DecidableEq, Repr

/-- An outstanding network operation with its tag (R113, R467). `sent` counts its frames that have left. -/
structure NetOp where
  tag : Nat
  gen : BitVec 8
  via : Via
  endpoint : BitVec 12
  owner : OpOwner
  kind : OpKind
  frames : Nat
  acked : Nat
  sent : Nat
  bytes : Nat
  deriving DecidableEq, Repr

/-- The operation has transmitted a frame (R467). -/
def NetOp.transmitted (o : NetOp) : Bool := o.sent != 0

/-- The outstanding operations, and the generation of each network tag (R470). -/
structure Net where
  ops : List NetOp
  tagGen : Tbl (BitVec 8)
  stale : Nat
  deriving DecidableEq, Repr

def Net.init : Net := { ops := [], tagGen := [], stale := 0 }

/-- The global time counter (R514 to R522). `slew` is what a slew has still to add, and `slewWait` the nanoseconds since it last did (R517, R519; log entry 25). -/
structure TimeState where
  gtc : BitVec 64
  mode : BitVec 2
  root : Bool
  state : BitVec 2
  hops : BitVec 8
  source : BitVec 8
  rootCoord : BitVec 48
  offset : BitVec 32
  lateMask : BitVec 64
  goodOffsets : Nat
  refValid : Bool
  slew : Int
  slewWait : Nat
  deriving DecidableEq, Repr

/-- FREE, not root, GTC from 0, UNLOCKED, HOPS 0xFF (R515), SOURCE_PORT none. -/
def TimeState.init : TimeState :=
  { gtc := 0, mode := 0, root := false, state := 0, hops := 0xFF, source := 0xFF, rootCoord := 0xFFFFFFFFFFFF, offset := 0, lateMask := 0, goodOffsets := 0, refValid := false, slew := 0, slewWait := 0 }

/-- A scheduled step edge (R523). -/
structure Edge where
  time : BitVec 64
  period : BitVec 32
  core : Nat
  event : Nat
  deriving DecidableEq, Repr

/-- A request that waits on snoops: the host's for one line, or a slot write for the lines of its slot (R562, R563). -/
structure HostReq where
  instr : Instr
  lines : List Nat
  deriving DecidableEq, Repr

/-- A back-invalidate snoop that awaits its BIRsp: the line, whether it is BISnpInv, and whether the host has evicted the line since (R561, R565). -/
structure Snoop where
  line : Nat
  inv : Bool
  crossed : Bool
  deriving DecidableEq, Repr

/-- The fields of configuration space that the host sets: base addresses, and the device control words by their offset (R548, R549, R552; log entry 112). -/
abbrev ConfigSpace := Tbl (BitVec 32)

/-- The host interface: window, HDM decoder, coherence tracker (spec 15). `tracker` holds true for state A and false for state S. -/
structure HostIf where
  window : Option (Nat × Nat)
  committed : Bool
  errNotCommitted : Bool
  decBase : BitVec 64
  tracker : Tbl (Option Bool)
  trackPtr : Nat
  snoops : List Snoop
  waiting : List HostReq
  unresponsive : Bool
  linkUp : Bool
  cxl : Bool
  config : ConfigSpace
  deriving DecidableEq, Repr

/-- No window, decoder uncommitted, no tracker entry (R559). -/
def HostIf.init : HostIf :=
  { window := none, committed := false, errNotCommitted := false, decBase := 0, tracker := [], trackPtr := 0, snoops := [], waiting := [], unresponsive := false, linkUp := false, cxl := false, config := [] }

/-- One Ethernet port (R571, R580). Of a Sync exchange `ptpSync` holds the sequence number and the ingress time of a Sync whose Follow_Up is due, `ptpPair` the origin and ingress times of the last Sync, `ptpReq` the egress time of the Delay_Req that awaits its answer, and `ptpSeq` its sequence number. -/
structure EthPort where
  configured : Bool
  ip : BitVec 128
  mac : BitVec 48
  vlanId : BitVec 12
  vlanEn : Bool
  reqPcp : BitVec 3
  spillPcp : BitVec 3
  reqDscp : BitVec 6
  spillDscp : BitVec 6
  enabled : Bool
  up : Bool
  ptpEn : Bool
  ptpDomain : BitVec 8
  ptpMeasuring : Bool
  ptpOffset : BitVec 64
  ptpDelay : BitVec 32
  ptpSync : Option (BitVec 16 × BitVec 64)
  ptpPair : Option (BitVec 64 × BitVec 64)
  ptpReq : Option (BitVec 64)
  ptpSeq : BitVec 16
  dropped : Nat
  paused : BitVec 8
  pausing : Bool
  deriving DecidableEq, Repr

/-- Down and unconfigured, PTP disabled (R572). -/
def EthPort.init : EthPort :=
  { configured := false, ip := 0, mac := 0, vlanId := 0, vlanEn := false, reqPcp := 0, spillPcp := 0, reqDscp := 0, spillDscp := 0, enabled := false, up := false, ptpEn := false, ptpDomain := 0, ptpMeasuring := false, ptpOffset := 0, ptpDelay := 0, ptpSync := none, ptpPair := none, ptpReq := none, ptpSeq := 0, dropped := 0, paused := 0, pausing := false }

/-- One RoCE v2 connection (R573, R578). `unackedPkts` counts the packets that no acknowledgement covers, `unacked` holds the frames among them, and `sentReq` and `sentSpill` count the packets that its two queue pairs have sent. The rates of its request and Spillway queue pairs are in GB/s (R570). -/
structure Conn where
  remoteIp : BitVec 128
  nextHopMac : BitVec 48
  qpnReq : BitVec 24
  qpnSpill : BitVec 24
  txPsn : BitVec 24
  rxPsn : BitVec 24
  sentReq : Nat
  sentSpill : Nat
  remoteVa : BitVec 64
  rKey : BitVec 32
  lostMs : BitVec 16
  port : Nat
  memory : Bool
  loader : Bool
  error : Bool
  rateReq : Rat
  rateSpill : Rat
  queued : List TxFrame
  unackedPkts : Nat
  unacked : List TxFrame
  opsFailed : BitVec 32
  retransmits : BitVec 32
  cnps : BitVec 32
  dropped : Nat
  deriving DecidableEq, Repr

/-- The fields that name a connection's packets: local and remote queue pair, UDP source and destination port, and the sequence number of the next packet (R573). -/
structure RoceHeader where
  qpn : Nat
  remoteQpn : BitVec 24
  udpSource : Nat
  udpDest : Nat
  psn : BitVec 24
  deriving DecidableEq, Repr

/-- The ordinary network (spec 15). -/
structure Eth where
  ports : Tbl EthPort
  conns : Tbl (Option Conn)
  deriving DecidableEq, Repr

def Eth.init : Eth := { ports := [], conns := [] }

/-- An error record or event (spec 17, Error record). SEQ is given when the record is written. -/
structure ErrRec where
  gtc : BitVec 64
  seq : BitVec 32
  clientId : BitVec 64
  step : BitVec 32
  blockSeq : BitVec 32
  cmdIndex : BitVec 16
  status : BitVec 16
  detail : BitVec 32
  address : BitVec 40
  endpoint : BitVec 12
  unitIndex : BitVec 8
  unitClass : BitVec 4
  queue : BitVec 2
  core : BitVec 5
  severity : BitVec 2
  count : BitVec 8
  fwInstance : BitVec 32
  deriving DecidableEq, Repr

def ErrRec.init : ErrRec :=
  { gtc := 0, seq := 0, clientId := 0, step := 0, blockSeq := 0, cmdIndex := 0, status := 0, detail := 0, address := 0, endpoint := 0, unitIndex := 0, unitClass := 0, queue := 0, core := 0, severity := 0, count := 1, fwInstance := 0 }

/-- A first-error latch (R611, R612). -/
structure Latch where
  first : ErrRec
  highest : BitVec 2
  count : BitVec 8
  deriving DecidableEq, Repr

/-- One last-gasp slot (R626). -/
structure LgSlot where
  cause : BitVec 4
  hart : BitVec 2
  gtc : BitVec 64
  fwInstance : BitVec 32
  hartState : BitVec 2048
  handling : Option ErrRec
  fill : List Nat
  overflow : BitVec 32
  waiting : List ErrRec
  deriving DecidableEq, Repr

/-- Error handling (spec 17). `queues` are the four event queues, CORRECTED first. -/
structure Errors where
  queues : Tbl (List ErrRec)
  ring : List ErrRec
  nextSeq : BitVec 32
  overflow : BitVec 32
  latches : Tbl (Option Latch)
  alert : Bool
  alertSeqs : List (BitVec 32)
  alertLost : Bool
  alertFirst : Bool
  alertLatest : Bool
  lgFirst : Option LgSlot
  lgLatest : Option LgSlot
  halted : Bool
  lastCause : BitVec 4
  tripCount : BitVec 32
  tripTimes : List (BitVec 64)
  deriving DecidableEq, Repr

def Errors.init : Errors :=
  { queues := [], ring := [], nextSeq := 0, overflow := 0, latches := [], alert := false, alertSeqs := [], alertLost := false, alertFirst := false, alertLatest := false, lgFirst := none, lgLatest := none, halted := false, lastCause := 0, tripCount := 0, tripTimes := [] }

/-- One mailbox channel (R53): its BAR4 page and its BAR0 doorbell. STATE is 0 DISABLED, 1 READY, 2 FAULTED, 3 RESETTING. `busy` says that a message of the channel has begun and not completed; `dropCpl` that the channel was reset meanwhile (R61). -/
structure Channel where
  reqBase : BitVec 64
  cplBase : BitVec 64
  irqEnable : Bool
  vector : BitVec 7
  enabled : Bool
  state : BitVec 2
  reason : BitVec 4
  session : BitVec 32
  reqHead : BitVec 16
  reqTail : BitVec 16
  cplTail : BitVec 16
  cplHead : BitVec 16
  moderation : BitVec 32
  phase : Bool
  unsignalled : Nat
  doorbell : BitVec 16
  busy : Bool
  dropCpl : Bool
  deriving DecidableEq, Repr

def Channel.init : Channel :=
  { reqBase := 0, cplBase := 0, irqEnable := false, vector := 0, enabled := false, state := 0, reason := 0, session := 0, reqHead := 0, reqTail := 0, cplTail := 0, cplHead := 0, moderation := 0, phase := true, unsignalled := 0, doorbell := 0, busy := false, dropCpl := false }

/-- One session (R69 to R76). -/
structure Session where
  handle : BitVec 32
  privilege : BitVec 8
  rev : BitVec 16
  clientId : BitVec 64
  leaseMs : BitVec 32
  deriving DecidableEq, Repr

/-- A message that has begun and not completed: held or long-running (R82, R253, R282, R350, R401, R403, R422, R426, R430, R648, R649). -/
structure Held where
  src : MsgSrc
  opcode : BitVec 16
  msg : Msg
  arg : Nat
  nonce : BitVec 256
  image : Option CkptImage
  body : List Byte
  lines : List Nat
  deriving DecidableEq, Repr

/-- The mailboxes, sessions and messages in progress (spec 02). -/
structure Mailbox where
  chans : Tbl Channel
  sessions : List Session
  issued : List (BitVec 32)
  held : List Held
  deriving DecidableEq, Repr

def Mailbox.init : Mailbox := { chans := [], sessions := [], issued := [], held := [] }

/-- The running Itkan image: its bytes and the header fields that are read again (R640). -/
structure Image where
  bytes : List Byte
  fwVersion : BitVec 32
  svn : BitVec 32
  ownerSigned : Bool
  deriving DecidableEq, Repr

/-- Boot and reset (spec 19, 21). `i3cAddr` is the dynamic I3C address once one is assigned (R705). `sram` holds the bytes of the control SRAM that no rule gives a content (R50): message buffers, the admission workspace and the reserved region. -/
structure Boot where
  pwrgood : Bool
  fwStage : BitVec 4
  reason : BitVec 8
  fwInstance : BitVec 32
  bootAddr : BitVec 64
  image : Option Image
  fetching : Bool
  startReady : Bool
  needTrain : Bool
  resetDue : Bool
  restartDue : Bool
  afterTrip : Bool
  quarantined : Bool
  i3cAddr : Option (BitVec 7)
  sram : Tbl Byte
  deriving DecidableEq, Repr

/-- After POWER_ON: the control complex in reset, the bank not sensed, HBM to be trained (R670, R678, R680). -/
def Boot.init : Boot :=
  { pwrgood := true, fwStage := 0, reason := 0, fwInstance := 0, bootAddr := 0, image := none, fetching := false, startReady := false, needTrain := true, resetDue := false, restartDue := false, afterTrip := false, quarantined := false, i3cAddr := none, sram := [] }

/-- BAR0 interrupt control and the MSI-X table (R731). -/
structure Irq where
  enable : Bool
  vector : BitVec 7
  status : BitVec 3
  msixAddr : Tbl (BitVec 64)
  msixData : Tbl (BitVec 32)
  msixCtl : Tbl (BitVec 32)
  pba : BitVec 64
  deriving DecidableEq, Repr

/-- Cleared (R731); the MSI-X vector control's mask bit resets to 1 as PCI Express gives it (log entry 6). -/
def Irq.init : Irq :=
  { enable := false, vector := 0, status := 0, msixAddr := [], msixData := [], msixCtl := [], pba := 0 }

/-- The fuse bank's fields (R633); ROLLBACK is held beside it because it changes, and FUSE_ECC is a function of the protected fields. `bad` counts the bad fuses of each of the 29 protected words (R634). -/
structure FuseBank where
  seed : BitVec 256
  serial : BitVec 64
  vendorKeyHash : BitVec 384
  ownerKeyHash : BitVec 384
  debugPwHash : BitVec 384
  debugKeyHash : BitVec 384
  lockR : BitVec 4
  lockP : BitVec 4
  cert : List Byte
  bad : List Nat
  deriving DecidableEq, Repr

/-- "Fused" before the part ships (R637): the spec gives no values, so the model names some (log entry 10): DEVICE_ID_SEED and SERIAL 0; no owner, password or debug key; LOCK_R blown, which is LOCKED-REOPENABLE; the vendor key hash is that of the public key whose private key is 1, so that an image can be signed. -/
def FuseBank.init : FuseBank :=
  { seed := 0, serial := 0, vendorKeyHash := 0x8c4f262412b7f9ed867606705a130de5212fd048fbaf8c3842f4a240f4b45ba0c90f82194ccdda3ed89c96b0afe1d51d, ownerKeyHash := 0, debugPwHash := 0, debugKeyHash := 0, lockR := 0xF, lockP := 0, cert := [], bad := [] }

/-- The fuse bank, its mirrors and the debug state (spec 18). `rollback` are the blown ROLLBACK fuses, `deviceKey` the value that the DeviceID key pair is derived from at a sensing (R638), `trace` says that trace capture is switched on, and `trstLow` that JTAG_TRST_N is held low (R656, R706). -/
structure Security where
  bank : FuseBank
  sensed : Bool
  fuseError : Bool
  rollback : BitVec 64
  mirrorCount : Nat
  debugOpened : Bool
  reopenMethod : BitVec 2
  nonce : Option (BitVec 256)
  failures : Nat
  pulses : Nat
  spdmVersion : BitVec 8
  spdmReady : Bool
  deviceKey : Option (BitVec 384)
  trace : Bool
  trstLow : Bool
  deriving DecidableEq, Repr

def Security.init : Security :=
  { bank := FuseBank.init, sensed := false, fuseError := false, rollback := 0, mirrorCount := 0, debugOpened := false, reopenMethod := 0, nonce := none, failures := 0, pulses := 0, spdmVersion := 0, spdmReady := false, deviceKey := none, trace := false, trstLow := false }

/-- Clocks, voltage, power and temperature (spec 19). `holdLeft` is what remains of the start hold of R684, in nanoseconds. `rampCore` is the core that the ramp arbiter served last (R691). -/
structure Power where
  standby : Bool
  fmin : Tbl (BitVec 16)
  fmax : Tbl (BitVec 16)
  clock : Tbl (BitVec 16)
  cap : BitVec 16
  thermalLimit : BitVec 16
  capLimited : Bool
  hold : BitVec 8
  holdLeft : Nat
  mv : BitVec 16
  avsWant : Option (BitVec 16)
  temps : Tbl (BitVec 8)
  hbmHalf : BitVec 8
  refresh2x : BitVec 8
  thermtrip : Bool
  avgW : BitVec 16
  peakW : BitVec 16
  energy : BitVec 64
  perst : Bool
  rampCore : Nat
  deriving DecidableEq, Repr

/-- FMIN 800, FMAX 1,600, POWER_CAP 1,150 W (R685), ACTIVE, VDD_CORE 0.80 V (R667). -/
def Power.init : Power :=
  { standby := false, fmin := [], fmax := [], clock := [], cap := 1150, thermalLimit := 1800, capLimited := false, hold := 0, holdLeft := 0, mv := 800, avsWant := none, temps := [], hbmHalf := 0, refresh2x := 0, thermtrip := false, avgW := 0, peakW := 0, energy := 0, perst := true, rampCore := 23 }

/-- The telemetry registers and the periodic snapshot (R605, R735). -/
structure Telem where
  power : BitVec 32
  clock : BitVec 32
  temp : BitVec 32
  lim : Tbl (BitVec 64)
  period : BitVec 32
  dest : Nat
  log2 : Nat
  vector : BitVec 7
  snapSeq : BitVec 32
  due : Nat
  lines : List Nat
  deriving DecidableEq, Repr

/-- TELEM_POWER's cap reads 1,150, the rest zero; no periodic snapshot (R602, R605). -/
def Telem.init : Telem :=
  { power := 1150#32 <<< 16, clock := 0, temp := 0, lim := [], period := 0, dest := 0, log2 := 0, vector := 0, snapSeq := 0, due := 0, lines := [] }

/-- What the device has sent, newest first: the model's own record of its outputs (log entry 2). -/
inductive Out where
  /-- A read of host memory: the fetch of a request entry (R54). -/
  | hostRead (addr : BitVec 64) (len : Nat)
  /-- A posted write to host memory: a response buffer, bytes 16 to 63 of a completion entry, or its bytes 0 to 15 (R57, R66). -/
  | hostWrite (addr : BitVec 64) (bytes : List Byte)
  /-- An MCTP response: tag, header and payload (R85). -/
  | mctp (tag : Nat) (header : BitVec 128) (payload : List Byte)
  | spdm (name : String) (fields : List (BitVec 384))
  /-- An MSI-X message: its vector, with the address and data of its table entry (R731). -/
  | msix (vector : Nat) (addr : BitVec 64) (data : BitVec 32)
  /-- A frame on a port or connection, with its TYPE (R444). -/
  | frame (via : Via) (ty : BitVec 4) (f : Frame)
  | hello (port : Nat) (h : Hello)
  | time (port : Nat) (t : TimeMsg)
  | retrainSync (port : Nat) (sessionId : BitVec 32) (ack : BitVec 16)
  | bar2Data (data : List Byte) (poison : Bool)
  | bar2Unsupported
  | cxlData (line : Nat) (data : List Byte) (poison : Bool)
  | cxlCmp (line : Nat)
  | snoop (line : Nat) (inv : Bool)
  | conflictAck (line : Nat)
  | aer
  | rdmaNak (conn : Nat)
  /-- A priority flow control frame of a port: a priority is stopped or released (R569). -/
  | pfc (port : Nat) (priority : BitVec 3) (on : Bool)
  | rdmaWrite (conn : Nat) (va : BitVec 64) (data : List Byte)
  | rdmaRead (conn : Nat) (va : BitVec 64) (len : Nat)
  | roceRetransmit (conn : Nat)
  /-- A message leaves on a connection, with the header of its first packet (R573); what it carries follows. -/
  | packet (conn : Nat) (h : RoceHeader)
  /-- A Delay_Req of a port's PTP slave, with its domain and sequence number (R580). -/
  | ptpDelayReq (port : Nat) (domain : BitVec 8) (seq : BitVec 16)
  | avs (mv : BitVec 16)
  | alert (on : Bool)
  | thermtrip
  | jtag (value : BitVec 32)
  deriving DecidableEq, Repr

/-- Bad parity that a command's payload will meet in a fabric buffer, or a payload from a port where no command is named: as many payloads as `skip` pass before it (R6, R629). -/
structure Strike where
  owner : Option (Nat × Nat × Nat)
  skip : Nat
  deriving DecidableEq, Repr

/-- The whole device. `pending` is the queue of waiting commands, oldest first; `fresh` numbers the free values taken so far (log entry 3). -/
structure State where
  pending : List Instr
  out : List Out
  fresh : Nat
  strikes : List Strike
  boot : Boot
  irq : Irq
  mbx : Mailbox
  cores : Tbl Core
  hbm : Hbm
  regions : Tbl (Nat × Nat)
  stage : Stage
  opt : Tbl OptSlot
  updateCmds : List (Nat × Nat × Nat)
  tarn : Tbl (Option Index)
  groups : Tbl (Option Group)
  buckets : Tbl (Option Bucket)
  ovt : Overturn
  fabric : Fabric
  net : Net
  clock : TimeState
  edges : Tbl (Option Edge)
  host : HostIf
  eth : Eth
  err : Errors
  sec : Security
  power : Power
  telem : Telem
  deriving DecidableEq, Repr

/-- The machine right after a POWER_ON reset (R670, R683; log entry 4). -/
def State.reset : State :=
  { pending := [], out := [], fresh := 0, strikes := [], boot := Boot.init, irq := Irq.init, mbx := Mailbox.init, cores := [], hbm := Hbm.init, regions := [], stage := Stage.init, opt := [], updateCmds := [], tarn := [], groups := [], buckets := [], ovt := Overturn.init, fabric := Fabric.init, net := Net.init, clock := TimeState.init, edges := [], host := HostIf.init, eth := Eth.init, err := Errors.init, sec := Security.init, power := Power.init, telem := Telem.init }

end Sys2Proof.Machine
end

