-- ==== Sys2Proof/Machine/Ops.lean ====
section
/-! DEFINITION. The shared operations on State: cores, queues and slots, outputs and interrupts, error events and latches (R607, R611, R619, R621, R623, R731). -/

namespace Sys2Proof.Machine

/-- The outcome type of a command. -/
abbrev Res := Host.Outcome State Fault Refusal

/-- Core `c`. -/
def State.core (s : State) (c : Nat) : Core := tget Core.init s.cores c

/-- The state with core `c` changed. -/
def State.modCore (s : State) (c : Nat) (f : Core → Core) : State :=
  { s with cores := tmod Core.init s.cores c f }

/-- Command queue `q` of a core. -/
def Core.queue (k : Core) (q : Nat) : CmdQueue := tget CmdQueue.init k.queues q

/-- Command queue `q` of core `c`. -/
def State.queue (s : State) (c q : Nat) : CmdQueue := (s.core c).queue q

/-- The state with one command queue changed. -/
def State.modQueue (s : State) (c q : Nat) (f : CmdQueue → CmdQueue) : State :=
  s.modCore c fun k => { k with queues := tmod CmdQueue.init k.queues q f }

/-- The state with a core's configuration changed. -/
def State.modCfg (s : State) (c : Nat) (f : CoreCfg → CoreCfg) : State :=
  s.modCore c fun k => { k with cfg := f k.cfg }

/-- Slot `i` of micro-batch queue `q`. -/
def Stage.slot (g : Stage) (q i : Nat) : Slot := tget Slot.init (tget [] g.slots q) i

/-- The stage with one slot changed. -/
def Stage.modSlot (g : Stage) (q i : Nat) (f : Slot → Slot) : Stage :=
  { g with slots := tmod [] g.slots q fun t => tmod Slot.init t i f }

/-- What an output queue knows of remote slot `i`. -/
def Stage.rslot (g : Stage) (q i : Nat) : RemoteSlot := tget RemoteSlot.init (tget [] g.remote q) i

/-- The stage with one remote slot changed. -/
def Stage.modRemote (g : Stage) (q i : Nat) (f : RemoteSlot → RemoteSlot) : Stage :=
  { g with remote := tmod [] g.remote q fun t => tmod RemoteSlot.init t i f }

/-- Micro-batch queue `q`, where it is configured. -/
def Stage.queue (g : Stage) (q : Nat) : Option MbQueue := tget none g.queues q

/-- Bilpoys port `p`. -/
def State.port (s : State) (p : Nat) : Port := tget Port.init s.fabric.ports p

/-- The state with one port changed. -/
def State.modPort (s : State) (p : Nat) (f : Port → Port) : State :=
  { s with fabric := { s.fabric with ports := tmod Port.init s.fabric.ports p f } }

/-- Endpoint table entry `e`. -/
def State.endpoint (s : State) (e : Nat) : Option Endpoint := tget none s.fabric.endpoints e

/-- RoCE v2 connection `c`. -/
def State.conn (s : State) (c : Nat) : Option Conn := tget none s.eth.conns c

/-- The state with one connection changed, where it exists. -/
def State.modConn (s : State) (c : Nat) (f : Conn → Conn) : State :=
  { s with eth := { s.eth with conns := tmod none s.eth.conns c (Option.map f) } }

/-- Ethernet port `p`. -/
def State.ethPort (s : State) (p : Nat) : EthPort := tget EthPort.init s.eth.ports p

/-- The state with one Ethernet port changed. -/
def State.modEth (s : State) (p : Nat) (f : EthPort → EthPort) : State :=
  { s with eth := { s.eth with ports := tmod EthPort.init s.eth.ports p f } }

/-- Mailbox channel `n`. -/
def State.chan (s : State) (n : Nat) : Channel := tget Channel.init s.mbx.chans n

/-- The state with one mailbox channel changed. -/
def State.modChan (s : State) (n : Nat) (f : Channel → Channel) : State :=
  { s with mbx := { s.mbx with chans := tmod Channel.init s.mbx.chans n f } }

/-- The device sends something (log entry 2). -/
def State.emit (s : State) (o : Out) : State := { s with out := o :: s.out }

/-- The next free 32-bit value (log entry 3). -/
def State.freshWord (s : State) : BitVec 32 × State := (Config.freeWord s.fresh, { s with fresh := s.fresh + 1 })

/-- Some clock runs: power is good and no thermal trip has stopped the clocks (R667, R693). -/
def State.clocked (s : State) : Bool := s.boot.pwrgood && !s.power.thermtrip

/-- The firmware serves its interfaces: it is READY, and no thermal trip has stopped its clock (R51, R693). -/
def State.ready (s : State) : Bool := s.boot.fwStage == 6 && !s.power.thermtrip

/-- Itkan runs: from INIT to READY (R678). -/
def State.itkan (s : State) : Bool := decide (3 ≤ s.boot.fwStage.toNat) && decide (s.boot.fwStage.toNat ≤ 6)

/-- The message of an MSI-X vector goes out: its table entry's data to its address (R731). -/
def State.sendMsix (s : State) (v : Nat) : State := s.emit (.msix v (tget 0 s.irq.msixAddr v) (tget 0 s.irq.msixData v))

/-- An MSI-X vector is raised: sent, or held pending while its vector control masks it (R731, log entry 6). -/
def State.raise (s : State) (v : Nat) : State :=
  if bit (tget 1 s.irq.msixCtl v) 0 then { s with irq := { s.irq with pba := s.irq.pba ||| (1#64 <<< v) } }
  else s.sendMsix v

/-- A bit of FW_IRQ_STATUS is set; a bit that becomes 1 raises FW_IRQ_CTL's vector while ENABLE is 1 (R731). -/
def State.setIrq (s : State) (i : Nat) : State :=
  if bit s.irq.status i then s
  else
    let s' : State := { s with irq := { s.irq with status := s.irq.status ||| (1#3 <<< i) } }
    if s.irq.enable then s'.raise s.irq.vector.toNat else s'

/-- FW_STAGE takes a value; a change sets STAGE of FW_IRQ_STATUS (R678, R727). -/
def State.setFwStage (s : State) (v : BitVec 4) : State :=
  if s.boot.fwStage = v then s
  else ({ s with boot := { s.boot with fwStage := v } } : State).setIrq 0

/-- ALERT_N is asserted; going from released to asserted sets ALERT of FW_IRQ_STATUS (R607, R619). -/
def State.assertAlert (s : State) : State :=
  if s.err.alert then s
  else (({ s with err := { s.err with alert := true } } : State).setIrq 2).emit (.alert true)

/-- The latch number of a unit (R611). -/
def latchNo (cls idx : Nat) : Nat :=
  match cls with
  | 0 => idx
  | 1 => 24 + idx
  | 2 => 32 + idx
  | 3 => 40 + idx
  | 4 => 44 + idx
  | 5 => 62 + idx
  | 6 => 64
  | 7 => 65 + idx
  | 8 => 73
  | _ => 74

/-- The first-error latch of an event's unit sees the event (R611). -/
def latchError (e : Errors) (r : ErrRec) : Errors :=
  let n := latchNo r.unitClass.toNat r.unitIndex.toNat
  let v : Latch :=
    match tget none e.latches n with
    | none => { first := r, highest := r.severity, count := 1 }
    | some l => { l with highest := if l.highest.toNat < r.severity.toNat then r.severity else l.highest, count := if l.count = 255 then 255 else l.count + 1 }
  { e with latches := tset none e.latches n (some v) }

/-- A detected error is passed to the control complex: its unit's latch sees it, and its severity's event queue takes it or loses it (R611, R619, R621, R623). -/
def State.postErr (s : State) (r : ErrRec) : State :=
  let r : ErrRec := { r with gtc := s.clock.gtc, fwInstance := s.boot.fwInstance }
  let e := latchError s.err r
  let sev := r.severity.toNat
  let q := tget [] e.queues sev
  if q.length < 64 then { s with err := { e with queues := tset [] e.queues sev (q ++ [r]) } }
  else
    let s' : State := { s with err := { e with overflow := satInc e.overflow 1, alertLost := e.alertLost || decide (2 ≤ sev) } }
    if 2 ≤ sev then s'.assertAlert else s'

/-- An event of a unit with a status and a severity. -/
def mkErr (status sev cls idx : Nat) : ErrRec :=
  { ErrRec.init with status := BitVec.ofNat 16 status, severity := BitVec.ofNat 2 sev, unitClass := BitVec.ofNat 4 cls, unitIndex := BitVec.ofNat 8 idx }

/-- An event that no status describes: STATUS OK with EVENT and its argument in DETAIL (R746). -/
def mkEvent (event arg sev cls idx : Nat) : ErrRec :=
  { mkErr 0 sev cls idx with detail := BitVec.ofNat 32 (event + 256 * arg) }

/-- The started command `id` of a queue. -/
def State.started (s : State) (c q id : Nat) : Option Started := (s.queue c q).started.find? fun e => e.id == id

/-- The state with a started command changed. -/
def State.modStarted (s : State) (c q id : Nat) (f : Started → Started) : State :=
  s.modQueue c q fun u => { u with started := u.started.map fun e => if e.id = id then f e else e }

/-- Every core index. -/
def allCores : List Nat := List.range 24

/-- Every queue of every core. -/
def allQueues : List (Nat × Nat) := allCores.flatMap fun c => (List.range 4).map fun q => (c, q)

/-- Every started command, as core, queue and itself. -/
def State.allStarted (s : State) : List (Nat × Nat × Started) :=
  allQueues.flatMap fun cq => (s.queue cq.1 cq.2).started.map fun e => (cq.1, cq.2, e)

/-- Every command admitted and not completed: those armed and not started, and those started, as core, queue and descriptor. -/
def State.allArmed (s : State) : List (Nat × Nat × BitVec 512) :=
  allQueues.flatMap fun cq => (s.queue cq.1 cq.2).armed.flatMap fun b => (b.cmds.drop b.nStarted).map fun d => (cq.1, cq.2, d)

/-- CMD_OP of a descriptor. -/
def cmdOp (d : BitVec 512) : Nat := fld d 7 0

/-- The body of a descriptor (R92). -/
def cmdBody (d : BitVec 512) : BitVec 384 := fb d 128 384

/-- The device's board slot equals all ones: the coordinates are unset (R482). -/
def State.coordSet (s : State) : Bool := s.fabric.coord != 0xFFFFFFFFFFFF

/-- Pod, board and slot packed as PEER_COORD does (R490). -/
def packCoord (pod board slot : BitVec 16) : BitVec 48 := pod ++ board ++ slot

end Sys2Proof.Machine
end

