-- ==== Sys2Proof/Machine/Mem.lean ====
section
/-! DEFINITION. The addressed memories: HBM with poison, weak words and failed channels (R306 to R322, R747), scratchpads with parity and power segments (R255, R300 to R304), armed ring entries (R102), and the scratchpad's tags (R271). -/

namespace Sys2Proof.Machine

/-- Where a device address lies (R310). -/
inductive Place where
  | hbm (a : Nat)
  | spad (core a : Nat)
  | nowhere
  deriving DecidableEq, Repr

/-- The first address above HBM (R310). -/
def hbmTop : Nat := 0x6000000000

/-- The first scratchpad address (R310). -/
def spadBase : Nat := 0x8000000000

/-- The size of one scratchpad (R255). -/
def spadSize : Nat := 0x1000000

/-- The place of a device address (R310). -/
def placeOf (a : Nat) : Place :=
  if a < hbmTop then .hbm a
  else if spadBase ≤ a ∧ a < spadBase + 24 * spadSize then .spad ((a - spadBase) / spadSize) ((a - spadBase) % spadSize)
  else .nowhere

/-- A footprint lies wholly in HBM or wholly in one scratchpad (R311). -/
def rangeOk (a n : Nat) : Bool :=
  match placeOf a with
  | .hbm x => decide (x + n ≤ hbmTop)
  | .spad _ x => decide (x + n ≤ spadSize)
  | .nowhere => false

/-- The global channel of an HBM address (R314). -/
def chanOf (addr : Nat) : Nat :=
  let g := addr >>> 12
  let c := (g % 128) ^^^ ((g >>> 7) % 128) ^^^ ((g >>> 14) % 128) ^^^ ((g >>> 21) % 64)
  16 * (c % 8) + c / 8

/-- The channel offset of an HBM address (R314). -/
def chanOffset (addr : Nat) : Nat := (addr >>> 19) * 4096 + addr % 4096

/-- A byte on its way: its value, whether its source word was marked poisoned, and whether its access was performed. -/
structure Bt where
  val : Byte
  mark : Bool
  got : Bool
  deriving DecidableEq, Repr

/-- A clean byte. -/
def Bt.clean (b : Byte) : Bt := { val := b, mark := false, got := true }

/-- Clean bytes. -/
def cleanBytes (bs : List Byte) : List Bt := bs.map Bt.clean

/-- Marked bytes (R748, R550). -/
def markBytes (m : Bool) (bs : List Byte) : List Bt := bs.map fun b => { val := b, mark := m, got := true }

/-- A run of values cut at the multiples of `w`, each piece with its address. `fuel` bounds the pieces. -/
def pieces {α : Type} (w : Nat) : Nat → Nat → List α → List (Nat × List α)
  | 0, _, _ => []
  | fuel + 1, a, xs =>
    if xs.isEmpty then []
    else
      let n := w - a % w
      (a, xs.take n) :: pieces w fuel (a + n) (xs.drop n)

/-- A run of addresses cut at the multiples of `w`, as address and length. -/
def spans (w : Nat) : Nat → Nat → Nat → List (Nat × Nat)
  | 0, _, _ => []
  | fuel + 1, a, n =>
    if n = 0 then []
    else
      let k := min n (w - a % w)
      (a, k) :: spans w fuel (a + k) (n - k)

/-- The pieces of a run at the multiples of `w`. -/
def spansOf (w a n : Nat) : List (Nat × Nat) := spans w (n / w + 2) a n

/-- The channel of an address has failed (R309). -/
def Hbm.failedAt (h : Hbm) (a : Nat) : Bool := h.failed.getLsbD (chanOf a)

/-- A 32-byte word holds poison or an uncorrectable error. -/
def Hbm.spoilt (h : Hbm) (w : Nat) : Bool := tget false h.poison w || tget false h.broken w

/-- A 32-byte word reads as poisoned (R316, R747). -/
def Hbm.bad (h : Hbm) (w : Nat) : Bool := h.spoilt w || h.failedAt (32 * w)

/-- The uncorrectable errors that a read of some words meets are counted (R321). A failed channel is not read (R747). -/
def Hbm.countBroken (h : Hbm) (lo hi : Nat) : Hbm :=
  let n := (h.broken.filter fun e => decide (lo ≤ e.1) && decide (e.1 < hi) && !h.failedAt (32 * e.1)).length
  if n = 0 then h else { h with uncorrected := satInc h.uncorrected n }

/-- One byte of HBM; a failed channel returns a value that the spec does not state (R747, log entry 3). -/
def State.hbmByte (s : State) (a : Nat) : Byte :=
  if s.hbm.failedAt a then Config.freeByte s.fresh a else tget 0 s.hbm.mem a

/-- The single-bit errors in a range of words are corrected and written back, each with its count and record (R316, R746). -/
def correctWeak (s : State) (a n : Nat) : State :=
  let lo := a / 32
  let hi := (a + n + 31) / 32
  let hit := s.hbm.weak.filter fun e => decide (lo ≤ e.1) && decide (e.1 < hi) && !s.hbm.failedAt (32 * e.1)
  hit.foldl
    (fun s e =>
      let st := chanOf (32 * e.1) / 16
      let s : State := { s with hbm := { s.hbm with weak := tset false s.hbm.weak e.1 false, corrected := tmod 0 s.hbm.corrected st fun v => satInc v 1 } }
      s.postErr { mkEvent 1 0 0 1 st with address := BitVec.ofNat 40 (32 * e.1) })
    s

/-- An HBM read: the bytes with their marks, and the first poisoned word met (R316, R317). -/
def hbmRead (s : State) (a n : Nat) : List Bt × Option Nat × State :=
  let s := correctWeak s a n
  let row (p : Nat × Nat) : List Bt :=
    let m := s.hbm.bad (p.1 / 32)
    (List.range p.2).map fun i => { val := s.hbmByte (p.1 + i), mark := m, got := true }
  let sp := spansOf 32 a n
  let first := sp.find? fun p => s.hbm.bad (p.1 / 32)
  let s' : State := if sp.any fun p => s.hbm.failedAt p.1 then { s with fresh := s.fresh + 1 } else s
  let s' : State := { s' with hbm := s'.hbm.countBroken (a / 32) ((a + n + 31) / 32) }
  (sp.flatMap row, first.map fun p => p.1 / 32 * 32, s')

/-- What an HBM range holds, without a read of it. -/
def State.hbmBytes (s : State) (a n : Nat) : List Byte := (List.range n).map fun i => s.hbmByte (a + i)

/-- The ring entries of every armed block that has not retired (R102), as ranges of HBM. -/
def armedRanges (s : State) : List (Nat × Nat) :=
  allQueues.flatMap fun cq =>
    let u := s.queue cq.1 cq.2
    match u.ring with
    | none => []
    | some r =>
      u.armed.flatMap fun b =>
        let size := 2 ^ r.log2
        let i := b.start.toNat % size
        let n := b.cmds.length
        let first := min n (size - i)
        [(r.base + 64 * i, 64 * first), (r.base, 64 * (n - first))]

/-- What an HBM write met: the first word discarded in a failed channel, and the first poisoned word written in part (R319, R747). -/
structure Wr where
  s : State
  lost : Option Nat
  part : Option Nat

/-- The read half of a read-modify-write of one word: a single-bit error is corrected, an uncorrectable one is counted (R306, R316, R321). -/
def readWord (s : State) (idx : Nat) : State :=
  let s := correctWeak s (32 * idx) 32
  { s with hbm := s.hbm.countBroken idx (idx + 1) }

/-- One word's part of an HBM write; a write of less than the word reads it first (R306). -/
def hbmWriteWord (dropped : Nat → Nat → Bool) (w : Wr) (p : Nat × List Bt) : Wr :=
  let bs := p.2
  let live := bs.any fun b => b.got
  if !live || dropped p.1 bs.length then w
  else if w.s.hbm.failedAt p.1 then { w with lost := w.lost.orElse fun _ => some (p.1 / 32 * 32) }
  else
    let idx := p.1 / 32
    let full := bs.length == 32 && bs.all fun b => b.got
    let s := if full then w.s else readWord w.s idx
    let old := s.hbm.spoilt idx
    let mark := bs.any (fun b => b.got && b.mark) || (old && !full)
    let mem := (bs.zipIdx p.1).foldl (fun m x => if x.1.got then tset 0 m x.2 x.1.val else m) s.hbm.mem
    let weak := if full then tset false s.hbm.weak idx false else s.hbm.weak
    { w with
      s := { s with hbm := { s.hbm with mem := mem, poison := tset false s.hbm.poison idx mark, weak := weak, broken := if full || old then tset false s.hbm.broken idx false else s.hbm.broken } }
      part := if old && !full then w.part.orElse (fun _ => some (32 * idx)) else w.part }

/-- An HBM write by any requester. Bytes for armed ring entries are dropped and the drop is logged (R102); bytes for failed channels are discarded (R747); a word takes the poison of its bytes (R318, R319). -/
def hbmWrite (s : State) (a : Nat) (bs : List Bt) : Wr :=
  let arm := (armedRanges s).filter fun r => overlaps r.1 r.2 a bs.length
  let dropped (x n : Nat) : Bool := arm.any fun r => overlaps r.1 r.2 x n
  let w := (pieces 32 (bs.length / 32 + 2) a bs).foldl (hbmWriteWord dropped) { s := s, lost := none, part := none }
  if arm.isEmpty then w
  else { w with s := w.s.postErr { mkErr 0x300 0 1 (chanOf a / 16) with address := BitVec.ofNat 40 a } }

/-- The power segment of a local address (R255). -/
def segOf (a : Nat) : Nat := a / 0x400000

/-- A local address lies in a segment that is off or being zeroed (R300, R301). -/
def Core.segDead (k : Core) (a : Nat) : Bool := k.segOff.getLsbD (segOf a) || k.segZeroing.getLsbD (segOf a)

/-- What a scratchpad access met: the first word with bad parity, and the first address in a dead segment. -/
structure SpadRd where
  bytes : List Bt
  parity : Option Nat
  dead : Option Nat
  deriving DecidableEq, Repr

/-- A read of a scratchpad by physical address. An access to a dead segment is not performed, and its bytes are free values (R300, R302; log entry 3). -/
def spadRead (s : State) (c a n : Nat) : SpadRd :=
  let k := s.core c
  let row (p : Nat × Nat) : List Bt :=
    if k.segDead p.1 then (List.range p.2).map fun i => { val := Config.freeByte s.fresh (p.1 + i), mark := false, got := false }
    else
      let m := tget false k.badWords (p.1 / 4)
      (List.range p.2).map fun i => { val := tget 0 k.spad (p.1 + i), mark := m, got := true }
  let sp := spansOf 4 a n
  { bytes := sp.flatMap row
    parity := (sp.find? fun p => !k.segDead p.1 && tget false k.badWords (p.1 / 4)).map fun p => p.1
    dead := (sp.find? fun p => k.segDead p.1).map fun p => p.1 }

/-- What a scratchpad write met: the first word left with bad parity by a partial write (R304), and the first address in a dead segment. -/
structure SpadWr where
  core : Core
  parity : Option Nat
  dead : Option Nat

/-- One word's part of a scratchpad write: the enabled bytes are merged and the parity follows (R258, R304, R318). -/
def spadWriteWord (w : SpadWr) (p : Nat × List Bt) : SpadWr :=
  let k := w.core
  if !(p.2.any fun b => b.got) then w
  else if k.segDead p.1 then { w with dead := w.dead.orElse fun _ => some p.1 }
  else
    let idx := p.1 / 4
    let full := p.2.length == 4 && p.2.all fun b => b.got
    let old := tget false k.badWords idx
    let mem := (p.2.zipIdx p.1).foldl (fun m x => if x.1.got then tset 0 m x.2 x.1.val else m) k.spad
    let bad := p.2.any (fun b => b.got && b.mark) || (old && !full)
    { w with
      core := { k with spad := mem, badWords := tset false k.badWords idx bad }
      parity := if old && !full then w.parity.orElse (fun _ => some p.1) else w.parity }

/-- A write to a scratchpad by physical address. -/
def spadWrite (s : State) (c a : Nat) (bs : List Bt) : State × Option Nat × Option Nat :=
  let w := (pieces 4 (bs.length / 4 + 2) a bs).foldl spadWriteWord { core := s.core c, parity := none, dead := none }
  ({ s with cores := tset Core.init s.cores c w.core }, w.parity, w.dead)

/-- The bytes without their marks. -/
def vals (bs : List Bt) : List Byte := bs.map fun b => b.val

/-- A byte of the run is marked. -/
def anyMark (bs : List Bt) : Bool := bs.any fun b => b.got && b.mark

/-- The tag slots that a range touches (R271). -/
def tagSlots (a n : Nat) : List Nat :=
  if n = 0 then [] else (List.range ((a + n - 1) / 2048 - a / 2048 + 1)).map fun i => a / 2048 + i

/-- A tag slot is FULL (R271). -/
def Core.full (k : Core) (slot : Nat) : Bool := tget false k.tags slot

/-- A device write by address, in HBM or a scratchpad, with the first fault it met as status and detail (R317, R747; R300, R304). -/
def devWrite (s : State) (a : Nat) (bs : List Bt) : State × List (Nat × Nat) :=
  match placeOf a with
  | .hbm x =>
    let w := hbmWrite s x bs
    (w.s, (w.lost.toList ++ w.part.toList).map fun p => (0x402, p / 256))
  | .spad c x =>
    let w := spadWrite s c x bs
    (w.1, (w.2.1.toList.map fun p => (0x400, p)) ++ (w.2.2.toList.map fun p => (0x302, p)))
  | .nowhere => (s, [])

/-- A device read by address, with the faults it met as status and detail (R300, R303, R317). -/
def devRead (s : State) (a n : Nat) : List Bt × List (Nat × Nat) × State :=
  match placeOf a with
  | .hbm x =>
    let r := hbmRead s x n
    (r.1, r.2.1.toList.map (fun p => (0x402, p / 256)), r.2.2)
  | .spad c x =>
    let r := spadRead s c x n
    (r.bytes, (r.parity.toList.map fun p => (0x400, p)) ++ (r.dead.toList.map fun p => (0x302, p)), if r.dead.isSome then { s with fresh := s.fresh + 1 } else s)
  | .nowhere => ([], [], s)

/-- The host-window lines of an HBM range, with their tracker state (R560, R561). -/
def windowLines (s : State) (a n : Nat) : List (Nat × Bool) :=
  match s.host.window with
  | none => []
  | some w =>
    s.host.tracker.filterMap fun e =>
      match e.2 with
      | none => none
      | some st => if overlaps (w.1 + 64 * e.1) 64 a n then some (e.1, st) else none

/-- The lines that must be snooped before a device access: state A for a read, S or A for a write (R561). -/
def snoopsFor (s : State) (a n : Nat) (write : Bool) : List Nat :=
  ((windowLines s a n).filter fun l => write || l.2).map fun l => l.1

/-- A device access to a line waits on its snoop (R563). -/
def State.snooped (s : State) (line : Nat) : Bool := s.host.snoops.any fun p => p.line == line

/-- The host does not answer, and an access needs a snoop that has not been sent (R566). -/
def State.cannotSnoop (s : State) (lines : List Nat) : Bool := s.host.unresponsive && lines.any fun l => !s.snooped l

/-- Snoops are sent for lines that have none outstanding (R561). -/
def sendSnoops (s : State) (lines : List Nat) (inv : Bool) : State :=
  lines.foldl
    (fun s l =>
      if s.snooped l then s
      else ({ s with host := { s.host with snoops := s.host.snoops ++ [{ line := l, inv := inv, crossed := false }] } } : State).emit (.snoop l inv))
    s

end Sys2Proof.Machine
end

