-- ==== Sys2Proof/Machine/Flags.lean ====
section
/-! DEFINITION. Statuses: the codes of R90, their ranking (R610), and the result of a running command as it accumulates status, detail, flags and SUSPECT. -/

namespace Sys2Proof.Machine

/-- The rank of a status; 1 is the highest (R610). -/
def rankOf (st : Nat) : Nat :=
  match st with
  | 0x501 => 1
  | 0x402 => 2
  | 0x400 => 3
  | 0x403 => 4
  | 0x401 => 5
  | 0x500 => 6
  | 0x507 => 7
  | 0x506 => 8
  | 0x301 => 9
  | 0x504 => 10
  | 0x505 => 10
  | 0x502 => 10
  | 0x300 => 11
  | 0x302 => 12
  | 0x308 => 13
  | 0x309 => 14
  | 0x307 => 15
  | 0x305 => 16
  | 0x306 => 17
  | 0x304 => 18
  | 0x303 => 19
  | 0x201 => 20
  | 0x101 => 21
  | 0x205 => 22
  | 0x600 => 23
  | 0x001 => 24
  | _ => 25

/-- A started command meets a failure: the failure of highest rank stays, the earlier one among equals (R610). -/
def Started.fault (e : Started) (st detail : Nat) : Started :=
  if rankOf st < rankOf e.status.toNat then { e with status := BitVec.ofNat 16 st, detail := BitVec.ofNat 32 detail } else e

/-- Poison, parity, a checksum mismatch and a corrupt store block also mark the output suspect (R180, R303, R317, R340). -/
def Started.faultS (e : Started) (st detail : Nat) : Started :=
  { e.fault st detail with suspect := e.suspect || st == 0x400 || st == 0x401 || st == 0x402 || st == 0x403 }

/-- A command whose status an operation changed remembers the operation's endpoint (spec 17, Error record). -/
def Started.byPeer (new old : Started) (ep : BitVec 12) : Started := if new.status = old.status then new else { new with peer := ep }

/-- A response or loss of a network operation reaches its command: its status, and whether the operation was refused or lost, which poison and parity of written bytes are not (R303, R467, R545). -/
def Started.opEnds (e : Started) (st detail : Nat) (ep : BitVec 12) : Started :=
  if st = 0 then e
  else { ((e.faultS st detail).byPeer e ep) with opLost := e.opLost || !(st == 0x400 || st == 0x402) }

/-- DETAIL of a status for which the spec states none (log entry 3). -/
def openDetail (c q : Nat) (e : Started) (st : Nat) : BitVec 32 := Config.freeDetail c q e.index e.desc e.seed e.step (BitVec.ofNat 16 st)

/-- Flags accumulate (R151). -/
def Started.flag (e : Started) (f : Flags) : Started := { e with flags := e.flags ||| f }

/-- A started command at work: the device, the command's core and queue, and the command itself. -/
structure Run where
  s : State
  core : Nat
  queue : Nat
  e : Started

/-- The running command meets a failure. -/
def Run.fault (r : Run) (st detail : Nat) : Run := { r with e := r.e.faultS st detail }

/-- The running command meets several failures, in order. -/
def Run.faults (r : Run) (fs : List (Nat × Nat)) : Run := fs.foldl (fun r f => r.fault f.1 f.2) r

/-- The running command raises flags. -/
def Run.flag (r : Run) (f : Flags) : Run := { r with e := r.e.flag f }

/-- Nothing remains to do. -/
def Run.finish (r : Run) : Run := { r with e := { r.e with done := true, wait := .none } }

/-- The command ends with a failure, nothing further performed. -/
def Run.failWith (r : Run) (st detail : Nat) : Run := (r.fault st detail).finish

/-- The command waits. -/
def Run.block (r : Run) (w : Wait) : Run := { r with e := { r.e with wait := w } }

/-- The running command remembers the endpoint that gave it its status. -/
def Run.byPeer (new old : Run) (ep : BitVec 12) : Run := { new with e := new.e.byPeer old.e ep }

/-- A field of the command's body. -/
def Run.field (r : Run) (hi lo : Nat) : Nat := fld (cmdBody r.e.desc) hi lo

/-- The core's state. -/
def Run.k (r : Run) : Core := r.s.core r.core

/-- The running command meets a failure whose DETAIL the spec does not state. -/
def Run.openFault (r : Run) (st : Nat) : Run := r.fault st (openDetail r.core r.queue r.e st).toNat

/-- A payload of an owner passes the fabric's buffers: whether it meets bad parity there, and the state after it (R6, R629). -/
def State.struck (s : State) (o : Option (Nat × Nat × Nat)) : Bool × State :=
  match s.strikes.find? fun x => decide (x.owner = o) with
  | none => (false, s)
  | some x =>
    let rest := dropFirst (fun y => decide (y = x)) s.strikes
    if x.skip = 0 then (true, { s with strikes := rest }) else (false, { s with strikes := { x with skip := x.skip - 1 } :: rest })

/-- A payload of the running command passes the fabric's buffers: bad parity there poisons it, and the command ends with PARITY (R6, R318, R629). -/
def Run.fabric (r : Run) (bs : List Bt) : List Bt × Run :=
  if bs.isEmpty then (bs, r)
  else
    let x := r.s.struck (some (r.core, r.queue, r.e.id))
    let r' : Run := { r with s := x.2 }
    if x.1 then (bs.map fun b => { b with mark := true }, r'.openFault 0x400) else (bs, r')

end Sys2Proof.Machine
end

