-- ==== Sys2Proof/Machine/Waits.lean ====
section
/-! DEFINITION. What ends a program-defined wait: counters that WAIT compares (R94, R95, R111, R290 to R292), and scratchpad tags, whose every change is seen by the commands blocked on it (R271 to R277). -/

namespace Sys2Proof.Machine

/-- A core with each of its started commands changed. -/
def Core.mapStarted (k : Core) (f : Started → Started) : Core :=
  { k with queues := k.queues.map fun e => (e.1, { e.2 with started := e.2.started.map f }) }

/-- How a WAIT ends, as status and detail; none while it must wait: its counter reaches THRESHOLD, or its arrival counter is saturated (R95, R292). -/
def waitEnd (k : Core) (d : BitVec 512) : Option (Nat × Nat) :=
  let b := cmdBody d
  let i := fld b 15 8
  if fld b 1 0 = 0 then (if fld b 63 32 ≤ (tget 0 k.events i).toNat then some (0, 0) else none)
  else
    let n := tget Counter.init k.cfg.counters i
    if n.overflow then some (0x307, i) else if fld b 63 32 ≤ n.value.toNat then some (0, 0) else none

/-- A started command's work is over, with a status where it is not OK. -/
def Started.over (e : Started) (r : Nat × Nat) : Started := { (if r.1 = 0 then e else e.fault r.1 r.2) with done := true, wait := .none }

/-- A WAIT in progress ends where its counter lets it (R95, R292). -/
def Started.settle (k : Core) (e : Started) : Started :=
  if cmdOp e.desc == 0x01 && !e.done then (match waitEnd k e.desc with | none => e | some r => e.over r) else e

/-- A core's counters have changed, and its WAITs in progress follow. -/
def Core.settle (k : Core) : Core := k.mapStarted (Started.settle k)

/-- An event counter takes an addition; passing 0xFFFF_FFFF holds it there (R94). The flag says that it did. -/
def addEvent (s : State) (c i n : Nat) : State × Bool :=
  let r := satAdd32 (tget 0 (s.core c).events i) n
  (s.modCore c fun k => ({ k with events := tset 0 k.events i r.1 } : Core).settle, r.2)

/-- An arrival counter adds frame bytes, or one message at the last byte, saturating with OVERFLOW (R290, R292). -/
def countArrival (k : Counter) (bytes : Nat) (last : Bool) : Counter :=
  let n := if k.messages then (if last then 1 else 0) else bytes
  let r := satAdd32 k.value n
  { k with value := r.1, overflow := k.overflow || r.2 }

/-- A core with one arrival counter changed (R290, R291). -/
def Core.modCounter (k : Core) (i : Nat) (f : Counter → Counter) : Core :=
  ({ k with cfg := { k.cfg with counters := tmod Counter.init k.cfg.counters i f } } : Core).settle

/-- Arrival counter `i` of core `c` counts an arrival (R290). -/
def State.arrive (s : State) (c i bytes : Nat) (last : Bool) : State :=
  s.modCore c fun k => k.modCounter i fun n => countArrival n bytes last

/-- The tag slots that a command awaits while it is blocked on slot `n`: those of its TAG range, or that slot (R272, R274). -/
def Started.awaits (e : Started) (n i : Nat) : Bool :=
  if cmdOp e.desc == 0x33 then
    let b := cmdBody e.desc
    decide (fld b 12 0 ≤ i) && decide (i ≤ fld b 12 0 + fld b 28 16)
  else i == n

/-- The first slot of a TAG range whose condition the command has not met yet (R274). -/
def Started.firstUnmet (e : Started) (full : Bool) : Option Nat :=
  let b := cmdBody e.desc
  ((List.range (fld b 28 16 + 1)).map fun j => fld b 12 0 + j).find? fun i => !e.granted.contains (i, full)

/-- A blocked command sees tag slots change to a value: the conditions met are kept, and it is blocked no more once none is missing (R274, R276, R277). -/
def Started.wakeTags (slots : List Nat) (v : Bool) (e : Started) : Started :=
  match e.wait with
  | .tagSlot n full _ =>
    if full = v then
      let met := slots.filter fun i => e.awaits n i && !e.granted.contains (i, v)
      if met.isEmpty then e
      else
        let e : Started := { e with granted := e.granted ++ met.map fun i => (i, v) }
        if cmdOp e.desc = 0x33 then { e with wait := match e.firstUnmet v with | none => .none | some i => .tagSlot i v (2048 * i) }
        else { e with wait := .none }
    else e
  | _ => e

/-- Tag slots set FULL or EMPTY, and seen by the commands of the core that are blocked on them (R271, R276). -/
def Core.setTags (k : Core) (slots : List Nat) (v : Bool) : Core :=
  if slots.isEmpty then k
  else ({ k with tags := slots.foldl (fun t i => tset false t i v) k.tags } : Core).mapStarted (Started.wakeTags slots v)

/-- The tags of a physical range are set FULL where its segments are on: publish (R271, R300, R477). -/
def State.publish (s : State) (c a n : Nat) : State :=
  s.modCore c fun k => k.setTags ((tagSlots a n).filter fun i => !k.segDead (2048 * i)) true

end Sys2Proof.Machine
end

