-- ==== Sys2Proof/Machine/Links.lean ====
section
/-! DEFINITION. The link layer: frames, credits, sequence numbers, sessions, HELLO, network tags and operations (spec 12; R113, R467 to R470), and frames over RoCE v2 connections (R574). -/

namespace Sys2Proof.Machine

/-- A frame with every field zero. -/
def Frame.zero : Frame :=
  { mb := 0, slotGen := 0, offset := 0, slot := 0, queue := 0, window := 0, core := 0, publish := false, last := false, poison := false, reason := 0, srcEp := 0, dstEp := 0, tagGen := 0, tag := 0, lenM1 := 0, ack := 0, seq := 0, crVc := 0, crUnits := 0, replayReq := false, payload := [] }

/-- The virtual channel of a frame type (R444). -/
def vcOf (ty : Nat) : Nat := if ty = 5 then 1 else if ty = 6 ∨ ty = 7 then 2 else 0

/-- The credits of a frame in 256-byte units (R455). -/
def unitsOf (f : Frame) : Nat := ceilDiv (32 + f.payload.length) 256

/-- The firmware version of the running image (R75, R448). -/
def State.fwVersion (s : State) : BitVec 32 :=
  match s.boot.image with
  | none => 0x00000203
  | some i => i.fwVersion

/-- The profiles that the device offers in its time mode (R503). -/
def State.offered (s : State) : BitVec 5 :=
  if s.clock.mode = 1 then s.fabric.profileMask else s.fabric.profileMask &&& 0b01011

/-- The device's own HELLO on a port (R448, R449). -/
def State.ownHello (s : State) (p : Nat) : Hello :=
  { wiringHash := s.fabric.wiringHash
    pod := fb s.fabric.coord 32 16
    board := fb s.fabric.coord 16 16
    slot := fb s.fabric.coord 0 16
    profiles := s.offered.setWidth 16
    mbxRev := 0x0302
    fwVersion := s.fwVersion
    generation := 3
    linkVersion := (s.port p).maxVersion.setWidth 8
    port := BitVec.ofNat 8 p
    status := if s.boot.quarantined then 1 else 0 }

/-- A HELLO leaves on a port. -/
def State.sendHello (s : State) (p : Nat) : State := s.emit (.hello p (s.ownHello p))

/-- A fresh HELLO leaves on every port that is not DISABLED (R449). -/
def State.helloAll (s : State) : State :=
  (List.range 18).foldl (fun s p => if (s.port p).state = 0 then s else s.sendHello p) s

/-- A LINK_CTL frame leaves on a port: the acknowledgement, a credit return and perhaps a replay request (R456, R460). -/
def State.sendLinkCtl (s : State) (p vc units : Nat) (replay : Bool) : State :=
  s.emit (.frame (.port (Fin.ofNat 18 p)) 0 { Frame.zero with ack := (s.port p).rxSeq, crVc := BitVec.ofNat 2 vc, crUnits := BitVec.ofNat 14 units, replayReq := replay })

/-- Both limits on unacknowledged frames leave room for one more (R461). -/
def roomFor (u : List TxFrame) (f : Frame) : Bool :=
  decide (u.length < 4096) && decide ((u.map fun t => 36 + t.f.payload.length).sum + 36 + f.payload.length ≤ 2097152)

/-- The first queued frame of a virtual channel. -/
def firstOn (vc : Nat) (q : List TxFrame) : Option TxFrame := q.find? fun t => vcOf t.ty.toNat == vc

/-- A frame of a tag's own request has left, and its operation counts it (R466, R467). -/
def markSent (ops : List NetOp) (t : TxFrame) : List NetOp :=
  if 2 ≤ t.ty.toNat ∧ t.ty.toNat ≤ 4 then ops.map fun o => if o.tag = t.f.tag.toNat ∧ o.gen = t.f.tagGen then { o with sent := o.sent + 1 } else o
  else ops

/-- The next frame that an UP port may send: VC2 before VC1 before VC0, each in order and under its credits (R456, R457). A quarantined device sends no request (R607). -/
def nextTx (quarantined : Bool) (p : Port) : Option TxFrame :=
  if p.state != 2 then none
  else
    (if quarantined then [2, 1] else [2, 1, 0]).findSome? fun vc =>
      match firstOn vc p.queued with
      | none => none
      | some t => if decide (unitsOf t.f ≤ p.credits.getD vc 0) && roomFor p.unacked t.f then some t else none

/-- One port sends what it may. `fuel` bounds the frames. -/
def drainPort : Nat → State → Nat → State
  | 0, s, _ => s
  | fuel + 1, s, p =>
    match nextTx s.boot.quarantined (s.port p) with
    | none => s
    | some t =>
      let pt := s.port p
      let vc := vcOf t.ty.toNat
      let f : Frame := { t.f with seq := pt.txSeq, ack := pt.rxSeq }
      let s := s.modPort p fun pt =>
        { pt with txSeq := pt.txSeq + 1, unacked := pt.unacked ++ [{ t with f := f }], queued := dropFirst (fun x => vcOf x.ty.toNat == vc) pt.queued, credits := pt.credits.set vc (pt.credits.getD vc 0 - unitsOf t.f) }
      let s : State := { s with net := { s.net with ops := markSent s.net.ops t } }
      drainPort fuel (s.emit (.frame (.port (Fin.ofNat 18 p)) t.ty f)) p

/-- One port sends what it may. -/
def State.drain (s : State) (p : Nat) : State := drainPort (s.port p).queued.length s p

/-- The priority of a frame on a connection's port is paused (R569). -/
def ethPaused (e : EthPort) (ty : Nat) : Bool :=
  e.paused.getLsbD (if vcOf ty = 0 then e.reqPcp.toNat else e.spillPcp.toNat)

/-- The local queue pair of a connection (R573). -/
def localQpn (c : Nat) (spill : Bool) : Nat := 0x100 + 2 * c + (if spill then 1 else 0)

/-- The header of the next packet of one of a connection's queue pairs (R573). -/
def Conn.header (k : Conn) (c : Nat) (spill : Bool) : RoceHeader :=
  { qpn := localQpn c spill, remoteQpn := if spill then k.qpnSpill else k.qpnReq, udpSource := 0xC000 + localQpn c spill % 16384, udpDest := 4791, psn := k.txPsn + BitVec.ofNat 24 (if spill then k.sentSpill else k.sentReq) }

/-- A connection has sent some packets on one of its queue pairs, which await acknowledgement (R573, R578). -/
def Conn.sentPackets (k : Conn) (spill : Bool) (n : Nat) : Conn :=
  { k with unackedPkts := k.unackedPkts + n, sentReq := if spill then k.sentReq else k.sentReq + n, sentSpill := if spill then k.sentSpill + n else k.sentSpill }

/-- A request of a priority may leave on a connection: its port is UP, the priority is not paused, and a quarantined device sends no request (R569, R574, R578, R607). -/
def connSends (s : State) (k : Conn) (ty : Nat) : Bool :=
  !k.error && (s.ethPort k.port).up && !ethPaused (s.ethPort k.port) ty && !(s.boot.quarantined && vcOf ty == 0)

/-- Packets leave on one of a connection's queue pairs: their header shows, and they await acknowledgement (R573, R578). -/
def State.packets (s : State) (c : Nat) (spill : Bool) (n : Nat) : State :=
  match s.conn c with
  | none => s
  | some k => (s.emit (.packet c (k.header c spill))).modConn c fun k => k.sentPackets spill n

/-- A FRAME connection sends its queued frames of one virtual channel while it may (R569, R573, R574). `fuel` bounds the frames. -/
def drainConn (vc : Nat) : Nat → State → Nat → State
  | 0, s, _ => s
  | fuel + 1, s, c =>
    match s.conn c with
    | none => s
    | some k =>
      match firstOn vc k.queued with
      | none => s
      | some t =>
        if k.memory || !connSends s k t.ty.toNat then s
        else
          let s := s.packets c (vc != 0) (ceilDiv (32 + t.f.payload.length) 4096)
          let s := s.modConn c fun k => { k with queued := dropFirst (fun x => vcOf x.ty.toNat == vc) k.queued, unacked := k.unacked ++ [t] }
          let s : State := { s with net := { s.net with ops := markSent s.net.ops t } }
          drainConn vc fuel (s.emit (.frame (.conn (BitVec.ofNat 12 c)) t.ty t.f)) c

/-- Some connections send what they may: acknowledgements and credits first, then responses, then requests, each over all of them (R588, R591, R592). -/
def State.drainConns (s : State) (cs : List Nat) : State :=
  [2, 1, 0].foldl (fun s vc => cs.foldl (fun s c => drainConn vc (match s.conn c with | none => 0 | some k => k.queued.length) s c) s) s

/-- The frames waiting on a connection leave as they may. -/
def State.drainC (s : State) (c : Nat) : State := s.drainConns [c]

/-- A frame is handed to a port or a connection. -/
def State.sendFrame (s : State) (v : Via) (ty : Nat) (f : Frame) : State :=
  let t : TxFrame := { ty := BitVec.ofNat 4 ty, f := f }
  match v with
  | .port p => (s.modPort p.val fun pt => { pt with queued := pt.queued ++ [t] }).drain p.val
  | .conn c => (s.modConn c.toNat fun k => { k with queued := k.queued ++ [t] }).drainC c.toNat

/-- Several frames of one operation, in order. -/
def State.sendFrames (s : State) (v : Via) (fs : List (Nat × Frame)) : State :=
  match v with
  | .port p => (s.modPort p.val fun pt => { pt with queued := pt.queued ++ fs.map fun f => { ty := BitVec.ofNat 4 f.1, f := f.2 } }).drain p.val
  | .conn c => (s.modConn c.toNat fun k => { k with queued := k.queued ++ fs.map fun f => { ty := BitVec.ofNat 4 f.1, f := f.2 } }).drainC c.toNat

/-- The UP ports that an endpoint of KIND 0 may use (R492). -/
def State.upPorts (s : State) (e : Endpoint) : List Nat :=
  let up := (List.range 18).filter fun p => (s.port p).state == 2
  if e.portMask != 0 then up.filter fun p => e.portMask.getLsbD p
  else
    let near := up.filter fun p =>
      match (s.port p).ownHello with
      | none => false
      | some h => !(s.port p).switchSeen && packCoord h.pod h.board h.slot == e.coord
    if near.isEmpty then up.filter fun p => decide (p < 16) else near

/-- The path of an operation to an endpoint: the port chosen where it may be used, else the lowest that may (R472, log entry 11); a connection that is READY (R578). -/
def State.path (s : State) (e : Endpoint) (want : Nat) : Option Via :=
  if e.roce then
    match s.conn e.conn.toNat with
    | none => none
    | some k => if k.error || k.memory then none else some (.conn e.conn)
  else
    let ps := s.upPorts e
    if ps.contains want then some (.port (Fin.ofNat 18 want))
    else ps.head?.map fun p => .port (Fin.ofNat 18 p)

/-- The largest frame payload on a path (R440, R574). -/
def State.maxPayload (s : State) (v : Via) : Nat :=
  match v with
  | .port p => if (s.port p.val).version = 1 then 2048 else 4096
  | .conn _ => 4096

/-- The first network tag of a core's pool, and its size; core 24 stands for the firmware's pool (R112, log entry 13). -/
def tagPool (c : Nat) : Nat × Nat := if c < 24 then (1280 * c, 1280) else (30720, 2048)

/-- The lowest free network tag of a pool (R113, log entry 13). -/
def State.freeTag (s : State) (c : Nat) : Option Nat :=
  let p := tagPool c
  ((List.range p.2).map fun i => p.1 + i).find? fun t => !(s.net.ops.any fun o => o.tag == t)

/-- The generation of a network tag (R470). -/
def State.tagGen (s : State) (t : Nat) : BitVec 8 := tget 0 s.net.tagGen t

/-- An operation is taken up with its tag (R113). -/
def State.addOp (s : State) (o : NetOp) : State := { s with net := { s.net with ops := s.net.ops ++ [o] } }

/-- An operation ends: its tag returns and takes a new generation (R113, R470). -/
def State.endOp (s : State) (t : Nat) : State :=
  { s with net := { s.net with ops := s.net.ops.filter fun o => o.tag != t, tagGen := tmod 0 s.net.tagGen t fun g => g + 1 } }

/-- The own endpoint id: the SELF entry's (R490). -/
def State.selfEp (s : State) : Nat :=
  match s.fabric.endpoints.find? fun e => match e.2 with | none => false | some x => x.self with
  | none => 0
  | some e => e.1

/-- The SELF entry exists (R491). -/
def State.hasSelf (s : State) : Bool := s.fabric.endpoints.any fun e => match e.2 with | none => false | some x => x.self

/-- An operation fails with its path: a read, or a write that has sent nothing, with LINK_LOST; a write that has sent a frame with INDETERMINATE (R467). -/
def State.loseOp (s : State) (o : NetOp) : State :=
  let st :=
    match o.kind with
    | .read _ _ => 0x500
    | _ => if o.transmitted then 0x501 else 0x500
  let s := s.endOp o.tag
  match o.owner with
  | .cmd c q id => s.modStarted c q id fun e => e.opEnds st 0 o.endpoint
  | .firmware => s

/-- The frames of some network tags that no port or connection has sent yet are withdrawn. -/
def State.withdraw (s : State) (tags : List Nat) : State :=
  let gone (t : TxFrame) : Bool := decide (2 ≤ t.ty.toNat ∧ t.ty.toNat ≤ 4) && tags.contains t.f.tag.toNat
  let s := (List.range 18).foldl
    (fun s p => if (s.port p).queued.any gone then s.modPort p fun pt => { pt with queued := pt.queued.filter fun t => !gone t } else s) s
  { s with eth := { s.eth with conns := (s.eth.conns.map fun e => (e.1, e.2.map fun k => { k with queued := k.queued.filter fun t => !gone t })) } }

/-- The operations of one command. -/
def State.opsOf (s : State) (c q id : Nat) : List NetOp := s.net.ops.filter fun o => decide (o.owner = .cmd c q id)

/-- The operations of one command are given up: their tags return, and unsent frames are withdrawn (R104, R125). -/
def State.dropCmdOps (s : State) (c q id : Nat) : State :=
  let tags := (s.opsOf c q id).map fun o => o.tag
  (tags.foldl State.endOp s).withdraw tags

/-- A slot credit that must be sent again in the next session (R124, R467). Toward an older part its frame carries no whole generation: the slot's is taken (R511, R512). -/
def creditOf (g : Stage) (t : TxFrame) : Option HeldCredit :=
  if t.ty = 7 then
    let own := (g.slot t.f.queue.toNat t.f.slot.toNat).gen
    some { queue := t.f.queue.toNat, slot := t.f.slot.toNat, gen := if t.f.slotGen = 0 ∨ t.f.slotGen &&& 0xFF = own &&& 0xFF then own else t.f.slotGen }
  else none

/-- A credit waits until its endpoint can be reached; of two for one slot the later given stays (R124). -/
def State.holdCredit (s : State) (h : HeldCredit) : State :=
  { s with stage := { s.stage with heldCredits := (s.stage.heldCredits.filter fun x => !(x.queue == h.queue && x.slot == h.slot)) ++ [h] } }

/-- The credits among some frames that are lost wait with those held since, which are newer (R124, R467). -/
def State.holdLost (s : State) (fs : List TxFrame) : State :=
  let newer := s.stage.heldCredits
  let s : State := { s with stage := { s.stage with heldCredits := [] } }
  (fs.filterMap (creditOf s.stage) ++ newer).foldl State.holdCredit s

/-- A READ is one of those that make up a remote transfer; each vector read of a query is an operation of its own (R393, R476). -/
def partRead (s : State) (o : NetOp) : Bool := match o.kind, o.owner with
  | .read _ _, .cmd c q id => (match s.started c q id with
    | none => false
    | some e => cmdOp e.desc / 16 == 3)
  | _, _ => false

/-- Some operations, counted as R452 does: the READs of one transfer are one together. -/
def countOps (s : State) (ops : List NetOp) : Nat :=
  (ops.filter fun o => !partRead s o).length + ((ops.filter (partRead s)).map fun o => o.owner).eraseDups.length

/-- Operations that end with LINK_LOST or INDETERMINATE are counted at their path (R452). -/
def State.countFailed (s : State) (v : Via) (n : Nat) : State := match v with
  | .port p => s.modPort p.val fun pt => { pt with counts := { pt.counts with opsFailed := satInc pt.counts.opsFailed n } }
  | .conn c => s.modConn c.toNat fun k => { k with opsFailed := satInc k.opsFailed n }

/-- The remote reads on a path that have READs still to send, and none outstanding. -/
def State.pausedReads (s : State) (v : Via) : List (Nat × Nat × Started) :=
  s.allStarted.filter fun x => !x.2.2.done && !x.2.2.opLost && decide (x.2.2.path = some v) && (s.opsOf x.1 x.2.1 x.2.2.id).isEmpty

/-- The operations on a path end with it, remote reads between two READs among them, and are counted (R452, R467). -/
def State.losePath (s : State) (v : Via) : State :=
  let mine := s.net.ops.filter fun o => decide (o.via = v)
  let paused := s.pausedReads v
  let n := countOps s mine + paused.length
  let s := mine.foldl State.loseOp s
  (paused.foldl (fun s x => s.modStarted x.1 x.2.1 x.2.2.id fun e => e.opEnds 0x500 0 0) s).countFailed v n

/-- The operations of a path end as R467 states, and the credits not covered by an acknowledgement are held. `keepReplay` keeps the frames already sent, for a session that goes on (R500). -/
def State.losePort (s : State) (p : Nat) (keepReplay : Bool) : State :=
  let pt := s.port p
  let s := (s.losePath (.port (Fin.ofNat 18 p))).modPort p fun pt => { pt with unacked := if keepReplay then pt.unacked else [], queued := [] }
  s.holdLost ((if keepReplay then [] else pt.unacked) ++ pt.queued)

/-- A session ends: its operations complete, its uncovered credits are held, and the end is logged at PORT severity (R467). -/
def State.endSession (s : State) (p : Nat) : State :=
  if (s.port p).inSession then
    let s := s.losePort p false
    let s := s.modPort p fun pt => { pt with inSession := false, peerSessionId := none, credits := [0, 0, 0], replayAsked := none, askTimes := [], lostTimer := false, replayDue := false }
    s.postErr (mkErr 0x500 2 4 p)
  else s

/-- A port enters TRAINING: lanes equalize at BPL-1 (R447). -/
def State.enterTraining (s : State) (p : Nat) : State :=
  s.modPort p fun pt => { pt with state := 1, version := 0, lanes := 0, agreed := 0, ownHello := none, switchSeen := false, adopted := false, lastHops := 0xFF }

/-- The sender of an input queue, by the stage address table: FWD-IN is fed from upstream, BWD-IN from downstream (R27, R118). -/
def Stage.feeder (g : Stage) (q : Nat) : Option StageAddr := tget none g.addr (if q = 0 then 0 else 1)

/-- The receiver of an output queue: FWD-OUT goes downstream, BWD-OUT upstream (R27, R118). -/
def Stage.receiver (g : Stage) (q : Nat) : Option StageAddr := tget none g.addr (if q = 2 then 1 else 0)

/-- The wire generation toward a peer: 16 bits under v3, 8 under v2, none under v1 (R510 to R512). -/
def wireGen (profile : Nat) (g : BitVec 16) : BitVec 16 :=
  if profile = 0 then 0 else if profile ≤ 2 then g &&& 0xFF else g

/-- One slot credit goes to the sender of an input queue, or is held until its endpoint has a path and a profile (R123, R124, R467, R511, R512). -/
def State.sendCredit (s : State) (q slot : Nat) (gen : BitVec 16) : State :=
  let h : HeldCredit := { queue := q, slot := slot, gen := gen }
  match s.stage.feeder q with
  | none => s.holdCredit h
  | some a =>
    match s.endpoint a.endpoint.toNat with
    | none => s.holdCredit h
    | some e =>
      match s.path e 0, e.profile with
      | some v, some pr =>
        if tget false s.stage.v1Hold q && pr = 0 then s.holdCredit h
        else
          let s : State := { s with stage := s.stage.modSlot q slot fun x => { x with v1Credit := true } }
          s.sendFrame v 7 { Frame.zero with queue := BitVec.ofNat 2 q, slot := BitVec.ofNat 8 slot, slotGen := wireGen pr.toNat gen, srcEp := BitVec.ofNat 12 s.selfEp, dstEp := a.endpoint }
      | _, _ => s.holdCredit h

/-- The profile agreed with the feeder of an input queue, if any. -/
def State.feederProfile (s : State) (q : Nat) : Option (BitVec 3) :=
  (s.stage.feeder q).bind fun a => (s.endpoint a.endpoint.toNat).bind fun e => e.profile

/-- An endpoint has an UP path and a profile (R468). -/
def State.reachable (s : State) (ep : Nat) : Bool :=
  match s.endpoint ep with
  | none => false
  | some e => (s.path e 0).isSome && e.profile.isSome

/-- Commands that waited for an endpoint wait no more (R468). -/
def State.wakeEndpoint (s : State) (p : Nat → Bool) : State :=
  (s.allStarted.filter fun e => match e.2.2.wait with | .endpoint ep => p ep | _ => false).foldl
    (fun s e => s.modStarted e.1 e.2.1 e.2.2.id fun x => { x with wait := .none }) s

/-- What a path or a profile held back goes on: a queue's hold toward a v1 sender ends where its feeder has another profile (R512), the held credits are sent as far as their endpoints can be reached (R124), and the commands that waited for such an endpoint go on (R468). -/
def State.flushCredits (s : State) : State :=
  let other (q : Nat) : Bool := match s.feederProfile q with
    | none => false
    | some p => p != 0
  let g := s.stage
  let s : State := { s with stage := { g with heldCredits := [], v1Hold := [0, 1].foldl (fun t q => if other q then tset false t q false else t) g.v1Hold } }
  let s := g.heldCredits.foldl (fun s h => s.sendCredit h.queue h.slot h.gen) s
  s.wakeEndpoint s.reachable

/-- A connection's operations end as R467 states when it enters ERROR or is torn down (R578, R579). -/
def State.loseConn (s : State) (c : Nat) : State :=
  let lost := match s.conn c with
    | none => []
    | some k => k.unacked ++ k.queued
  let s := (s.losePath (.conn (BitVec.ofNat 12 c))).modConn c fun k => { k with queued := [], unackedPkts := 0, unacked := [] }
  s.holdLost lost

end Sys2Proof.Machine
end

