-- ==== Sys2Proof/Machine/Contain.lean ====
section
/-! DEFINITION. What decides which traffic a peer gets: boundary profiles (R501 to R507), the wiring check (R498 to R500), the port states that follow, and DEVICE containment (R607). -/

namespace Sys2Proof.Machine

/-- The coordinates of a HELLO. -/
def helloCoord (h : Hello) : BitVec 48 := packCoord h.pod h.board h.slot

/-- A coordinate of all ones is unset (R482). -/
def helloUnset (h : Hello) : Bool := h.pod == 0xFFFF || h.board == 0xFFFF || h.slot == 0xFFFF

/-- The profiles that a peer's HELLO offers (R504). -/
def helloOffer (h : Hello) : BitVec 5 :=
  let p : BitVec 5 := fb h.profiles 0 5
  if p != 0 then p
  else if h.generation = 1 ∧ fb h.mbxRev 8 8 = 1 then 0b00001
  else if h.generation = 2 ∧ fb h.mbxRev 8 8 = 2 then 0b00010
  else 0

/-- The highest-numbered profile of an offer (R505). -/
def topProfile (o : BitVec 5) : Option (BitVec 3) :=
  ([4, 3, 2, 1, 0].find? fun i => o.getLsbD i).map fun i => BitVec.ofNat 3 i

/-- The peer record of coordinates (R487). -/
def State.peer (s : State) (c : BitVec 48) : Option Hello := (s.fabric.peers.find? fun h => helloCoord h.1 == c).map fun h => h.1

/-- What the agreement of profiles gives an endpoint: its profile, and the status it is quarantined with (R504 to R506). -/
def State.judge (s : State) (e : Endpoint) : Option (BitVec 3) × Option (BitVec 16) :=
  if e.self then (none, none)
  else if e.roce then
    if (match s.peer e.coord with | none => false | some h => h.status == 1) then (none, some 0x0505)
    else if s.offered.getLsbD e.rprofile.toNat then (some e.rprofile, none) else (none, some 0x0502)
  else
    match s.peer e.coord with
    | none => (none, none)
    | some h =>
      let pr := topProfile (s.offered &&& helloOffer h)
      if h.status = 1 then (none, some 0x0505)
      else match pr with
        | none => (none, some 0x0502)
        | some p => (some p, none)

/-- The unit that an endpoint's events are logged at: the Ethernet port of its connection, or the lowest port whose partner it is (log entry 14). -/
def State.endpointUnit (s : State) (e : Endpoint) : Nat × Nat :=
  if e.roce then (5, match s.conn e.conn.toNat with | none => 0 | some k => k.port)
  else
    (4, ((List.range 18).find? fun p => match (s.port p).ownHello with | none => false | some h => helloCoord h == e.coord).getD 0)

/-- An operation has frames that have not left. -/
def NetOp.unsent (o : NetOp) : Bool := decide (o.sent < o.frames)

/-- A queued frame toward a quarantined endpoint: a response without its data, with the endpoint's status (R33; log entry 96). -/
def TxFrame.emptied (i : Nat) (st : BitVec 16) (t : TxFrame) : TxFrame :=
  if t.ty = 5 ∧ t.f.dstEp.toNat = i then { t with f := { t.f with payload := [], poison := false, offset := st.setWidth 32 } } else t

/-- No tensor traffic goes to an endpoint in QUARANTINE (R33, R506): what has not left is withdrawn. An operation of which nothing has left ends with the endpoint's status, one partly sent with INDETERMINATE; queued data responses lose their data (log entry 96). -/
def State.cutEndpoint (s : State) (i : Nat) (st : BitVec 16) : State :=
  let mine := s.net.ops.filter fun o => decide (o.endpoint.toNat = i) && o.unsent
  let s := mine.foldl
    (fun s o =>
      let s := (s.endOp o.tag).countFailed o.via (if o.transmitted then 1 else 0)
      match o.owner with
      | .cmd c q id => s.modStarted c q id fun e => e.opEnds (if o.transmitted then 0x501 else st.toNat) 0 o.endpoint
      | .firmware => s) s
  let s := s.withdraw (mine.map fun o => o.tag)
  let hit (l : List TxFrame) : Bool := l.any fun t => decide (t.ty = 5 ∧ t.f.dstEp.toNat = i)
  let s := (List.range 18).foldl
    (fun s p => if hit (s.port p).queued then s.modPort p fun pt => { pt with queued := pt.queued.map (TxFrame.emptied i st) } else s) s
  let s : State := { s with eth := { s.eth with conns := s.eth.conns.map fun e => (e.1, e.2.map fun k => { k with queued := k.queued.map (TxFrame.emptied i st) }) } }
  s.wakeEndpoint (fun ep => ep == i)

/-- One endpoint is judged again; entering QUARANTINE is logged at PORT severity and stops the traffic to it (R33, R506). -/
def State.judgeEndpoint (s : State) (i : Nat) : State :=
  match s.endpoint i with
  | none => s
  | some e =>
    let j := s.judge e
    let s' : State := { s with fabric := { s.fabric with endpoints := tset none s.fabric.endpoints i (some { e with profile := j.1, quarantine := j.2 }) } }
    match j.2 with
    | none => s'
    | some st =>
      if e.quarantine = some st then s'
      else
        let u := s.endpointUnit e
        (s'.cutEndpoint i st).postErr { mkErr st.toNat 2 u.1 u.2 with endpoint := BitVec.ofNat 12 i }

/-- Every endpoint is judged again (R505, R506). -/
def State.judgeAll (s : State) : State := (s.fabric.endpoints.map fun e => e.1).foldl State.judgeEndpoint s

/-- The other end of a map entry that has an end satisfying a test. -/
def farEnd (p : WireEnd → Bool) (m : WireEnd × WireEnd) : Option WireEnd :=
  if p m.1 then some m.2 else if p m.2 then some m.1 else none

/-- A wire end names the device's own coordinates. -/
def ownEnd (coord : BitVec 48) (w : WireEnd) : Bool := packCoord w.pod w.board w.slot == coord

/-- The outcome of the wiring check. -/
inductive WireVerdict where
  | up | adopted | miswired
  deriving DecidableEq, Repr

/-- The wiring check of a port's partner (R498, R499; log entry 15). -/
def State.wiringCheck (s : State) (p : Nat) : WireVerdict :=
  let pt := s.port p
  let partner := if pt.switchSeen then pt.switchHello else pt.ownHello
  if pt.conflict then .miswired
  else match partner with
  | none => .up
  | some h =>
    if !s.fabric.wiringLoaded then .up
    else
      let f := s.fabric
      let hashBad := h.wiringHash != 0 && h.wiringHash != f.wiringHash
      let far := f.wiring.findSome? (farEnd fun w => ownEnd f.coord w && w.port == BitVec.ofNat 8 p)
      let same (w : WireEnd) : Bool := packCoord w.pod w.board w.slot == helloCoord h && (pt.switchSeen || w.port == h.port)
      let known := f.wiring.any fun m => match farEnd (ownEnd f.coord) m with | none => false | some w => packCoord w.pod w.board w.slot == helloCoord h
      let adopt := (f.wiringPolicy == 1 && known) || (f.wiringPolicy == 2 && !helloUnset h && h.wiringHash == f.wiringHash)
      match far with
      | some w =>
        if same w then (if hashBad then .miswired else .up)
        else if adopt && !hashBad then .adopted else .miswired
      | none => if adopt && !hashBad then .adopted else .miswired

/-- The direct partner of a port reports QUARANTINE or shares no profile (R506). -/
def State.directQuarantine (s : State) (p : Nat) : Bool :=
  match (s.port p).ownHello with
  | none => false
  | some h => !(s.port p).switchSeen && (h.status == 1 || s.offered &&& helloOffer h == 0)

/-- The state that the wiring check and the profiles give a port in a session (R498, R506). -/
def State.portTarget (s : State) (p : Nat) : BitVec 4 :=
  if s.wiringCheck p = .miswired then 4 else if s.directQuarantine p then 5 else 2

/-- A port remembers whether the check adopts its partner; an adoption is logged at CORRECTED severity (R499). -/
def State.noteAdoption (s : State) (p : Nat) : State :=
  let a := decide (s.wiringCheck p = .adopted)
  let new := a && !(s.port p).adopted
  let s := s.modPort p fun pt => { pt with adopted := a }
  if new then s.postErr (mkErr 0x503 0 4 p) else s

/-- The UP ports whose partner reports a synchronised time (R519). -/
def timePorts (s : State) : List Nat := (List.range 18).filter fun p => (s.port p).state == 2 && (s.port p).lastHops != 0xFF

/-- The roots that a free-mode device hears (R522). -/
def heardRoots (s : State) : List (BitVec 48) := if s.clock.mode = 1 ∨ s.clock.root = true then [] else ((timePorts s).map fun p => (s.port p).lastRoot).eraseDups

/-- Where a device comes to hear two different roots, or another one beside them, the conflict is logged at CORRECTED severity (R522). -/
def noteRoots (old : List (BitVec 48)) (s : State) : State :=
  let new := heardRoots s
  if 2 ≤ new.length ∧ (old.length < 2 ∨ new.any (fun r => !old.contains r) = true) then s.postErr (mkEvent 4 0 0 9 0) else s

/-- The unacknowledged frames are sent again (R460, R462). -/
def replayFrames (s : State) (p : Nat) : State :=
  let pt := s.port p
  let s := if pt.replayDue then s.modPort p fun pt => { pt with replayDue := false } else s
  if pt.unacked.isEmpty then s
  else
    let s := s.modPort p fun pt => { pt with counts := { pt.counts with replays := satInc pt.counts.replays 1 } }
    pt.unacked.foldl (fun s t => s.emit (.frame (.port (Fin.ofNat 18 p)) t.ty { t.f with ack := pt.rxSeq })) s

/-- A port in a session enters the state that the check gives it: MISWIRED is logged at PORT severity (R498, R499). A replay that is due takes place once the port is UP, because no other state carries its frames (R446, R462). -/
def State.enterTarget (s : State) (p : Nat) : State :=
  let target := s.portTarget p
  let roots := heardRoots s
  let s := (s.noteAdoption p).modPort p fun pt => { pt with state := target, lostTimer := pt.lostTimer && target != 2 }
  let s := if target = 4 then s.postErr (mkErr 0x503 2 4 p) else s
  if target = 2 then noteRoots roots ((if (s.port p).replayDue then replayFrames s p else s).drain p) else s

/-- A port in a session takes the state that the wiring check and the profiles give it. Leaving UP ends its operations and starts the link-lost timer (R467, R500). -/
def State.settlePort (s : State) (p : Nat) : State :=
  let pt := s.port p
  if pt.inSession && (pt.state == 2 || pt.state == 4 || pt.state == 5) then
    if s.portTarget p = pt.state then s.noteAdoption p
    else (if pt.state = 2 then (s.losePort p true).modPort p fun pt => { pt with lostTimer := true } else s).enterTarget p
  else s

/-- Every port is settled again, and credits that a port or profile held back go out (R124, R500). -/
def State.settlePorts (s : State) : State := ((List.range 18).foldl State.settlePort s).flushCredits

/-- Profiles and port states follow a change of policy, mode, endpoints or HELLO (R505 to R507). -/
def State.rejudge (s : State) : State := s.judgeAll.settlePorts

/-- DEVICE containment: nothing starts, armed blocks are discarded, every port that is not DISABLED sends a HELLO with STATUS QUARANTINE, and ALERT_N is asserted (R607). -/
def State.contain (s : State) : State :=
  if s.boot.quarantined then s.assertAlert
  else
    let s : State := { s with boot := { s.boot with quarantined := true } }
    let s := s.setIrq 1
    let s := allQueues.foldl (fun s cq => if (s.queue cq.1 cq.2).armed.isEmpty then s else s.modQueue cq.1 cq.2 fun u => { u with armed := [] }) s
    s.helloAll.assertAlert

/-- An error of DEVICE severity: containment, then the event (R606, R607). -/
def State.deviceErr (s : State) (r : ErrRec) : State := s.contain.postErr { r with severity := 3 }

end Sys2Proof.Machine
end

