-- ==== Sys2Proof/Machine/Operands.lean ====
section
/-! DEFINITION. What the rows carry: the opcode index (R91), a message's effective payload (R64, R739), capability bits (R70), and the fixed positions that several payloads share. -/

namespace Sys2Proof.Machine

/-- What the opcode index and the opcode's chapter say of a message: its opcode, its least privilege, whether MCTP carries it, the capability it exists for (R71), whether a quarantined device executes it (R608), whether its payload defines fields at bit 128 or above without a pointer-block form, whether its chapter places something in the request buffer, and its reserved payload ranges. -/
structure OpSpec where
  code : Nat
  priv : Nat
  mctp : Bool
  cap : Option Nat
  quar : Bool
  high : Bool
  buf : Bool
  resv : List (Nat × Nat)

/-- The capability bitmap of a revision (R70). -/
def capsOf (rev : BitVec 16) : BitVec 64 :=
  if rev = 0x0302 then 0xFFFF else if rev = 0x0301 then 0x3FFF else if rev = 0x0300 then 0x0FFF else 0

/-- Capability bit numbers (R70). -/
def capTarn : Nat := 0
def capUpdate : Nat := 1
def capBs8 : Nat := 2
def capNarrow : Nat := 3
def capOverturn : Nat := 4
def capWindow : Nat := 5
def capReferenced : Nat := 6
def capFree : Nat := 7
def capM2 : Nat := 8
def capM1 : Nat := 9
def capMicro : Nat := 10
def capTables : Nat := 11
def capSpare : Nat := 12
def capAdopt : Nat := 13
def capRoceInput : Nat := 14
def capStrict : Nat := 15

/-- What a message's handler sees: the session's capabilities and client, the carrying channel (64 for the management path), the effective payload, and the message. -/
structure Ctx where
  caps : BitVec 64
  session : BitVec 32
  clientId : BitVec 64
  chan : Nat
  p : BitVec 384
  m : Msg

/-- The message came over the management path. -/
def Ctx.mgmt (x : Ctx) : Bool := x.chan == 64

/-- A capability bit is set in the message's session (R71). -/
def Ctx.has (x : Ctx) (bit : Nat) : Bool := x.caps.getLsbD bit

/-- A payload field. -/
def Ctx.f (x : Ctx) (hi lo : Nat) : Nat := fld x.p hi lo

/-- A completion's content: status, inline payload (none: no payload bytes) and a long response. -/
structure Reply where
  status : Nat
  payload : Option (BitVec 384)
  long : List Byte
  deriving DecidableEq, Repr

/-- A status without a payload. -/
def Reply.st (n : Nat) : Reply := { status := n, payload := none, long := [] }

/-- OK without a payload. -/
def Reply.ok : Reply := Reply.st 0

/-- A status with an inline payload. -/
def Reply.val (n : Nat) (v : Nat) : Reply := { status := n, payload := some (BitVec.ofNat 384 v), long := [] }

/-- What a handler answers: a completed message, or a message that has begun and goes on (long-running or held), with what it must remember. -/
inductive Answer where
  | done (s : State) (r : Reply)
  | hold (s : State) (h : Held)

/-- A message refused with a status and no effect. -/
def refuse (s : State) (st : Nat) : Answer := .done s (.st st)

/-- The mask of a payload's used bytes: bytes at or above PAYLOAD_LEN count as zero (log entry 17). -/
def usedMask (len : Nat) : BitVec 384 := BitVec.ofNat 384 (2 ^ (8 * min len 48) - 1)

/-- A message's effective payload (R739). -/
def effPayload (m : Msg) : BitVec 384 :=
  if m.ptr then BitVec.ofNat 384 (fld m.payload 383 256) else m.payload &&& usedMask m.payloadLen

/-- Request buffer length of the pointer block (R64). -/
def msgReqLen (m : Msg) : Nat := fld m.payload 95 64

/-- The pointer block gives no request buffer: both its fields are zero (R739). -/
def noRequest (m : Msg) : Bool := fld m.payload 95 0 == 0

/-- Response buffer length of the pointer block, 0 without one (R64). -/
def msgRspLen (m : Msg) : Nat := if m.ptr then fld m.payload 223 192 else 0

/-- Response buffer address of the pointer block (R64). -/
def msgRspAddr (m : Msg) : BitVec 64 := fb m.payload 128 64

/-- A buffer of the pointer block is aligned and within its limit; a length of 0 gives no buffer (R64). -/
def bufOk (addr len : Nat) : Bool := len == 0 || (addr % 64 == 0 && decide (len ≤ 1048576))

/-- The framing of a message is as R64, R67, R85 and R739 require. -/
def framingOk (o : OpSpec) (m : Msg) (mgmt : Bool) : Bool :=
  m.hdrReserved == 0 && decide (m.payloadLen ≤ if mgmt then 1024 else 48)
  && (if m.ptr then
        !mgmt && m.payloadLen == 48 && zeros m.payload [(255, 224), (127, 96)]
        && bufOk (fld m.payload 63 0) (fld m.payload 95 64) && bufOk (fld m.payload 191 128) (fld m.payload 223 192)
        && !o.high && (o.buf || noRequest m)
      else true)

/-- A message that needs no capability, with its code, privilege and reserved ranges. -/
def plainOp (code priv : Nat) (resv : List (Nat × Nat)) : OpSpec :=
  { code := code, priv := priv, mctp := false, cap := none, quar := false, high := false, buf := false, resv := resv }

/-- A message of the management subset that a quarantined device executes. -/
def queryOp (code priv : Nat) (resv : List (Nat × Nat)) : OpSpec :=
  { plainOp code priv resv with mctp := true, quar := true }

/-- A host message that a quarantined device executes (R608). -/
def readOp (code priv : Nat) (resv : List (Nat × Nat)) : OpSpec := { plainOp code priv resv with quar := true }

/-- CORE of a payload lies in range (R34). -/
def coreOk (n : Nat) : Bool := decide (n < 24)

/-- The cores of a 24-bit mask. -/
def coresOf (mask : Nat) : List Nat := (List.range 24).filter fun i => mask.testBit i

end Sys2Proof.Machine
end

