-- ==== Sys2Proof/Machine/Mailbox.lean ====
section
/-! DEFINITION. Mailbox service: dequeuing a request, the order of its refusals, completions, moderation, doorbells and sessions (R51 to R87, R608). -/

namespace Sys2Proof.Machine

/-- The message in progress of a source. -/
def State.heldBy (s : State) (src : MsgSrc) : Option Held := s.mbx.held.find? fun h => h.src == src

/-- The tail that a doorbell latched is evaluated while channel and firmware are READY (R56, R732). -/
def evalDoorbell (s : State) (n : Nat) : State :=
  let c := s.chan n
  if s.ready && c.state == 1 then
    let move := (c.doorbell - c.reqTail).toNat
    let held := (c.doorbell - c.reqHead).toNat
    if move = 0 then s
    else if 32768 < move then s.modChan n fun c => { c with state := 2, reason := 2 }
    else if 4096 < held then s.modChan n fun c => { c with state := 2, reason := 1 }
    else s.modChan n fun c => { c with reqTail := c.doorbell }
  else s

/-- The phase bit after an entry is written: it inverts when the ring's last entry has been written (R58). -/
def phaseNext (c : Channel) : Bool := if (c.cplTail.toNat + 1) % 4096 = 0 then !c.phase else c.phase

/-- A completion header (spec 02, Completion header). -/
def cplHeader (op : Nat) (status : Nat) (reqId session : BitVec 32) (plen : Nat) (phase rptr : Bool) (chan : Nat) : BitVec 128 :=
  BitVec.ofNat 128
    (op + status * 2 ^ 16 + reqId.toNat * 2 ^ 32 + session.toNat * 2 ^ 64 + plen * 2 ^ 96
      + (if phase then 2 ^ 112 else 0) + (if rptr then 2 ^ 113 else 0) + chan * 2 ^ 114)

/-- The host address of a ring's entry: index i names entry i mod 4,096 of 64 bytes (R54). -/
def entryAddr (base : BitVec 64) (i : BitVec 16) : BitVec 64 := base + BitVec.ofNat 64 (64 * (i.toNat % 4096))

/-- A channel's vector is raised once enough completions are unsignalled (R59). A completion that is written while IRQ_ENABLE is 0 stays unsignalled, and setting IRQ_ENABLE raises nothing by itself: the model's choice (log entry 90). -/
def moderate (s : State) (n : Nat) : State :=
  let c := s.chan n
  if decide (max 1 (fld c.moderation 15 0) ≤ c.unsignalled) && c.irqEnable then
    (s.modChan n fun c => { c with unsignalled := 0 }).raise c.vector.toNat
  else s

/-- A completion is written to the channel's ring: its response buffer, then bytes 16 to 63 of its entry, then bytes 0 to 15 with the phase bit; then the tail advances (R54, R57 to R59, R66, R68). A PCIe error while the completion is written leaves no entry and puts the channel into FAULTED with WRITE_ERROR (R53). -/
def completeChan (s : State) (n : Nat) (m : Msg) (op : Nat) (session : BitVec 32) (r : Reply) : State :=
  let long := decide (48 < r.long.length)
  let fits := decide (r.long.length ≤ msgRspLen m)
  let status := if long && !fits then 0x101 else if long && m.rspError then 0x600 else r.status
  let sent := long && fits && !m.rspError
  let inline : List Byte :=
    if long then (if sent then leBytes 4 r.long.length else [])
    else if r.long.isEmpty then (match r.payload with | none => [] | some p => vecBytes p)
    else r.long
  let c := s.chan n
  let hdr := cplHeader op status m.requestId session inline.length c.phase sent n
  if m.cplError then s.modChan n fun c => if c.state = 1 then { c with state := 2, reason := 4 } else c
  else
    let s := if sent then s.emit (.hostWrite (msgRspAddr m) r.long) else s
    let s := s.emit (.hostWrite (entryAddr c.cplBase c.cplTail + 16) (padTo 48 inline))
    let s := s.emit (.hostWrite (entryAddr c.cplBase c.cplTail) (vecBytes hdr))
    moderate (s.modChan n fun c => { c with cplTail := c.cplTail + 1, phase := phaseNext c, unsignalled := c.unsignalled + 1 }) n

/-- A held CLOSE_SESSION waits for the channels that its number's bits name; the message of channel `n` is over (R77). -/
def closeProgress (n : Nat) (h : Held) : Held :=
  if h.opcode = 0x0102 then { h with arg := if h.arg.testBit n then h.arg - 2 ^ n else h.arg } else h

/-- One message ends: its completion is written, unless its channel was reset meanwhile (R61, R63), and its channel goes on. A channel that became FAULTED meanwhile still gets the completion: the model's choice (log entry 91). On the management path the response echoes the request's SESSION and tag (R85, R87). -/
def finishOne (s : State) (m : Msg) (op : Nat) (session : BitVec 32) (r : Reply) : State :=
  match m.src with
  | .chan n =>
    let c := s.chan n.val
    let s : State := { s with mbx := { s.mbx with held := s.mbx.held.map (closeProgress n.val) } }
    if c.dropCpl then s.modChan n.val fun c => { c with busy := false, dropCpl := false, state := if c.state = 3 then 0 else c.state }
    else completeChan (s.modChan n.val fun c => { c with busy := false }) n.val m op session r
  | .mctp _ t =>
    let body : List Byte := if r.long.isEmpty then (match r.payload with | none => [] | some p => vecBytes p) else r.long
    s.emit (.mctp t.val (cplHeader op r.status m.requestId m.session body.length false false 0) body)

/-- A session loses a channel (R61, R74). -/
def detachChan (s : State) (n : Nat) : State := s.modChan n fun c => { c with session := 0 }

/-- A session is closed: it releases every channel, and nothing else changes (R77). -/
def closeSession (s : State) (h : BitVec 32) : State :=
  let s := (List.range 64).foldl (fun s n => if (s.chan n).session = h then detachChan s n else s) s
  { s with mbx := { s.mbx with sessions := s.mbx.sessions.filter fun x => x.handle != h } }

/-- The state without the message in progress of a source. -/
def State.unheld (s : State) (src : MsgSrc) : State := { s with mbx := { s.mbx with held := s.mbx.held.filter fun x => x.src != src } }

/-- Each held CLOSE_SESSION that waits for nothing more closes its session and completes (R77); its own end may free another one. -/
def settleCloses : Nat → State → State
  | 0, s => s
  | k + 1, s =>
    match s.mbx.held.find? fun h => h.opcode == 0x0102 && h.arg == 0 with
    | none => s
    | some h => settleCloses k (finishOne (closeSession (s.unheld h.src) h.msg.session) h.msg 0x0102 h.msg.session .ok)

/-- A message ends, and with it each CLOSE_SESSION that waited for it alone (R63, R77). -/
def finishMsg (s : State) (m : Msg) (op : Nat) (session : BitVec 32) (r : Reply) : State := settleCloses 64 (finishOne s m op session r)

/-- The session that owns a channel. -/
def State.owner (s : State) (n : Nat) : Option Session :=
  let h := (s.chan n).session
  if h = 0 then none else s.mbx.sessions.find? fun x => x.handle == h

/-- The device answers on a management carrier: over PCIe while the link is trained; over I3C at 0x4E until a dynamic address is assigned, then at that address; over SMBus at 0x4E (R89, R705). -/
def pathOpen (s : State) : MgmtPath → Bool
  | .pcie => s.host.linkUp
  | .i3c a => a == s.boot.i3cAddr.getD 0x4E
  | .smbus a => a == 0x4E

/-- The firmware can take the next request of a source: firmware READY; and on a channel STATE READY, a request waiting, room in the completion ring, no message in progress (R51, R60, R80); on the management path the tag is free, the device answers at the bus address, and vendor-defined messages need the trained PCIe link (R87, R89, R705). -/
def canDequeue (s : State) (src : MsgSrc) : Bool :=
  s.ready &&
  (match src with
   | .chan n =>
     let c := s.chan n.val
     c.state == 1 && c.enabled && c.reqHead != c.reqTail && (c.cplTail - c.cplHead).toNat != 4096 && !c.busy
   | .mctp path t => pathOpen s path && !(s.mbx.held.any fun h => match h.src with | .chan _ => false | .mctp _ u => u == t))

/-- The request is fetched from its entry and leaves its ring (R54, R80). -/
def dequeue (s : State) (src : MsgSrc) : State :=
  match src with
  | .chan n =>
    let c := s.chan n.val
    (s.emit (.hostRead (entryAddr c.reqBase c.reqHead) 64)).modChan n.val fun c => { c with reqHead := c.reqHead + 1 }
  | .mctp _ _ => s

/-- The refusal that a message meets before its handler runs, if any (R23, R64, R67, R71 to R73, R85, R86, R608; log entry 16 for their order). `needSession` is false for OPEN_SESSION, whose SESSION field is not tested: the model's choice (log entry 92). A management message whose SESSION is not zero is answered BAD_SESSION, a status that R86 does not name: the model's choice (log entry 93). -/
def refusal (s : State) (o : OpSpec) (needSession : Bool) (m : Msg) : Option Nat :=
  match m.src with
  | .mctp _ _ =>
    if m.session != 0 then some 0x204
    else if !o.mctp then some 0x203
    else if s.boot.quarantined && !o.quar then some 0x203
    else if !framingOk o m true then some 0x201
    else if !zeros (effPayload m) o.resv then some 0x201
    else none
  | .chan n =>
    let own := s.owner n.val
    let sess : Option Nat :=
      if !needSession then none
      else
        match own with
        | none => some 0x204
        | some x =>
          if m.session != x.handle then some 0x204
          else if (match o.cap with | none => false | some b => !(capsOf x.rev).getLsbD b) then some 0x200
          else if x.privilege.toNat < o.priv then some 0x203
          else none
    match sess with
    | some st => some st
    | none =>
      if s.boot.quarantined && !o.quar then some 0x203
      else if !framingOk o m false then some 0x201
      else if !zeros (effPayload m) o.resv then some 0x201
      else if m.ptr && decide (0 < msgReqLen m) && m.reqError then some 0x600
      else none

/-- The handler's view of a message. -/
def ctxOf (s : State) (m : Msg) : Ctx :=
  match m.src with
  | .mctp _ _ => { caps := capsOf 0x0302, session := 0, clientId := 0, chan := 64, p := effPayload m, m := m }
  | .chan n =>
    match s.owner n.val with
    | none => { caps := 0, session := 0, clientId := 0, chan := n.val, p := effPayload m, m := m }
    | some x => { caps := capsOf x.rev, session := x.handle, clientId := x.clientId, chan := n.val, p := effPayload m, m := m }

/-- A handler's answer takes effect: the message completes, or stays in progress. -/
def settleMsg (m : Msg) (op : Nat) (session : BitVec 32) : Answer → State
  | .done s r => finishMsg s m op session r
  | .hold s h =>
    let s : State := { s with mbx := { s.mbx with held := s.mbx.held ++ [h] } }
    match m.src with
    | .chan n => s.modChan n.val fun c => { c with busy := true }
    | .mctp _ _ => s

/-- One message: dequeued, refused or handled, and completed. A message that the firmware cannot take yet does not begin. -/
def serve (o : OpSpec) (m : Msg) (s : State) (act : State → Ctx → Answer) : Res :=
  if canDequeue s m.src then
    let s := dequeue s m.src
    match refusal s o true m with
    | some st => .next (finishMsg s m o.code m.session (.st st))
    | none => .next (settleMsg m o.code m.session (act s (ctxOf s m)))
  else .next s

/-- A message that stays in progress, with nothing more to remember than a number. -/
def heldOf (op : Nat) (m : Msg) (arg : Nat) : Held :=
  { src := m.src, opcode := BitVec.ofNat 16 op, msg := m, arg := arg, nonce := 0, image := none, body := [], lines := [] }

/-- Two messages that wait to take effect name the same object: regions of one queue, a power segment of a core, a table or micro-program slot of a common core, a Tarn index's reader floor, an optimizer slot, or the time mode (R81). -/
def sameObject (a b : Held) : Bool :=
  let p := effPayload a.msg
  let q := effPayload b.msg
  let op := a.opcode.toNat
  if op = 0x0201 then b.opcode == a.opcode && fld p 4 0 == fld q 4 0 && fld p 9 8 == fld q 9 8
  else if op = 0x0207 then b.opcode == a.opcode && fld p 4 0 == fld q 4 0 && fld p 11 8 &&& fld q 11 8 != 0
  else if op = 0x0503 then b.opcode == a.opcode && fld p 3 0 == fld q 3 0
  else if op = 0x0801 then b.opcode == a.opcode
  else if op = 0x0410 then b.opcode == a.opcode && fld p 29 24 == fld q 29 24 && fld p 23 0 &&& fld q 23 0 != 0
  else if op = 0x0411 then b.opcode == a.opcode && fld p 27 24 == fld q 27 24 && fld p 23 0 &&& fld q 23 0 != 0
  else if op = 0x0601 ∨ op = 0x0602 then (b.opcode == 0x0601 || b.opcode == 0x0602) && fld p 3 0 == fld q 3 0
  else false

/-- A message that was dequeued earlier still waits for the same object (R81). -/
def State.behind (s : State) (h : Held) : Bool := (s.mbx.held.takeWhile fun g => g.src != h.src).any (sameObject h)

/-- A message in progress ends with a reply. -/
def endHeld (s : State) (h : Held) (r : Reply) : State :=
  finishMsg (s.unheld h.src) h.msg h.opcode.toNat h.msg.session r

/-- A message in progress goes on: it completes, or what it waits for next is held. -/
def contHeld (h : Held) (a : Answer) : State :=
  match a with
  | .done s r => endHeld s h r
  | .hold s h' => { s with mbx := { s.mbx with held := s.mbx.held.map fun y => if y.src = h.src then h' else y } }

/-- A message that consumes a poisoned word ends with HBM_UNCORRECTED, which is logged at STEP severity (R317, R613, R629; log entry 105). -/
def msgPoison (s : State) (x : Ctx) (a : Nat) : Answer :=
  refuse (s.postErr { mkErr 0x402 1 8 0 with clientId := x.clientId, detail := BitVec.ofNat 32 (a / 256), address := BitVec.ofNat 40 a }) 0x402

/-- BUSY_RETRY with its minimum wait, which the spec does not state (R83, log entry 3). -/
def busyRetry (s : State) : State × Reply :=
  let w := s.freshWord
  (w.2, .val 0x100 w.1.toNat)

/-- A handler's answer of BUSY_RETRY (R83). -/
def answerBusy (s : State) : Answer :=
  let b := busyRetry s
  .done b.1 b.2

/-- A channel is reset: its indices and doorbell become zero, its session loses it, waiting requests are discarded, and it becomes DISABLED, through RESETTING while one of its messages is in progress (R53, R61, R732). -/
def resetChan (s : State) (n : Nat) : State :=
  s.modChan n fun c =>
    { c with reqHead := 0, reqTail := 0, cplTail := 0, cplHead := 0, doorbell := 0, enabled := false, session := 0, reason := 0, unsignalled := 0, phase := true,
             state := if c.busy then 3 else 0, dropCpl := c.busy }

/-- The session that submitted work, by client (spec 17, Error record). -/
def State.clientOf (s : State) (h : BitVec 32) : BitVec 64 :=
  match s.mbx.sessions.find? fun x => x.handle == h with
  | none => 0
  | some x => x.clientId

end Sys2Proof.Machine
end

