-- ==== Sys2Proof/Machine/Tracker.lean ====
section
/-! DEFINITION. The host window and the coherence tracker: what a host request of CXL.mem does, when it is held, and how held requests are served (R551, R553, R554, R557, R560 to R563, R565, R567). -/

namespace Sys2Proof.Machine

/-- The host reaches the device: the PCIe link is trained and the clocks run (R551, R695, R726). -/
def State.hostOpen (s : State) : Bool := s.host.linkUp && s.clocked

/-- The window's range, where every byte of an access lies in it (R554). -/
def inWindow (s : State) (offset n : Nat) : Option Nat := match s.host.window with
  | none => none
  | some w => if offset + n ≤ w.2 then some (w.1 + offset) else none

/-- The tracker's capacity (R562). -/
def trackerSize : Nat := 1048576

/-- The state of a line's tracker entry. -/
def State.tracked (s : State) (line : Nat) : Option Bool := tget none s.host.tracker line

/-- A line's tracker entry takes a state. -/
def State.track (s : State) (line : Nat) (v : Option Bool) : State := { s with host := { s.host with tracker := tset none s.host.tracker line v } }

/-- A held request of the network, not of the host. -/
def fromNetwork (r : HostReq) : Bool := match r.instr with
  | .slotWrite _ _ => true
  | _ => false

/-- A device access waits for a line's snoop, or has still to take place after it: that of a command, or its record's, a slot write's, a message's or a snapshot's (R563). -/
def State.claimed (s : State) (line : Nat) : Bool :=
  s.snooped line || (s.allStarted.any fun x => (x.2.2.wait == .snoop || x.2.2.wait == .batch || x.2.2.done) && x.2.2.lines.contains line)
    || (s.host.waiting.any fun r => fromNetwork r && r.lines.contains line) || (s.mbx.held.any fun h => h.lines.contains line) || s.telem.lines.contains line
    || s.ovt.jobs.any fun j => match j with
      | .range _ _ => false
      | .slot _ _ ls => ls.contains line

/-- A host request is held until a line's snoop has ended, and the device access with it (R562, R563). -/
def holdReq (s : State) (i : Instr) (line : Nat) : State := { s with host := { s.host with waiting := s.host.waiting ++ [{ instr := i, lines := [line] }] } }

/-- The device address of a window line that CXL.mem reaches: the link carries CXL.mem and the decoder is committed (R551, R553, R557). -/
def lineAddr (s : State) (line : Nat) : Option Nat := if s.hostOpen && s.host.cxl && s.host.committed then inWindow s (64 * line) 64 else none

/-- The entry whose line the round-robin pointer reaches next (R562; log entry 45). -/
def victim (s : State) : Option Nat :=
  let ls := s.host.tracker.map fun e => e.1
  match ls.find? fun l => decide (s.host.trackPtr ≤ l) with
  | some l => some l
  | none => ls.head?

/-- What a host request needs of the tracker before it may run: nothing, or the line whose snoop it must await; a victim's snoop is sent (R562, R563). -/
def admitReq (s : State) (line : Nat) (needs : Bool) : State × Option Nat :=
  if s.claimed line then (s, some line)
  else if needs && (s.tracked line).isNone && decide (trackerSize ≤ s.host.tracker.length) then
    match victim s with
    | none => (s, none)
    | some v => (sendSnoops { s with host := { s.host with trackPtr := v + 1 } } [v] true, some v)
  else (s, none)

/-- A line's data goes to the host, poisoned where a word of it is (R567). -/
def readLine (s : State) (line a : Nat) : State :=
  let r := hbmRead s a 64
  r.2.2.emit (.cxlData line (vals r.1) (anyMark r.1))

/-- The entry after a read: A and S as the meta-value says; MemRd with I removes it (R560). -/
def readEntry (s : State) (line : Nat) (mv : Meta) (rd : Bool) : State := match mv with
  | .a => s.track line (some true)
  | .s => s.track line (some false)
  | .i => if rd then s.track line none else s

/-- A host read of a line (R560, R562, R563). -/
def hostRead (s : State) (i : Instr) (line : Nat) (mv : Meta) (rd : Bool) : State :=
  match lineAddr s line with
  | none => s
  | some a =>
    let w := admitReq s line (mv != .i)
    match w.2 with
    | some l => holdReq w.1 i l
    | none => readEntry (readLine w.1 line a) line mv rd

/-- A host eviction of a line crosses the snoop of it (R565). -/
def crossLine (s : State) (line : Nat) : State :=
  { s with host := { s.host with snoops := s.host.snoops.map fun p => if p.line = line then { p with crossed := true } else p } }

/-- A request that removes a line's entry (R560). -/
def hostDrop (s : State) (line : Nat) : State := (s.track line none).emit (.cxlCmp line)

/-- MemInv waits while the line is snooped (R560, R563). -/
def hostInv (s : State) (i : Instr) (line : Nat) : State :=
  match lineAddr s line with
  | none => s
  | some _ => if s.claimed line then holdReq s i line else hostDrop s line

/-- MemClnEvct gives a clean line up: the eviction goes ahead of a snoop (R560, R565). -/
def hostEvict (s : State) (line : Nat) : State := match lineAddr s line with
  | none => s
  | some _ => hostDrop (crossLine s line) line

/-- The bytes of a partial write. -/
def enabledBytes (data : List Byte) (enables : List Bool) (poison : Bool) : List Bt := (data.zip enables).map fun p => { val := p.1, mark := poison, got := p.2 }

/-- A host write of a line is written ahead of a snoop of it; its entry follows the meta-value (R560, R561, R562, R565, R567). -/
def hostWrite (s : State) (i : Instr) (line : Nat) (mv : Meta) (bs : List Bt) : State :=
  match lineAddr s line with
  | none => s
  | some a =>
    let w := if s.snooped line then (s, none) else admitReq s line (mv == .s)
    match w.2 with
    | some l => holdReq w.1 i l
    | none =>
      let t := (hbmWrite w.1 a bs).s
      let t := match mv with
        | .i => (crossLine t line).track line none
        | .s => t.track line (some false)
        | .a => t
      t.emit (.cxlCmp line)

/-- A held host request runs again. -/
def rerun (s : State) (i : Instr) : State := match i with
  | .memRd l mv => hostRead s i l mv true
  | .memRdData l mv => hostRead s i l mv false
  | .memInv l => hostInv s i l
  | .memWr l mv d p => hostWrite s i l mv (markBytes p (padTo 64 d))
  | .memWrPtl l mv d e p => hostWrite s i l mv (enabledBytes (padTo 64 d) e p)
  | _ => s

/-- The host requests that no device access holds any more are served in order (R563). -/
def serveHost (s : State) : State :=
  let mine := s.host.waiting.filter fun r => !fromNetwork r
  let s : State := if mine.isEmpty then s else { s with host := { s.host with waiting := s.host.waiting.filter fromNetwork } }
  mine.foldl (fun s r => if r.lines.any s.claimed then { s with host := { s.host with waiting := s.host.waiting ++ [r] } } else rerun s r.instr) s

end Sys2Proof.Machine
end

