-- ==== Sys2Proof/Machine/Idle.lean ====
section
/-! DEFINITION. What the block does when no command waits (log entry 1). -/

namespace Sys2Proof.Machine

/-- The latched doorbells are evaluated once the firmware serves its interfaces (R56, R732). -/
def evalDoorbells (s : State) : State := (List.range 64).foldl evalDoorbell s

/-- The firmware becomes READY and evaluates the doorbells latched before (R678, R732). -/
def becomeReady (s : State) : State := evalDoorbells (s.setFwStage 6)

/-- Itkan's INIT work ends: HBM training follows where the boot needs it, else READY (R678, R680). -/
def endInit (s : State) : State :=
  if s.boot.fwStage = 3 then (if s.boot.needTrain then s.setFwStage 4 else becomeReady s) else s

/-- A nanosecond of the local oscillator: the GTC counts it, and while it slews every 20,000th counts twice or not at all, which is 50 ppm (R514, R517, R519; log entry 25). -/
def TimeState.tick (t : TimeState) : TimeState :=
  if t.slew = 0 then { t with gtc := t.gtc + 1, slewWait := 0 }
  else if t.slewWait < 19999 then { t with gtc := t.gtc + 1, slewWait := t.slewWait + 1 }
  else if 0 < t.slew then { t with gtc := t.gtc + 2, slew := t.slew - 1, slewWait := 0 }
  else { t with slew := t.slew + 1, slewWait := 0 }

/-- The GTC advances while its clock runs (R514). -/
def advanceGtc (s : State) : State := if s.clocked then { s with clock := s.clock.tick } else s

/-- What is left of a power hold runs down by one nanosecond (R684). -/
def endHold (s : State) : State := { s with power := { s.power with holdLeft := s.power.holdLeft - 1 } }

/-- A step without a command: one nanosecond passes, the firmware's start goes on, and what the host asked for meanwhile is served (log entry 1). -/
def idle (s : State) : State := serveHost (endInit (endHold (advanceGtc s)))

end Sys2Proof.Machine
end

