-- ==== Sys2Proof/Machine/Resets.lean ====
section
/-! DEFINITION. The resets and the state each leaves (R31, R620, R665, R670 to R676, R683, R742). -/

namespace Sys2Proof.Machine

/-- The operations of stopped commands and of the firmware's ended messages are discarded with their tags; a response that still arrives is dropped by its generation (R470, R674). -/
def dropOps (s : State) : State :=
  let s := s.net.ops.foldl (fun s o => s.endOp o.tag) s
  let gone (t : TxFrame) : Bool := decide (2 ≤ t.ty.toNat ∧ t.ty.toNat ≤ 4) || t.ty == 7
  let s := (List.range 18).foldl
    (fun s p => if (s.port p).queued.isEmpty then s else s.modPort p fun pt => { pt with queued := pt.queued.filter fun t => !gone t })
    s
  { s with eth := { s.eth with conns := s.eth.conns.map fun e => (e.1, e.2.map fun k => { k with queued := k.queued.filter fun t => !gone t }) } }

/-- The stage logic takes its reset state (R31, R93, R107, R171, R252, R261, R328, R347, R370, R417, R532, R602, R605, R683). -/
def resetStageLogic (s : State) : State :=
  { s with
    cores := []
    stage := Stage.init
    regions := []
    opt := []
    updateCmds := []
    tarn := []
    groups := []
    buckets := []
    strikes := []
    ovt := { Overturn.init with stepFaults := s.ovt.stepFaults }
    telem := { s.telem with lim := [], period := 0, dest := 0, log2 := 0, vector := 0, snapSeq := 0, due := 0, lines := [] }
    boot := { s.boot with quarantined := false } }

/-- Results of an UPDATE that a reset cuts: each element is written or not, by free values (R357; log entry 55). -/
def tearPart (s : State) (p : BufPart) : State :=
  let bs : List Bt := ((p.bytes.zip p.marks).zipIdx).map fun x => { val := x.1.1, mark := x.1.2, got := (Config.freeByte s.fresh (p.off + x.2 / p.elt * p.elt)).getLsbD 0 }
  let w := match placeOf p.off with
    | .hbm a => (hbmWrite s a bs).s
    | _ => s
  { w with fresh := w.fresh + 1 }

/-- The UPDATEs that run when a reset reaches the update units (R357). -/
def tearUpdates (s : State) : State :=
  ((s.allStarted.filter fun e => cmdOp e.2.2.desc == 0x70 && !e.2.2.done).flatMap fun e => e.2.2.buf).foldl tearPart s

/-- A STAGE reset (R670, R674). Quarantine is released, and the changed STATUS goes out in HELLO (R449, R608). -/
def stageReset (s : State) : State :=
  let q := s.boot.quarantined
  let s := resetStageLogic (dropOps (tearUpdates s))
  if q then s.helloAll else s

/-- ALERT_N is released (R619). -/
def State.releaseAlert (s : State) : State :=
  if s.err.alert then ({ s with err := { s.err with alert := false } } : State).emit (.alert false) else s

/-- The error handling state after a reset that empties the ring; the last-gasp area stays (R620, R626, R683). -/
def clearErrors (e : Errors) : Errors :=
  { Errors.init with alert := e.alert, alertSeqs := e.alertSeqs, alertLost := e.alertLost, alertFirst := e.alertFirst, alertLatest := e.alertLatest,
                     lgFirst := e.lgFirst, lgLatest := e.lgLatest, halted := e.halted, lastCause := e.lastCause, tripCount := e.tripCount, tripTimes := e.tripTimes }

/-- The boot ends with BOOT_FAILED and a reason; what a fetch has read is no image (R641, R678, R682). -/
def State.bootFailed (s : State) (reason : Nat) : State :=
  ({ s with boot := { s.boot with reason := BitVec.ofNat 8 reason, image := if s.boot.fetching then none else s.boot.image, fetching := false, startReady := false } } : State).setFwStage 7

/-- The host interface and the mailbox channels take their reset state: no window, the decoder uncommitted, no tracker entry; every channel DISABLED as CHANNEL_RESET leaves it; the interrupt registers and MSI-X table cleared; a fetch by the boot ROM ends (R559, R567, R682, R683, R731, R732). -/
def resetHostLink (s : State) : State :=
  let s := (List.range 64).foldl (fun s n => resetChan s n) s
  let s := (List.range 64).foldl (fun s n => s.modChan n fun c => { c with reqBase := 0, cplBase := 0, irqEnable := false, vector := 0, moderation := 0 }) s
  let s : State := { s with host := HostIf.init, irq := Irq.init }
  if s.boot.fwStage = 2 ∧ s.boot.fetching = true then s.bootFailed 9 else s

/-- The security state after a reset that reaches the fuse/security domain: debug closed, no nonce, the bank to be sensed afresh; UNLOCK_FAILURES stays except at POWER_ON (R661, R665). -/
def resetSecurity (x : Security) (powerOn : Bool) : Security :=
  { Security.init with bank := x.bank, trstLow := x.trstLow, rollback := x.rollback, failures := if powerOn then 0 else x.failures }

/-- Every domain is reset (R670, R683). BOOT_ADDR and the last-gasp area stay except at POWER_ON (R626, R728). HBM holds no defined contents until its training and zeroing end (R308). The last-gasp header stays as it is, HALTED included (R626, R733), and the trips before the reset count no more toward the eight of R628 (log entry 89). -/
def fullReset (s : State) (powerOn : Bool) : State :=
  let s := s.releaseAlert
  let r := State.reset
  { r with
    pending := s.pending
    out := s.out
    fresh := s.fresh
    boot := { Boot.init with bootAddr := if powerOn then 0 else s.boot.bootAddr }
    sec := resetSecurity s.sec powerOn
    err := if powerOn then Errors.init else { clearErrors s.err with alert := false, alertSeqs := [], alertLost := false, alertFirst := false, alertLatest := false, tripTimes := [] }
    hbm := { s.hbm with uncorrected := 0, scrubPasses := 0, corrected := [], scrubPos := 0 }
    power := { Power.init with temps := s.power.temps, perst := if powerOn then true else s.power.perst } }

/-- What a held message was waiting to do is given up: queues held for a region go on, and list rewrites leave their directory entries unchanged (R52). -/
def dropHeldWork (s : State) : State :=
  let s := allQueues.foldl (fun s cq => if (s.queue cq.1 cq.2).hold then s.modQueue cq.1 cq.2 fun u => { u with hold := false } else s) s
  { s with tarn := s.tarn.map fun e => (e.1, e.2.map fun x => { x with rewrites := [] }) }

/-- How many bits of a vector are 1. -/
def popCount {n : Nat} (x : BitVec n) : Nat := ((List.range n).filter fun i => x.getLsbD i).length

/-- The debug lock level: 0 OPEN, 1 LOCKED-REOPENABLE, 2 LOCKED-PERMANENT (R635). -/
def debugLevel (b : FuseBank) : Nat := if 2 ≤ popCount b.lockP then 2 else if 2 ≤ popCount b.lockR then 1 else 0

/-- The control complex is reset: the running instance stops; messages in progress get no completion, and their effect is absent; debug closes, and trace capture stops unless it is open at level OPEN (R52, R656, R660, R670, R683, R742). A watchdog restart keeps the ring, the latches and the counters, and each discarded event adds 1 to OVERFLOW; another restart empties them (R620, R742). -/
def controlReset (s : State) (watchdog : Bool) : State :=
  let waiting := ((List.range 4).map fun i => (tget [] s.err.queues i).length).sum
  let severe := decide (0 < (tget [] s.err.queues 2).length + (tget [] s.err.queues 3).length)
  let e : Errors :=
    if watchdog then { s.err with queues := [], overflow := satInc s.err.overflow waiting, alertLost := s.err.alertLost || severe }
    else { clearErrors s.err with alertLost := s.err.alertLost || severe }
  let s : State :=
    { s with
      err := e
      mbx := { s.mbx with held := [] }
      ovt := { s.ovt with stepFaults := if watchdog then s.ovt.stepFaults else 0, replay := s.ovt.replay.map fun p => { p with src := none }, jobs := s.ovt.jobs.filter fun j => match j with | .slot _ _ _ => true | .range _ _ => false }
      sec := { s.sec with debugOpened := false, reopenMethod := 0, nonce := none, spdmReady := false, trace := s.sec.trace && debugLevel s.sec.bank == 0 }
      boot := { s.boot with fetching := false, startReady := false, restartDue := false } }
  let s := dropHeldWork s
  let fw := s.net.ops.filter fun o => match o.owner with | .cmd _ _ _ => false | .firmware => true
  let s := fw.foldl (fun s o => s.endOp o.tag) s
  let s := (List.range 64).foldl (fun s n => s.modChan n fun c => { c with busy := false, dropCpl := false, state := if c.state = 3 then 0 else c.state }) s
  s.setFwStage 0

/-- Messages in progress that touch stage logic end with ABORTED before a STAGE reset; FIRMWARE_UPDATE, ADVANCE_ROLLBACK, DEBUG_CHALLENGE and DEBUG_UNLOCK are not among them, nor is the request itself (R672). CLOSE_SESSION is long-running (R77) and ends so too (log entry 108). -/
def abortHeld (s : State) : State :=
  let stays (h : Held) : Bool := [0x0108, 0x0A02, 0x0A03, 0x0A04, 0x0A05].contains h.opcode.toNat
  (s.mbx.held.filter fun h => !stays h).foldl (fun s h => finishMsg s h.msg h.opcode.toNat h.msg.session (.st 0x600))
    { s with mbx := { s.mbx with held := s.mbx.held.filter stays } }

/-- A security message is in progress (R649). -/
def securityBusy (s : State) : Bool := s.mbx.held.any fun h => h.opcode == 0x0A05

/-- A sensor's temperature in degrees. -/
def State.temp (s : State) (i : Nat) : Int := (tget 0 s.power.temps i).toInt

/-- Some sensor is at or above its throttle threshold (R676, R693). -/
def State.hot (s : State) : Bool := (List.range 41).any fun i => decide (95 ≤ s.temp i)

/-- The STAGE reset of RESET_REQUEST, with the messages it ends first (R671, R672). -/
def requestedStageReset (s : State) : State := stageReset (abortHeld s)

end Sys2Proof.Machine
end

