-- ==== Sys2Proof/Machine/Scratch.lean ====
section
/-! DEFINITION. Scratchpad messages: regions, circular regions, windows, counters, the conflict policy and power segments (R265, R279 to R301). -/

namespace Sys2Proof.Machine

/-- A core's base/bound pair (R280); pairs of queue q are numbered 4q to 4q + 3. -/
def CoreCfg.pair (g : CoreCfg) (q k : Nat) : Option Pair := tget none g.pairs (4 * q + k)

/-- The pair that a SET_REGION payload sets, none to clear (R279). -/
def regionOf (x : Ctx) : Option Pair :=
  if x.f 56 32 = 0 then none
  else some { logical := x.f 87 64, size := x.f 56 32, base := x.f 119 96, rd := bit x.p 16, wr := bit x.p 17 }

/-- A circular region lies inside a pair's logical range (R283, R284). -/
def circInside (g : Circ) (p : Option Pair) : Bool :=
  match p with
  | none => false
  | some r => decide (r.logical ≤ g.start) && decide (g.start + g.size ≤ r.logical + r.size)

/-- The refusal of a SET_REGION, if any (R279, R280, R283). -/
def regionRefusal (s : State) (x : Ctx) : Option Nat :=
  let c := x.f 4 0
  let q := x.f 9 8
  let k := x.f 13 12
  let g := (s.core c).cfg
  if !coreOk c then some 0x201
  else
    let clash (r : Pair) : Bool := (List.range 4).any fun j =>
      j != k && (match g.pair q j with | none => false | some o => overlaps r.logical r.size o.logical o.size)
    let fieldBad := match regionOf x with
      | none => false
      | some r => r.size % 128 != 0 || decide (0x1000000 < r.size) || r.logical % 128 != 0 || r.base % 128 != 0 || decide (0x1000000 < r.base + r.size) || clash r
    if fieldBad then some 0x201
    else if g.circ.any fun e => match e.2 with | none => false | some y => y.queue == q && y.pair == k && !circInside y (regionOf x) then some 0x203
    else none

/-- A SET_REGION of a queue is held (R282). -/
def regionHeld (s : State) (c q : Nat) : Bool :=
  s.mbx.held.any fun h => h.opcode == 0x0201 && fld (effPayload h.msg) 4 0 == c && fld (effPayload h.msg) 9 8 == q

/-- The pair is applied; the queue's hold goes on while another SET_REGION of it is held (R282). -/
def applyRegion (s : State) (x : Ctx) : State :=
  let c := x.f 4 0
  let q := x.f 9 8
  let s := s.modCfg c fun g => { g with pairs := tset none g.pairs (4 * q + x.f 13 12) (regionOf x) }
  s.modQueue c q fun u => { u with hold := regionHeld s c q }

/-- SET_REGION (R279 to R283): applied at once where no command of the queue has started and no earlier SET_REGION of it waits, else held. -/
def execSetRegion (m : Msg) (s : State) : Res :=
  serve (plainOp 0x0201 1 [(383, 120), (95, 88), (63, 57), (31, 18), (15, 14), (11, 10), (7, 5)]) m s fun s x =>
    match regionRefusal s x with
    | some st => refuse s st
    | none =>
      if (s.queue (x.f 4 0) (x.f 9 8)).started.isEmpty && !s.behind (heldOf 0x0201 m 0) then .done (applyRegion s x) .ok
      else .hold (s.modQueue (x.f 4 0) (x.f 9 8) fun u => { u with hold := true }) (heldOf 0x0201 m 0)

/-- The circular region that a DMA descriptor names, if any (R286). -/
def circOf (d : BitVec 512) : Option Nat :=
  let b := cmdBody d
  if cmdOp d / 16 = 3 ∧ cmdOp d ≠ 0x33 ∧ fld b 19 18 ≠ 0 then some (fld b 23 20) else none

/-- The DMA side on a ring is the push side (R286). -/
def pushes (d : BitVec 512) : Bool := fld (cmdBody d) 19 18 == 2

/-- A started command of a core uses a circular region (R289). -/
def circUsed (s : State) (c r : Nat) : Bool :=
  (List.range 4).any fun q => (s.queue c q).started.any fun e => circOf e.desc == some r

/-- SET_CIRCULAR (R284, R285, R289). -/
def execSetCircular (m : Msg) (s : State) : Res :=
  serve { plainOp 0x0202 1 [(383, 160), (127, 121), (95, 88), (63, 20), (15, 14), (11, 10), (7, 5)] with high := true } m s fun s x =>
    let c := x.f 4 0
    let r := x.f 19 16
    let g : Circ := { queue := x.f 9 8, pair := x.f 13 12, start := x.f 87 64, size := x.f 120 96, entry := x.f 159 128, head := 0, tail := 0, resHead := 0, resTail := 0 }
    if !coreOk c then refuse s 0x201
    else if g.size != 0 && (g.start % 128 != 0 || g.entry == 0 || g.entry % 128 != 0 || decide (1048576 < g.entry) || g.size % g.entry != 0
        || !circInside g ((s.core c).cfg.pair g.queue g.pair)) then refuse s 0x201
    else if circUsed s c r then refuse s 0x203
    else .done (s.modCfg c fun k => { k with circ := tset none k.circ r (if g.size = 0 then none else some g) }) .ok

/-- The window that an OPEN_WINDOW payload describes (R294). -/
def windowOf (x : Ctx) : Window :=
  { base := x.f 151 128, size := x.f 120 96, srcMask := fb x.p 64 12, srcEp := fb x.p 48 12, counter := fb x.p 40 8, ctrEn := bit x.p 39, publish := bit x.p 38, wr := bit x.p 37, rd := bit x.p 36 }

/-- OPEN_WINDOW (R294, R295). -/
def execOpenWindow (m : Msg) (s : State) : Res :=
  serve { plainOp 0x0203 1 [(383, 152), (127, 121), (95, 76), (63, 60), (35, 14), (7, 5)] with high := true } m s fun s x =>
    let c := x.f 4 0
    let w := windowOf x
    let g := (s.core c).cfg
    let clash := g.windows.any fun e => match e.2 with | none => false | some o => overlaps w.base w.size o.base o.size
    if !coreOk c || w.base % 128 != 0 || w.size % 128 != 0 || w.size == 0 || decide (0x1000000 < w.base + w.size) || clash
        || (tget none g.windows (x.f 13 8)).isSome then refuse s 0x201
    else .done (s.modCfg c fun k => { k with windows := tset none k.windows (x.f 13 8) (some w) }) .ok

/-- A group names a window (R528). -/
def groupNames (s : State) (c w : Nat) : Bool :=
  s.groups.any fun e => match e.2 with
    | none => false
    | some g => (g.coreA == c && g.winA == w) || (g.coreB == c && g.winB == w)

/-- CLOSE_WINDOW (R294, R298, R528). -/
def execCloseWindow (m : Msg) (s : State) : Res :=
  serve (plainOp 0x0204 1 [(383, 14), (7, 5)]) m s fun s x =>
    let c := x.f 4 0
    if !coreOk c then refuse s 0x201
    else if groupNames s c (x.f 13 8) then refuse s 0x203
    else .done (s.modCfg c fun k => { k with windows := tset none k.windows (x.f 13 8) none }) .ok

/-- The counter of a window that a group names (R528). -/
def groupCounts (s : State) (c i : Nat) : Bool :=
  (s.core c).cfg.windows.any fun e => match e.2 with
    | none => false
    | some w => w.counter.toNat == i && groupNames s c e.1

/-- SET_COUNTER (R291, R528). -/
def execSetCounter (m : Msg) (s : State) : Res :=
  serve (plainOp 0x0205 1 [(383, 64), (31, 24), (15, 9), (7, 5)]) m s fun s x =>
    let c := x.f 4 0
    if !coreOk c then refuse s 0x201
    else if groupCounts s c (x.f 23 16) then refuse s 0x203
    else .done (s.modCore c fun k => k.modCounter (x.f 23 16) fun _ => { value := fb x.p 32 32, overflow := false, messages := bit x.p 8 }) .ok

/-- SET_CONFLICT_POLICY (R265). -/
def execSetConflictPolicy (m : Msg) (s : State) : Res :=
  serve (plainOp 0x0206 1 [(383, 17), (15, 10), (7, 5)]) m s fun s x =>
    let c := x.f 4 0
    if !coreOk c then refuse s 0x201
    else if bit x.p 16 && !x.has capStrict then refuse s 0x201
    else .done (s.modCfg c fun k => { k with strict := tset false k.strict (x.f 9 8) (bit x.p 16) }) .ok

/-- A configured micro-batch slot lies in a segment of a core (R299). -/
def segHoldsSlot (s : State) (c g : Nat) : Bool :=
  s.stage.queues.any fun e => match e.2 with
    | none => false
    | some q => q.inSpad && q.core == c && (List.range q.slots).any fun i =>
        overlaps (q.base - (spadBase + c * spadSize) + i * q.stride) q.stride (g * 0x400000) 0x400000

/-- The physical range of a circular region, by its pair. -/
def circPhys (k : CoreCfg) (r : Circ) : Option Nat := (k.pair r.queue r.pair).map fun p => p.base + (r.start - p.logical)

/-- A started command is blocked on a tag slot of a segment, and at which local address: its access's, or for TAG the first slot of its range whose condition it has not met (R264, R274, R300). -/
def Started.blockedIn (g : Nat) (e : Started) : Option Nat :=
  match e.wait with
  | .tagSlot n full addr =>
    if cmdOp e.desc = 0x33 then ((tagSlots (g * 0x400000) 0x400000).find? fun i => e.awaits n i && !e.granted.contains (i, full)).map fun i => 2048 * i
    else if n / 2048 = g then some addr else none
  | _ => none

/-- A segment is turned off: its contents are lost, its tags become EMPTY, circular regions in it return to 0, and accesses blocked on its tags end with SEG_OFF (R300). -/
def segmentOff (s : State) (c g : Nat) : State :=
  let lo := g * 0x400000
  let s := s.modCore c fun k =>
    { k with
      segOff := k.segOff ||| (1#4 <<< g)
      segZeroing := k.segZeroing &&& ~~~(1#4 <<< g)
      spad := tclear k.spad lo (lo + 0x400000)
      badWords := tclear k.badWords (lo / 4) ((lo + 0x400000) / 4)
      tags := tclear k.tags (lo / 2048) ((lo + 0x400000) / 2048)
      cfg := { k.cfg with circ := k.cfg.circ.map fun e => match e.2 with
        | none => e
        | some r => match circPhys k.cfg r with
          | none => e
          | some p => if overlaps p r.size lo 0x400000 then (e.1, some { r with head := 0, tail := 0, resHead := 0, resTail := 0 }) else e } }
  (List.range 4).foldl
    (fun s q => if (s.queue c q).started.isEmpty then s else s.modQueue c q fun u =>
      { u with started := u.started.map fun e => match e.blockedIn g with
          | some n => { e.fault 0x302 n with done := true, wait := .none }
          | none => e })
    s

/-- Segments that are off start their zeroing, with their tags EMPTY (R301). -/
def segmentOn (s : State) (c : Nat) (mask : BitVec 4) : State :=
  s.modCore c fun k =>
    { k with
      segOff := k.segOff &&& ~~~mask
      segZeroing := k.segZeroing ||| (k.segOff &&& mask)
      tags := (List.range 4).foldl (fun t g => if bit (k.segOff &&& mask) g then tclear t (2048 * g) (2048 * (g + 1)) else t) k.tags }

/-- The segments of a mask that are on are turned off (R299, R300). -/
def segmentsOff (s : State) (c : Nat) (mask : BitVec 4) : State :=
  ((List.range 4).filter fun g => bit mask g).foldl (fun s g => if bit (s.core c).segOff g then s else segmentOff s c g) s

/-- A segment-power message turns a segment off that holds a configured micro-batch slot (R299). -/
def segmentsHeld (s : State) (c : Nat) (mask : BitVec 4) : Bool := ((List.range 4).filter fun g => bit mask g).any (segHoldsSlot s c)

/-- A segment-power message takes effect: STATE 1 turns its segments on and then awaits their zeroing, and STATE 0 turns them off, once none of them is being zeroed (R299 to R301; log entry 97). What a held one remembers is whether it has turned its segments on. -/
def setSegments (s : State) (m : Msg) (c : Nat) (mask : BitVec 4) (on : Bool) : Answer :=
  let idle := (s.core c).segZeroing &&& mask = 0
  if on then (if idle ∧ (s.core c).segOff &&& mask = 0 then .done s .ok else .hold (segmentOn s c mask) (heldOf 0x0207 m 1))
  else if segmentsHeld s c mask then refuse s 0x203
  else if idle then .done (segmentsOff s c mask) .ok
  else .hold s (heldOf 0x0207 m 0)

/-- A segment-power message in progress goes on as it can: one that has turned its segments on completes once none of them is being zeroed, and one that has not taken effect does so once no earlier message names the same segments (R81, R299 to R301). -/
def finishSegMsg (s : State) (h : Held) : State :=
  let p := effPayload h.msg
  let c := fld p 4 0
  let mask : BitVec 4 := fb p 8 4
  if s.behind h then s
  else if h.arg = 1 then (if (s.core c).segZeroing &&& mask = 0 then endHeld s h .ok else s)
  else match setSegments s h.msg c mask (bit p 16) with
    | .done t r => endHeld t h r
    | .hold t g => { t with mbx := { t.mbx with held := t.mbx.held.map fun x => if x.src = h.src then g else x } }

/-- The segment-power messages in progress go on as they can, in the order of their dequeuing. -/
def finishSegMsgs (s : State) : State := (s.mbx.held.filter fun h => h.opcode == 0x0207).foldl finishSegMsg s

/-- SET_SEGMENT_POWER (R299 to R301). A message that names a segment being zeroed waits for the zeroing to end; so does one that would turn it off (log entry 97), and one whose segments an earlier message in progress names (R81). -/
def execSetSegmentPower (m : Msg) (s : State) : Res :=
  serve (plainOp 0x0207 1 [(383, 17), (15, 12), (7, 5)]) m s fun s x =>
    let c := x.f 4 0
    let mask : BitVec 4 := fb x.p 8 4
    if !coreOk c then refuse s 0x201
    else if s.behind (heldOf 0x0207 m 0) then .hold s (heldOf 0x0207 m 0)
    else setSegments s m c mask (bit x.p 16)

/-- A segment finishes zeroing and becomes usable (R301). -/
def execSegmentZeroed (core : CoreId) (segment : Fin 4) (s : State) : Res :=
  if bit (s.core core.val).segZeroing segment.val then
    .next (finishSegMsgs (s.modCore core.val fun k => { k with segZeroing := k.segZeroing &&& ~~~(1#4 <<< segment.val) }))
  else .next s

end Sys2Proof.Machine
end

