-- ==== Sys2Proof/Machine/Access.lean ====
section
/-! DEFINITION. How a running command reaches memory: translation of logical scratchpad addresses (R279 to R281), the faults an access meets (R264, R281, R300, R303, R304, R317, R747), and snoops of host-held lines (R561, R566). -/

namespace Sys2Proof.Machine

/-- The pair that holds a logical address and grants the right (R280, R281). -/
def pairFor (g : CoreCfg) (q a : Nat) (write : Bool) : Option Pair :=
  ((List.range 4).filterMap (g.pair q)).find? fun p => decide (p.logical ≤ a) && decide (a < p.logical + p.size) && (if write then p.wr else p.rd)

/-- The physical address of a logical footprint that lies wholly in one pair with the right. -/
def xlat (g : CoreCfg) (q a n : Nat) (write : Bool) : Option Nat :=
  match pairFor g q a write with
  | none => none
  | some p => if a + n ≤ p.logical + p.size then some (p.base + (a - p.logical)) else none

/-- How many bytes of an access at `a` lie in the pair that holds the first byte of its footprint, and where: another pair does not continue the range (R281). -/
def xlatPart (g : CoreCfg) (q base a n : Nat) (write : Bool) : Nat × Nat :=
  match pairFor g q base write with
  | none => (0, 0)
  | some p => (min n (p.logical + p.size - a), p.base + (a - p.logical))

/-- Bytes that no access delivered: free values (log entry 3). -/
def freeBytes (s : State) (a n : Nat) : List Bt :=
  (List.range n).map fun i => { val := Config.freeByte s.fresh (a + i), mark := false, got := false }

/-- A read of the issuing core's scratchpad by logical address, in the footprint that begins at `base`. Accesses outside the footprint's pair are not performed (R281). -/
def Run.localRead (r : Run) (base a n : Nat) : List Bt × Run :=
  let p := xlatPart r.k.cfg r.queue base a n false
  let rd := spadRead r.s r.core p.2 p.1
  let bytes := rd.bytes ++ freeBytes r.s (a + p.1) (n - p.1)
  let r' := if p.1 < n ∨ rd.dead.isSome then { r with s := { r.s with fresh := r.s.fresh + 1 } } else r
  let r' := if p.1 < n then r'.fault 0x300 (a + p.1) else r'
  (bytes, r'.faults ((rd.parity.toList.map fun x => (0x400, x)) ++ rd.dead.toList.map fun x => (0x302, x)))

/-- A read of the issuing core's scratchpad of which some bytes only are used: parity is checked on the words that they lie in (R302). -/
def Run.usedRead (r : Run) (base a n : Nat) (used : Nat → Bool) : List Bt × Run :=
  let p := xlatPart r.k.cfg r.queue base a n false
  let rd := spadRead r.s r.core p.2 p.1
  let bytes := rd.bytes ++ freeBytes r.s (a + p.1) (n - p.1)
  let r' := if p.1 < n ∨ rd.dead.isSome then { r with s := { r.s with fresh := r.s.fresh + 1 } } else r
  let r' := if p.1 < n then r'.fault 0x300 (a + p.1) else r'
  let bad := (bytes.zipIdx.find? fun b => b.1.mark && used b.2).map fun b => (p.2 + b.2) / 4 * 4
  (bytes, r'.faults ((bad.toList.map fun x => (0x400, x)) ++ rd.dead.toList.map fun x => (0x302, x)))

/-- A write to the issuing core's scratchpad by logical address, in the footprint that begins at `base`; the flag says that all of it was performed. -/
def Run.localPut (r : Run) (base a : Nat) (bs : List Bt) : Run × Bool :=
  if bs.isEmpty then (r, true)
  else
    let p := xlatPart r.k.cfg r.queue base a bs.length true
    let w := spadWrite r.s r.core p.2 (bs.take p.1)
    let r' : Run := { r with s := w.1 }
    let r' := if p.1 < bs.length then r'.fault 0x300 (a + p.1) else r'
    (r'.faults ((w.2.1.toList.map fun x => (0x400, x)) ++ w.2.2.toList.map fun x => (0x302, x)), decide (bs.length ≤ p.1) && w.2.2.isNone)

/-- A write to the issuing core's scratchpad by logical address. -/
def Run.localWrite (r : Run) (base a : Nat) (bs : List Bt) : Run := (r.localPut base a bs).1

/-- A read by device address, as the memory answers it. -/
def Run.memRead (r : Run) (a n : Nat) : List Bt × Run :=
  let d := Sys2Proof.Machine.devRead r.s a n
  (d.1, { r with s := d.2.2 }.faults d.2.1)

/-- A read by device address, through the fabric. -/
def Run.devRead (r : Run) (a n : Nat) : List Bt × Run :=
  let d := r.memRead a n
  d.2.fabric d.1

/-- A write by device address, as the memory takes it; the flag says that no segment kept it from being performed. -/
def Run.memPut (r : Run) (a : Nat) (bs : List Bt) : Run × Bool :=
  let d := Sys2Proof.Machine.devWrite r.s a bs
  ({ r with s := d.1 }.faults d.2, !d.2.any fun f => f.1 == 0x302)

/-- A write by device address, through the fabric. -/
def Run.devPut (r : Run) (a : Nat) (bs : List Bt) : Run × Bool :=
  let f := r.fabric bs
  f.2.memPut a f.1

/-- A write by device address. -/
def Run.devWrite (r : Run) (a : Nat) (bs : List Bt) : Run := (r.devPut a bs).1

/-- The HBM range of a device-address footprint, for snoops. -/
def hbmSpan (a n : Nat) : Option (Nat × Nat) :=
  match placeOf a with
  | .hbm x => some (x, n)
  | _ => none

/-- Lines to snoop for a device-address footprint (R561). -/
def snoopsOf (s : State) (a n : Nat) (write : Bool) : List Nat :=
  match hbmSpan a n with
  | none => []
  | some h => snoopsFor s h.1 h.2 write

/-- What the coherence tracker says of a command's HBM footprints before it may access them. -/
inductive Coherent where
  | go (r : Run)
  | stop (r : Run)

/-- Snoops go out for lines that are to be read and lines that are to be written (R561). -/
def askLines (s : State) (rl wl : List Nat) : State := sendSnoops (sendSnoops s (rl.filter fun l => !wl.contains l) false) wl true

/-- A message that needs lines of the host window sends their snoops and waits with them (R561, R563). -/
def holdFor (s : State) (h : Held) (rl wl : List Nat) : Answer := .hold (askLines s rl wl) { h with lines := (rl ++ wl).eraseDups }

/-- Before a command accesses host-window lines that the host holds, snoops go out and the command waits, its lines kept for it; while the host does not answer, the command ends with HOST_UNRESPONSIVE and performs nothing (R561, R563, R566). -/
def Run.coherent (r : Run) (reads writes : List (Nat × Nat)) : Coherent :=
  let rl := reads.flatMap fun p => snoopsOf r.s p.1 p.2 false
  let wl := writes.flatMap fun p => snoopsOf r.s p.1 p.2 true
  if rl.isEmpty && wl.isEmpty then .go (if r.e.lines.isEmpty then r else { r with e := { r.e with lines := [] } })
  else if r.s.cannotSnoop (rl ++ wl) then .stop (r.failWith 0x507 0)
  else .stop ({ r with s := askLines r.s rl wl, e := { r.e with lines := (r.e.lines ++ rl ++ wl).eraseDups } }.block .snoop)

/-- The bytes of a run at a place, on their way. -/
def bufPart (pos : Nat) (bs : List Bt) : BufPart := { off := pos, bytes := vals bs, marks := bs.map fun b => b.mark }

/-- The bytes that a transfer has kept, in order. -/
def bufBytes (ps : List BufPart) : List Bt :=
  (sortBy (fun (a b : BufPart) => decide (a.off < b.off)) ps).flatMap fun p => (p.bytes.zip p.marks).map fun x => { val := x.1, mark := x.2, got := true }

/-- Little-endian words of `n` bytes each. -/
def wordsOf (n : Nat) (bs : List Bt) : List Nat := (chunksOf n (bs.length + 1) (vals bs)).map leNat

/-- The bytes of little-endian words of `n` bytes each. -/
def bytesOfWords (n : Nat) (ws : List Nat) : List Bt := cleanBytes (ws.flatMap fun w => leBytes n w)

/-- A command that has met its first failure remembers the unit (R611). -/
def Started.atUnit (new old : Started) (unit : Nat) : Started := if new.status = old.status then new else { new with unit := unit }

/-- A run that has met no failure yet: a part of a result is computed on it, so that what the part meets is the part's own. -/
def Run.apart (r : Run) : Run := { r with e := { r.e with status := 0, detail := 0, suspect := false } }

/-- What a part of a result that a run has computed brings with it. -/
def Run.noteOf (r : Run) (flags : Flags) (unit count : Nat) : BlockNote := { flags := flags, status := r.e.status, detail := r.e.detail, unit := unit, count := count }

/-- The parts of a result all belong to its unit; its first brings what it met, its flags and its elements. -/
def noteParts (n : BlockNote) : List BufPart → List BufPart
  | [] => []
  | p :: ps => { p with note := some n } :: ps.map fun q => { q with note := some { flags := 0, status := 0, detail := 0, unit := n.unit, count := 0 } }

/-- A part of a result brings its flags, its failure and its elements (R155, R355, R611). -/
def Started.noted (e : Started) (n : BlockNote) : Started :=
  let f := if n.status = 0 then e else (e.faultS n.status.toNat n.detail.toNat).atUnit e n.unit
  { f.flag n.flags with result := f.result + BitVec.ofNat 32 n.count }

/-- A part of a result is written, with what it brings; a failure of the write is its unit's (R319, R344). -/
def Run.putPart (r : Run) (p : BufPart) : Run :=
  let n := p.note.getD { flags := 0, status := 0, detail := 0, unit := 0, count := 0 }
  let e := r.e.noted n
  let w := { r with e := e }.devWrite p.off (bufBytes [p])
  { w with e := w.e.atUnit e n.unit }

/-- Results on their way are written. -/
def Run.putParts (r : Run) (ps : List BufPart) : Run := ps.foldl Run.putPart r

/-- The results that are due are written, each whole, and the rest stays on its way (R356, R538). -/
def Run.putBlocks (r : Run) (first : Nat → Bool) (bs : List (List BufPart)) : Run :=
  let now := bs.zipIdx.filter fun b => first b.2
  let later := bs.zipIdx.filter fun b => !first b.2
  let r := now.foldl (fun r b => r.putParts b.1) r
  { r with e := { r.e with buf := later.flatMap fun b => b.1, cursor := 1 } }

/-- The results on their way are written, and the command's work is over. -/
def Run.putRest (r : Run) : Run :=
  let w := r.putParts r.e.buf
  { w with e := { w.e with buf := [] } }.finish

/-- A command that cannot reach lines which the host holds ends at the unit of the first result that needs one (R566, R611). -/
def Run.stopAt (r x : Run) (ranges : List (Nat × Nat × Nat)) : Run :=
  let unit := (ranges.find? fun p => !(snoopsFor r.s p.2.1 p.2.2 true).isEmpty).map fun p => p.1
  { x with e := x.e.atUnit r.e (unit.getD 0) }

/-- The ranges of parts on their way, each with its unit. -/
def partRanges (ps : List BufPart) : List (Nat × Nat × Nat) := ps.map fun p => ((p.note.map fun n => n.unit).getD 0, p.off, p.bytes.length)

end Sys2Proof.Machine
end

