-- ==== Sys2Proof/Machine/Bodies.lean ====
section
/-! DEFINITION. What the bodies of the stream commands say: their operands, formats, geometry and footprints (R92, R172 to R176, R208, R209, R212, R232 to R235, R266, R274, R286, R310 to R312, R333, R353, R378, R388, R534). Admission and execution both read a body through these. -/

namespace Sys2Proof.Machine

/-- A footprint in the issuing core's scratchpad by logical address, and whether the command writes it. -/
structure Foot where
  addr : Nat
  len : Nat
  write : Bool
  deriving DecidableEq, Repr

/-- Bytes of an element in an array format (R130, R176). -/
def fmtBytes (code : Nat) : Nat := if code = 0 then 4 else if code ≤ 2 then 2 else 1

/-- Bytes of a matrix in block layout (R172). -/
def layoutBytes (rows cols code : Nat) : Nat := ceilDiv rows 32 * ceilDiv cols 32 * (1024 * fmtBytes code)

/-- The byte offset of element (i, j) of a matrix of `cols` columns in block layout (R172). -/
def layoutOff (cols code i j : Nat) : Nat :=
  (i / 32 * ceilDiv cols 32 + j / 32) * (1024 * fmtBytes code) + (32 * (i % 32) + j % 32) * fmtBytes code

/-- The geometry of a CONV (R208, R209). -/
structure ConvGeom where
  ih : Nat
  iw : Nat
  c : Nat
  cout : Nat
  kh : Nat
  kw : Nat
  sy : Nat
  sx : Nat
  dy : Nat
  dx : Nat
  padT : Nat
  padB : Nat
  padL : Nat
  padR : Nat
  deriving DecidableEq, Repr

/-- The channels rounded up to 32 (R208). -/
def ConvGeom.cpad (g : ConvGeom) : Nat := 32 * ceilDiv g.c 32

/-- Output positions along one axis; 0 where the formula gives less than 1 (R209). -/
def convOut (n padA padZ d k s : Nat) : Nat :=
  if n + padA + padZ < d * (k - 1) + 1 then 0 else (n + padA + padZ - d * (k - 1) - 1) / s + 1

def ConvGeom.oh (g : ConvGeom) : Nat := convOut g.ih g.padT g.padB g.dy g.kh g.sy
def ConvGeom.ow (g : ConvGeom) : Nat := convOut g.iw g.padL g.padR g.dx g.kw g.sx

/-- The geometry fields of a CONV body. -/
def convGeom (b : BitVec 384) : ConvGeom :=
  { ih := fld b 95 80 + 1, iw := fld b 111 96 + 1, c := fld b 127 112 + 1, cout := fld b 143 128 + 1, kh := fld b 43 40 + 1, kw := fld b 47 44 + 1, sy := fld b 50 48 + 1, sx := fld b 53 51 + 1, dy := fld b 56 54 + 1, dx := fld b 59 57 + 1, padT := fld b 67 64, padB := fld b 71 68, padL := fld b 75 72, padR := fld b 79 76 }

/-- A matrix command as MATMUL and CONV share it (R174, R176, R208); `geom` is CONV's. -/
structure MatArgs where
  stat : Nat
  wt : Nat
  out : Nat
  tokens : Nat
  reduce : Nat
  vectors : Nat
  statFmt : Nat
  wtFmt : Nat
  shape : Nat
  mode : Nat
  array : Nat
  accIn : Bool
  statTurned : Bool
  wtTurned : Bool
  ck : Nat
  tau : Nat
  actl : BitVec 8
  epi : BitVec 64
  geom : Option ConvGeom
  deriving DecidableEq, Repr

/-- The fields of a MATMUL or CONV. -/
def matArgs (d : BitVec 512) : MatArgs :=
  let b := cmdBody d
  let base : MatArgs :=
    { stat := fld b 119 96, wt := fld b 151 128, out := fld b 183 160, tokens := fld b 55 40 + 1, reduce := fld b 71 56 + 1, vectors := fld b 87 72 + 1, statFmt := fld b 18 16, wtFmt := fld b 22 20, shape := fld b 10 8, mode := fld b 13 12, array := fld b 15 14, accIn := bit b 26, statTurned := bit b 24, wtTurned := bit b 25, ck := fld b 29 28, tau := fld b 36 32, actl := fb b 0 8, epi := fb b 320 64, geom := none }
  if cmdOp d = 0x11 then
    let g := convGeom b
    { base with stat := fld b 167 144, wt := fld b 199 176, out := fld b 231 208, tokens := g.oh * g.ow, reduce := g.kh * g.kw * g.cpad, vectors := g.cout, statTurned := false, wtTurned := false, geom := some g }
  else base

/-- Rows and columns of the stored stationary operand (R174, R208). -/
def MatArgs.statDims (a : MatArgs) : Nat × Nat :=
  match a.geom with
  | some g => (g.ih * g.iw, g.c)
  | none => if a.statTurned then (a.reduce, a.tokens) else (a.tokens, a.reduce)

/-- Rows and columns of the stored weights (R174, R208). -/
def MatArgs.wtDims (a : MatArgs) : Nat × Nat := if a.wtTurned then (a.reduce, a.vectors) else (a.vectors, a.reduce)

def MatArgs.statLen (a : MatArgs) : Nat := layoutBytes a.statDims.1 a.statDims.2 a.statFmt
def MatArgs.wtLen (a : MatArgs) : Nat := layoutBytes a.wtDims.1 a.wtDims.2 a.wtFmt

/-- OUT_FMT of an EPILOGUE field. -/
def epiFmt (e : BitVec 64) : Nat := fld e 46 44

def MatArgs.outLen (a : MatArgs) : Nat := layoutBytes a.tokens a.vectors (epiFmt a.epi)

/-- The arrays of MODE and ARRAY; none for a pair outside the gang table (R197). -/
def gangOf (mode array : Nat) : Option (List Nat) :=
  if mode = 0 then some [array]
  else if mode = 1 then (if array % 2 = 0 then some [array, array + 1] else none)
  else if mode = 2 then (if array = 0 then some [0, 1, 2, 3] else none)
  else none

/-- The two operand formats are a listed pair (R169). -/
def fmtPairOk (a b : Nat) : Bool := (a == b && decide (a < 5)) || (decide (3 ≤ a) && decide (3 ≤ b) && decide (a < 5) && decide (b < 5))

/-- A matrix command taps its output (R222). -/
def epiTap (e : BitVec 64) : Bool := bit e 39

/-- The ELTWISE count (R212). -/
def eltCount (b : BitVec 384) : Nat := fld b 63 40 + 1

/-- The arrays that a matrix command names (R178, R197, R212). -/
def arraysOf (d : BitVec 512) : List Nat :=
  let b := cmdBody d
  if cmdOp d = 0x12 then [fld b 15 14] else (gangOf (fld b 13 12) (fld b 15 14)).getD []

/-- Bytes of one row of `n` elements in a vector format; BS8 and BS8U hold 33 bytes for each 32 elements (R234). -/
def rowBytes (code n : Nat) : Nat := if code = 5 ∨ code = 6 then n / 32 * 33 else n * fmtBytes code

/-- A vector command (spec 06, Vector body). -/
structure VecArgs where
  op : Nat
  func : Nat
  rows : Nat
  len : Nat
  pitch : Nat
  a : Nat
  b : Nat
  c : Nat
  out : Nat
  aux : Nat
  aFmt : Nat
  bFmt : Nat
  outFmt : Nat
  bBcast : Bool
  cBcast : Bool
  scalar : F32
  actl : BitVec 8
  deriving DecidableEq, Repr

/-- The fields of a vector command. -/
def vecArgs (d : BitVec 512) : VecArgs :=
  let b := cmdBody d
  { op := cmdOp d, func := fld b 31 24, rows := fld b 199 184 + 1, len := fld b 215 200 + 1, pitch := 128 * fld b 231 216, a := fld b 279 256, b := fld b 303 280, c := fld b 327 304, out := fld b 255 232, aux := fld b 351 328, aFmt := fld b 10 8, bFmt := fld b 14 12, outFmt := fld b 18 16, bBcast := bit b 19, cBcast := bit b 20, scalar := fb b 352 32, actl := fb b 0 8 }

/-- Which of B, C and AUX a vector command uses (R232, R242 to R245). -/
def VecArgs.uses (v : VecArgs) : Bool × Bool × Bool :=
  if v.op = 0x20 then (decide (v.func ≤ 5), v.func == 3, v.func == 9)
  else if v.op = 0x23 then (false, v.func == 1, v.func == 1)
  else if v.op = 0x24 then (v.b != 0, v.func == 0 && v.c != 0, false)
  else (false, false, false)

/-- The distance between rows of a format (R232). -/
def VecArgs.stride (v : VecArgs) (fmt : Nat) : Nat := if v.pitch = 0 then rowBytes fmt v.len else v.pitch

/-- The footprint of a row operand (R281); one row when it is broadcast. -/
def VecArgs.span (v : VecArgs) (fmt : Nat) (bcast : Bool) : Nat :=
  (if bcast then 0 else (v.rows - 1) * v.stride fmt) + rowBytes fmt v.len

/-- Bytes of OUT (R242: packed records of 16 bytes for a row statistic). -/
def VecArgs.outLen (v : VecArgs) : Nat := if v.op = 0x22 then 16 * v.rows else v.span v.outFmt false

/-- The operand footprints of a vector command, OUT first. -/
def VecArgs.feet (v : VecArgs) : List Foot :=
  let u := v.uses
  let soft := v.op == 0x23
  [{ addr := v.out, len := v.outLen, write := true }, { addr := v.a, len := v.span v.aFmt false, write := false }]
  ++ (if u.1 then [{ addr := v.b, len := v.span v.bFmt v.bBcast, write := false }] else [])
  ++ (if u.2.1 then [{ addr := v.c, len := if soft then 4 * v.rows else v.span v.bFmt v.cBcast, write := soft }] else [])
  ++ (if u.2.2 then (if soft then [{ addr := v.aux, len := 8 * v.rows, write := false }, { addr := v.aux, len := 8 * v.rows, write := true }] else [{ addr := v.aux, len := 64, write := false }]) else [])

/-- One side of a DMA (R266, R267, R286). -/
inductive Side where
  /-- The issuing core's scratchpad, by logical address. -/
  | local (a : Nat)
  /-- Circular region `r` of the issuing core. -/
  | ring (r : Nat)
  /-- HBM or another core's scratchpad, by device address. -/
  | dev (a : Nat)
  /-- A board address of another slot (R312). -/
  | board (slot a : Nat)
  /-- The window side of a REMOTE operation: an offset. -/
  | win (off : Nat)
  /-- An address that admission refuses with BAD_FIELD. -/
  | bad
  deriving DecidableEq, Repr

/-- The device's own board slot, while the coordinates are set (R312, R482). -/
def State.ownSlot (s : State) : Option Nat := if s.coordSet then some (fld s.fabric.coord 15 0) else none

/-- An address of HBM or of another core's scratchpad that a footprint may start at (R267, R311). -/
def devSide (core a n : Nat) : Side :=
  match placeOf a with
  | .spad c _ => if c = core ∨ rangeOk a n = false then .bad else .dev a
  | _ => if rangeOk a n then .dev a else .bad

/-- The side that a space and an address name (R267, R310 to R312). -/
def sideOf (s : State) (core space a n : Nat) : Side :=
  if space = 0 then .local a
  else if space = 1 then (if a < 2 ^ 40 then devSide core a n else .bad)
  else if space = 2 then (if s.ownSlot = some (a / 2 ^ 40) then devSide core (a % 2 ^ 40) n else .board (a / 2 ^ 40) (a % 2 ^ 40))
  else .bad

/-- LENGTH of a DMA. -/
def dmaLen (d : BitVec 512) : Nat := fld (cmdBody d) 351 320

/-- The source and destination of a COPY, REMOTE_WRITE or REMOTE_READ. A ring replaces the address of its side, whose space is still no reserved one (R99, R266, R286). -/
def dmaSides (s : State) (core : Nat) (d : BitVec 512) : Side × Side :=
  let b := cmdBody d
  let n := dmaLen d
  let side := fld b 19 18
  let ring (space : Nat) : Side := if space = 3 then .bad else .ring (fld b 23 20)
  let src := if cmdOp d = 0x32 then (if fld b 63 62 = 0 then Side.win (fld b 234 192) else .bad)
    else if side = 1 then ring (fld b 63 62) else sideOf s core (fld b 63 62) (fld b 234 192) n
  let dst := if cmdOp d = 0x31 then (if fld b 65 64 = 0 then Side.win (fld b 298 256) else .bad)
    else if side = 2 then ring (fld b 65 64) else sideOf s core (fld b 65 64) (fld b 298 256) n
  (src, dst)

/-- The arrays of an UPDATE, as address and length: parameter, gradient, first and second moment, working copy (R353, R354). -/
structure UpdArgs where
  param : Nat
  grad : Nat
  m : Nat
  v : Nat
  copy : Nat
  count : Nat
  slot : Nat
  lr : F32
  scale : F32
  bc1 : F32
  bc2 : F32
  clear : Bool
  noDecay : Bool
  actl : BitVec 8
  deriving DecidableEq, Repr

/-- The fields of an UPDATE. -/
def updArgs (d : BitVec 512) : UpdArgs :=
  let b := cmdBody d
  { param := fld b 95 56, grad := fld b 135 96, m := fld b 175 136, v := fld b 215 176, copy := fld b 255 216, count := fld b 55 24 + 1, slot := fld b 23 20, lr := fb b 352 32, scale := fb b 320 32, bc1 := fb b 288 32, bc2 := fb b 256 32, clear := bit b 17, noDecay := bit b 16, actl := fb b 0 8 }

/-- The algorithm keeps a second moment (spec 09, Algorithm codes). -/
def optUsesV (o : OptSlot) : Bool := o.algorithm == 1 || o.algorithm == 2

/-- Bytes of a moment array (spec 09, Arrays of an update command). -/
def momentBytes (o : OptSlot) (n : Nat) : Nat := if o.bs8 then n / 32 * 33 else 4 * n

/-- Element size of a working copy. -/
def copyBytes (code : Nat) : Nat := if code ≤ 2 then 2 else 1

/-- The arrays that an UPDATE uses, as address and length. -/
def UpdArgs.used (u : UpdArgs) (o : OptSlot) : List (Nat × Nat) :=
  [(u.param, u.count * if o.masterBf16 then 2 else 4), (u.grad, u.count * if o.gradBf16 then 2 else 4), (u.m, momentBytes o u.count)]
  ++ (if optUsesV o then [(u.v, momentBytes o u.count)] else [])
  ++ (if o.copyFmt != 0 then [(u.copy, u.count * copyBytes o.copyFmt.toNat)] else [])

/-- The array fields that an UPDATE leaves unused. -/
def UpdArgs.unused (u : UpdArgs) (o : OptSlot) : List Nat :=
  (if optUsesV o then [] else [u.v]) ++ (if o.copyFmt != 0 then [] else [u.copy])

/-- A bucket command's bucket number. -/
def bucketOf (d : BitVec 512) : Nat := fld (cmdBody d) 19 8

/-- Bucket `i`, where it exists. -/
def State.bucket (s : State) (i : Nat) : Option Bucket := tget none s.buckets i

/-- Group `i`, where it exists. -/
def State.group (s : State) (i : Nat) : Option Group := tget none s.groups i

/-- The state with a group changed, where it exists. -/
def State.modGroup (s : State) (i : Nat) (f : Group → Group) : State := { s with groups := tmod none s.groups i (Option.map f) }

/-- The group of a bucket command (R534). -/
def groupOf (s : State) (d : BitVec 512) : Option Nat := (s.bucket (bucketOf d)).map fun k => k.group

/-- The scratchpad footprints of a command's body (R281). -/
def feetOf (d : BitVec 512) : List Foot :=
  let b := cmdBody d
  match cmdOp d with
  | 0x10 | 0x11 =>
    let a := matArgs d
    [{ addr := a.stat, len := a.statLen, write := false }, { addr := a.wt, len := a.wtLen, write := false }, { addr := a.out, len := a.outLen, write := true }]
      ++ if a.accIn then [{ addr := a.out, len := a.outLen, write := false }] else []
  | 0x12 =>
    let n := eltCount b
    [{ addr := fld b 119 96, len := n * fmtBytes (fld b 18 16), write := false }, { addr := fld b 151 128, len := n * fmtBytes (fld b 22 20), write := false }, { addr := fld b 183 160, len := n * fmtBytes (epiFmt (fb b 320 64)), write := true }]
  | 0x20 | 0x21 | 0x22 | 0x23 | 0x24 => (vecArgs d).feet
  | 0x30 | 0x31 | 0x32 =>
    let side := fld b 19 18
    (if cmdOp d ≠ 0x32 ∧ side ≠ 1 ∧ fld b 63 62 = 0 then [{ addr := fld b 234 192, len := dmaLen d, write := false }] else [])
      ++ (if cmdOp d ≠ 0x31 ∧ side ≠ 2 ∧ fld b 65 64 = 0 then [{ addr := fld b 298 256, len := dmaLen d, write := true }] else [])
  | 0x41 => [{ addr := fld b 183 160, len := fld b 63 32, write := false }]
  | 0x43 => [{ addr := fld b 183 160, len := fld b 63 32, write := true }]
  | 0x60 => [{ addr := fld b 119 96, len := (fld b 95 64 + 1) * (if bit b 21 then 2 else 4), write := false }]
  | _ => []

end Sys2Proof.Machine
end

