-- ==== Sys2Proof/Machine/Index.lean ====
section
/-! DEFINITION. The Tarn index structures in HBM (R371, R372), and the HBM ranges that the device's objects own. -/

namespace Sys2Proof.Machine

/-- The sketch width in bytes (R371). -/
def sketchBytes (width : BitVec 2) : Nat := 32 * 2 ^ width.toNat

/-- The bytes of a log entry: the sketch and a 32-byte trailer (R372). -/
def entryBytes (width : BitVec 2) : Nat := sketchBytes width + 32

/-- A directory entry (R372). -/
structure DirEntry where
  tomb : Nat
  log : Nat
  length : Nat
  cap : Nat
  deriving DecidableEq, Repr

/-- Little-endian bytes of HBM as a number. -/
def State.hbmNat (s : State) (a n : Nat) : Nat := leNat (s.hbmBytes a n)

/-- Directory entry `l` of a directory (R372). -/
def dirEntry (s : State) (dir l : Nat) : DirEntry :=
  let x := BitVec.ofNat 256 (s.hbmNat (dir + 32 * l) 32)
  { tomb := fld x 231 192, log := fld x 167 128, length := fld x 127 96, cap := fld x 95 64 }

/-- The 32 bytes of a directory entry (R372). -/
def dirBytes (d : DirEntry) : List Byte :=
  leBytes 32 (d.tomb * 2 ^ 192 + d.log * 2 ^ 128 + d.length * 2 ^ 96 + d.cap * 2 ^ 64)

/-- The log and tombstone table of a list. -/
def listRanges (width : BitVec 2) (d : DirEntry) : List (Nat × Nat) := [(d.log, d.cap * entryBytes width), (d.tomb, 4 * d.cap)]

/-- Every structure of an index given by its geometry (R371, R372). -/
def structRanges (s : State) (width : BitVec 2) (lists dir centroid : Nat) : List (Nat × Nat) :=
  (dir, 32 * lists) :: (centroid, lists * sketchBytes width) :: (List.range lists).flatMap fun l => listRanges width (dirEntry s dir l)

/-- Every Tarn structure of the device, rewrites' new ones included. -/
def tarnRanges (s : State) : List (Nat × Nat) :=
  s.tarn.flatMap fun e => match e.2 with
    | none => []
    | some x => structRanges s x.width x.lists x.dir x.centroid ++ x.rewrites.flatMap fun r => listRanges x.width { tomb := r.newTomb, log := r.newLog, length := 0, cap := r.newCap }

/-- The store regions. -/
def storeRanges (s : State) : List (Nat × Nat) := s.regions.map fun e => e.2

/-- The host window. -/
def windowRanges (s : State) : List (Nat × Nat) := s.host.window.toList

/-- The bucket ranges (R533). -/
def bucketBytes (b : Bucket) : Nat := b.length * (if b.bf16 then 2 else 4)

def bucketRanges (s : State) : List (Nat × Nat) :=
  s.buckets.filterMap fun e => e.2.map fun b => (b.addr, bucketBytes b)

/-- The range of the replay log in force (R421). -/
def replayRanges (s : State) : List (Nat × Nat) := s.ovt.current.toList.map fun r => (r.base, r.size)

/-- A range meets one of several. -/
def hits (a n : Nat) (rs : List (Nat × Nat)) : Bool := rs.any fun r => overlaps a n r.1 r.2

/-- A range of HBM lies inside it. -/
def inHbm (a n : Nat) : Bool := decide (a + n ≤ hbmTop)

/-- Some two ranges of a list overlap. -/
def selfOverlap (rs : List (Nat × Nat)) : Bool :=
  let sorted := sortBy (fun a b => decide (a.1 < b.1)) (rs.filter fun r => r.2 != 0)
  (sorted.zip sorted.tail).any fun p => decide (p.2.1 < p.1.1 + p.1.2)

/-- Index `i`, where it exists. -/
def State.index (s : State) (i : Nat) : Option Index := tget none s.tarn i

/-- The state with one index changed, where it exists. -/
def State.modIndex (s : State) (i : Nat) (f : Index → Index) : State :=
  { s with tarn := tmod none s.tarn i (Option.map f) }

end Sys2Proof.Machine
end

