-- ==== Sys2Proof/Machine/Admit.lean ====
section
/-! DEFINITION. Admission of a command: the checks of R99 in the order of its table, with the field rules of every class (R149, R169, R173, R177, R197, R209, R229, R234, R235, R267 to R274, R281, R286, R311, R333, R336, R354, R368, R388, R535, R738). -/

namespace Sys2Proof.Machine

/-- CMD_OP names a listed class and operation (R92). -/
def opListed (op : Nat) : Bool :=
  decide (op ≤ 0x05) || (decide (0x10 ≤ op) && decide (op ≤ 0x12)) || (decide (0x20 ≤ op) && decide (op ≤ 0x24)) || (decide (0x30 ≤ op) && decide (op ≤ 0x33))
    || (decide (0x40 ≤ op) && decide (op ≤ 0x43)) || (decide (0x50 ≤ op) && decide (op ≤ 0x53)) || op == 0x60 || op == 0x61 || op == 0x70

/-- The reserved ranges of the command header. -/
def headerOk (d : BitVec 512) : Bool := zeros d [(127, 96), (31, 31), (23, 23), (15, 10)]

/-- The reserved ranges of a body. -/
def bodyResv (op : Nat) : List (Nat × Nat) :=
  match op with
  | 0x00 => [(383, 0)]
  | 0x01 => [(383, 64), (31, 16), (7, 2)]
  | 0x02 => [(383, 64), (31, 17), (15, 14), (7, 5)]
  | 0x03 | 0x04 | 0x05 => [(383, 64), (31, 16), (7, 2)]
  | 0x10 => [(351, 184), (159, 152), (127, 120), (95, 88), (39, 37), (31, 30), (27, 27), (23, 23), (19, 19), (11, 11)]
  | 0x11 => [(351, 232), (207, 200), (175, 168), (63, 60), (39, 37), (31, 30), (27, 27), (25, 23), (19, 19), (11, 11)]
  | 0x12 => [(351, 184), (159, 152), (127, 120), (95, 64), (39, 23), (19, 19), (13, 8)]
  | 0x20 | 0x21 | 0x22 | 0x23 | 0x24 => [(183, 32), (23, 21), (15, 15), (11, 11)]
  | 0x30 | 0x31 | 0x32 => [(383, 352), (319, 299), (255, 235), (191, 66), (61, 56), (13, 0)]
  | 0x33 => [(383, 34), (31, 29), (15, 13)]
  | 0x40 | 0x41 | 0x42 | 0x43 => [(383, 184), (159, 136), (95, 92), (31, 18), (11, 11)]
  | 0x50 => [(13, 12)]
  | 0x51 | 0x52 | 0x53 => [(383, 168), (127, 104), (63, 56), (15, 12)]
  | 0x60 | 0x61 => [(383, 120), (31, 24)]
  | 0x70 => [(19, 18), (15, 8)]
  | _ => []

/-- The command carries an arithmetic control byte (R142). -/
def hasActl (op : Nat) : Bool := decide (0x10 ≤ op) && op / 16 != 3

/-- A function code is listed (R238). `micro` allows codes 64 to 127. -/
def fnListed (code : Nat) (micro : Bool) : Bool :=
  decide (code ≤ 11) || (decide (16 ≤ code) && decide (code ≤ 31)) || (micro && decide (64 ≤ code) && decide (code ≤ 127))

/-- The EPILOGUE field's values are listed (R223). -/
def epiOk (e : BitVec 64) : Bool := decide (epiFmt e ≤ 4) && fld e 42 41 != 3 && fnListed (fld e 38 32) false

/-- The field rules of CONTROL commands. -/
def controlOk (d : BitVec 512) : Bool :=
  let b := cmdBody d
  match cmdOp d with
  | 0x01 => decide (fld b 1 0 ≤ 1) && (fld b 1 0 == 1 || decide (fld b 15 8 < 64))
  | 0x02 => coreOk (fld b 4 0)
  | _ => true

/-- The field rules of MATMUL and CONV (R169, R173, R177, R197, R209, R336). -/
def matOk (d : BitVec 512) : Bool :=
  let a := matArgs d
  decide (a.shape ≤ 4) && (gangOf a.mode a.array).isSome && fmtPairOk a.statFmt a.wtFmt && epiOk a.epi
    && a.stat % 128 == 0 && a.wt % 128 == 0 && a.out % 128 == 0
    && (!a.accIn || epiFmt a.epi == 0)
    && (match a.geom with
        | none => true
        | some g => decide (g.kw ≤ 15) && decide (1 ≤ g.oh) && decide (1 ≤ g.ow) && decide (g.oh * g.ow ≤ 65536) && decide (g.kh * g.kw * g.cpad ≤ 65536)
            && decide (g.padT < g.dy * (g.kh - 1) + 1) && decide (g.padB < g.dy * (g.kh - 1) + 1)
            && decide (g.padL < g.dx * (g.kw - 1) + 1) && decide (g.padR < g.dx * (g.kw - 1) + 1))
    && !overlaps a.out a.outLen a.stat a.statLen && !overlaps a.out a.outLen a.wt a.wtLen
    && (!epiTap a.epi || decide (ceilDiv a.vectors 32 * (1024 * fmtBytes (epiFmt a.epi)) ≤ 524288))

/-- The field rules of ELTWISE (R169, R173, R177). -/
def eltOk (d : BitVec 512) : Bool :=
  let b := cmdBody d
  let e : BitVec 64 := fb b 320 64
  let n := eltCount b
  let o := fld b 183 160
  let on := n * fmtBytes (epiFmt e)
  fmtPairOk (fld b 18 16) (fld b 22 20) && epiOk e && fld b 119 96 % 128 == 0 && fld b 151 128 % 128 == 0 && o % 128 == 0
    && !overlaps o on (fld b 119 96) (n * fmtBytes (fld b 18 16)) && !overlaps o on (fld b 151 128) (n * fmtBytes (fld b 22 20))

/-- FUNC is listed for the operation (R233, R238, R242 to R245). -/
def vecFuncOk (v : VecArgs) : Bool :=
  if v.op = 0x20 then decide (v.func ≤ 9)
  else if v.op = 0x21 then fnListed v.func true
  else if v.op = 0x22 then decide (v.func < 8)
  else decide (v.func ≤ 1)

/-- The operands that a vector command does not use have zero address and format fields (R232). OUT_FMT of VEC_ROWSTAT and B_FMT of the online softmax, whose results are FP32, are ignored whatever format they name (log entry 124). -/
def vecUnusedOk (v : VecArgs) : Bool :=
  let u := v.uses
  (u.1 || v.b == 0) && (u.2.1 || v.c == 0) && (u.2.2 || v.aux == 0) && (u.1 || u.2.1 || v.bFmt == 0)

/-- The field rules of vector commands (R232 to R235, R245). -/
def vecOk (d : BitVec 512) : Bool :=
  let v := vecArgs d
  let copy := v.op == 0x20 && v.func == 6
  let fmtOk (f : Nat) : Bool := decide (f ≤ 4) || (copy && decide (f ≤ 6) && v.len % 32 == 0)
  vecFuncOk v && vecUnusedOk v && fmtOk v.aFmt && fmtOk v.outFmt && decide (v.bFmt ≤ 4)
    && (v.op != 0x24 || ((v.b == 0 || v.bBcast) && (v.c == 0 || v.cBcast)))
    && (v.aux % 128 == 0 || !(v.op == 0x20 && v.func == 9))
    && (v.feet.tail.all fun f => (f.addr == v.out && f.len == v.outLen) || !overlaps f.addr f.len v.out v.outLen)

/-- The address range that one side of a DMA occupies: the board slot where it is another's, the memory, and its length. The issuing core's scratchpad is its own, and a ring may place the bytes anywhere in itself (R270). -/
def sideSpan (s : State) (core queue n : Nat) (write : Bool) : Side → Option (Option Nat × Place × Nat)
  | .local a => (xlat (s.core core).cfg queue a n write).map fun p => (none, .spad core p, n)
  | .ring r => (tget none (s.core core).cfg.circ r).bind fun g => (circPhys (s.core core).cfg g).map fun p => (none, .spad core p, g.size)
  | .dev a => some (none, placeOf a, n)
  | .board slot a => some (some slot, placeOf a, n)
  | _ => none

/-- Two places of one memory overlap. -/
def placesOverlap : Option (Option Nat × Place × Nat) → Option (Option Nat × Place × Nat) → Bool
  | some (x, .hbm a, n), some (y, .hbm b, k) => x == y && overlaps a n b k
  | some (x, .spad c a, n), some (y, .spad e b, k) => x == y && c == e && overlaps a n b k
  | _, _ => false

/-- A side's scratchpad is another core's (R268, R273). -/
def otherSpad : Side → Bool
  | .dev a => match placeOf a with | .spad _ _ => true | _ => false
  | .board _ a => match placeOf a with | .spad _ _ => true | _ => false
  | _ => false

/-- A side is the issuing core's own scratchpad (R273). -/
def ownSide : Side → Bool
  | .local _ => true
  | .ring _ => true
  | _ => false

/-- A ring side names a configured region of the queue, and LENGTH fits it (R286). -/
def ringOkFor (s : State) (core queue n : Nat) : Side → Bool
  | .ring r => match tget none (s.core core).cfg.circ r with
    | none => false
    | some g => g.queue == queue && n % g.entry == 0 && decide (n ≤ g.size)
  | _ => true

/-- A side is usable at all: board addresses of other slots are for COPY only (R267). -/
def sideUsable (copy : Bool) : Side → Bool
  | .bad => false
  | .board _ _ => copy
  | _ => true

/-- The field rules of COPY, REMOTE_WRITE and REMOTE_READ (R266 to R273, R286). -/
def dmaOk (s : State) (core queue : Nat) (d : BitVec 512) : Bool :=
  let b := cmdBody d
  let copy := cmdOp d == 0x30
  let n := dmaLen d
  let sd := dmaSides s core d
  let st := fld b 17 16
  let dt := fld b 15 14
  let side := fld b 19 18
  n != 0 && side != 3 && st != 3
    && sideUsable copy sd.1 && sideUsable copy sd.2 && ringOkFor s core queue n sd.1 && ringOkFor s core queue n sd.2
    && (copy || (coreOk (fld b 43 39) && !bit b 32))
    && !(cmdOp d == 0x31 && side == 2) && !(cmdOp d == 0x32 && side == 1)
    && (!bit b 32 || (match sd.2 with | .dev _ => otherSpad sd.2 | _ => false))
    && (st == 0 || ownSide sd.1)
    && (dt == 0 || ownSide sd.2 || (dt == 2 && (cmdOp d == 0x31 || otherSpad sd.2)))
    && !placesOverlap (sideSpan s core queue n false sd.1) (sideSpan s core queue n true sd.2)

/-- The field rules of TAG (R274). -/
def tagOk (d : BitVec 512) : Bool := decide (fld (cmdBody d) 12 0 + fld (cmdBody d) 28 16 ≤ 8191)

/-- The field rules of save and restore commands (R333). -/
def saveOk (d : BitVec 512) : Bool :=
  let b := cmdBody d
  match cmdOp d with
  | 0x40 => fld b 135 96 % 256 == 0 && fld b 91 64 != 0
  | 0x41 => fld b 183 160 % 128 == 0 && fld b 63 32 != 0
  | 0x43 => fld b 135 96 % 256 == 0 && fld b 17 16 != 3 && fld b 183 160 % 128 == 0 && fld b 63 32 != 0
  | _ => true

/-- The width that operand sizes take: the index's, else the least. -/
def widthOf (s : State) (i : Nat) : BitVec 2 := match s.index i with
  | none => 0
  | some x => x.width

/-- The field rules of Tarn commands (R368, R378, R388). -/
def tarnOk (s : State) (d : BitVec 512) : Bool :=
  let b := cmdBody d
  let w := widthOf s (fld b 11 8)
  match cmdOp d with
  | 0x50 =>
    let rr := fld b 49 48
    rr != 3 && decide (fld b 33 24 ≤ fld b 47 34)
      && (rr != 0 || (fld b 175 136 == 0 && fld b 63 51 == 0 && fld b 50 50 == 0))
      && (!bit b 14 || fld b 215 176 == 0)
      && fld b 255 216 % 128 == 0 && fld b 175 136 % 128 == 0 && fld b 135 96 % 128 == 0
      && rangeOk (fld b 255 216) (32 * (fld b 33 24 + 1)) && rangeOk (fld b 135 96) (sketchBytes w)
      && (rr == 0 || rangeOk (fld b 175 136) ((fld b 63 51 + 1) * if bit b 50 then 2 else 4))
      && (bit b 14 || rangeOk (fld b 215 176) (4 * (fld b 23 16 + 1)))
  | 0x51 => fld b 103 64 == 0 && fld b 167 128 % 256 == 0 && rangeOk (fld b 167 128) ((fld b 55 40 + 1) * entryBytes w)
  | 0x52 => fld b 167 128 == 0 && fld b 55 40 == 0
  | _ => fld b 167 128 == 0 && fld b 103 64 == 0 && fld b 55 16 == 0

/-- The field rules of bucket commands (R534, R535). -/
def bucketOk (s : State) (core queue : Nat) (d : BitVec 512) : Bool :=
  let b := cmdBody d
  match s.bucket (bucketOf d) with
  | none => false
  | some k =>
    (match s.group k.group with | none => false | some g => g.core == core && g.queue == queue)
      && (if cmdOp d = 0x60 then fld b 23 22 == 0 && fld b 119 96 % 128 == 0 && decide (fld b 63 32 + fld b 95 64 + 1 ≤ k.length)
          else fld b 23 22 != 3 && fld b 119 32 == 0 && fld b 21 20 == 0)

/-- The field rules of UPDATE (R354). -/
def updateOk (s : State) (d : BitVec 512) : Bool :=
  let u := updArgs d
  let o := tget optInit s.opt u.slot
  let ar := u.used o
  o.configured && (ar.all fun p => p.1 % 256 == 0 && p.1 != 0 && inHbm p.1 p.2) && ((u.unused o).all fun a => a == 0)
    && !selfOverlap ar && (!o.bs8 || u.count % 32 == 0)

/-- The field checks of a command's class. -/
def fieldsOk (s : State) (core queue : Nat) (d : BitVec 512) : Bool :=
  let op := cmdOp d
  headerOk d && zeros (cmdBody d) (bodyResv op) && (!hasActl op || actlOk (fb (cmdBody d) 0 8))
    && (match op / 16 with
        | 0 => controlOk d
        | 1 => if op = 0x12 then eltOk d else matOk d
        | 2 => vecOk d
        | 3 => if op = 0x33 then tagOk d else dmaOk s core queue d
        | 4 => saveOk d
        | 5 => tarnOk s d
        | 6 => bucketOk s core queue d
        | _ => updateOk s d)

/-- The capability that a command's feature needs (R70). -/
def cmdCap (d : BitVec 512) : Option Nat :=
  match cmdOp d / 16 with
  | 5 => some capTarn
  | 7 => some capUpdate
  | _ => if cmdOp d = 0x43 ∧ fld (cmdBody d) 17 16 = 1 then some capNarrow else none

/-- The ring that a DMA names lies in a pair of the queue with the right (R281, R284). -/
def ringBoundOk (s : State) (core queue : Nat) (d : BitVec 512) : Bool :=
  match (circOf d).bind fun i => tget none (s.core core).cfg.circ i with
  | none => true
  | some g => (xlat (s.core core).cfg queue g.start g.size (pushes d)).isSome

/-- Every scratchpad footprint lies in one configured pair of the queue with the right (R281). -/
def boundsOk (s : State) (core queue : Nat) (d : BitVec 512) : Bool :=
  ((feetOf d).all fun f => (xlat (s.core core).cfg queue f.addr f.len f.write).isSome) && ringBoundOk s core queue d

/-- A REMOTE operation names a known endpoint that is not the device's own; its window lies at the peer, which checks it (R99, R297, R749). -/
def endpointOk (s : State) (d : BitVec 512) : Bool :=
  if cmdOp d = 0x31 ∨ cmdOp d = 0x32 then (match s.endpoint (fld (cmdBody d) 55 44) with | none => false | some e => !e.self) else true

/-- A slot operation names a configured queue and a slot below its count; SEND_SLOT names an output queue (R99, R122). -/
def slotRefOk (s : State) (d : BitVec 512) : Bool :=
  let b := cmdBody d
  if 0x03 ≤ cmdOp d ∧ cmdOp d ≤ 0x05 then
    match s.stage.queue (fld b 1 0) with
    | none => false
    | some q => decide (fld b 15 8 < q.slots) && (cmdOp d != 0x05 || decide (2 ≤ fld b 1 0))
  else true

/-- The status with which admission rejects a command, if any (R99). A reserved operation of the vector class is BAD_FIELD, as its own rule states (R235). -/
def admitCmd (s : State) (caps : BitVec 64) (core queue : Nat) (d : BitVec 512) : Option Nat :=
  if 0x25 ≤ cmdOp d ∧ cmdOp d ≤ 0x2F then some 0x201
  else if !opListed (cmdOp d) then some 0x200
  else if !fieldsOk s core queue d then some 0x201
  else if (match cmdCap d with | none => false | some k => !caps.getLsbD k) then some 0x201
  else if !boundsOk s core queue d then some 0x300
  else if !endpointOk s d then some 0x301
  else if !slotRefOk s d then some 0x201
  else none

/-- The first command of a block that fails, with its status (R97, R99). -/
def admitBlock (s : State) (caps : BitVec 64) (core queue : Nat) : Nat → List (BitVec 512) → Option (Nat × Nat)
  | _, [] => none
  | i, d :: ds =>
    match admitCmd s caps core queue d with
    | some st => some (i, st)
    | none => admitBlock s caps core queue (i + 1) ds

end Sys2Proof.Machine
end

