-- ==== Sys2Proof/Machine/Codec.lean ====
section
/-! DEFINITION. Byte layouts that can be both written and read back: the forms in which a step record's configuration snapshot and entries lie in HBM (R424; log entry 30). -/

namespace Sys2Proof.Machine

/-- A layout of values of a type: the bytes written, and what a reader of bytes finds at a place, with the place after it; none where the bytes there are no such value. -/
structure Codec (α : Type) where
  put : α → List Byte
  get : (Nat → Byte) → Nat → Option (α × Nat)

/-- `n` bytes at a place. -/
def bytesAt (rd : Nat → Byte) (i n : Nat) : List Byte := (List.range n).map fun j => rd (i + j)

/-- A number in `n` bytes, little-endian. -/
def Codec.nat (n : Nat) : Codec Nat := { put := leBytes n, get := fun rd i => some (leNat (bytesAt rd i n), i + n) }

/-- Raw bytes, as many as stated. -/
def Codec.raw (n : Nat) : Codec (List Byte) := { put := fun bs => padTo n (bs.take n), get := fun rd i => some (bytesAt rd i n, i + n) }

/-- A layout of a type through one of another type, where the second fits. -/
def Codec.sub {α β : Type} (c : Codec α) (mk : α → Option β) (un : β → α) : Codec β :=
  { put := fun b => c.put (un b), get := fun rd i => match c.get rd i with
    | none => none
    | some x => (mk x.1).map fun b => (b, x.2) }

/-- A layout of a type through one of another. -/
def Codec.map {α β : Type} (c : Codec α) (mk : α → β) (un : β → α) : Codec β := c.sub (fun a => some (mk a)) un

/-- A bit vector, in whole bytes; bits beyond its width are zero. -/
def Codec.bits (w : Nat) : Codec (BitVec w) := (Codec.nat ((w + 7) / 8)).sub (fun n => if n < 2 ^ w then some (BitVec.ofNat w n) else none) BitVec.toNat

/-- A Boolean, as a byte. -/
def Codec.bool : Codec Bool := (Codec.bits 1).map (fun b => b == 1) fun b => if b then 1 else 0

/-- One value after another. -/
def Codec.pair {α β : Type} (a : Codec α) (b : Codec β) : Codec (α × β) :=
  { put := fun x => a.put x.1 ++ b.put x.2, get := fun rd i => match a.get rd i with
    | none => none
    | some x => (b.get rd x.2).map fun y => ((x.1, y.1), y.2) }

/-- `n` values from a place on. -/
def Codec.getMany {α : Type} (c : Codec α) (rd : Nat → Byte) : Nat → Nat → Option (List α × Nat)
  | 0, i => some ([], i)
  | n + 1, i => match c.get rd i with
    | none => none
    | some x => (c.getMany rd n x.2).map fun y => (x.1 :: y.1, y.2)

/-- A list, behind its length in four bytes. -/
def Codec.list {α : Type} (c : Codec α) : Codec (List α) :=
  { put := fun xs => leBytes 4 xs.length ++ xs.flatMap c.put, get := fun rd i => c.getMany rd (leNat (bytesAt rd i 4)) (i + 4) }

/-- A value that may be absent, as a list of at most one. -/
def Codec.opt {α : Type} (c : Codec α) : Codec (Option α) :=
  { put := fun x => match x with
      | none => [0]
      | some a => 1 :: c.put a
    get := fun rd i => if rd i = 0 then some (none, i + 1) else if rd i = 1 then (c.get rd (i + 1)).map fun x => (some x.1, x.2) else none }

/-- A table of at most `n` entries: one bit for each place, set where an entry stands there, and the entries. -/
def Codec.tbl {α : Type} (n : Nat) (c : Codec α) : Codec (Tbl α) :=
  let size := (n + 7) / 8
  { put := fun t => leBytes size (t.map fun e => 2 ^ e.1).sum ++ t.flatMap fun e => c.put e.2
    get := fun rd i =>
      let places := (List.range n).filter (leNat (bytesAt rd i size)).testBit
      (c.getMany rd places.length (i + size)).map fun y => (places.zip y.1, y.2) }

/-- Values from a place up to a stop, each in at least 32 bytes; none where they do not end there. `fuel` bounds them. -/
def Codec.getUntil {α : Type} (c : Codec α) (rd : Nat → Byte) (stop : Nat) : Nat → Nat → Option (List α)
  | 0, i => if i = stop then some [] else none
  | fuel + 1, i =>
    if stop ≤ i then (if i = stop then some [] else none)
    else match c.get rd i with
    | none => none
    | some x => (c.getUntil rd stop fuel x.2).map fun xs => x.1 :: xs

/-- A whole value at a place, whatever follows it. -/
def Codec.at {α : Type} (c : Codec α) (rd : Nat → Byte) (i : Nat) : Option α := (c.get rd i).map fun x => x.1

/-- A device address or a length. -/
def Codec.addr : Codec Nat := Codec.nat 5

/-- A range of the scratchpad that starts and ends on 128-byte lines, as 17 bits of its first line and 18 bits of its lines. -/
def lineRange (start size : Nat) : BitVec 35 := BitVec.ofNat 18 (size / 128) ++ BitVec.ofNat 17 (start / 128)

/-- A base/bound pair (R280). -/
def pairCode : Codec Pair :=
  (Codec.bits 54).map (fun x => ⟨128 * (x.extractLsb' 35 17).toNat, 128 * (x.extractLsb' 17 18).toNat, 128 * (x.extractLsb' 0 17).toNat, x.getLsbD 52, x.getLsbD 53⟩)
    fun p => BitVec.ofBool p.wr ++ BitVec.ofBool p.rd ++ BitVec.ofNat 17 (p.logical / 128) ++ lineRange p.base p.size

/-- An arrival counter (R290, R291). -/
def counterCode : Codec Counter := (Codec.bits 34).map (fun x => ⟨x.extractLsb' 0 32, x.getLsbD 32, x.getLsbD 33⟩) fun c => BitVec.ofBool c.messages ++ BitVec.ofBool c.overflow ++ c.value

/-- A remote window (R294). -/
def windowCode : Codec Window :=
  (Codec.bits 71).map
    (fun x => ⟨128 * (x.extractLsb' 0 17).toNat, 128 * (x.extractLsb' 17 18).toNat, x.extractLsb' 35 12, x.extractLsb' 47 12, x.extractLsb' 59 8, x.getLsbD 67, x.getLsbD 68, x.getLsbD 69, x.getLsbD 70⟩)
    fun w => BitVec.ofBool w.rd ++ BitVec.ofBool w.wr ++ BitVec.ofBool w.publish ++ BitVec.ofBool w.ctrEn ++ w.counter ++ w.srcEp ++ w.srcMask ++ lineRange w.base w.size

/-- A circular region, with its counts (R284, R285). A reservation belongs to a command, so none stands where the snapshot is applied. -/
def circCode : Codec Circ :=
  (Codec.bits 117).map
    (fun x =>
      { queue := (x.extractLsb' 49 2).toNat, pair := (x.extractLsb' 51 2).toNat, start := 128 * (x.extractLsb' 0 17).toNat, size := 128 * (x.extractLsb' 17 18).toNat, entry := 128 * (x.extractLsb' 35 14).toNat
        head := x.extractLsb' 53 32, tail := x.extractLsb' 85 32, resHead := x.extractLsb' 53 32, resTail := x.extractLsb' 85 32 })
    fun g => g.tail ++ g.head ++ BitVec.ofNat 2 g.pair ++ BitVec.ofNat 2 g.queue ++ BitVec.ofNat 14 (g.entry / 128) ++ lineRange g.start g.size

def modeCode : Codec StreamMode := ((Codec.bits 2).pair (Codec.bits 2)).map (fun x => ⟨x.1, x.2⟩) fun m => (m.coding, m.view)

/-- A value that a table's listed entry always holds. -/
def Codec.held {α : Type} (c : Codec α) : Codec (Option α) :=
  { put := fun x => match x with
      | none => []
      | some a => c.put a
    get := fun rd i => (c.get rd i).map fun x => (some x.1, x.2) }

/-- A core's queue, region, circular region, window, counter and policy settings, and its save modes (R424). -/
def cfgCode : Codec CoreCfg :=
  ((pairCode.held.tbl 16).pair ((Codec.bool.tbl 4).pair ((counterCode.tbl 256).pair ((windowCode.held.tbl 64).pair ((circCode.held.tbl 16).pair (modeCode.tbl 8)))))).map
    (fun x => ⟨x.1, x.2.1, x.2.2.1, x.2.2.2.1, x.2.2.2.2.1, x.2.2.2.2.2⟩) fun c => (c.pairs, c.strict, c.counters, c.windows, c.circ, c.streams)

def mbQueueCode : Codec MbQueue :=
  ((Codec.bits 32).pair (Codec.addr.pair (Codec.addr.pair ((Codec.nat 2).pair (Codec.bool.pair ((Codec.nat 1).pair Codec.bool)))))).map
    (fun x => ⟨x.1, x.2.1, x.2.2.1, x.2.2.2.1, x.2.2.2.2.1, x.2.2.2.2.2.1, x.2.2.2.2.2.2⟩) fun k => (k.expected, k.base, k.stride, k.slots, k.inSpad, k.core, k.messages)

/-- An optimizer slot: its formats and algorithm, and its hyperparameters (R347, R348). -/
def optCode : Codec OptSlot :=
  (Codec.bool.pair ((Codec.bits 3).pair (Codec.bool.pair (Codec.bool.pair (Codec.bool.pair ((Codec.bits 3).pair ((Codec.bits 32).pair ((Codec.bits 32).pair ((Codec.bits 32).pair ((Codec.bits 32).pair ((Codec.bits 32).pair (Codec.bits 32)))))))))))).map
    (fun x => ⟨x.1, x.2.1, x.2.2.1, x.2.2.2.1, x.2.2.2.2.1, x.2.2.2.2.2.1, x.2.2.2.2.2.2.1, x.2.2.2.2.2.2.2.1, x.2.2.2.2.2.2.2.2.1, x.2.2.2.2.2.2.2.2.2.1, x.2.2.2.2.2.2.2.2.2.2.1, x.2.2.2.2.2.2.2.2.2.2.2⟩)
    fun o => (o.configured, o.algorithm, o.masterBf16, o.bs8, o.gradBf16, o.copyFmt, o.beta1, o.beta2, o.eps, o.decay, o.omb1, o.omb2)

def fmtCode : Codec QueueFmt := ((Codec.bits 3).pair (Codec.nat 4)).map (fun x => ⟨x.1, x.2⟩) fun f => (f.fmt, f.rowLen)

/-- The configuration snapshot (R424). At most 24 × (14 + 16 × 7 + 12 + 32 + 256 × 5 + 8 + 64 × 9 + 2 + 16 × 15 + 17) bytes of core settings, 4 × (32 + 256 × 4) of slot settings and 24 × 32 of digests: its section of 65,536 bytes holds every one. -/
def snapCode : Codec Snap :=
  ((cfgCode.tbl 24).pair ((mbQueueCode.held.tbl 4).pair ((((Codec.bits 32).held.tbl 256).tbl 4).pair ((optCode.tbl 16).pair (((Codec.addr.pair Codec.addr).tbl 16).pair
    (((Codec.nat 1).pair ((Codec.bits 32).pair (Codec.bits 32))).list.pair ((fmtCode.tbl 4).pair ((Codec.bits 5).pair ((Codec.bits 2).pair
      (((Codec.bits 128).tbl 48).pair (Codec.opt (Codec.bits 3)).list)))))))))).map
    (fun x => ⟨x.1, x.2.1, x.2.2.1, x.2.2.2.1, x.2.2.2.2.1, x.2.2.2.2.2.1, x.2.2.2.2.2.2.1, x.2.2.2.2.2.2.2.1, x.2.2.2.2.2.2.2.2.1, x.2.2.2.2.2.2.2.2.2.1, x.2.2.2.2.2.2.2.2.2.2⟩)
    fun s => (s.cores, s.queues, s.expected, s.opt, s.regions, s.epochs, s.queueFmt, s.profileMask, s.wiringPolicy, s.digests, s.profiles)

/-- A block entry: 32 bytes and its commands (R424). -/
def blockCode : Codec BlockEntry :=
  let head := (Codec.nat 1).pair ((Codec.nat 1).pair ((Codec.bits 32).pair ((Codec.nat 10).pair (Codec.bits 128))))
  { put := fun b => head.put (b.core, b.queue, b.seq, b.cmds.length, b.digest) ++ b.cmds.flatMap vecBytes
    get := fun rd i => match head.get rd i with
      | none => none
      | some x => ((Codec.bits 512).getMany rd x.1.2.2.2.1 x.2).map fun y => ({ core := x.1.1, queue := x.1.2.1, seq := x.1.2.2.1, cmds := y.1, digest := x.1.2.2.2.2 }, y.2) }

/-- An ingress entry: 32 bytes, and the slot's data padded to 4 KiB where payloads are recorded (R424). -/
def ingressCode (payloads : Bool) : Codec IngressEntry :=
  let head := (Codec.nat 1).pair ((Codec.nat 1).pair ((Codec.bits 32).pair ((Codec.bits 16).pair ((Codec.bits 7).pair ((Codec.nat 7).pair (Codec.bits 128))))))
  { put := fun e => head.put (e.queue, e.slot, e.mb, e.gen, e.flags, e.data.length, e.digest) ++ if payloads then padTo (ceilDiv e.data.length 4096 * 4096) e.data else []
    get := fun rd i => (head.get rd i).map fun x =>
      let n := if payloads then x.1.2.2.2.2.2.1 else 0
      ({ queue := x.1.1, slot := x.1.2.1, mb := x.1.2.2.1, gen := x.1.2.2.2.1, flags := x.1.2.2.2.2.1, digest := x.1.2.2.2.2.2.2, data := bytesAt rd x.2 n }, x.2 + ceilDiv n 4096 * 4096) }

/-- An output entry, of 32 bytes (R424). -/
def outputCode : Codec OutputEntry :=
  ((Codec.nat 4).pair ((Codec.bits 32).pair ((Codec.bits 128).pair ((Codec.bits 7).pair (Codec.nat 7))))).sub
    (fun x => if x.2.2.2.2 = 0 then some ⟨x.1, x.2.1, x.2.2.1, x.2.2.2.1⟩ else none) fun e => (e.queue, e.mb, e.digest, e.flags, 0)

end Sys2Proof.Machine
end

