-- ==== Sys2Proof/Machine/Crypto.lean ====
section
/-! DEFINITION. The cryptographic functions that the spec names: SHA-384 (R497, R640, R641, R659), ECDSA P-384 verification (R641, R659) and CRC-32C (R329). -/

namespace Sys2Proof.Machine

/-- Round constants 0 to 7 of SHA-512. -/
def shaK0 : List Nat :=
  [0x428a2f98d728ae22, 0x7137449123ef65cd, 0xb5c0fbcfec4d3b2f, 0xe9b5dba58189dbbc,
   0x3956c25bf348b538, 0x59f111f1b605d019, 0x923f82a4af194f9b, 0xab1c5ed5da6d8118]

/-- Round constants 8 to 15 of SHA-512. -/
def shaK1 : List Nat :=
  [0xd807aa98a3030242, 0x12835b0145706fbe, 0x243185be4ee4b28c, 0x550c7dc3d5ffb4e2,
   0x72be5d74f27b896f, 0x80deb1fe3b1696b1, 0x9bdc06a725c71235, 0xc19bf174cf692694]

/-- Round constants 16 to 23 of SHA-512. -/
def shaK2 : List Nat :=
  [0xe49b69c19ef14ad2, 0xefbe4786384f25e3, 0x0fc19dc68b8cd5b5, 0x240ca1cc77ac9c65,
   0x2de92c6f592b0275, 0x4a7484aa6ea6e483, 0x5cb0a9dcbd41fbd4, 0x76f988da831153b5]

/-- Round constants 24 to 31 of SHA-512. -/
def shaK3 : List Nat :=
  [0x983e5152ee66dfab, 0xa831c66d2db43210, 0xb00327c898fb213f, 0xbf597fc7beef0ee4,
   0xc6e00bf33da88fc2, 0xd5a79147930aa725, 0x06ca6351e003826f, 0x142929670a0e6e70]

/-- Round constants 32 to 39 of SHA-512. -/
def shaK4 : List Nat :=
  [0x27b70a8546d22ffc, 0x2e1b21385c26c926, 0x4d2c6dfc5ac42aed, 0x53380d139d95b3df,
   0x650a73548baf63de, 0x766a0abb3c77b2a8, 0x81c2c92e47edaee6, 0x92722c851482353b]

/-- Round constants 40 to 47 of SHA-512. -/
def shaK5 : List Nat :=
  [0xa2bfe8a14cf10364, 0xa81a664bbc423001, 0xc24b8b70d0f89791, 0xc76c51a30654be30,
   0xd192e819d6ef5218, 0xd69906245565a910, 0xf40e35855771202a, 0x106aa07032bbd1b8]

/-- Round constants 48 to 55 of SHA-512. -/
def shaK6 : List Nat :=
  [0x19a4c116b8d2d0c8, 0x1e376c085141ab53, 0x2748774cdf8eeb99, 0x34b0bcb5e19b48a8,
   0x391c0cb3c5c95a63, 0x4ed8aa4ae3418acb, 0x5b9cca4f7763e373, 0x682e6ff3d6b2b8a3]

/-- Round constants 56 to 63 of SHA-512. -/
def shaK7 : List Nat :=
  [0x748f82ee5defb2fc, 0x78a5636f43172f60, 0x84c87814a1f0ab72, 0x8cc702081a6439ec,
   0x90befffa23631e28, 0xa4506cebde82bde9, 0xbef9a3f7b2c67915, 0xc67178f2e372532b]

/-- Round constants 64 to 71 of SHA-512. -/
def shaK8 : List Nat :=
  [0xca273eceea26619c, 0xd186b8c721c0c207, 0xeada7dd6cde0eb1e, 0xf57d4f7fee6ed178,
   0x06f067aa72176fba, 0x0a637dc5a2c898a6, 0x113f9804bef90dae, 0x1b710b35131c471b]

/-- Round constants 72 to 79 of SHA-512. -/
def shaK9 : List Nat :=
  [0x28db77f523047d84, 0x32caab7b40c72493, 0x3c9ebe0a15c9bebc, 0x431d67c49c100d4c,
   0x4cc5d4becb3e42b6, 0x597f299cfc657e2a, 0x5fcb6fab3ad6faec, 0x6c44198c4a475817]

/-- The round constants of SHA-512. -/
def shaK : List Nat := shaK0 ++ shaK1 ++ shaK2 ++ shaK3 ++ shaK4 ++ shaK5 ++ shaK6 ++ shaK7 ++ shaK8 ++ shaK9

/-- The initial hash value of SHA-384. -/
def shaInit : List Nat :=
  [0xcbbb9d5dc1059ed8, 0x629a292a367cd507, 0x9159015a3070dd17, 0x152fecd8f70e5939,
   0x67332667ffc00b31, 0x8eb44a8768581511, 0xdb0c2e0d64f98fa7, 0x47b5481dbefa4fa4]

/-- Rotation of a 64-bit word to the right. -/
def rotr64 (n x : Nat) : Nat := (x >>> n) ||| ((x <<< (64 - n)) % 2 ^ 64)

/-- One word of the message schedule from the sixteen before it, newest first. -/
def shaNext (w : List Nat) : Nat :=
  let a := w.getD 14 0
  let b := w.getD 1 0
  let s0 := rotr64 1 a ^^^ rotr64 8 a ^^^ (a >>> 7)
  let s1 := rotr64 19 b ^^^ rotr64 61 b ^^^ (b >>> 6)
  (w.getD 15 0 + s0 + w.getD 6 0 + s1) % 2 ^ 64

/-- The message schedule, newest first. -/
def shaSchedule : Nat → List Nat → List Nat
  | 0, w => w
  | n + 1, w => shaSchedule n (shaNext w :: w)

/-- One round on the eight working variables. -/
def shaRound (v : List Nat) (kw : Nat × Nat) : List Nat :=
  match v with
  | [a, b, c, d, e, f, g, h] =>
    let s1 := rotr64 14 e ^^^ rotr64 18 e ^^^ rotr64 41 e
    let ch := (e &&& f) ^^^ ((2 ^ 64 - 1 - e) &&& g)
    let t1 := h + s1 + ch + kw.1 + kw.2
    let s0 := rotr64 28 a ^^^ rotr64 34 a ^^^ rotr64 39 a
    let mj := (a &&& b) ^^^ (a &&& c) ^^^ (b &&& c)
    [(t1 + s0 + mj) % 2 ^ 64, a, b, c, (d + t1) % 2 ^ 64, e, f, g]
  | _ => v

/-- One block of 128 bytes. -/
def shaBlock (h : List Nat) (blk : List Byte) : List Nat :=
  let w := ((chunksOf 8 16 blk).map beNat).reverse
  let v := (shaK.zip (shaSchedule 64 w).reverse).foldl shaRound h
  (h.zip v).map fun p => (p.1 + p.2) % 2 ^ 64

/-- SHA-384 as a number, first byte most significant. -/
def sha384 (m : List Byte) : Nat :=
  let pad := (239 - m.length % 128) % 128
  let full := m ++ [0x80#8] ++ List.replicate pad 0#8 ++ beBytes 16 (8 * m.length)
  let h := (chunksOf 128 (full.length / 128 + 1) full).foldl shaBlock shaInit
  (h.take 6).foldl (fun a x => a * 2 ^ 64 + x) 0

/-- HMAC-SHA-384 under a key of at most one block of 128 bytes (R638). -/
def hmac384 (key m : List Byte) : Nat :=
  let k := padTo 128 key
  sha384 (k.map (fun b => b ^^^ 0x5C#8) ++ beBytes 48 (sha384 (k.map (fun b => b ^^^ 0x36#8) ++ m)))

/-- One bit of CRC-32C (Castagnoli), reflected. -/
def crcStep (c : Nat) : Nat := if c % 2 = 1 then (c / 2) ^^^ 0x82F63B78 else c / 2

/-- One byte of CRC-32C. -/
def crcByte (c : Nat) (b : Byte) : Nat := (List.range 8).foldl (fun c _ => crcStep c) (c ^^^ b.toNat)

/-- CRC-32C of bytes (R329). -/
def crc32c (bs : List Byte) : BitVec 32 := BitVec.ofNat 32 (0xFFFFFFFF ^^^ bs.foldl crcByte 0xFFFFFFFF)

/-- The prime of P-384. -/
def ecP : Nat := 2 ^ 384 - 2 ^ 128 - 2 ^ 96 + 2 ^ 32 - 1

/-- The order of P-384. -/
def ecN : Nat := 0xffffffffffffffffffffffffffffffffffffffffffffffffc7634d81f4372ddf581a0db248b0a77aecec196accc52973

/-- The coefficient b of P-384. -/
def ecB : Nat := 0xb3312fa7e23ee7e4988e056be3f82d19181d9c6efe8141120314088f5013875ac656398d8a2ed19d2a85c8edd3ec2aef

/-- The base point of P-384. -/
def ecG : Nat × Nat :=
  (0xaa87ca22be8b05378eb1c71ef320ad746e1d3b628ba79b9859f741e082542a385502f25dbf55296c3a545e3872760ab7,
   0x3617de4a96262c6f5d9e98bf9292dc29f8f41dbd289a147ce9da3113b5f0b8c00a60b1ce1d7e819d7a431d7c90ea0e5f)

/-- x^e mod m, e given by its bits, most significant last. `fuel` bounds the bits. -/
def powMod (m : Nat) : Nat → Nat → Nat → Nat
  | 0, _, _ => 1 % m
  | fuel + 1, x, e =>
    if e = 0 then 1 % m
    else
      let r := powMod m fuel (x * x % m) (e / 2)
      if e % 2 = 1 then r * x % m else r

/-- Inverse modulo a prime. -/
def invMod (m x : Nat) : Nat := powMod m 385 (x % m) (m - 2)

/-- A point in Jacobian coordinates; z = 0 is the point at infinity. -/
abbrev EcPt := Nat × Nat × Nat

/-- Subtraction modulo the prime. -/
def ecSub (a b : Nat) : Nat := (a + (ecP - b % ecP)) % ecP

/-- Doubling. -/
def ecDbl (q : EcPt) : EcPt :=
  let (x, y, z) := q
  if z = 0 ∨ y = 0 then (1, 1, 0)
  else
    let zz := z * z % ecP
    let m := 3 * (ecSub x zz * ((x + zz) % ecP)) % ecP
    let yy := y * y % ecP
    let s := 4 * (x * yy) % ecP
    let x' := ecSub (m * m) (2 * s)
    (x', ecSub (m * ecSub s x') (8 * (yy * yy)), 2 * (y * z) % ecP)

/-- Addition. -/
def ecAdd (p q : EcPt) : EcPt :=
  let (x1, y1, z1) := p
  let (x2, y2, z2) := q
  if z1 = 0 then q
  else if z2 = 0 then p
  else
    let a := z1 * z1 % ecP
    let b := z2 * z2 % ecP
    let u1 := x1 * b % ecP
    let u2 := x2 * a % ecP
    let s1 := y1 * (b * z2 % ecP) % ecP
    let s2 := y2 * (a * z1 % ecP) % ecP
    if u1 = u2 then (if s1 = s2 then ecDbl p else (1, 1, 0))
    else
      let h := ecSub u2 u1
      let r := ecSub s2 s1
      let hh := h * h % ecP
      let hhh := h * hh % ecP
      let v := u1 * hh % ecP
      let x3 := ecSub (r * r) (hhh + 2 * v)
      (x3, ecSub (r * ecSub v x3) (s1 * hhh), h * (z1 * z2 % ecP) % ecP)

/-- Multiple of a point. `fuel` bounds the bits. -/
def ecMul : Nat → Nat → EcPt → EcPt
  | 0, _, _ => (1, 1, 0)
  | fuel + 1, k, q =>
    if k = 0 then (1, 1, 0)
    else
      let r := ecMul fuel (k / 2) (ecDbl q)
      if k % 2 = 1 then ecAdd r q else r

/-- A public key as the octet string 0x04, X, Y (R640), where it names a point of the curve. -/
def ecKey (bs : List Byte) : Option (Nat × Nat) :=
  let x := beNat ((bs.drop 1).take 48)
  let y := beNat ((bs.drop 49).take 48)
  if bs.length = 97 ∧ bs.head? = some 4#8 ∧ x < ecP ∧ y < ecP ∧ y * y % ecP = (x * x * x + (ecP - 3) * x + ecB) % ecP then some (x, y) else none

/-- ECDSA P-384 with SHA-384: the signature r ‖ s of 96 bytes verifies over a message under a key (R640, R641). -/
def ecdsaVerify (key : List Byte) (msg sig : List Byte) : Bool :=
  match ecKey key with
  | none => false
  | some q =>
    let r := beNat (sig.take 48)
    let t := beNat ((sig.drop 48).take 48)
    if sig.length = 96 ∧ 0 < r ∧ r < ecN ∧ 0 < t ∧ t < ecN then
      let w := invMod ecN t
      let u1 := sha384 msg * w % ecN
      let u2 := r * w % ecN
      let p := ecAdd (ecMul 385 u1 (ecG.1, ecG.2, 1)) (ecMul 385 u2 (q.1, q.2, 1))
      if p.2.2 = 0 then false
      else
        let zi := invMod ecP p.2.2
        decide (p.1 * (zi * zi % ecP) % ecP % ecN = r)
    else false

end Sys2Proof.Machine
end

