-- ==== Sys2Proof/Machine/Hashing.lean ====
section
/-! DEFINITION. Digests as fields hold them: the first octets of SHA-384 in memory order (R423, R497; log entry 18). -/

namespace Sys2Proof.Machine

/-- The 48 octets of a SHA-384 hash. -/
def shaBytes (bs : List Byte) : List Byte := beBytes 48 (sha384 bs)

/-- The first 64 bits of a SHA-384 hash, its octets in memory order. -/
def sha64 (bs : List Byte) : BitVec 64 := BitVec.ofNat 64 (leNat ((shaBytes bs).take 8))

/-- The first 128 bits of a SHA-384 hash, its octets in memory order. -/
def sha128 (bs : List Byte) : BitVec 128 := BitVec.ofNat 128 (leNat ((shaBytes bs).take 16))

end Sys2Proof.Machine
end

