-- ==== Sys2Proof/Machine/Record.lean ====
section
/-! DEFINITION. Overturn's step records: digests, entries, opening and closing, and their bytes at LOG_BASE (R421 to R425; log entry 30). -/

namespace Sys2Proof.Machine

/-- The digest of bytes: the first 128 bits of the SHA-384 hash of the CRC-32C values of their 4,096-byte blocks (R423). -/
def digestOf (bs : List Byte) : BitVec 128 :=
  sha128 ((chunksOf 4096 (bs.length / 4096 + 1) bs).flatMap fun c => leBytes 4 (crc32c (padTo 4096 c)).toNat)

/-- The digest of an HBM range (R423). -/
def rangeDigest (s : State) (a n : Nat) : BitVec 128 := digestOf (s.hbmBytes a n)

/-- Ranges of HBM are read: what the reads correct and count (R316, R321). -/
def State.scan (s : State) (rs : List (Nat × Nat)) : State := rs.foldl (fun s r => (hbmRead s r.1 r.2).2.2) s

/-- The ranges of a list with their digests (R423). -/
def digestRanges (s : State) (rs : List RangeDigest) : List RangeDigest := rs.map fun i => { i with digest := rangeDigest s i.addr i.len }

/-- The ranges of a list. -/
def rangesOf (rs : List RangeDigest) : List (Nat × Nat) := rs.map fun i => (i.addr, i.len)

/-- An entry of some bytes enters the step record in force, where it fits; the first that does not ends the recording (R424, R425). -/
def State.record (s : State) (size : Nat) (f : StepRec → StepRec) : State :=
  match s.ovt.current with
  | none => s
  | some r =>
    let r' := if r.overrun then r else if r.used + size ≤ r.size then f { r with used := r.used + size } else { r with overrun := true }
    { s with ovt := { s.ovt with current := some r' } }

/-- An admitted block is recorded. Its identity stays known after an overrun, because the step closes only once it has retired (R422, R424). -/
def State.recordBlock (s : State) (e : BlockEntry) : State :=
  let s := s.record (32 + 64 * e.cmds.length) id
  { s with ovt := { s.ovt with current := s.ovt.current.map fun r => { r with blocks := r.blocks ++ [e] } } }

/-- ABORT_QUEUE during a recorded step marks the record (R425). -/
def State.recordAbort (s : State) : State :=
  { s with ovt := { s.ovt with current := s.ovt.current.map fun r => { r with aborted := true } } }

/-- Every block admitted under a step has retired (R422). -/
def stepRetired (s : State) (r : StepRec) : Bool :=
  r.blocks.all fun b =>
    let u := s.queue b.core b.queue
    !(u.armed.any fun k => k.seq == b.seq) && !(u.started.any fun e => e.blockSeq == b.seq)

/-- The bytes of an output entry, in the order of R424's list (log entry 30). -/
def outputBytes (e : OutputEntry) : List Byte :=
  leBytes 4 e.queue ++ leBytes 4 e.mb.toNat ++ vecBytes e.digest ++ leBytes 8 e.flags.toNat

/-- Output entries in the step digest's order: by queue, then micro-batch (R424). -/
def outputOrder (a b : OutputEntry) : Bool := decide (a.queue < b.queue) || (a.queue == b.queue && decide (a.mb.toNat < b.mb.toNat))

/-- A step closes: the result-range digests and the step digest are taken, and CLOSED is set (R422 to R425). -/
def closeRec (s : State) (r : StepRec) : StepRec :=
  let fits := r.used + 16 * r.inputs.length ≤ r.size
  let res := digestRanges s r.inputs
  let out := sortBy outputOrder r.outputs
  { r with
    closed := true
    overrun := r.overrun || !fits
    results := res
    outputs := out
    digest := digestOf (out.flatMap outputBytes ++ res.flatMap fun i => vecBytes i.digest) }

/-- The fields of a step record's header (R424). -/
structure RecHeader where
  magic : BitVec 32
  step : BitVec 32
  seed : BitVec 64
  pipelineId : BitVec 32
  stageId : BitVec 32
  count : Nat
  flags : BitVec 32
  offsets : List Nat
  size : Nat
  digest : BitVec 128
  ranges : List (Nat × Nat)
  deriving DecidableEq, Repr

/-- The header's layout up to its ranges: six section offsets from LOG_BASE, then LOG_SIZE and the step digest (log entry 30). -/
def headerCode : Codec RecHeader :=
  let head := (Codec.bits 32).pair ((Codec.bits 32).pair ((Codec.bits 64).pair ((Codec.bits 32).pair ((Codec.bits 32).pair ((Codec.nat 4).pair (Codec.bits 32))))))
  let tail := (Codec.nat 8).pair (Codec.bits 128)
  let range := (Codec.nat 8).pair (Codec.nat 8)
  { put := fun h => head.put (h.magic, h.step, h.seed, h.pipelineId, h.stageId, h.count, h.flags) ++ h.offsets.flatMap (leBytes 8) ++ tail.put (h.size, h.digest) ++ h.ranges.flatMap range.put
    get := fun rd i => match head.get rd i with
      | none => none
      | some x => match (Codec.nat 8).getMany rd 6 x.2 with
      | none => none
      | some o => match tail.get rd o.2 with
      | none => none
      | some t => (range.getMany rd (min 64 x.1.2.2.2.2.2.1) t.2).map fun y =>
        ({ magic := x.1.1, step := x.1.2.1, seed := x.1.2.2.1, pipelineId := x.1.2.2.2.1, stageId := x.1.2.2.2.2.1, count := x.1.2.2.2.2.2.1, flags := x.1.2.2.2.2.2.2,
           offsets := o.1, size := t.1.1, digest := t.1.2, ranges := y.1 }, y.2) }

/-- Bytes of the configuration snapshot's section (R424). -/
def snapBytes : Nat := 65536

/-- The sections of a record after its header (R424). -/
def recSections (r : StepRec) : List (List Byte) :=
  [padTo snapBytes (snapCode.put r.snap), r.inputs.flatMap fun i => vecBytes i.digest, r.blocks.flatMap blockCode.put, r.ingress.flatMap (ingressCode r.payloads).put,
   r.outputs.flatMap outputCode.put, r.results.flatMap fun i => vecBytes i.digest]

/-- Where each of several sections begins, from a place on. -/
def sectionOffsets : Nat → List (List Byte) → List Nat
  | _, [] => []
  | i, x :: xs => i :: sectionOffsets (i + x.length) xs

/-- The header of a record (R424): flags CLOSED, OVERRUN, ABORTED and PAYLOADS. -/
def recHeader (r : StepRec) : RecHeader :=
  { magic := 0x4F565254, step := r.step, seed := r.seed, pipelineId := r.pipelineId, stageId := r.stageId, count := r.inputs.length
    flags := BitVec.ofNat 32 ((if r.closed then 1 else 0) + (if r.overrun then 2 else 0) + (if r.aborted then 4 else 0) + if r.payloads then 8 else 0)
    offsets := sectionOffsets 4096 (recSections r), size := r.size, digest := r.digest, ranges := rangesOf r.inputs }

/-- A record is written at LOG_BASE as far as LOG_SIZE holds it: its sections, and its header last (R424, R425). -/
def putRecord (s : State) (r : StepRec) : State :=
  let s := (hbmWrite s (r.base + 4096) (cleanBytes ((recSections r).flatten.take (r.size - 4096)))).s
  (hbmWrite s r.base (cleanBytes ((padTo 4096 (headerCode.put (recHeader r))).take r.size))).s

/-- Digests of a list, with their ranges. -/
def digestsAt (rd : Nat → Byte) (rs : List (Nat × Nat)) (i : Nat) : Option (List RangeDigest) :=
  (((Codec.bits 128).getMany rd rs.length i).map fun x => x.1).map fun ds => (rs.zip ds).map fun x => { addr := x.1.1, len := x.1.2, digest := x.2 }

/-- The step record whose header lies at an HBM address: none where the magic is wrong, a reserved field is not zero, or its sections are not as R424 has them (R428). -/
def recordAt (s : State) (base : Nat) : Option StepRec :=
  let rd (i : Nat) : Byte := s.hbmByte (base + i)
  match headerCode.get rd 0 with
  | none => none
  | some (h, stop) =>
    if h.magic != 0x4F565254 || decide (64 < h.count) || decide (15 < h.flags.toNat) || (List.range (4096 - stop)).any fun i => rd (stop + i) != 0 then none
    else
      let o (i : Nat) : Nat := h.offsets.getD i 0
      let payloads := bit h.flags 3
      match snapCode.at rd (o 0), digestsAt rd h.ranges (o 1), blockCode.getUntil rd (o 3) ((o 3 - o 2) / 32 + 1) (o 2), (ingressCode payloads).getUntil rd (o 4) ((o 4 - o 3) / 32 + 1) (o 3),
        outputCode.getUntil rd (o 5) ((o 5 - o 4) / 32 + 1) (o 4), digestsAt rd h.ranges (o 5) with
      | some snap, some inputs, some blocks, some ingress, some outputs, some results =>
        some { base := base, size := h.size, payloads := payloads, pipelineId := h.pipelineId, stageId := h.stageId, seed := h.seed, step := h.step, closed := bit h.flags 0, overrun := bit h.flags 1,
               aborted := bit h.flags 2, used := o 5, snap := snap, inputs := inputs, blocks := blocks, ingress := ingress, outputs := outputs, results := results, digest := h.digest }
      | _, _, _, _, _, _ => none

/-- The step in force closes, and its record is written (R421, R422, R424). -/
def State.closeStep (s : State) : State :=
  match s.ovt.current with
  | none => s
  | some r =>
    let s := s.scan (rangesOf r.inputs)
    putRecord { s with ovt := { s.ovt with current := none } } (closeRec s r)

/-- What a loaded table holds, as bytes to digest (R424). -/
def tableBytes (t : FnTable) : List Byte :=
  vecBytes t.xLo ++ vecBytes t.invH ++ leBytes 4 (if t.quad then 1 else 0) ++ t.entries.flatMap fun e => leBytes 4 e.1 ++ vecBytes e.2.1 ++ vecBytes e.2.2.1 ++ vecBytes e.2.2.2

/-- What a micro-program holds, as bytes to digest (R424). -/
def microBytes (m : Micro) : List Byte := m.consts.flatMap vecBytes ++ m.steps.flatMap vecBytes

/-- The digest of a core's tables, and that of its micro-programs: of the digests of every one with its number; none where nothing is loaded (R424; log entry 30). -/
def codeDigests (c : Nat × Core) : Tbl (BitVec 128) :=
  let fold (k : Nat) (ds : List (Nat × BitVec 128)) : Tbl (BitVec 128) := if ds.isEmpty then [] else [(k, digestOf (ds.flatMap fun d => leBytes 1 d.1 ++ vecBytes d.2))]
  fold (2 * c.1) (c.2.tables.map fun t => (t.1, digestOf (tableBytes t.2))) ++ fold (2 * c.1 + 1) (c.2.micros.map fun m => (m.1, digestOf (microBytes m.2)))

/-- The slots' own EXPECTED settings (R118, R424). -/
def expectedOf (s : State) : Tbl (Tbl (Option (BitVec 32))) :=
  (s.stage.slots.map fun q => (q.1, (q.2.filter fun x => x.2.expected.isSome).map fun x => (x.1, x.2.expected))).filter fun q => !q.2.isEmpty

/-- The profile of the neighbour in a direction (R424). -/
def neighbourProfile (s : State) (dir : Nat) : Option (BitVec 3) :=
  match tget none s.stage.addr dir with
  | none => none
  | some a => match s.endpoint a.endpoint.toNat with
    | none => none
    | some e => e.profile

/-- The configuration snapshot (R424). -/
def snapOf (s : State) : Snap :=
  { cores := (s.cores.map fun c => (c.1, c.2.cfg)).filter fun c => c.2 != CoreCfg.init
    queues := s.stage.queues
    expected := expectedOf s
    opt := s.opt
    regions := s.regions
    epochs := s.tarn.filterMap fun e => e.2.map fun x => (e.1, x.published, x.floor)
    queueFmt := s.fabric.queueFmt
    profileMask := s.fabric.profileMask
    wiringPolicy := s.fabric.wiringPolicy
    digests := s.cores.flatMap codeDigests
    profiles := [neighbourProfile s 0, neighbourProfile s 1] }

/-- The fixed sections of a record with some ranges, in bytes (R424). -/
def fixedBytes (ranges : Nat) : Nat := 4096 + 65536 + 16 * ranges

/-- A recorded step opens (R421, R424, R425). -/
def openRec (s : State) (base size : Nat) (payloads : Bool) (seed : BitVec 64) (step : BitVec 32) (ranges : List (Nat × Nat)) : StepRec :=
  let id := s.stage.identity.getD (0, 0)
  { base := base, size := size, payloads := payloads, pipelineId := id.1, stageId := id.2, seed := seed, step := step, closed := false
    overrun := decide (size < fixedBytes ranges.length)
    aborted := false, used := fixedBytes ranges.length, snap := snapOf s, inputs := ranges.map fun r => { addr := r.1, len := r.2, digest := 0 }, blocks := [], ingress := [], outputs := [], results := [], digest := 0 }

/-- Bytes that an ingress entry takes (R424). -/
def ingressBytes (r : StepRec) (n : Nat) : Nat := 32 + if r.payloads then ceilDiv n 4096 * 4096 else 0

end Sys2Proof.Machine
end

