-- ==== Sys2Proof/Machine/Rings.lean ====
section
/-! DEFINITION. Command rings: CREATE_RING, SUBMIT_BLOCK, SET_COMPLETION_RING, GET_RING_STATE and ABORT_QUEUE (R97 to R107, R115 to R117). -/

namespace Sys2Proof.Machine

/-- CREATE_RING's fields lie in their ranges. -/
def ringFieldsOk (x : Ctx) : Bool :=
  let n := x.f 20 16
  let w := x.f 31 24
  coreOk (x.f 4 0) && decide (12 ≤ n) && decide (n ≤ 22) && (w == 0 || (decide (16 ≤ w) && decide (w ≤ 40)))
    && decide (x.f 143 128 ≤ 4096) && x.f 103 64 % 4096 == 0 && inHbm (x.f 103 64) (64 * 2 ^ n)

/-- The tag quotas of the core's other queues (R106). -/
def otherQuotas (s : State) (c q : Nat) : Nat :=
  ((List.range 4).map fun i => if i = q then 0 else match (s.queue c i).ring with | none => 0 | some r => r.quota).sum

/-- CREATE_RING (R97, R106). The queue's counts start afresh, its tail at 0. -/
def execCreateRing (m : Msg) (s : State) : Res :=
  serve { plainOp 0x0401 1 [(383, 144), (127, 104), (63, 32), (23, 21), (15, 10), (7, 5)] with high := true } m s fun s x =>
    let c := x.f 4 0
    let q := x.f 9 8
    let u := s.queue c q
    let quota := if x.f 143 128 = 0 then 1024 else x.f 143 128
    if !ringFieldsOk x then refuse s 0x201
    else if !u.armed.isEmpty || u.cpl.isNone then refuse s 0x203
    else if 4096 < otherQuotas s c q + quota then refuse s 0x101
    else
      let r : Ring := { base := x.f 103 64, log2 := x.f 20 16, waitLimit := if x.f 31 24 = 0 then 24 else x.f 31 24, quota := quota }
      .done (s.modQueue c q fun u => { u with ring := some r, nextSeq := 0, tail := 0, execIndex := 0, retiredSeq := 0xFFFFFFFF }) .ok

/-- The ring entries of a block, as HBM ranges. -/
def blockRanges (r : Ring) (start count : Nat) : List (Nat × Nat) :=
  let size := 2 ^ r.log2
  let i := start % size
  let first := min count (size - i)
  [(r.base + 64 * i, 64 * first), (r.base, 64 * (count - first))]

/-- The ring entries held by blocks that have not retired (R98). -/
def heldEntries (u : CmdQueue) : Nat := (u.armed.map fun b => b.cmds.length).sum

/-- The refusal that SUBMIT_BLOCK meets before any command is checked, if any (R98, R116, R684). A queue without a ring is refused as one without a completion ring. -/
def submitRefusal (s : State) (x : Ctx) : Option Nat :=
  let u := s.queue (x.f 4 0) (x.f 9 8)
  let n := x.f 80 64
  if !coreOk (x.f 4 0) then some 0x201
  else if u.cpl.isNone || s.power.standby then some 0x203
  else match u.ring with
  | none => some 0x203
  | some r => if n = 0 ∨ 65536 < n ∨ x.f 63 32 ≠ u.tail.toNat ∨ 2 ^ r.log2 < heldEntries u + n then some 0x201 else none

/-- The Tarn commands of a block whose index does not exist now (R387). -/
def absentAt (s : State) (ds : List (BitVec 512)) : List Nat :=
  (ds.zipIdx.filter fun d => cmdOp d.1 / 16 == 5 && (s.index (fld (cmdBody d.1) 11 8)).isNone).map fun d => d.2

/-- A block that passed admission is armed (R97, R101, R417, R424). -/
def armBlock (s : State) (x : Ctx) (ds : List (BitVec 512)) : State :=
  let c := x.f 4 0
  let q := x.f 9 8
  let u := s.queue c q
  let b : Block := { seq := u.nextSeq, start := u.tail, cmds := ds, absent := absentAt s ds, nStarted := 0, nDone := 0, seed := s.ovt.seed, step := s.ovt.step, client := x.clientId }
  let s := s.modQueue c q fun u => { u with armed := u.armed ++ [b], nextSeq := u.nextSeq + 1, tail := u.tail + BitVec.ofNat 32 ds.length }
  s.recordBlock { core := c, queue := q, seq := b.seq, cmds := ds, digest := digestOf (ds.flatMap vecBytes) }

/-- The descriptors that SUBMIT_BLOCK reads, up to the first that is poisoned, its poisoned word, and the state once they have been read (R316, R317). -/
def readEntries (s : State) (r : Ring) (start n : Nat) : List (BitVec 512) × Option Nat × State :=
  (List.range n).foldl
    (fun (acc : List (BitVec 512) × Option Nat × State) i =>
      let d := hbmRead acc.2.2 (r.base + 64 * ((start + i) % 2 ^ r.log2)) 64
      match acc.2.1.or d.2.1 with
      | none => (acc.1 ++ [BitVec.ofNat 512 (leNat (vals d.1))], none, d.2.2)
      | some a => (acc.1, some a, d.2.2))
    (([], none, s) : List (BitVec 512) × Option Nat × State)

/-- SUBMIT_BLOCK's effect (R97 to R101). Ring entries that the host holds are snooped first (R561); a poisoned one fails admission where the check comes to it (R317; log entry 105). A quarantined device arms no block (R607, R608). -/
def submitBlock (m : Msg) (s : State) (x : Ctx) : Answer :=
  match submitRefusal s x with
  | some st => refuse s st
  | none =>
    if s.boot.quarantined then refuse s 0x203 else
    let u := s.queue (x.f 4 0) (x.f 9 8)
    if 64 ≤ u.armed.length then answerBusy s
    else match u.ring with
    | none => refuse s 0x203
    | some r =>
      let lines := (blockRanges r (x.f 63 32) (x.f 80 64)).flatMap fun p => snoopsFor s p.1 p.2 false
      if !lines.isEmpty then
        if s.cannotSnoop lines then refuse s 0x507 else holdFor s (heldOf 0x0402 m 0) lines []
      else
        let rd := readEntries s r (x.f 63 32) (x.f 80 64)
        let ds := rd.1
        let s := rd.2.2
        match admitBlock s x.caps (x.f 4 0) (x.f 9 8) 0 ds with
        | some f => .done s (.val f.2 (u.nextSeq.toNat + f.1 * 2 ^ 32))
        | none =>
          match rd.2.1 with
          | some a => (match msgPoison s x a with
            | .done s _ => .done s (.val 0x402 (u.nextSeq.toNat + ds.length * 2 ^ 32))
            | h => h)
          | none => .done (armBlock s x ds) (.val 0 u.nextSeq.toNat)

/-- SUBMIT_BLOCK (R97 to R101, R116). -/
def execSubmitBlock (m : Msg) (s : State) : Res :=
  serve (plainOp 0x0402 1 [(383, 81), (31, 10), (7, 5)]) m s fun s x => submitBlock m s x

/-- The SUBMIT_BLOCKs that waited for snoops go on once their ring entries are the device's (R561, R566). -/
def settleSubmits (s : State) : State :=
  (s.mbx.held.filter fun h => h.opcode == 0x0402).foldl (fun s h => if h.lines.any s.snooped then s else contHeld h (submitBlock h.msg s (ctxOf s h.msg))) s

/-- SET_COMPLETION_RING (R107, R116). -/
def execSetCompletionRing (m : Msg) (s : State) : Res :=
  serve { plainOp 0x0404 1 [(383, 168), (127, 104), (63, 31), (23, 21), (15, 10), (7, 5)] with high := true } m s fun s x =>
    let c := x.f 4 0
    let q := x.f 9 8
    let n := x.f 20 16
    let v := x.f 30 24
    if !coreOk c || decide (n < 8) || decide (20 < n) || (decide (63 < v) && v != 127) || x.f 103 64 % 4096 != 0 || !inHbm (x.f 103 64) (32 * 2 ^ n)
        || x.f 167 128 % 8 != 0 || !inHbm (x.f 167 128) 4 then refuse s 0x201
    else if !(s.queue c q).armed.isEmpty then refuse s 0x203
    else .done (s.modQueue c q fun u => { u with cpl := some { base := x.f 103 64, log2 := n, vector := fb x.p 24 7, headAddr := x.f 167 128, written := 0, head := 0 } }) .ok

/-- The next descriptor to start on a queue, with its block. -/
def nextCmd (u : CmdQueue) : Option (Block × BitVec 512) :=
  u.armed.findSome? fun b => (b.cmds[b.nStarted]?).map fun d => (b, d)

/-- The WAIT_EVENT condition of a descriptor holds (R108). -/
def waitMet (k : Core) (d : BitVec 512) : Bool := !bit d 22 || decide (fld d 95 64 ≤ (tget 0 k.events (fld d 21 16)).toNat)

/-- STATE of GET_RING_STATE (R105): WAITING while a started command is in a program-defined wait or the next command's WAIT_EVENT condition fails. -/
def ringState (s : State) (c q : Nat) : Nat :=
  let u := s.queue c q
  if u.ring.isNone then 3
  else if u.armed.isEmpty && u.started.isEmpty then 0
  else if (u.started.any fun e => match e.wait with | .program => true | .tagSlot _ _ _ => true | .circular _ => true | _ => false)
      || (match nextCmd u with | none => false | some n => !waitMet (s.core c) n.2) then 2
  else 1

/-- GET_RING_STATE (R105). -/
def execGetRingState (m : Msg) (s : State) : Res :=
  serve (readOp 0x0405 0 [(383, 10), (7, 5)]) m s fun s x =>
    let c := x.f 4 0
    let q := x.f 9 8
    let u := s.queue c q
    if !coreOk c then refuse s 0x201
    else .done s (.val 0 (ringState s c q + u.armed.length * 2 ^ 2 + u.tail.toNat * 2 ^ 32 + u.execIndex.toNat * 2 ^ 64 + u.retiredSeq.toNat * 2 ^ 96 + u.started.length * 2 ^ 128))

/-- A started command is in a wait that ABORT_QUEUE ends (R104). -/
def waiting (e : Started) : Bool :=
  !e.done && (match e.wait with | .none => false | .net => false | .snoop => false | _ => true)

/-- A started command ends with ABORTED: nothing further of it is performed (R104). -/
def Started.abort (e : Started) : Started := { e.fault 0x600 0 with done := true, wait := .none }

/-- A query leaves the batches (R104, R396). -/
def dropQuery (s : State) (c q id : Nat) : State :=
  let keep (r : QueryRef) : Bool := !(r.core == c && r.queue == q && r.id == id)
  { s with tarn := s.tarn.map fun e => (e.1, e.2.map fun x => { x with collecting := x.collecting.filter keep, closed := x.closed.map fun l => l.filter keep, running := x.running.filter keep }) }

/-- One started command is ended with ABORTED; its operations and batch places are given up (R104). -/
def abortCmd (s : State) (c q id : Nat) : State :=
  dropQuery ((s.modStarted c q id Started.abort).dropCmdOps c q id) c q id

/-- The response of ABORT_QUEUE (R104). -/
structure AbortInfo where
  started : Bool
  newTail : BitVec 32
  lastSeq : BitVec 32

/-- What ABORT_QUEUE will report (R104). -/
def abortInfo (u : CmdQueue) : AbortInfo :=
  match (u.armed.filter fun b => b.nStarted != 0).getLast? with
  | some b => { started := true, newTail := b.start + BitVec.ofNat 32 b.nStarted, lastSeq := b.seq }
  | none => { started := false, newTail := match u.armed.head? with | none => u.tail | some b => b.start, lastSeq := 0xFFFFFFFF }

/-- ABORT_QUEUE's effect on the queue: nothing further starts, waiting commands and the chosen others end with ABORTED, the queue's open save records close, and a recorded step is marked (R104, R342, R425). -/
def abortQueue (s : State) (c q : Nat) (also : List Nat) : State :=
  let u := s.queue c q
  let i := abortInfo u
  let s := s.modQueue c q fun u => { u with armed := [], tail := i.newTail, execIndex := i.newTail }
  let s := (u.started.filter fun e => waiting e || (also.contains e.id && !e.done)).foldl (fun s e => abortCmd s c q e.id) s
  let s := s.modCore c fun k => { k with records := k.records.filter fun e => match e.2 with | none => true | some r => r.queue != q }
  s.recordAbort

/-- The response payload of ABORT_QUEUE. -/
def abortPayload (i : AbortInfo) : Nat := i.lastSeq.toNat + i.newTail.toNat * 2 ^ 32 + (if i.started then 2 ^ 64 else 0)

/-- The commands started before an ABORT_QUEUE have all completed. What the message remembers is its response and the queue's next command id. -/
def abortDone (s : State) (h : Held) : Bool :=
  let p := effPayload h.msg
  !((s.queue (fld p 4 0) (fld p 9 8)).started.any fun e => decide (e.id < h.arg / 2 ^ 65))

/-- Every ABORT_QUEUE whose queue has drained completes (R104). -/
def settleAborts (s : State) : State :=
  (s.mbx.held.filter fun h => h.opcode == 0x0403 && abortDone s h).foldl (fun s h => endHeld s h (.val 0 (h.arg % 2 ^ 65))) s

/-- ABORT_QUEUE (R104). `abortStarted` are the started commands that end with ABORTED though they do not wait. -/
def execAbortQueue (m : Msg) (abortStarted : List Nat) (s : State) : Res :=
  serve (plainOp 0x0403 1 [(383, 10), (7, 5)]) m s fun s x =>
    let c := x.f 4 0
    let q := x.f 9 8
    let u := s.queue c q
    let i := abortInfo u
    if !coreOk c then refuse s 0x201
    else
      let t := abortQueue s c q abortStarted
      if (t.queue c q).started.isEmpty then .done t (.val 0 (abortPayload i))
      else .hold t (heldOf 0x0403 m (abortPayload i + u.nextId * 2 ^ 65))

end Sys2Proof.Machine
end

