-- ==== Sys2Proof/Machine/Store.lean ====
section
/-! DEFINITION. External-memory messages: store regions, save modes, the HBM state and the host window (R321 to R325, R556). -/

namespace Sys2Proof.Machine

/-- A region holds an open record (R324). -/
def regionOpen (s : State) (r : Nat) : Bool :=
  allCores.any fun c => (s.core c).records.any fun e => match e.2 with
    | none => false
    | some x => x.region == r

/-- RESERVE_STORE (R323, R324). -/
def execReserveStore (m : Msg) (s : State) : Res :=
  serve { plainOp 0x0210 1 [(383, 168), (127, 104), (63, 4)] with high := true } m s fun s x =>
    let r := x.f 3 0
    let base := x.f 103 64
    let size := x.f 167 128
    let others := (s.regions.filter fun e => e.1 != r).map fun e => e.2
    let bad := size % 4096 != 0 || base % 4096 != 0
      || (size != 0 && (!inHbm base size || hits base size others || hits base size (windowRanges s)))
    if bad then refuse s 0x201
    else if regionOpen s r then refuse s 0x203
    else .done { s with regions := tset (0, 0) s.regions r (if size = 0 then (0, 0) else (base, size)) } .ok

/-- SET_SAVE_MODE (R325). -/
def execSetSaveMode (m : Msg) (s : State) : Res :=
  serve (plainOp 0x0211 1 [(383, 20), (15, 11), (7, 5)]) m s fun s x =>
    let c := x.f 4 0
    let coding := x.f 17 16
    if !coreOk c || coding == 3 || x.f 19 18 == 3 || (coding == 1 && !x.has capNarrow) then refuse s 0x201
    else .done (s.modCfg c fun k => { k with streams := tset StreamMode.init k.streams (x.f 10 8) { coding := fb x.p 16 2, view := fb x.p 18 2 } }) .ok

/-- STACK_OK: a stack's bit is set while all 16 of its channels run (R321). -/
def stackOk (h : Hbm) : Nat :=
  ((List.range 8).map fun q => if fld h.failed (16 * q + 15) (16 * q) = 0 then 2 ^ q else 0).sum

/-- GET_HBM_STATE (R321). -/
def execGetHbmState (m : Msg) (s : State) : Res :=
  serve (readOp 0x0212 0 []) m s fun s _ =>
    .done s (.val 0 (((List.range 8).map fun q => (tget 0 s.hbm.corrected q).toNat * 2 ^ (32 * q)).sum
      + s.hbm.scrubPasses.toNat * 2 ^ 256 + s.hbm.uncorrected.toNat * 2 ^ 288 + stackOk s.hbm * 2 ^ 320))

/-- SET_HOST_WINDOW (R556). -/
def execSetHostWindow (m : Msg) (s : State) : Res :=
  serve { plainOp 0x0220 2 [(383, 168), (127, 104), (63, 0)] with cap := some capWindow, high := true } m s fun s x =>
    let base := x.f 103 64
    let size := x.f 167 128
    let bad := size % 0x10000000 != 0 || decide (0x1000000000 < size) || base % 0x10000000 != 0
      || (if size = 0 then base != 0
          else !inHbm base size || hits base size (storeRanges s ++ tarnRanges s ++ bucketRanges s ++ replayRanges s))
    if bad then refuse s 0x201
    else if s.host.committed then refuse s 0x203
    else .done { s with host := { s.host with window := if size = 0 then none else some (base, size) } } .ok

end Sys2Proof.Machine
end

