-- ==== Sys2Proof/Machine/Stage.lean ====
section
/-! DEFINITION. Stage messages: identity, stage addresses, micro-batch queues and their slots (R26, R27, R118 to R128, R512, R743). -/

namespace Sys2Proof.Machine

/-- Some micro-batch queue is configured. -/
def State.anyQueue (s : State) : Bool := (List.range 4).any fun q => (s.stage.queue q).isSome

/-- SET_STAGE_IDENTITY (R26, R126). -/
def execSetStageIdentity (m : Msg) (s : State) : Res :=
  serve (plainOp 0x0301 1 [(383, 64)]) m s fun s x =>
    if s.anyQueue then refuse s 0x203
    else .done { s with stage := { s.stage with identity := some (fb x.p 32 32, fb x.p 0 32) } } .ok

/-- An endpoint entry is SELF. -/
def State.isSelf (s : State) (e : Nat) : Bool := match s.endpoint e with
  | none => false
  | some x => x.self

/-- SET_STAGE_ADDRESS (R27, R749). Credits that waited for the entry go out (R124). -/
def execSetStageAddress (m : Msg) (s : State) : Res :=
  serve (plainOp 0x0302 1 [(383, 73), (31, 28), (15, 2)]) m s fun s x =>
    let d := x.f 0 0
    if bit x.p 1 then
      if zeros x.p [(72, 64), (63, 32), (27, 16)] then .done { s with stage := { s.stage with addr := tset none s.stage.addr d none } } .ok
      else refuse s 0x201
    else if x.f 72 64 = 0 || decide (256 < x.f 72 64) || s.isSelf (x.f 27 16) then refuse s 0x201
    else
      let a : StageAddr := { peerInSlots := x.f 72 64, peerStageId := fb x.p 32 32, endpoint := fb x.p 16 12 }
      let s : State := { s with stage := { s.stage with addr := tset none s.stage.addr d (some a) } }
      .done s.flushCredits .ok

/-- A slot command of micro-batch queue `q`: WAIT_SLOT or SEND_SLOT. -/
def slotCmd (q : Nat) (d : BitVec 512) : Bool := (cmdOp d == 3 || cmdOp d == 5) && fld (cmdBody d) 1 0 == q

/-- Waits and sends on a micro-batch queue end with ABORTED (R125, R128). -/
def abortSlotCmds (s : State) (q : Nat) : State :=
  (s.allStarted.filter fun e => !e.2.2.done && slotCmd q e.2.2.desc).foldl
    (fun s e => (s.dropCmdOps e.1 e.2.1 e.2.2.id).modStarted e.1 e.2.1 e.2.2.id fun k => { k.fault 0x600 0 with done := true, wait := .none })
    s

/-- The slots of a queue below a count change. -/
def modSlots (g : Stage) (q n : Nat) (f : Slot → Slot) : Stage := (List.range n).foldl (fun g i => g.modSlot q i f) g

/-- Credits held for a queue are discarded: a full set follows, or none is due. -/
def dropHeld (g : Stage) (q : Nat) : Stage := { g with heldCredits := g.heldCredits.filter fun h => h.queue != q }

/-- The profile agreed with the feeder of an input queue is P1F, or none is agreed yet: the hold then ends with the profile, unless that is P1F (R512). -/
def v1Feeder (s : State) (q : Nat) : Bool :=
  match s.stage.feeder q with
  | none => true
  | some a => match s.endpoint a.endpoint.toNat with
    | none => true
    | some e => e.profile == none || e.profile == some 0

/-- A full set of credits goes to the sender of an input queue, held toward a v1 sender (R124, R125, R512). -/
def sendCredits (s : State) (q n : Nat) : State :=
  let s : State := { s with stage := { s.stage with v1Hold := tset false s.stage.v1Hold q (v1Feeder s q) } }
  (List.range n).foldl (fun s i => s.sendCredit q i (s.stage.slot q i).gen) s

/-- An emptied slot, its generation and override kept. -/
def Slot.empty (x : Slot) : Slot := { Slot.init with gen := x.gen, expected := x.expected }

/-- The queue that a CONFIGURE_QUEUE payload describes. -/
def queueOf (x : Ctx) : MbQueue :=
  { expected := fb x.p 128 32, base := x.f 103 64, stride := x.f 63 32, slots := x.f 24 16, inSpad := bit x.p 13, core := x.f 12 8, messages := decide (x.f 4 3 = 1) }

/-- The slot range lies in HBM, or in the named scratchpad (R126). -/
def queueRangeOk (k : MbQueue) : Bool :=
  match placeOf k.base with
  | .hbm a => !k.inSpad && inHbm a (k.slots * k.stride)
  | .spad c a => k.inSpad && c == k.core && decide (a + k.slots * k.stride ≤ spadSize)
  | .nowhere => false

/-- Every slot of a queue is FREE (R126). -/
def allFree (s : State) (q : Nat) : Bool :=
  match s.stage.queue q with
  | none => true
  | some k => (List.range k.slots).all fun i => (s.stage.slot q i).state == 0

/-- What an output queue knows of its remote slots' generations is forgotten; the credits it holds stay (R743). -/
def forgetGens (t : Tbl RemoteSlot) : Tbl RemoteSlot := tmapVals RemoteSlot.init (fun x => { x with newest := none }) t

/-- A micro-batch queue is cleared: its slots keep their generations only, and an output queue its credits (R743). -/
def clearQueue (s : State) (q : Nat) : State :=
  let s := abortSlotCmds s q
  let g := dropHeld s.stage q
  let g := modSlots g q (tget 0 g.everSlots q) fun x => { Slot.init with gen := x.gen }
  { s with stage := { g with queues := tset none g.queues q none, remote := tmod [] g.remote q forgetGens } }

/-- A micro-batch queue is configured: an input queue's left generations advance and every slot's credit goes out (R124); an output queue's known generations are forgotten (R743). -/
def setQueue (s : State) (q : Nat) (k : MbQueue) : State :=
  let s := clearQueue s q
  let ever := tget 0 s.stage.everSlots q
  let g := if q < 2 then modSlots s.stage q ever fun x => { x with gen := x.gen + 1 } else s.stage
  let g : Stage := { g with queues := tset none g.queues q (some k), everSlots := tset 0 g.everSlots q (max ever k.slots) }
  let s : State := { s with stage := g }
  if q < 2 then sendCredits s q k.slots else s

/-- CONFIGURE_QUEUE (R124, R126, R128). -/
def execConfigureQueue (m : Msg) (s : State) : Res :=
  serve { plainOp 0x0303 1 [(383, 160), (127, 104), (31, 25), (15, 14), (7, 5)] with high := true } m s fun s x =>
    let q := x.f 1 0
    let k := queueOf x
    let clear := bit x.p 2
    if !clear && (k.slots == 0 || decide (256 < k.slots) || k.stride % 128 != 0 || decide (1 < x.f 4 3) || (k.inSpad && !coreOk k.core) || !queueRangeOk k) then refuse s 0x201
    else if !allFree s q then refuse s 0x203
    else .done (if clear then clearQueue s q else setQueue s q k) .ok

/-- CONFIGURE_SLOT (R126): one FREE slot's EXPECTED is overridden. -/
def execConfigureSlot (m : Msg) (s : State) : Res :=
  serve (plainOp 0x0304 1 [(383, 64), (31, 16), (7, 2)]) m s fun s x =>
    let q := x.f 1 0
    let i := x.f 15 8
    match s.stage.queue q with
    | none => refuse s 0x201
    | some k =>
      if k.slots ≤ i then refuse s 0x201
      else if (s.stage.slot q i).state != 0 then refuse s 0x203
      else .done { s with stage := s.stage.modSlot q i fun y => { y with expected := some (fb x.p 32 32) } } .ok

/-- RESET_SLOTS on one queue (R125). -/
def resetQueue (s : State) (q : Nat) : State :=
  match s.stage.queue q with
  | none => s
  | some k =>
    let s := abortSlotCmds s q
    let g := dropHeld s.stage q
    if q < 2 then
      let g := modSlots g q k.slots fun x => { x.empty with gen := x.gen + 1 }
      sendCredits { s with stage := g } q k.slots
    else
      let g := modSlots g q k.slots Slot.empty
      { s with stage := { g with remote := tset [] g.remote q [] } }

/-- RESET_SLOTS (R125). -/
def execResetSlots (m : Msg) (s : State) : Res :=
  serve (plainOp 0x0305 1 [(383, 4)]) m s fun s x =>
    .done (((List.range 4).filter fun q => (x.f 3 0).testBit q).foldl resetQueue s) .ok

/-- The remote slot that matches an output slot: that of its micro-batch, or its own index while it is FREE (R122). -/
def remoteSlotOf (s : State) (q i : Nat) : Nat :=
  let x := s.stage.slot q i
  match s.stage.receiver q with
  | none => i
  | some a => if x.state = 0 then i else x.mb.toNat % a.peerInSlots

/-- One GET_QUEUE_STATE slot record. -/
def slotRecord (s : State) (q i : Nat) : List Byte :=
  let x := s.stage.slot q i
  let credit := decide (2 ≤ q) && (s.stage.rslot q (remoteSlotOf s q i)).credit.isSome
  leBytes 16 (x.state.toNat + x.gen.toNat * 2 ^ 16 + x.mb.toNat * 2 ^ 32 + x.counter.toNat * 2 ^ 64 + (if credit then 2 ^ 96 else 0))

/-- GET_QUEUE_STATE (spec 03): one record per slot; none for a queue that is not configured. -/
def execGetQueueState (m : Msg) (s : State) : Res :=
  serve (readOp 0x0306 0 [(383, 2)]) m s fun s x =>
    let q := x.f 1 0
    let n := match s.stage.queue q with
      | none => 0
      | some k => k.slots
    .done s { status := 0, payload := none, long := (List.range n).flatMap (slotRecord s q) }

end Sys2Proof.Machine
end

