-- ==== Sys2Proof/Machine/Fabric.lean ====
section
/-! DEFINITION. Fabric messages: coordinates, the wiring map and its policy, the profile policy, and endpoints (R453, R482, R483, R490 to R506, R745). -/

namespace Sys2Proof.Machine

/-- Coordinates in the ranges of R482. -/
def coordOk (c : BitVec 48) : Bool := decide (fld c 47 32 < 65535) && decide (fld c 31 16 < 16) && decide (fld c 15 0 < 8)

/-- Training starts on every port that no recorded DISABLE holds back (R453). -/
def startTraining (s : State) : State :=
  (List.range 18).foldl (fun s p => if (s.port p).state = 0 ∧ (s.port p).stayDisabled = false then s.enterTraining p else s) s

/-- SET_COORDINATES, which comes over MCTP alone: the coordinates are set "never from the link partner, and never from the host" (R453, R482 to R484). -/
def execSetCoordinates (m : Msg) (s : State) : Res :=
  serve { plainOp 0x0701 2 [(383, 48)] with mctp := true } m s fun s x =>
    let c : BitVec 48 := fb x.p 32 16 ++ fb x.p 16 16 ++ fb x.p 0 16
    if !x.mgmt then refuse s 0x203
    else if !coordOk c then refuse s 0x201
    else if s.fabric.coord = c then .done s .ok
    else if s.coordSet && !((List.range 18).all fun p => (s.port p).state == 0) then refuse s 0x203
    else
      let first := !s.fabric.coordEver
      let s : State := { s with fabric := { s.fabric with coord := c, coordEver := true } }
      let s := s.helloAll
      .done (if first then startTraining s else s).rejudge .ok

/-- One 8-byte end of a wiring map entry. -/
def wireEnd (x : BitVec 64) : WireEnd := { pod := fb x 48 16, board := fb x 32 16, slot := fb x 16 16, port := fb x 0 8 }

/-- A wiring map entry of 16 bytes, near end first. -/
def wireEntry (bs : List Byte) : WireEnd × WireEnd :=
  let x := BitVec.ofNat 128 (leNat bs)
  (wireEnd (fb x 0 64), wireEnd (fb x 64 64))

/-- The reserved bits of a wiring map entry are zero. -/
def wireEntryOk (bs : List Byte) : Bool := zeros (BitVec.ofNat 128 (leNat bs)) [(15, 8), (79, 72)]

/-- SET_WIRING_MAP (R497, R500): the map's hash goes out in HELLO and every port is checked again. -/
def execSetWiringMap (m : Msg) (s : State) : Res :=
  serve { plainOp 0x0702 2 [(383, 0)] with buf := true } m s fun s x =>
    let img := x.m.req
    let es := chunksOf 16 4097 img
    if !x.m.ptr || img.length % 16 != 0 || decide (65536 < img.length) || !es.all wireEntryOk then refuse s 0x201
    else
      let s : State := { s with fabric := { s.fabric with wiring := es.map wireEntry, wiringLoaded := true, wiringHash := sha64 img } }
      .done s.helloAll.settlePorts .ok

/-- SET_WIRING_POLICY (R499, R500). -/
def execSetWiringPolicy (m : Msg) (s : State) : Res :=
  serve (plainOp 0x0703 2 [(383, 2)]) m s fun s x =>
    let p := x.f 1 0
    if p == 3 || (p != 0 && !x.has capAdopt) then refuse s 0x201
    else .done ({ s with fabric := { s.fabric with wiringPolicy := fb x.p 0 2 } } : State).settlePorts .ok

/-- QUEUE_FMT word `q` of SET_PROFILE_POLICY. -/
def queueFmtWord (x : Ctx) (q : Nat) : BitVec 32 := fb x.p (32 * q + 32) 32

/-- A QUEUE_FMT word's meaning. -/
def queueFmtOf (w : BitVec 32) : QueueFmt := { fmt := fb w 24 3, rowLen := fld w 19 0 + 1 }

/-- A QUEUE_FMT word is admitted (R22, R502). -/
def queueFmtOk (w : BitVec 32) : Bool :=
  let f := queueFmtOf w
  zeros w [(31, 27), (23, 20)] && f.fmt != 7 && ((f.fmt != 5 && f.fmt != 6) || f.rowLen % 32 == 0)

/-- SET_PROFILE_POLICY (R502 to R507). -/
def execSetProfilePolicy (m : Msg) (s : State) : Res :=
  serve { plainOp 0x0704 2 [(383, 160), (31, 5)] with high := true } m s fun s x =>
    let mask : BitVec 5 := fb x.p 0 5
    let ws := (List.range 4).map (queueFmtWord x)
    if !ws.all queueFmtOk || (bit mask 0 && !x.has capM1) || ((bit mask 1 || bit mask 2) && !x.has capM2) then refuse s 0x201
    else if s.anyQueue then refuse s 0x203
    else
      let before := s.offered
      let s : State := { s with fabric := { s.fabric with profileMask := mask, queueFmt := tsetList QueueFmt.init [] 0 (ws.map queueFmtOf) } }
      .done (if s.offered = before then s else s.helloAll).rejudge .ok

/-- The entry that a SET_ENDPOINT payload describes. -/
def endpointOf (x : Ctx) : Endpoint :=
  { coord := fb x.p 96 48, conn := fb x.p 64 12, portMask := fb x.p 46 18, rprofile := fb x.p 40 3, self := bit x.p 17, roce := bit x.p 16, profile := none, quarantine := none }

/-- PEER_COORD of SET_ENDPOINT: POD in its upper 16 bits, then BOARD and SLOT, each in range or all ones (R745). -/
def peerCoordOk (c : BitVec 48) : Bool :=
  (decide (fld c 31 16 < 16) || fld c 31 16 == 0xFFFF) && (decide (fld c 15 0 < 8) || fld c 15 0 == 0xFFFF)

/-- A connection is of kind MEMORY (R577). -/
def State.isMemory (s : State) (c : Nat) : Bool := match s.conn c with
  | none => false
  | some k => k.memory

/-- SET_ENDPOINT's field refusals (R491, R577, R745). -/
def endpointBad (s : State) (e : Endpoint) : Bool :=
  !peerCoordOk e.coord
    || (!e.roce && (e.conn != 0 || e.rprofile != 0))
    || (e.roce && (e.portMask != 0 || decide (4 < e.rprofile.toNat) || s.isMemory e.conn.toNat))
    || (e.self && (e.coord != s.fabric.coord || e.roce || e.portMask != 0))

/-- A SET_ENDPOINT that changes the SELF entry (R491). -/
def changesSelf (s : State) (i : Nat) (e : Endpoint) : Bool :=
  if e.self then !(s.isSelf i && s.selfEp == i && (match s.endpoint i with | none => false | some o => o.coord == e.coord))
  else s.isSelf i

/-- SET_ENDPOINT (R490 to R493, R505, R506, R577, R745). -/
def execSetEndpoint (m : Msg) (s : State) : Res :=
  serve { plainOp 0x0705 1 [(383, 144), (95, 76), (45, 43), (39, 18), (15, 12)] with high := true } m s fun s x =>
    let i := x.f 11 0
    let e := endpointOf x
    if endpointBad s e then refuse s 0x201
    else if e.self && !changesSelf s i e then .done s .ok
    else if changesSelf s i e && s.anyQueue then refuse s 0x203
    else
      let eps := if e.self && s.hasSelf then tset none s.fabric.endpoints s.selfEp none else s.fabric.endpoints
      let s : State := { s with fabric := { s.fabric with endpoints := tset none eps i (some e) } }
      .done (s.judgeEndpoint i).settlePorts .ok

/-- A command names an endpoint in its ENDPOINT field: REMOTE_WRITE and REMOTE_READ do. -/
def namesEndpoint (i : Nat) (d : BitVec 512) : Bool := (cmdOp d == 0x31 || cmdOp d == 0x32) && fld (cmdBody d) 55 44 == i

/-- None of some operations has sent a frame. -/
def unsentOps (ops : List NetOp) : Bool := ops.all fun o => !o.transmitted && o.acked == 0

/-- A command has transmitted nothing: no response has come for it, and none of its operations has sent a frame. -/
def sentNothing (ops : List NetOp) (e : Started) : Bool := !e.sent && unsentOps ops

/-- The started commands that name an endpoint, or have operations to it, and have transmitted nothing (R494). -/
def unsentOwners (s : State) (i : Nat) : List (Nat × Nat × Nat) :=
  (s.allStarted.filter fun e =>
      let ops := s.opsOf e.1 e.2.1 e.2.2.id
      !e.2.2.done && sentNothing ops e.2.2 && (namesEndpoint i e.2.2.desc || ops.any fun o => o.endpoint == BitVec.ofNat 12 i)).map fun e => (e.1, e.2.1, e.2.2.id)

/-- REMOVE_ENDPOINT (R494): commands that name the entry and have sent nothing end with ENDPOINT_UNKNOWN; others that waited for it look for their endpoint again (R495). -/
def execRemoveEndpoint (m : Msg) (s : State) : Res :=
  serve (plainOp 0x0706 1 [(383, 12)]) m s fun s x =>
    let i := x.f 11 0
    if s.isSelf i || s.stage.addr.any fun a => match a.2 with | none => false | some y => y.endpoint == BitVec.ofNat 12 i then refuse s 0x203
    else
      let s := (unsentOwners s i).foldl
        (fun s o => (s.dropCmdOps o.1 o.2.1 o.2.2).modStarted o.1 o.2.1 o.2.2 fun k => { k.fault 0x504 0 with done := true, wait := .none }) s
      let s : State := { s with fabric := { s.fabric with endpoints := tset none s.fabric.endpoints i none } }
      .done (s.settlePorts.wakeEndpoint fun ep => ep == i) .ok

end Sys2Proof.Machine
end

