-- ==== Sys2Proof/Machine/Ports.lean ====
section
/-! DEFINITION. Bilpoys ports: TRAIN_PORT and GET_PORT_STATE, training, HELLO, the link frames, replay, retrain and link loss (R446 to R467, R487, R489, R498). -/

namespace Sys2Proof.Machine

/-- TRAIN_PORT's opcode entry (R450). -/
def opTrain : OpSpec := plainOp 0x0710 1 [(383, 48), (31, 18), (15, 10), (7, 5)]

/-- The fields of TRAIN_PORT are in range (R450, R451). -/
def trainOk (x : Ctx) : Bool :=
  decide (x.f 4 0 < 18) && (x.f 47 32 == 0 || (decide (3 ≤ x.f 47 32) && decide (x.f 47 32 ≤ 60000)))

/-- The timer and version that TRAIN sets (R450). -/
def trainPort (x : Ctx) (pt : Port) : Port :=
  { pt with linkLostMs := if x.f 47 32 = 0 then 50 else fb x.p 32 16, maxVersion := if x.f 17 16 = 0 then 3 else fb x.p 16 2, stayDisabled := false }

/-- The action of a TRAIN_PORT request. -/
def trainAction (m : Msg) : Nat := fld (effPayload m) 9 8

/-- TRAIN_PORT with ACTION TRAIN, and with the reserved action (R451, R453). Another action belongs to another row and does not begin here. -/
def execTrainPortTrain (m : Msg) (s : State) : Res :=
  if trainAction m = 1 ∨ trainAction m = 2 then .next s
  else
    serve opTrain m s fun s x =>
      let p := x.f 4 0
      if trainAction m = 3 || !trainOk x then refuse s 0x201
      else if (s.port p).state != 0 then refuse s 0x203
      else
        let s := s.modPort p (trainPort x)
        .done (if s.fabric.coordEver then s.enterTraining p else s) .ok

/-- A port is disabled: its session ends at once (R451). -/
def disablePort (s : State) (p : Nat) : State :=
  (s.endSession p).modPort p fun pt => { pt with state := 0, version := 0, lanes := 0, agreed := 0, switchSeen := false, stayDisabled := true }

/-- TRAIN_PORT with ACTION DISABLE (R451). -/
def execTrainPortDisable (m : Msg) (s : State) : Res :=
  if trainAction m = 1 then
    serve opTrain m s fun s x =>
      if !trainOk x then refuse s 0x201 else .done (disablePort s (x.f 4 0)) .ok
  else .next s

/-- A port enters RETRAIN with its session kept (R462); leaving UP starts the link-lost timer (R467). -/
def enterRetrain (s : State) (p : Nat) : State :=
  s.modPort p fun pt => { pt with state := 3, lanes := 0, lostTimer := pt.lostTimer || pt.state == 2, counts := { pt.counts with retrains := satInc pt.counts.retrains 1 } }

/-- TRAIN_PORT with ACTION RETRAIN (R451, R462). -/
def execTrainPortRetrain (m : Msg) (s : State) : Res :=
  if trainAction m = 2 then
    serve opTrain m s fun s x =>
      let p := x.f 4 0
      if !trainOk x then refuse s 0x201
      else if (s.port p).state != 2 then refuse s 0x203
      else .done (enterRetrain s p) .ok
  else .next s

/-- GET_PORT_STATE's response, with the partner's last HELLO of its own (R452; log entry 19). -/
def portReply (pt : Port) : Nat :=
  let h := pt.peerHello
  let coord := match h with
    | none => 2 ^ 48 - 1
    | some x => (helloCoord x).toNat
  let gen := match h with
    | none => 0
    | some x => x.generation.toNat
  let peerPort := match h with
    | none => 0
    | some x => x.port.toNat
  pt.state.toNat + (if pt.state = 2 then pt.version.toNat else 0) * 2 ^ 8 + pt.lanes.toNat * 2 ^ 24 + peerPort * 2 ^ 32 + gen * 2 ^ 40
    + pt.linkLostMs.toNat * 2 ^ 48 + pt.counts.opsFailed.toNat * 2 ^ 128 + pt.counts.sessions.toNat * 2 ^ 160 + pt.counts.replays.toNat * 2 ^ 192
    + pt.counts.crcErrors.toNat * 2 ^ 224 + pt.counts.retrains.toNat * 2 ^ 256 + coord * 2 ^ 288

/-- GET_PORT_STATE (R452). -/
def execGetPortState (m : Msg) (s : State) : Res :=
  serve (queryOp 0x0711 0 [(383, 5)]) m s fun s x =>
    if 18 ≤ x.f 4 0 then refuse s 0x201 else .done s (.val 0 (portReply (s.port (x.f 4 0))))

/-- The receive buffers in 256-byte units (R455). -/
def rxUnits : List Nat := [2048, 2048, 256]

/-- RETRAIN_SYNC leaves a port with its SESSION_ID and expected SEQ (R447, R462). -/
def sendSync (s : State) (p : Nat) : State :=
  s.emit (.retrainSync (Fin.ofNat 18 p) (s.port p).sessionId (s.port p).rxSeq)

/-- A new session is offered: SEQ from 0, and the credits of every channel granted (R447, R455). -/
def offerSession (s : State) (p : Nat) : State :=
  let s := sendSync (s.modPort p fun pt => { pt with txSeq := 0, rxSeq := 0, unacked := [], replayAsked := none, askTimes := [], credits := [0, 0, 0] }) p
  (List.range 3).foldl (fun s vc => s.sendLinkCtl p vc (rxUnits.getD vc 0) false) s

/-- A session identifier that the port has not used: the one given where it is fresh, else the lowest that is (R447; log entry 11). -/
def freshId (used : List (BitVec 32)) (want : BitVec 32) : BitVec 32 :=
  if used.contains want then (((List.range (used.length + 1)).map (BitVec.ofNat 32)).find? fun i => !used.contains i).getD want else want

/-- The port takes a fresh session identifier. -/
def Port.withId (pt : Port) (want : BitVec 32) : Port :=
  let i := freshId pt.ids want
  { pt with sessionId := i, ids := i :: pt.ids }

/-- All lanes of a port lock (R447, R462): HELLO goes out at BPL-1, RETRAIN_SYNC at the agreed version or after a retrain. -/
def execLaneLock (port : PortId) (sessionId : BitVec 32) (s : State) : Res :=
  let p := port.val
  let pt := s.port p
  if pt.lanes = 0xFF ∨ s.clocked = false then .next s
  else if pt.state = 1 then
    if pt.agreed = 0 then .next ((s.modPort p fun pt => { pt with lanes := 0xFF, version := 1 }.withId sessionId).sendHello p)
    else .next (offerSession (s.modPort p fun pt => { pt with lanes := 0xFF, version := pt.agreed }.withId sessionId) p)
  else if pt.state = 3 then .next (sendSync (s.modPort p fun pt => { pt with lanes := 0xFF }) p)
  else .next s

/-- A lane loses lock (R447, R462): a training attempt starts again, and a port in a session enters RETRAIN. -/
def execLaneUnlock (port : PortId) (lane : Fin 8) (s : State) : Res :=
  let p := port.val
  let pt := s.port p
  let cut := pt.lanes &&& ~~~(1#8 <<< lane.val)
  if pt.state = 0 then .next s
  else if pt.state = 1 then .next (s.enterTraining p)
  else if pt.state = 3 then .next (s.modPort p fun pt => { pt with lanes := cut })
  else .next ((enterRetrain s p).modPort p fun pt => { pt with lanes := cut })

/-- A training attempt misses a limit: the next starts at BPL-1 (R447). -/
def execTrainingAttemptTimeout (port : PortId) (s : State) : Res :=
  if (s.port port.val).state = 1 then .next (s.enterTraining port.val) else .next s

/-- Re-equalization starts again in RETRAIN (R462). -/
def execReequalizationTimeout (port : PortId) (s : State) : Res :=
  if (s.port port.val).state = 3 ∧ (s.port port.val).lanes ≠ 0xFF then .next (s.modPort port.val fun pt => { pt with lanes := 0 }) else .next s

/-- A replay request leaves; the 64th within 1 ms puts the port into RETRAIN (R460, R462). -/
def askReplay (s : State) (p : Nat) : State :=
  let s := s.sendLinkCtl p 0 0 true
  let s := s.modPort p fun pt =>
    { pt with replayAsked := some pt.rxSeq, askTimes := (pt.askTimes.filter fun t => decide ((s.clock.gtc - t).toNat ≤ 1000000)) ++ [s.clock.gtc] }
  if 64 ≤ (s.port p).askTimes.length ∧ (s.port p).state = 2 then (enterRetrain s p).modPort p fun pt => { pt with askTimes := [] } else s

/-- A port in a session that carries frames. -/
def Port.live (pt : Port) : Bool := pt.inSession && (pt.state == 2 || pt.state == 4 || pt.state == 5)

/-- A port that takes LINK_CTL and HELLO: one in a session, or one whose lanes have locked in training; none while every clock is stopped (R446, R447, R693). -/
def State.hears (s : State) (p : Nat) : Bool := s.clocked && ((s.port p).live || ((s.port p).state == 1 && (s.port p).lanes == 0xFF))

/-- A frame is discarded as out of sequence or damaged: replay is requested once for each expected SEQ (R445, R460). -/
def discardFrame (s : State) (p : Nat) : State :=
  if (s.port p).replayAsked = some (s.port p).rxSeq then s else askReplay s p

/-- A frame with a bad CRC, a reserved TYPE or a nonzero reserved field is dropped and counted (R445). -/
def execFrameDrop (port : PortId) (s : State) : Res :=
  let p := port.val
  if (s.port p).state = 0 then .next s
  else
    let s := s.modPort p fun pt => { pt with counts := { pt.counts with crcErrors := satInc pt.counts.crcErrors 1 } }
    .next (if (s.port p).live then discardFrame s p else s)

/-- A replay request is repeated while its frame is missing (R460). -/
def execReplayRequestRepeat (port : PortId) (s : State) : Res :=
  let pt := s.port port.val
  if pt.live && pt.replayAsked == some pt.rxSeq then .next (askReplay s port.val) else .next s

/-- The frames that an acknowledgement covers leave the replay buffer (R461); an ACK outside the unacknowledged frames changes nothing. -/
def Port.acked (pt : Port) (ack : BitVec 16) : Port :=
  let pending := (pt.txSeq - ack).toNat
  if pending ≤ pt.unacked.length then { pt with unacked := pt.unacked.drop (pt.unacked.length - pending) } else pt

/-- An ACK lies within the sender's unacknowledged frames (R464). -/
def Port.ackOk (pt : Port) (ack : BitVec 16) : Bool := decide ((pt.txSeq - ack).toNat ≤ pt.unacked.length)

/-- Credits return to a channel of a port (R456). -/
def Port.credited (pt : Port) (vc units : Nat) : Port :=
  if vc < 3 then { pt with credits := pt.credits.set vc (pt.credits.getD vc 0 + units) } else pt

/-- The link fields of a frame count: what its ACK covers, and the credits it returns (R456, R461). -/
def Port.linked (pt : Port) (ack : BitVec 16) (vc : BitVec 2) (units : BitVec 14) : Port := (pt.acked ack).credited vc.toNat units.toNat

/-- LINK_CTL: acknowledgement, credit return and perhaps a replay request (R456, R460, R461). Only an UP port replays: another carries no such frame (R446), and its replay is due until it is UP. -/
def execLinkCtl (port : PortId) (f : Frame) (s : State) : Res :=
  let p := port.val
  if !s.hears p then .next s
  else
    let s := s.modPort p fun pt => pt.linked f.ack f.crVc f.crUnits
    .next ((if !f.replayReq then s else if (s.port p).state = 2 then replayFrames s p else s.modPort p fun pt => { pt with replayDue := true }).drain p)

/-- Another device holds the coordinates of a HELLO (R489): its generation differs, or two ports receive them directly from the same sender PORT. -/
def otherDevice (s : State) (p : Nat) (h : Hello) (relayed : Bool) (o : Nat) : Bool :=
  match (s.port o).ownHello with
  | none => false
  | some g => o != p && helloCoord g == helloCoord h && !(s.port o).switchSeen
      && (g.generation != h.generation || (!relayed && g.port == h.port))

/-- The port that carried the peer record of a HELLO's coordinates, where that record came from a device of another generation; it may be the same port (R489). -/
def otherCarrier (s : State) (h : Hello) : List Nat :=
  match s.fabric.peers.find? fun g => helloCoord g.1 == helloCoord h with
  | none => []
  | some g => if g.1.generation != h.generation then [g.2] else []

/-- The peer record of a HELLO with set coordinates is kept, the later of two conflicting ones; the conflict is logged, and the check fails on the port that carried the other one (R487, R489). -/
def keepPeer (s : State) (p : Nat) (h : Hello) (relayed : Bool) : State :=
  if helloUnset h then s
  else
    let others := (List.range 18).filter (otherDevice s p h relayed) ++ otherCarrier s h
    let s : State := { s with fabric := { s.fabric with peers := s.fabric.peers.filter (fun g => helloCoord g.1 != helloCoord h) ++ [(h, p)] } }
    let s := others.foldl (fun s o => s.modPort o fun pt => { pt with conflict := true }) s
    if others.isEmpty then s else s.postErr (mkErr 0x503 2 4 p)

/-- In training, the partner's HELLO gives the version: the lower of MAX_VERSION and LINK_VERSION (R447). BPL-1 needs no new equalization. -/
def agreeVersion (s : State) (p : Nat) (h : Hello) : State :=
  let pt := s.port p
  if pt.state = 1 ∧ pt.agreed = 0 then
    let v := max 1 (min pt.maxVersion.toNat h.linkVersion.toNat)
    let s := s.modPort p fun pt => { pt with agreed := BitVec.ofNat 4 v }
    if v = 1 then offerSession s p else s.modPort p fun pt => { pt with lanes := 0 }
  else s

/-- A HELLO arrives (R447, R454, R487, R489, R498, R504 to R506): a switch's own, relayed, or the partner's own. -/
def execHello (port : PortId) (h : Hello) (l : LinkFields) (s : State) : Res :=
  let p := port.val
  let pt := s.port p
  if !s.hears p then .next s
  else
    let s := (s.modPort p fun pt => pt.linked l.ack l.crVc l.crUnits).drain p
    if h.generation = 0x80 then
      let s := s.modPort p fun pt => { pt with ownHello := none, switchSeen := true, switchHello := some h, peerHello := some h, conflict := false }
      .next (agreeVersion s p h).settlePorts
    else if pt.switchSeen then .next (keepPeer s p h true).rejudge
    else
      let s := s.modPort p fun pt => { pt with ownHello := some h, peerHello := some h, conflict := false }
      .next (agreeVersion (keepPeer s p h false) p h).rejudge

/-- RETRAIN_SYNC (R447, R462 to R464): a new session begins, the session resumes with replay, or it ends. -/
def execRetrainSync (port : PortId) (sessionId : BitVec 32) (l : LinkFields) (s : State) : Res :=
  let p := port.val
  let pt := s.port p
  if !s.clocked then .next s
  else if pt.state = 1 then
    if pt.agreed ≠ 0 ∧ pt.lanes = 0xFF ∧ pt.version = pt.agreed then
      let s := s.modPort p fun pt => { pt.credited l.crVc.toNat l.crUnits.toNat with inSession := true, peerSessionId := some sessionId, counts := { pt.counts with sessions := satInc pt.counts.sessions 1 } }
      .next (s.enterTarget p).flushCredits
    else .next s
  else if pt.inSession then
    if pt.peerSessionId ≠ some sessionId ∨ pt.ackOk l.ack = false then .next ((s.endSession p).enterTraining p)
    else if pt.state = 3 ∧ pt.lanes = 0xFF then
      let s := ((s.modPort p fun pt => { pt.linked l.ack l.crVc l.crUnits with replayDue := true }).enterTarget p).flushCredits
      .next (if (s.port p).state = 2 then s.postErr (mkEvent 2 0 0 4 p) else s)
    else .next s
  else .next s

/-- The link-lost timer of a port that has left UP expires: the session ends and the port trains again (R467). -/
def execLinkLostTimer (port : PortId) (s : State) : Res :=
  if (s.port port.val).lostTimer = true ∧ (s.port port.val).inSession = true then .next ((s.endSession port.val).enterTraining port.val) else .next s

/-- All frames of an operation have left, those of a remote read when it has no READ left to send (R466, R476). -/
def allSent (s : State) (o : NetOp) : Bool := !o.unsent && (!partRead s o || (match o.owner with
  | .firmware => true
  | .cmd c q id => ((s.opsOf c q id).all fun x => !x.unsent) && (match s.started c q id with
    | none => true
    | some e => e.opLost || decide (dmaLen e.desc ≤ e.cursor))))

/-- The response timer of an operation on the port, which runs from its last frame, expires: the port enters TRAINING and its session ends (R466, R467). -/
def execResponseTimer (port : PortId) (s : State) : Res :=
  if (s.port port.val).inSession && s.net.ops.any (fun o => allSent s o && decide (o.via = .port port)) then
    .next ((s.endSession port.val).enterTraining port.val)
  else .next s

end Sys2Proof.Machine
end

