-- ==== Sys2Proof/Machine/Time.lean ====
section
/-! DEFINITION. The global time counter, its modes and source, TIME frames, the rack reference and the step edges (R514 to R524, R711, R712). -/

namespace Sys2Proof.Machine

/-- Step edge `i`, where it is armed. -/
def State.edge (s : State) (i : Nat) : Option Edge := tget none s.edges i

/-- The edge after a firing: the first later period above the GTC, or none (R523). -/
def nextEdge (e : Edge) (gtc : BitVec 64) : Option Edge :=
  if e.period = 0 then none
  else
    let past := gtc.toNat - e.time.toNat
    some { e with time := e.time + BitVec.ofNat 64 ((past / e.period.toNat + 1) * e.period.toNat) }

/-- An armed edge fires: its event counter rises by 1, a late firing sets its LATE_MASK bit, and a saturating counter is logged at STEP severity (R523, R524). -/
def fireEdge (s : State) (i : Nat) (late : Bool) : State :=
  match s.edge i with
  | none => s
  | some e =>
    let r := addEvent s e.core e.event 1
    let s := if r.2 then r.1.postErr (mkErr 0x305 1 0 e.core) else r.1
    { s with edges := tset none s.edges i (nextEdge e s.clock.gtc), clock := if late then { s.clock with lateMask := s.clock.lateMask ||| (1#64 <<< i) } else s.clock }

/-- The GTC steps forward, never back; the edges whose TIME it passes fire late (R514, R516, R523, R524). -/
def stepGtc (s : State) (v : BitVec 64) : State :=
  if v.toNat ≤ s.clock.gtc.toNat then s
  else
    let s : State := { s with clock := { s.clock with gtc := v, slew := 0 } }
    (s.edges.filterMap fun e => match e.2 with | none => none | some x => if x.time.toNat < v.toNat then some e.1 else none).foldl (fun s i => fireEdge s i true) s

/-- The GTC begins to slew by some nanoseconds, forward or by running slower (R517, R519; log entry 25). -/
def slewGtc (s : State) (off : Int) : State := { s with clock := { s.clock with slew := off } }

/-- A change of mode: offered profiles follow it, and so do endpoints and ports (R449, R503, R505). -/
def setMode (s : State) (f : TimeState → TimeState) : State :=
  let before := s.offered
  let roots := heardRoots s
  let s := noteRoots roots { s with clock := f s.clock }
  (if s.offered = before then s else s.helloAll).rejudge

/-- Free mode, as root or not (R515, R516, R519). A root is the pod's reference and counts as LOCKED with HOPS 0 (log entry 23). -/
def freeMode (root : Bool) (t : TimeState) : TimeState :=
  { t with mode := 0, root := root, state := if root then 1 else 0, hops := if root then 0 else 0xFF, source := 0xFF, goodOffsets := 0, slew := 0 }

/-- Referenced mode: HOPS 0; LOCKED while the reference is valid (R517, R520). -/
def refMode (t : TimeState) : TimeState :=
  { t with mode := 1, root := false, state := if t.refValid then 1 else 0, hops := 0, source := 0xFF, goodOffsets := 0, slew := 0 }

/-- SET_TIME_MODE's field refusals (spec 13; R515). -/
def timeModeBad (x : Ctx) : Bool :=
  let mode := x.f 1 0
  let start := x.f 127 64
  decide (1 < mode) || (mode == 1 && (!x.has capReferenced || bit x.p 2 || start % 1000000000 != 0))
    || (mode == 0 && (!x.has capFree || (!bit x.p 2 && start != 0)))

/-- A request's mode is applied: a START_VALUE below the GTC is refused with it (R515, R516). -/
def applyMode (s : State) (p : BitVec 384) : State × Reply :=
  let v : BitVec 64 := fb p 64 64
  if fld p 1 0 = 1 then
    (if v.toNat < s.clock.gtc.toNat then (s, .val 0x201 s.clock.gtc.toNat) else (setMode (stepGtc s v) refMode, .ok))
  else if bit p 2 then
    (if v.toNat < s.clock.gtc.toNat then (s, .val 0x201 s.clock.gtc.toNat) else (setMode (stepGtc s v) (freeMode true), .ok))
  else (setMode s (freeMode false), .ok)

/-- SET_TIME_MODE (R515, R516). A referenced request waits for the next PPS edge, and any waits behind an earlier one that does (R81). -/
def execSetTimeMode (m : Msg) (s : State) : Res :=
  serve (plainOp 0x0801 2 [(383, 128), (63, 3)]) m s fun s x =>
    if timeModeBad x then refuse s 0x201
    else if x.f 1 0 = 1 || s.behind (heldOf 0x0801 m 0) then .hold s (heldOf 0x0801 m 0)
    else
      let a := applyMode s x.p
      .done a.1 a.2

/-- SCHEDULE_EDGE (R523, R524): a TIME already past fires at once. -/
def execScheduleEdge (m : Msg) (s : State) : Res :=
  serve { plainOp 0x0803 1 [(383, 160), (63, 22), (15, 13), (7, 6)] with high := true } m s fun s x =>
    let i := x.f 5 0
    if !coreOk (x.f 12 8) then refuse s 0x201
    else
      let e : Edge := { time := fb x.p 64 64, period := fb x.p 128 32, core := x.f 12 8, event := x.f 21 16 }
      let s : State := { s with edges := tset none s.edges i (some e) }
      if e.time.toNat < s.clock.gtc.toNat then .done (fireEdge s i true) (.val 0 1) else .done s (.val 0 0)

/-- CANCEL_EDGE (R524). -/
def execCancelEdge (m : Msg) (s : State) : Res :=
  serve (plainOp 0x0804 1 [(383, 6)]) m s fun s x => .done { s with edges := tset none s.edges (x.f 5 0) none } .ok

/-- The GTC reaches an edge's TIME and the edge fires (R523). The event says so: the GTC is then at TIME at least (log entry 24). -/
def execEdgeFire (edge : Fin 64) (s : State) : Res :=
  match s.edge edge.val with
  | none => .next s
  | some e =>
    let s : State := if s.clock.gtc.toNat < e.time.toNat then { s with clock := { s.clock with gtc := e.time } } else s
    .next (fireEdge s edge.val false)

/-- A port's report comes before another's: the lowest root, then the fewest HOPS, then the lowest port (R519, R522). -/
def timeBefore (s : State) (a b : Nat) : Bool :=
  let x := s.port a
  let y := s.port b
  decide (x.lastRoot.toNat < y.lastRoot.toNat) || (x.lastRoot == y.lastRoot && (decide (x.lastHops.toNat < y.lastHops.toNat) || (x.lastHops == y.lastHops && decide (a < b))))

/-- The source port of a device in free mode that is not root (R519, R522). -/
def timeSource (s : State) : Option Nat := (sortBy (timeBefore s) (timePorts s)).head?

/-- The device takes its source and HOPS from what its UP ports report (R519); without a source it is not LOCKED (log entry 23). -/
def takeSource (s : State) : State :=
  if s.clock.mode = 1 ∨ s.clock.root = true then s
  else
    match timeSource s with
    | none => { s with clock := { s.clock with source := 0xFF, hops := 0xFF, rootCoord := 0xFFFFFFFFFFFF, state := 0, goodOffsets := 0 } }
    | some p => { s with clock := { s.clock with source := BitVec.ofNat 8 p, hops := (s.port p).lastHops + 1, rootCoord := (s.port p).lastRoot } }

/-- GET_TIME (R522): LATE_MASK is cleared by the read. -/
def execGetTime (m : Msg) (s : State) : Res :=
  serve (readOp 0x0802 0 []) m s fun s _ =>
    let s := takeSource s
    let t := s.clock
    .done { s with clock := { t with lateMask := 0 } }
      (.val 0 (t.gtc.toNat + t.mode.toNat * 2 ^ 64 + t.state.toNat * 2 ^ 66 + t.source.toNat * 2 ^ 80 + t.hops.toNat * 2 ^ 88 + t.offset.toNat * 2 ^ 96 + t.lateMask.toNat * 2 ^ 128))

/-- The GTC is steered toward its source by one offset estimate: it steps forward when it trails by more than 1 µs and slews otherwise; 16 consecutive offsets within 4 ns make it LOCKED (R519). -/
def steer (s : State) (t : TimeMsg) : State :=
  let gtc : Int := s.clock.gtc.toNat
  let delay : Int := (gtc - t.echoTx.toNat - t.echoHold.toNat - t.correction.toNat) / 2
  let off : Int := (t.gtcTx.toNat : Int) + t.correction.toNat + delay - gtc
  let good := if decide (-4 ≤ off) && decide (off ≤ 4) then s.clock.goodOffsets + 1 else 0
  let s : State := { s with clock := { s.clock with offset := BitVec.ofInt 32 off, goodOffsets := min good 16, state := if 16 ≤ good then 1 else 0 } }
  if 1000 < off then stepGtc s (BitVec.ofInt 64 (gtc + off)) else slewGtc s off

/-- A TIME frame arrives (R456, R518, R519, R522). -/
def execTime (port : PortId) (t : TimeMsg) (l : LinkFields) (s : State) : Res :=
  let p := port.val
  let roots := heardRoots s
  if !(s.port p).live || !s.clocked then .next s
  else
    let s := (s.modPort p fun pt => pt.linked l.ack l.crVc l.crUnits).drain p
    let s := s.modPort p fun pt => { pt with lastTimeRx := t.gtcTx, lastTimeAt := s.clock.gtc, lastHops := t.hops, lastMode := t.mode, lastRoot := t.rootCoord }
    if s.clock.mode = 1 ∨ s.clock.root = true then .next s
    else
      let s := takeSource (noteRoots roots s)
      .next (if s.clock.source = BitVec.ofNat 8 p ∧ t.echoTx ≠ 0 then steer s t else s)

/-- The time root that the device reports: itself, or its source's (R518, R520). -/
def reportedRoot (s : State) : BitVec 48 := if s.clock.mode = 1 ∨ s.clock.root = true then s.fabric.coord else s.clock.rootCoord

/-- An UP port sends its TIME frame (R518, R520). -/
def execTimeFrameTx (port : PortId) (s : State) : Res :=
  let pt := s.port port.val
  if pt.state = 2 then
    let s := takeSource s
    .next (s.emit (.time port { gtcTx := s.clock.gtc, echoTx := pt.lastTimeRx, echoHold := if pt.lastTimeRx = 0 then 0 else s.clock.gtc - pt.lastTimeAt, correction := 0, rootCoord := reportedRoot s, hops := s.clock.hops, mode := s.clock.mode }))
  else .next s

/-- The messages that wait for the next PPS edge, in dequeue order (R81, R516). -/
def timeHeld (s : State) : List Held := s.mbx.held.filter fun h => h.opcode == 0x0801

/-- A waiting request is applied or refused: its START_VALUE is compared with the GTC now (R516). -/
def applyStart (s : State) (h : Held) : State :=
  let a := applyMode s (effPayload h.msg)
  endHeld a.1 h a.2

/-- The requests at the head of those that wait which need no PPS edge are applied (R81). -/
def settleTimes (s : State) : State := ((timeHeld s).takeWhile fun h => fld (effPayload h.msg) 1 0 != 1).foldl applyStart s

/-- In referenced mode, while locked, an edge of the reference marks a multiple of 10^9 ns: the GTC slews to the nearest (R517; log entry 25). -/
def markSecond (s : State) : State :=
  if s.clock.mode = 1 ∧ s.clock.state = 1 then
    slewGtc s (((s.clock.gtc.toNat + 500000000) / 1000000000 * 1000000000 : Nat) - (s.clock.gtc.toNat : Int))
  else s

/-- A PPS edge: what waits for it is applied or refused (R516); in referenced mode the edge marks a multiple of 10^9 ns, never backward (R514, R517). -/
def execPpsEdge (s : State) : Res := .next (if s.clocked then markSecond ((timeHeld s).foldl applyStart s) else s)

/-- The rack reference becomes valid; in referenced mode the GTC locks to it (R517, R712). -/
def execReferenceValid (s : State) : Res :=
  .next { s with clock := { s.clock with refValid := true, state := if s.clock.mode = 1 then 1 else s.clock.state } }

/-- The rack reference is lost; in referenced mode the state becomes HOLDOVER, logged at CORRECTED severity (R517, R712). -/
def execReferenceLost (s : State) : Res :=
  let t := s.clock
  let s : State := { s with clock := { t with refValid := false, state := if t.mode = 1 then 2 else t.state } }
  .next (if t.mode = 1 ∧ t.state ≠ 2 then s.postErr (mkEvent 3 0 0 9 0) else s)

end Sys2Proof.Machine
end

