-- ==== Sys2Proof/Machine/Streams.lean ====
section
/-! DEFINITION. How a queue's next command starts (R97, R101, R108, R111, R115), and the control commands NOP, WAIT, SIGNAL, WAIT_SLOT and RELEASE_SLOT (R93 to R96, R118 to R123, R128, R738). -/

namespace Sys2Proof.Machine

/-- Records written and not consumed (R115, R117). -/
def CplRing.used (r : CplRing) : Nat := (r.written - r.head).toInt.toNat

/-- A completion ring entry is free for one more command (R115). -/
def CmdQueue.cplFree (u : CmdQueue) : Bool :=
  match u.cpl with
  | none => false
  | some r => decide (r.used + u.started.length < 2 ^ r.log2)

/-- A core tag of the queue's quota is free (R112). -/
def CmdQueue.tagFree (u : CmdQueue) : Bool :=
  match u.ring with
  | none => false
  | some r => decide (u.started.length < r.quota)

/-- The conditions of R108 other than WAIT_EVENT and the engine's: nothing holds the queue, no earlier BARRIER is incomplete, and a core tag and a completion ring entry are free. A quarantined device starts nothing (R607), nor does one without a clock or in STANDBY (R667, R688). -/
def queueOpen (s : State) (c q : Nat) : Bool :=
  let u := s.queue c q
  !s.boot.quarantined && s.clocked && !s.power.standby && !u.hold && !(u.started.any fun e => bit e.desc 9) && u.tagFree && u.cplFree

/-- The entry of a command as it starts. -/
def startedOf (u : CmdQueue) (b : Block) (d : BitVec 512) : Started :=
  { id := u.nextId, blockSeq := b.seq, index := b.nStarted, desc := d, seed := b.seed, step := b.step, client := b.client, absent := b.absent.contains b.nStarted, done := false, wait := .none, cursor := 0, ringAt := none, profile := none, granted := [], strict := false, buf := [], status := 0, detail := 0, result := 0, flags := 0, suspect := false, peer := 0, unit := 0, path := none, sent := false, opLost := false, landed := [], lines := [], first := [] }

/-- The next command of a queue has started: its block and the queue's indexes advance (R105, R108). -/
def beginCmd (s : State) (c q : Nat) (b : Block) (e : Started) : State :=
  s.modQueue c q fun u =>
    { u with
      armed := u.armed.map fun x => if x.seq = b.seq then { x with nStarted := x.nStarted + 1 } else x
      started := u.started ++ [e]
      nextId := u.nextId + 1
      execIndex := b.start + BitVec.ofNat 32 (b.nStarted + 1) }

/-- The running command's progress is stored in its queue. -/
def Run.store (r : Run) : State := r.s.modStarted r.core r.queue r.e.id fun _ => r.e

/-- A command notes the parts of its work that its units do at once (log entry 55). -/
def Run.doing (r : Run) (first : List Nat) : Run := { r with e := { r.e with first := first } }

/-- The next command of a queue starts, where it is one of the named operations, R108 allows it and its engine accepts it; its work is then attempted. -/
def startCmd (ops : List Nat) (c q : Nat) (s : State) (accept : State → BitVec 512 → Bool) (attempt : Run → Run) : Res :=
  match nextCmd (s.queue c q) with
  | none => .next s
  | some (b, d) =>
    if ops.contains (cmdOp d) && queueOpen s c q && waitMet (s.core c) d && accept s d then
      let e := { startedOf (s.queue c q) b d with strict := tget false (s.core c).cfg.strict q }
      .next (attempt { s := beginCmd s c q b e, core := c, queue := q, e := e }).store
    else .next s

/-- The power manager lets matrix and vector commands start (R684). -/
def State.powerOpen (s : State) : Bool := s.power.holdLeft == 0

/-- An engine that accepts every command (R108). -/
def anyTime (_ : State) (_ : BitVec 512) : Bool := true

/-- NOP does nothing (R738). -/
def attemptNop (r : Run) : Run := r.finish

/-- WAIT ends when its counter reaches THRESHOLD; a saturated arrival counter ends it with ARRIVAL_OVERFLOW (R95, R111, R292). -/
def attemptWait (r : Run) : Run :=
  match waitEnd r.k r.e.desc with
  | none => r.block .program
  | some x => { r with e := r.e.over x }

/-- SIGNAL adds to or sets an event counter of any core (R94, R96). -/
def attemptSignal (r : Run) : Run :=
  let c := r.field 4 0
  let i := r.field 13 8
  if r.field 16 16 = 1 then
    { r with s := r.s.modCore c fun k => ({ k with events := tset 0 k.events i (fb (cmdBody r.e.desc) 32 32) } : Core).settle }.finish
  else
    let a := addEvent r.s c i (r.field 63 32)
    let r' := { r with s := a.1 }
    (if a.2 then r'.fault 0x305 0 else r').finish

/-- A slot command names a configured queue and a slot that exists (R128). -/
def slotThere (s : State) (q i : Nat) : Bool := match s.stage.queue q with
  | none => false
  | some k => decide (i < k.slots)

/-- WAIT_SLOT (R121, R128, R164, R423). -/
def attemptWaitSlot (r : Run) : Run :=
  let q := r.field 1 0
  let i := r.field 15 8
  let mb := fb (cmdBody r.e.desc) 32 32
  let x := r.s.stage.slot q i
  if !slotThere r.s q i then r.failWith 0x306 0
  else if q < 2 then
    if x.state != 2 then r.block .program
    else if x.mb != mb then r.failWith 0x306 0
    else if x.pendingDigest then r.block .digest
    else (r.flag x.flags).finish
  else if x.state = 0 then
    { r with s := { r.s with stage := r.s.stage.modSlot q i fun x => { x with state := 3, mb := mb, counter := 0 } } }.finish
  else r.block .program

/-- An isolated replay is in progress: it sends nothing (R427). -/
def State.isolated (s : State) : Bool := match s.ovt.replay with | none => false | some p => p.isolate

/-- RELEASE_SLOT (R123, R128, R427). -/
def attemptReleaseSlot (r : Run) : Run :=
  let q := r.field 1 0
  let i := r.field 15 8
  let mb := fb (cmdBody r.e.desc) 32 32
  let x := r.s.stage.slot q i
  if !slotThere r.s q i || x.mb != mb || x.state != (if q < 2 then 2 else 5) then r.failWith 0x306 0
  else if q < 2 then
    let s : State := { r.s with stage := r.s.stage.modSlot q i fun x => { x.empty with gen := x.gen + 1 } }
    { r with s := if s.isolated then s else s.sendCredit q i (x.gen + 1) }.finish
  else { r with s := { r.s with stage := r.s.stage.modSlot q i Slot.empty } }.finish

/-- NOP (R738). -/
def execNop (core : CoreId) (queue : QueueId) (s : State) : Res := startCmd [0x00] core.val queue.val s anyTime attemptNop

/-- WAIT (R111). -/
def execWait (core : CoreId) (queue : QueueId) (s : State) : Res := startCmd [0x01] core.val queue.val s anyTime attemptWait

/-- SIGNAL (R96). -/
def execSignal (core : CoreId) (queue : QueueId) (s : State) : Res := startCmd [0x02] core.val queue.val s anyTime attemptSignal

/-- WAIT_SLOT (R121). -/
def execWaitSlot (core : CoreId) (queue : QueueId) (s : State) : Res := startCmd [0x03] core.val queue.val s anyTime attemptWaitSlot

/-- RELEASE_SLOT (R123). -/
def execReleaseSlot (core : CoreId) (queue : QueueId) (s : State) : Res := startCmd [0x04] core.val queue.val s anyTime attemptReleaseSlot

end Sys2Proof.Machine
end

