-- ==== Sys2Proof/Machine/Dma.lean ====
section
/-! DEFINITION. The DMA engine: COPY, REMOTE_WRITE, REMOTE_READ and TAG, with full/empty tags, circular regions, and the frames of remote operations (R40, R266 to R278, R285 to R288, R472 to R477, R495). -/

namespace Sys2Proof.Machine

/-- Circular region `i` of the core, empty where it is not configured. -/
def Run.circ (r : Run) (i : Nat) : Circ :=
  (tget none r.k.cfg.circ i).getD { queue := 0, pair := 0, start := 0, size := 1, entry := 1, head := 0, tail := 0, resHead := 0, resTail := 0 }

/-- The logical ranges of `n` bytes of a ring from offset `o`, which wrap at its end. -/
def wrapSpans (g : Circ) (o n : Nat) : List (Nat × Nat) :=
  let first := min n (g.size - o)
  [(g.start + o, first), (g.start, n - first)]

/-- The logical ranges of `n` bytes of a ring from byte count `b`; byte counts wrap at 2^32 (R285). -/
def ringSpans (g : Circ) (b : BitVec 32) (n : Nat) : List (Nat × Nat) :=
  let k := min n (2 ^ 32 - b.toNat)
  (wrapSpans g (b.toNat % g.size) k ++ wrapSpans g 0 (n - k)).filter fun p => p.2 != 0

/-- The logical ranges of a ring side from place `pos` of the transfer. -/
def Run.ringPart (r : Run) (i pos n : Nat) : List (Nat × Nat) := ringSpans (r.circ i) (r.e.ringAt.getD 0 + BitVec.ofNat 32 pos) n

/-- `n` bytes from place `pos` of a side of the transfer. -/
def Run.readSide (r : Run) (side : Side) (pos n : Nat) : List Bt × Run :=
  match side with
  | .local a => r.localRead a (a + pos) n
  | .ring i =>
    (r.ringPart i pos n).foldl (fun acc p =>
      let d := acc.2.localRead (r.circ i).start p.1 p.2
      (acc.1 ++ d.1, d.2)) ([], r)
  | .dev a => r.memRead (a + pos) n
  | _ => ([], r)

/-- Bytes written at place `pos` of a side of the transfer; the flag says that all of them were. -/
def Run.writeSide (r : Run) (side : Side) (pos : Nat) (bs : List Bt) : Run × Bool :=
  match side with
  | .local a => r.localPut a (a + pos) bs
  | .ring i =>
    let w := (r.ringPart i pos bs.length).foldl (fun acc p =>
      let d := acc.1.1.localPut (r.circ i).start p.1 (acc.2.take p.2)
      ((d.1, acc.1.2 && d.2), acc.2.drop p.2)) ((r, true), bs)
    w.1
  | .dev a => r.memPut (a + pos) bs
  | _ => (r, true)

/-- Bytes with bad parity are copied as read (R303); poison of HBM words travels (R318). -/
def travel (side : Side) (bs : List Bt) : List Bt :=
  match side with
  | .dev a => (match placeOf a with | .hbm _ => bs | _ => bs.map fun b => { b with mark := false })
  | _ => bs.map fun b => { b with mark := false }

/-- The physical ranges, each with its core, of `n` bytes from place `pos` of a side whose tags an access may touch: the issuing core's scratchpad, or another core's (R273). -/
def Run.phys (r : Run) (side : Side) (write : Bool) (pos n : Nat) : List (Nat × Nat × Nat) :=
  let own (base : Nat) (p : Nat × Nat) : Nat × Nat × Nat :=
    let x := xlatPart r.k.cfg r.queue base p.1 p.2 write
    (r.core, x.2, x.1)
  let all := match side with
    | .local a => [own a (a + pos, n)]
    | .ring i => (r.ringPart i pos n).map (own (r.circ i).start)
    | .dev a => (match placeOf (a + pos) with | .spad c p => [(c, p, n)] | _ => [])
    | _ => []
  all.filter fun x => x.2.2 != 0

/-- The tag slots, each with its core, that some places of a side touch (R271). -/
def Run.slotsOf (r : Run) (side : Side) (write : Bool) (pos n : Nat) : List (Nat × Nat) :=
  ((r.phys side write pos n).flatMap fun x => (tagSlots x.2.1 x.2.2).map fun i => (x.1, i)).eraseDups

/-- An access that reaches a slot at a local address blocks on its tag, or fails in a dead segment; a condition that the command has met stays met (R264, R271, R272, R276, R278, R300). None lets it go on. -/
def Run.tagGate (r : Run) (slot addr : Nat) (full : Bool) : Option Run :=
  if r.k.segDead (2048 * slot) then some (r.failWith 0x302 addr)
  else if r.e.granted.contains (slot, full) || r.k.full slot == full then none
  else some (r.block (.tagSlot slot full addr))

/-- The first local address in a slot that some places of a side touch (R264). -/
def Run.firstIn (r : Run) (side : Side) (write : Bool) (pos n slot : Nat) : Nat :=
  (((r.phys side write pos n).find? fun x => (tagSlots x.2.1 x.2.2).contains slot).map fun x => max x.2.1 (2048 * slot)).getD (2048 * slot)

/-- The slots that places of a side enter: those touched that no place before lies in. -/
def Run.entered (r : Run) (side : Side) (write : Bool) (pos n : Nat) : List (Nat × Nat) :=
  let before := r.slotsOf side write 0 pos
  (r.slotsOf side write pos n).filter fun x => !before.contains x

/-- What SRC_TAG and DST_TAG of a DMA ask for (R271): the source's accesses await FULL, and consume it; the destination's await EMPTY, and publish FULL. -/
structure TagPlan where
  src : Bool
  consume : Bool
  guarded : Bool
  publish : Bool
  deriving DecidableEq, Repr

/-- The tag plan of a DMA descriptor. -/
def Run.tagPlan (r : Run) : TagPlan :=
  let st := r.field 17 16
  let dt := r.field 15 14
  { src := st != 0, consume := st == 2, guarded := dt == 1 || dt == 3, publish := dt == 2 || dt == 3 }

/-- How many places from `pos` a side goes on in one tag slot and one range; `n` where no tag lies there. -/
def Run.slotLeft (r : Run) (side : Side) (write : Bool) (pos n : Nat) : Nat :=
  match r.phys side write pos n with
  | [] => n
  | x :: _ => min x.2.2 (2048 - x.2.1 % 2048)

/-- The slots that the places before `stop` leave for good: the last one's, where no later place of the transfer's `n` lies in it (R271). -/
def Run.left (r : Run) (side : Side) (write : Bool) (stop n : Nat) : List (Nat × Nat) :=
  (r.slotsOf side write (stop - 1) 1).filter fun x => !(r.slotsOf side write stop (n - stop)).contains x

/-- Slots of one or another core are set FULL, where their segments are on, or EMPTY (R271, R300). -/
def Run.setSlots (r : Run) (xs : List (Nat × Nat)) (v : Bool) : Run :=
  xs.foldl (fun r x => { r with s := r.s.modCore x.1 fun k => if v && k.segDead (2048 * x.2) then k else k.setTags [x.2] v }) r

/-- The tag effects once the accesses up to place `stop` have been performed in their slots (R271). -/
def Run.tagEffects (r : Run) (sd : Side × Side) (t : TagPlan) (stop n : Nat) : Run :=
  let r := if t.consume then r.setSlots (r.left sd.1 false stop n) false else r
  if t.publish then r.setSlots (r.left sd.2 true stop n) true else r

/-- The transfer has advanced to a place. -/
def Run.advance (r : Run) (pos : Nat) : Run := { r with e := { r.e with cursor := pos, granted := [], wait := .none } }

/-- Where a place of a side lies in its 128-byte line (R40, R256). -/
def Run.inLine (r : Run) (side : Side) (pos : Nat) : Nat :=
  match side with
  | .local a => (a + pos) % 128
  | .ring _ => ((r.e.ringAt.getD 0).toNat + pos) % 128
  | .dev a => (a + pos) % 128
  | _ => 0

/-- The gates of a chunk at its place: the source's slot FULL, and then the destination's EMPTY (R271, R272); the run is blocked or failed where one does not let it go on. -/
def Run.gates (r : Run) (sd : Side × Side) (t : TagPlan) (pos k : Nat) : Run × Bool :=
  let gate (acc : Run × Bool) (slot addr : Nat) (full : Bool) : Run × Bool :=
    if !acc.2 then acc
    else match acc.1.tagGate slot addr full with
      | some x => (x, false)
      | none => ({ acc.1 with e := { acc.1.e with granted := acc.1.e.granted ++ [(slot, full)] } }, true)
  let a := if t.src then (r.entered sd.1 false pos k).foldl (fun acc x => gate acc x.2 (r.firstIn sd.1 false pos k x.2) true) (r, true) else (r, true)
  if t.guarded then (r.entered sd.2 true pos k).foldl (fun acc x => gate acc x.2 (r.firstIn sd.2 true pos k x.2) false) a else a

/-- Bytes read up to place `stop` go to the destination with those kept before them, as far as whole lines of it are there; the rest is kept, so that no line stands half written (R40). The flag says that all that was written could be. -/
def Run.putLines (r : Run) (side : Side) (stop n : Nat) (bs : List Bt) : Run × Bool :=
  let all := bufBytes r.e.buf ++ bs
  let rest := if n ≤ stop then 0 else min all.length (r.inLine side stop)
  let w := r.writeSide side (stop - all.length) (all.take (all.length - rest))
  ({ w.1 with e := { w.1.e with buf := if rest = 0 then [] else [bufPart (stop - rest) (all.drop (all.length - rest))] } }, w.2)

/-- A side that only the fabric reaches. -/
def Side.far : Side → Bool
  | .dev _ => true
  | _ => false

/-- The payload of a chunk, as it reaches the other side: through the fabric, where one side lies outside the core (R303, R318, R629). -/
def Run.carry (r : Run) (sd : Side × Side) (keep : Bool) (bs : List Bt) : List Bt × Run :=
  let bs := if keep then bs else travel sd.1 bs
  if keep || sd.1.far || sd.2.far then r.fabric bs else (bs, r)

/-- One chunk of a transfer: its tags are awaited, its bytes are read and, where the destination lies in the device, written; else they are kept. The run is done or blocked where the transfer stops: an access that is not performed ends it, with no tag effect (R281, R300). -/
def Run.chunk (r : Run) (sd : Side × Side) (keep : Bool) (t : TagPlan) (n : Nat) : Run :=
  let pos := r.e.cursor
  let k := min (n - pos) (min (if t.src then r.slotLeft sd.1 false pos (n - pos) else n) (if t.guarded || t.publish then r.slotLeft sd.2 true pos (n - pos) else n))
  let g := r.gates sd t pos k
  if !g.2 then g.1
  else
    let d := g.1.readSide sd.1 pos k
    let c := d.2.carry sd keep (d.1.takeWhile fun b => b.got)
    let bs := c.1
    let short := decide (bs.length < k)
    if keep then
      let x : Run := { c.2 with e := { c.2.e with buf := c.2.e.buf ++ [bufPart pos bs] } }
      if short then x.finish else (x.tagEffects sd t (pos + k) n).advance (pos + k)
    else
      let w := c.2.putLines sd.2 (pos + bs.length) (if short then pos + bs.length else n) bs
      if short || !w.2 then w.1.finish else (w.1.tagEffects sd t (pos + k) n).advance (pos + k)

/-- Chunks until the transfer ends, blocks or stops. `fuel` bounds them. -/
def Run.chunks (sd : Side × Side) (keep : Bool) (t : TagPlan) (n : Nat) : Nat → Run → Run
  | 0, r => r
  | fuel + 1, r =>
    if n ≤ r.e.cursor then r
    else
      let r' := r.chunk sd keep t n
      if r'.e.done || r'.e.wait != .none then r' else Run.chunks sd keep t n fuel r'

/-- A started command's ring offers too little for its reservation: free space for a push, bytes for a pop, or an earlier command of the queue waits on the same side (R287). -/
def ringShort (k : Core) (q : Nat) (e : Started) : Bool :=
  match circOf e.desc with
  | none => false
  | some i =>
    match tget none k.cfg.circ i with
    | none => false
    | some g =>
      let n := dmaLen e.desc
      let earlier := (k.queue q).started.any fun x => decide (x.id < e.id) && !x.done && circOf x.desc == some i && pushes x.desc == pushes e.desc && x.ringAt.isNone
      earlier || (if pushes e.desc then decide (g.size < (g.resTail - g.head).toNat + n) else decide ((g.tail - g.resHead).toNat < n))

/-- The ring of a push or pop stands as admission requires it: it exists, it is the queue's, and LENGTH suits it (R103, R286). -/
def Run.ringStands (r : Run) (i n : Nat) : Bool :=
  match tget none r.k.cfg.circ i with
  | none => false
  | some g => g.queue == r.queue && n % g.entry == 0 && decide (n ≤ g.size)

/-- A ring side reserves its bytes, or the command waits while the ring offers too few (R287, R288); none where there is nothing to reserve. A ring that no longer suits the command ends it with BOUND_FAULT (R103; log entry 111). -/
def Run.reserve (r : Run) (n : Nat) : Option Run :=
  match circOf r.e.desc with
  | none => none
  | some i =>
    if r.e.ringAt.isSome then none
    else if !r.ringStands i n then some (r.openFault 0x300).finish
    else if ringShort r.k r.queue r.e then some (r.block (.circular i))
    else
      let g := r.circ i
      let push := pushes r.e.desc
      let b := if push then g.resTail else g.resHead
      let g' := if push then { g with resTail := g.resTail + BitVec.ofNat 32 n } else { g with resHead := g.resHead + BitVec.ofNat 32 n }
      some { r with
        s := r.s.modCfg r.core fun k => { k with circ := tset none k.circ i (some g') }
        e := { r.e with ringAt := some b, wait := .none } }

/-- HBM ranges that a side reads or writes from a place on, for the coherence tracker. -/
def sideRange (side : Side) (pos n : Nat) : List (Nat × Nat) := match side with
  | .dev a => [(a + pos, n - pos)]
  | _ => []

/-- The endpoint of a board address of another slot (R495). -/
def boardEndpoint (s : State) (slot : Nat) : Option Nat :=
  (s.fabric.endpoints.find? fun e => match e.2 with
    | none => false
    | some x => !x.roce && !x.self && x.coord == packCoord (fb s.fabric.coord 32 16) (fb s.fabric.coord 16 16) (BitVec.ofNat 16 slot)).map fun e => e.1

/-- What an operation's endpoint answers: the command ends, the operation waits, or it goes by a path under a profile (R468, R490, R494, R506, R578). -/
inductive Gate where
  | fail (status : Nat)
  | wait
  | go (via : Via) (profile : Nat)

/-- The gate of an endpoint. -/
def gateOf (s : State) (ep : Option Nat) (want : Nat) : Gate :=
  match ep.bind s.endpoint with
  | none => .fail 0x504
  | some e =>
    if e.self then .fail 0x504
    else match e.quarantine with
      | some st => .fail st.toNat
      | none =>
        if e.roce && (match s.conn e.conn.toNat with | none => false | some k => k.error) then .fail 0x500
        else match s.path e want, e.profile with
        | some v, some p => .go v p.toNat
        | _, _ => .wait

/-- Where a remote side lies: its endpoint, a frame with its CORE and WINDOW, and its first offset. A board address has no field of its own in the header: QUEUE 3, which no slot frame carries, marks one, CORE is its core, 31 for an address in no scratchpad, and OFFSET its local address (R296, R312; log entry 34). -/
def Run.target (r : Run) (side : Side) : Option Nat × Frame × Nat :=
  match side with
  | .board slot a =>
    let f : Frame × Nat := match placeOf a with
      | .spad c x => ({ Frame.zero with queue := 3, core := BitVec.ofNat 5 c }, x)
      | _ => ({ Frame.zero with queue := 3, core := 31 }, 0)
    (boardEndpoint r.s slot, f)
  | .win off => (some (r.field 55 44), { Frame.zero with core := BitVec.ofNat 5 (r.field 43 39), window := BitVec.ofNat 6 (r.field 38 33) }, off)
  | _ => (none, Frame.zero, 0)

/-- An offset in the header's 32 bits. One beyond them goes out as the highest, which no window reaches, so that the receiver refuses it (R297; log entry 34). -/
def offsetField (off : Nat) : BitVec 32 := BitVec.ofNat 32 (min off 0xFFFFFFFF)

/-- WINDOW_FAULT's detail at the sender. -/
def windowDetail (reason window : Nat) : Nat := reason % 8 * 256 + window % 64

/-- The frames of a write: cut at the path's largest payload and never across a 4,096-byte boundary, each poisoned where a byte of it is (R472, R748). -/
def writeFrames (ty : Nat) (f : Frame) (off most : Nat) (bs : List Bt) : List (Nat × Frame) :=
  let ps := pieces most (bs.length / most + 2) off bs
  ps.zipIdx.map fun p =>
    (ty, { f with offset := offsetField p.1.1, last := p.2 + 1 == ps.length, poison := anyMark p.1.2, lenM1 := BitVec.ofNat 12 (p.1.2.length - 1), payload := vals p.1.2 })

/-- A write operation leaves on a path under one network tag (R112, R113, R472). -/
def sendWrite (s : State) (owner : OpOwner) (kind : OpKind) (tag : Nat) (via : Via) (ep : Nat) (ty : Nat) (f : Frame) (off : Nat) (bs : List Bt) : State :=
  let f := { f with tag := BitVec.ofNat 16 tag, tagGen := s.tagGen tag, srcEp := BitVec.ofNat 12 s.selfEp, dstEp := BitVec.ofNat 12 ep }
  let fs := writeFrames ty f off (s.maxPayload via) bs
  let s := s.addOp { tag := tag, gen := s.tagGen tag, via := via, endpoint := BitVec.ofNat 12 ep, owner := owner, kind := kind, frames := fs.length, acked := 0, sent := 0, bytes := bs.length }
  s.sendFrames via fs

/-- The operations of the running command. -/
def Run.ops (r : Run) : List NetOp := r.s.opsOf r.core r.queue r.e.id

/-- The kept bytes of a transfer leave as one write operation, once an endpoint and a network tag are there; the place `n + 1` says that they have left. -/
def Run.sendKept (r : Run) (side : Side) (n want : Nat) (publish : Bool) : Run :=
  let t := r.target side
  match gateOf r.s t.1 want with
  | .fail st => r.failWith st 0
  | .wait => r.block (.endpoint (t.1.getD 0))
  | .go via _ =>
    match r.s.freeTag r.core with
    | none => r.block .net
    | some tag =>
      let s := sendWrite r.s (.cmd r.core r.queue r.e.id) .write tag via (t.1.getD 0) 2 { t.2.1 with publish := publish } t.2.2 (bufBytes r.e.buf)
      { r with s := s, e := { r.e with cursor := n + 1, buf := [] } }.block .net

/-- A transfer into another chip: its source is read, and then its frames are sent and acknowledged (R472, R475). -/
def Run.toRemote (r : Run) (sd : Side × Side) (n want : Nat) : Run :=
  if r.e.cursor = n + 1 then (if r.ops.isEmpty then r.finish else r.block .net)
  else
    match gateOf r.s (r.target sd.2).1 want with
    | .fail st => r.failWith st 0
    | _ =>
      let t := { r.tagPlan with guarded := false, publish := false }
      let r := if sd.1 matches .board _ _ then r else Run.chunks sd true t n (n / 2048 + 8) r
      if r.e.done || r.e.cursor < n then r else r.sendKept sd.2 n want (r.field 15 14 == 2)

/-- One READ leaves under a network tag, for `k` bytes at an offset of its target that fill the transfer from `pos`; while no tag is free, the command waits (R112, R113, R476). -/
def Run.sendRead (r : Run) (tg : Option Nat × Frame × Nat) (via : Via) (off pos k : Nat) (last : Bool) : Run :=
  match r.s.freeTag r.core with
  | none => r.block .net
  | some tag =>
    let ep := BitVec.ofNat 12 (tg.1.getD 0)
    let f : Frame := { tg.2.1 with offset := offsetField off, last := last, lenM1 := BitVec.ofNat 12 (k - 1), tag := BitVec.ofNat 16 tag, tagGen := r.s.tagGen tag, srcEp := BitVec.ofNat 12 r.s.selfEp, dstEp := ep }
    let s := r.s.addOp { tag := tag, gen := r.s.tagGen tag, via := via, endpoint := ep, owner := .cmd r.core r.queue r.e.id, kind := .read pos k, frames := 1, acked := 0, sent := 0, bytes := k }
    { r with s := s.sendFrame via 3 f, e := { r.e with path := some via } }.advance (pos + k)

/-- The gate of a READ: all READs of one command take the path of its first (R472). -/
def Run.readGate (r : Run) (ep : Option Nat) (want : Nat) : Gate :=
  match gateOf r.s ep want, r.e.path with
  | .fail st, _ => .fail st
  | _, some v => .go v 0
  | g, none => g

/-- One READ of a remote read, or the reason why it cannot leave yet (R113, R476). A tag slot is awaited only once no network tag is held (R593). -/
def Run.issueRead (r : Run) (sd : Side × Side) (t : TagPlan) (n want : Nat) : Run :=
  let pos := r.e.cursor
  let tg := r.target sd.1
  match r.readGate tg.1 want with
  | .fail st => r.failWith st 0
  | .wait => r.block (.endpoint (tg.1.getD 0))
  | .go via _ =>
    let l := r.s.maxPayload via
    let k := min (n - pos) (l - (tg.2.2 + pos) % l)
    let g := r.gates sd { t with src := false } pos k
    if g.2 then g.1.sendRead tg via (tg.2.2 + pos) pos k (pos + k == n) else if r.ops.isEmpty || g.1.e.done then g.1 else g.1.block .net

/-- READs until all have left, or one must wait. A command that has failed asks for nothing more. `fuel` bounds them. -/
def Run.issueReads (sd : Side × Side) (t : TagPlan) (n want : Nat) : Nat → Run → Run
  | 0, r => r
  | fuel + 1, r =>
    if n ≤ r.e.cursor || r.e.opLost then r
    else
      let r' := r.issueRead sd t n want
      if r'.e.done || r'.e.wait != .none then r' else Run.issueReads sd t n want fuel r'

/-- The transfer's bytes are all there: poison and parity do not keep them from being written (R303, R318). -/
def Started.delivered (e : Started) (n : Nat) : Bool := decide (e.cursor ≤ n + 1) && !e.opLost

/-- Places from `p` to `stop` are covered by some ranges. `fuel` bounds the ranges that cover them. -/
def covered (ls : List (Nat × Nat)) : Nat → Nat → Nat → Bool
  | 0, p, stop => decide (stop ≤ p)
  | fuel + 1, p, stop =>
    if stop ≤ p then true
    else match ls.find? fun x => decide (x.1 ≤ p) && decide (p < x.1 + x.2) with
      | none => false
      | some x => covered ls fuel (x.1 + x.2) stop

/-- A destination's places from `pos` on, cut where its tag slots end: place, length and slots. `fuel` bounds the cuts. -/
def Run.slotRuns (r : Run) (side : Side) (n : Nat) : Nat → Nat → List (Nat × Nat × List (Nat × Nat))
  | 0, _ => []
  | fuel + 1, pos =>
    if n ≤ pos then []
    else
      let k := min (n - pos) (r.slotLeft side true pos (n - pos))
      (pos, k, r.slotsOf side true pos 1) :: Run.slotRuns r side n fuel (pos + k)

/-- The slots of a destination of which every place of the transfer has been written. -/
def Run.wholeSlots (r : Run) (side : Side) (n : Nat) (landed : List (Nat × Nat)) : List (Nat × Nat) :=
  let runs := r.slotRuns side n (n / 2048 + 8) 0
  (runs.flatMap fun x => x.2.2).eraseDups.filter fun y => runs.all fun x => !x.2.2.contains y || covered landed (landed.length + 1) x.1 (x.1 + x.2.1)

/-- Places of a transfer have been written: the slots that they complete become FULL, where the command publishes (R271). -/
def Run.noteLanded (r : Run) (side : Side) (n off len : Nat) : Run :=
  let now := r.e.landed ++ [(off, len)]
  let r' := if r.tagPlan.publish then r.setSlots ((r.wholeSlots side n now).filter fun x => !(r.wholeSlots side n r.e.landed).contains x) true else r
  { r' with e := { r'.e with landed := now } }

/-- CTR_EN adds a COPY's arrival to its counter once its last byte is visible (R268, R290). -/
def Run.countCopy (r : Run) (side : Side) (n : Nat) : Run :=
  if r.field 32 32 = 1 then (match side with
    | .dev a => (match placeOf a with | .spad c _ => { r with s := r.s.arrive c (r.field 31 24) n true } | _ => r)
    | _ => r) else r

/-- Runs of received bytes, joined where one follows another. -/
def joinParts (ps : List (Nat × List Bt)) : List (Nat × List Bt) :=
  ps.foldr (fun x acc => match acc with
    | y :: rest => if y.1 = x.1 + x.2.length then (x.1, x.2 ++ y.2) :: rest else x :: acc
    | [] => [x]) []

/-- A received run of bytes: the part that fills whole lines of the destination, and what must wait for its line, before and after it (R40). -/
def Run.lineCut (r : Run) (side : Side) (n : Nat) (x : Nat × List Bt) : (Nat × List Bt) × List BufPart :=
  let stop := x.1 + x.2.length
  let lo := if x.1 = 0 then 0 else min stop (x.1 + (128 - r.inLine side x.1) % 128)
  let hi := if n ≤ stop then stop else max lo (stop - r.inLine side stop)
  ((lo, (x.2.drop (lo - x.1)).take (hi - lo)), [bufPart x.1 (x.2.take (lo - x.1)), bufPart hi (x.2.drop (hi - x.1))].filter fun p => !p.bytes.isEmpty)

/-- Bytes received at a place of the destination join those that wait, and every line that is now whole is written (R40). A write that is not performed leaves the place beyond the transfer's end. -/
def Run.land (r : Run) (side : Side) (n off : Nat) (bs : List Bt) : Run :=
  let parts := sortBy (fun (a b : BufPart) => decide (a.off < b.off)) (r.e.buf ++ [bufPart off bs])
  let cuts := (joinParts (parts.map fun p => (p.off, bufBytes [p]))).map (r.lineCut side n)
  let w := cuts.foldl (fun acc c =>
    let d := acc.1.writeSide side c.1.1 c.1.2
    (d.1, acc.2 && d.2)) (r, true)
  let x : Run := { w.1 with e := { w.1.e with buf := cuts.flatMap fun c => c.2, cursor := if w.2 then w.1.e.cursor else n + 2 } }
  if w.2 then x.noteLanded side n off bs.length else x

/-- The received bytes that still wait for their lines are written: nothing more comes. -/
def Run.landRest (r : Run) (side : Side) : Run :=
  let w := r.e.buf.foldl (fun acc p =>
    let d := acc.writeSide side p.off (bufBytes [p])
    d.1) r
  { w with e := { w.e with buf := [] } }

/-- A transfer out of another chip. Data lands as READ_DATA arrives (R476); for a destination in a third chip it is kept and then sent. -/
def Run.fromRemote (r : Run) (sd : Side × Side) (n want : Nat) : Run :=
  if r.e.cursor = n + 1 then r.toRemote sd n want
  else
    let r := Run.issueReads sd r.tagPlan n want (n + 1) r
    if r.e.done then r
    else if !r.ops.isEmpty then (if r.e.wait = .none then r.block .net else r)
    else if r.e.wait != .none then r
    else
      let r : Run := { r with e := { r.e with path := none } }
      if sd.2 matches .board _ _ then (if r.e.delivered n then r.toRemote sd n want else r.finish)
      else
        match r.coherent [] (r.e.buf.flatMap fun p => sideRange sd.2 p.off (p.off + p.bytes.length)) with
        | .stop x => x
        | .go r =>
          let r := r.landRest sd.2
          (if r.e.delivered n then r.countCopy sd.2 n else r).finish

/-- A side lies in another chip. -/
def Side.remote : Side → Bool
  | .board _ _ => true
  | .win _ => true
  | _ => false

/-- A transfer inside the device (R269). -/
def Run.inside (r : Run) (sd : Side × Side) (n : Nat) : Run :=
  match r.coherent (sideRange sd.1 r.e.cursor n) (sideRange sd.2 r.e.cursor n) with
  | .stop x => x
  | .go r =>
    let r := Run.chunks sd false r.tagPlan n (2 * (n / 2048 + 8)) r
    if r.e.done || r.e.cursor < n then r else (r.countCopy sd.2 n).finish

/-- COPY, REMOTE_WRITE and REMOTE_READ at work; `want` is the port chosen (R472). -/
def attemptDma (want : Nat) (r : Run) : Run :=
  let n := dmaLen r.e.desc
  let sd := dmaSides r.s r.core r.e.desc
  let r := { r with e := { r.e with wait := .none } }
  let go (r : Run) : Run :=
    if sd.1.remote then
      (match r.coherent [] (sideRange sd.2 (min r.e.cursor n) n) with
       | .stop x => x
       | .go r => r.fromRemote sd n want)
    else if sd.2.remote then
      (match r.coherent (sideRange sd.1 (min r.e.cursor n) n) [] with
       | .stop x => x
       | .go r => r.toRemote sd n want)
    else r.inside sd n
  match r.reserve n with
  | some r' => if r'.e.wait = .none then go r' else r'
  | none => go r

/-- The slots of a TAG command (R274). -/
def Run.tagRange (r : Run) : List Nat := (List.range (r.field 28 16 + 1)).map fun j => r.field 12 0 + j

/-- TAG at work (R274): it sets the slots up to the first in a dead segment, or awaits its condition on every slot, which each may meet at its own time. -/
def attemptTag (r : Run) : Run :=
  let op := r.field 33 32
  let dead := r.tagRange.find? fun i => r.k.segDead (2048 * i)
  if op < 2 then
    let ready := r.tagRange.takeWhile fun i => !r.k.segDead (2048 * i)
    let r := r.setSlots (ready.map fun i => (r.core, i)) (op == 1)
    match dead with
    | some i => r.failWith 0x302 (2048 * i)
    | none => r.finish
  else
    let full := op == 2
    match r.tagRange.find? fun i => r.k.segDead (2048 * i) && !r.e.granted.contains (i, full) with
    | some i => r.failWith 0x302 (2048 * i)
    | none =>
      let met := r.tagRange.filter fun i => r.k.full i == full && !r.e.granted.contains (i, full)
      let e : Started := { r.e with granted := r.e.granted ++ met.map fun i => (i, full), wait := .none }
      match e.firstUnmet full with
      | none => { r with e := e }.finish
      | some i => { r with e := e }.block (.tagSlot i full (2048 * i))

/-- COPY (R266, R269). -/
def execCopy (core : CoreId) (queue : QueueId) (port : PortId) (s : State) : Res := startCmd [0x30] core.val queue.val s anyTime (attemptDma port.val)

/-- REMOTE_WRITE (R472). -/
def execRemoteWrite (core : CoreId) (queue : QueueId) (port : PortId) (s : State) : Res := startCmd [0x31] core.val queue.val s anyTime (attemptDma port.val)

/-- REMOTE_READ (R476). -/
def execRemoteRead (core : CoreId) (queue : QueueId) (port : PortId) (s : State) : Res := startCmd [0x32] core.val queue.val s anyTime (attemptDma port.val)

/-- TAG (R274). -/
def execTag (core : CoreId) (queue : QueueId) (s : State) : Res := startCmd [0x33] core.val queue.val s anyTime attemptTag

end Sys2Proof.Machine
end

