-- ==== Sys2Proof/Machine/Funcs.lean ====
section
/-! DEFINITION. The built-in functions, codes 0 to 11 (R238 to R240). A transcendental value is computed in fixed point with 512 fraction bits, far below the FP32 rounding, and marked inexact; exact cases are exact (log entry 22). -/

namespace Sys2Proof.Machine

/-- Fraction bits of the fixed-point evaluation. -/
def fxP : Nat := 512

/-- Σ of a series whose next term comes from the last by `step`, `n` terms. -/
def seriesSum (step : Nat → Nat → Nat) : Nat → Nat → Nat → Nat → Nat
  | 0, _, _, acc => acc
  | n + 1, k, t, acc => seriesSum step n (k + 1) (step k t) (acc + t)

/-- atanh(1/q) scaled by 2^512. -/
def atanhInv (q : Nat) : Nat :=
  (List.range 180).foldl (fun acc k => acc + 2 ^ fxP / ((2 * k + 1) * q ^ (2 * k + 1))) 0

/-- ln 2 scaled by 2^512. -/
def ln2Fx : Nat := 2 * atanhInv 3

/-- arctan(1/q) scaled by 2^512. -/
def atanInv (q : Nat) : Nat :=
  let s := (List.range 240).foldl (fun (acc : Int) k =>
    let t : Int := (2 ^ fxP / ((2 * k + 1) * q ^ (2 * k + 1)) : Nat)
    if k % 2 = 0 then acc + t else acc - t) 0
  s.toNat

/-- π scaled by 2^512 (Machin's formula). -/
def piFx : Nat := 16 * atanInv 5 - 4 * atanInv 239

/-- Product of two values scaled by 2^512. -/
def fxMul (a b : Nat) : Nat := a * b / 2 ^ fxP

/-- e^f scaled by 2^512, for f in 0 to 1 scaled likewise. -/
def expSmall (f : Nat) : Nat := seriesSum (fun k t => fxMul t f / (k + 1)) 130 0 (2 ^ fxP) 0

/-- e^(x ÷ 2^512) scaled by 2^512, for x not negative. -/
def expFx (x : Nat) : Nat :=
  let k := x / ln2Fx
  expSmall (x - k * ln2Fx) * 2 ^ k

/-- A finite magnitude scaled by 2^512. -/
def toFx (m : Nat) (e : Int) : Nat :=
  if 0 ≤ e + fxP then m * 2 ^ (e + fxP).toNat else m / 2 ^ (-(e + fxP)).toNat

/-- 1 ÷ (1 + e^-x) scaled by 2^512, for x given by sign and scaled magnitude. -/
def sigmoidFx (neg : Bool) (x : Nat) : Nat :=
  if neg then 2 ^ (2 * fxP) / (2 ^ fxP + expFx x)
  else 2 ^ (2 * fxP) / (2 ^ fxP + 2 ^ (2 * fxP) / expFx x)

/-- erf(z) scaled by 2^512, for z not negative, scaled likewise. -/
def erfFx (z : Nat) : Nat :=
  let z2 := fxMul z z
  let s := seriesSum (fun k t => 2 * fxMul t z2 / (2 * k + 3)) 700 0 z 0
  let rootPi := Nat.sqrt (piFx * 2 ^ fxP)
  2 * s * 2 ^ fxP / rootPi * 2 ^ fxP / expFx z2

/-- Φ(x) scaled by 2^512. -/
def normCdfFx (neg : Bool) (x : Nat) : Nat :=
  let z := x * 2 ^ fxP / Nat.sqrt (2 ^ (2 * fxP + 1))
  let e := erfFx z
  (if neg then 2 ^ fxP - e else 2 ^ fxP + e) / 2

/-- Twice the inner argument of GELU_TANH, √(2/π)(x + 0.044715x³), scaled by 2^512, for x not negative. -/
def geluArgFx (x : Nat) : Nat :=
  let x3 := fxMul (fxMul x x) x
  let c := Nat.sqrt (2 * 2 ^ (3 * fxP) / piFx)
  2 * fxMul c (x + 44715 * x3 / 1000000)

/-- x × (1 − a little): a value just below x in magnitude. -/
def justBelow (neg : Bool) (m : Nat) (e : Int) : FV := .fin neg (m * 2 ^ 256 - 1) (e - 256)

/-- A nonzero value far below every format's range. -/
def tinyV (neg : Bool) : FV := .fin neg 1 (-1000)

/-- x × s, with s scaled by 2^512. -/
def scaled (neg : Bool) (m : Nat) (e : Int) (s : Nat) : FV := .fin neg (m * s) (e - fxP)

/-- The exact value of a built-in function as a value just below or at it, whether it is inexact, and the NV or DZ flag it raises (R239, R240). -/
def fnExact (code : Nat) (x : FV) : FV × Bool × Flags :=
  match code, x with
  | 0, v => (v, false, 0)
  | _, .nan => (.nan, false, 0)
  | 1, v => (if isNegV v || isZeroV v then pZero else v, false, 0)
  | 2, .inf s => (if s then pZero else .inf false, false, 0)
  | 2, .fin s m e =>
    if m = 0 then (one, false, 0)
    else if 9 ≤ log2V x then (.fin false 1 (if s then -1000 else 1000), false, 0)
    else if 0 ≤ e ∨ m % 2 ^ (-e).toNat = 0 then
      let k : Int := if 0 ≤ e then m * 2 ^ e.toNat else (m / 2 ^ (-e).toNat : Nat)
      (.fin false 1 (if s then -k else k), false, 0)
    else
      let fx : Int := (if s then -1 else 1) * (toFx m e : Int)
      let k := fx / 2 ^ fxP
      let f := (fx - k * 2 ^ fxP).toNat
      (.fin false (expSmall (fxMul f ln2Fx)) (k - fxP), true, 0)
  | 3, .inf s => if s then (.nan, false, fNV) else (.inf false, false, 0)
  | 3, .fin s m e =>
    if m = 0 then (.inf true, false, fDZ)
    else if s then (.nan, false, fNV)
    else
      let l := Nat.log2 m
      let ex : Int := l + e
      if m = 2 ^ l then (.fin (decide (ex < 0)) ex.natAbs 0, false, 0)
      else
        let y := m * 2 ^ fxP / 2 ^ l
        let z := (y - 2 ^ fxP) * 2 ^ fxP / (y + 2 ^ fxP)
        let z2 := fxMul z z
        let at' := ((List.range 180).foldl (fun (p : Nat × Nat) k => (p.1 + p.2 / (2 * k + 1), fxMul p.2 z2)) (0, z)).1
        let v : Int := ex * 2 ^ fxP + (2 * at' * 2 ^ fxP / ln2Fx : Nat)
        (.fin (decide (v < 0)) v.natAbs (-fxP), true, 0)
  | 4, .inf s => (.fin s 0 0, false, 0)
  | 4, .fin s m e =>
    if m = 0 then (.inf s, false, fDZ)
    else
      let d := divX one (.fin s m e)
      (d.1, d.2.1, 0)
  | 5, v =>
    let d := sqrtX v
    (d.1, d.2.1, flagIf d.2.2 fNV)
  | 6, .inf s => if s then (.nan, false, fNV) else (pZero, false, 0)
  | 6, .fin s m e =>
    if m = 0 then (.inf s, false, fDZ)
    else if s then (.nan, false, fNV)
    else
      let e' := if e % 2 = 0 then e else e - 1
      let m' := if e % 2 = 0 then m else 2 * m
      let q := 2 ^ 1200 / m'
      let r := Nat.sqrt q
      (.fin false r (-(e' / 2) - 600), r * r * m' != 2 ^ 1200, 0)
  | 7, .inf s => (.fin s 1 0, false, 0)
  | 7, .fin s m e =>
    if m = 0 then (x, false, 0)
    else if 6 ≤ log2V x then (justBelow s 1 0, true, 0)
    else
      let t := expFx (2 * toFx m e)
      (.fin s ((t - 2 ^ fxP) * 2 ^ fxP / (t + 2 ^ fxP)) (-fxP), true, 0)
  | 8, .inf s => (if s then pZero else one, false, 0)
  | 8, .fin s m e =>
    if m = 0 then (.fin false 1 (-1), false, 0)
    else if 8 ≤ log2V x then (if s then tinyV false else justBelow false 1 0, true, 0)
    else (.fin false (sigmoidFx s (toFx m e)) (-fxP), true, 0)
  | 9, .inf s => (if s then .fin true 0 0 else .inf false, false, 0)
  | 9, .fin s m e =>
    if m = 0 then (x, false, 0)
    else if 5 ≤ log2V x then (if s then tinyV true else justBelow false m e, true, 0)
    else (scaled s m e (sigmoidFx s (geluArgFx (toFx m e))), true, 0)
  | 10, .inf s => (if s then .fin true 0 0 else .inf false, false, 0)
  | 10, .fin s m e =>
    if m = 0 then (x, false, 0)
    else if 4 ≤ log2V x then (if s then tinyV true else justBelow false m e, true, 0)
    else (scaled s m e (normCdfFx s (toFx m e)), true, 0)
  | 11, .inf s => (if s then .fin true 0 0 else .inf false, false, 0)
  | 11, .fin s m e =>
    if m = 0 then (x, false, 0)
    else if 8 ≤ log2V x then (if s then tinyV true else justBelow false m e, true, 0)
    else (scaled s m e (sigmoidFx s (toFx m e)), true, 0)
  | _, v => (v, false, 0)

/-- A built-in function rounded once to FP32 under RNE; `a` gives the SAT and FTZ bits that act there in VEC_FUNC (R239). Codes 0 and 1 are exact. -/
def builtin (code : Nat) (a : Actl) (x : FV) : FV × Flags :=
  let v := fnExact code x
  let r := roundTo fp32 a.rne v.1 v.2.1
  (r.val, r.flags ||| v.2.2)

end Sys2Proof.Machine
end

