-- ==== Sys2Proof/Machine/Wellhead.lean ====
section
/-! DEFINITION. Wellhead, the counter-based random source: Philox-4x32-10 (R415 to R419, R225). The round is the published one, which the spec names. -/

namespace Sys2Proof.Machine

/-- One round of Philox-4x32 under a key (R415). -/
def philoxRound (k0 k1 : Nat) (c : Nat × Nat × Nat × Nat) : Nat × Nat × Nat × Nat :=
  let p := 0xD2511F53 * c.1
  let q := 0xCD9E8D57 * c.2.2.1
  ((q >>> 32) ^^^ c.2.1 ^^^ k0, q % 2 ^ 32, (p >>> 32) ^^^ c.2.2.2 ^^^ k1, p % 2 ^ 32)

/-- Rounds with the key stepped between them (R415). -/
def philoxRounds : Nat → Nat → Nat → Nat × Nat × Nat × Nat → Nat × Nat × Nat × Nat
  | 0, _, _, c => c
  | n + 1, k0, k1, c => philoxRounds n ((k0 + 0x9E3779B9) % 2 ^ 32) ((k1 + 0xBB67AE85) % 2 ^ 32) (philoxRound k0 k1 c)

/-- The output of Philox-4x32-10 for a counter under SEED (R415). -/
def philox (seed : BitVec 64) (c : Nat × Nat × Nat × Nat) : Nat × Nat × Nat × Nat := philoxRounds 10 (fld seed 31 0) (fld seed 63 32) c

/-- The draw of dropout element `e` (R225, R416). -/
def drawWord (seed : BitVec 64) (step mb layer : BitVec 32) (e : Nat) : Nat :=
  let o := philox seed ((e / 4) % 2 ^ 32, layer.toNat, mb.toNat, step.toNat)
  match e % 4 with
  | 0 => o.1
  | 1 => o.2.1
  | 2 => o.2.2.1
  | _ => o.2.2.2

end Sys2Proof.Machine
end

