-- ==== Sys2Proof/Machine/Epilogue.lean ====
section
/-! DEFINITION. The function codes with their tables and micro-programs (R238 to R252), and the drain epilogue (R222 to R231). -/

namespace Sys2Proof.Machine

/-- The largest integer at or below a finite value. -/
def floorV : FV → Int
  | .fin s m e =>
    let i : Int := if 0 ≤ e then (m * 2 ^ e.toNat : Nat) else (m / 2 ^ (-e).toNat : Nat)
    let whole := decide (0 ≤ e) || decide (m % 2 ^ (-e).toNat = 0)
    if s then (if whole then -i else -i - 1) else i
  | _ => 0

/-- An integer as a value; the sign of zero is the given one. -/
def intV (s : Bool) (i : Int) : FV := if i = 0 then .fin s 0 0 else .fin (decide (i < 0)) i.natAbs 0

/-- FLOOR, exact (R250). -/
def floorX (v : FV) : FV :=
  match v with
  | .fin s _ _ => intV s (floorV v)
  | _ => v

/-- An FP32 word as an operand: its value, with DN for a subnormal. -/
def word32 (a : Actl) (x : F32) : FV × Flags := readFp fp32 a x.toNat

/-- A table's value at x (R248). Its words are operands: DAZ acts on a subnormal one, and it raises DN. Each rounding is under the control byte (R143, R145, R146, R152; log entry 57). A u that is NaN makes the interpolation NaN whatever entry is read. -/
def tableEval (a : Actl) (t : FnTable) (x : FV) : FV × Flags :=
  if isNan x then (.nan, 0)
  else
    let lo := word32 a t.xLo
    let inv := word32 a t.invH
    let d := roundVec a (addX a.rnd x (negX lo.1))
    let u := roundVec a (mulX d.1 inv.1)
    let low := ltX u.1 pZero
    let high := !isNan u.1 && !ltX u.1 (.fin false 1024 0)
    let j : Nat := if low then 0 else if high then 1023 else (floorV u.1).toNat
    let f : FV := if isNan u.1 then .nan else if low then pZero else if high then one else (addX .rne u.1 (intV true (-(j : Int)))).1
    let c := tget (0, 0, 0) t.entries j
    let c0 := word32 a c.1
    let c1 := word32 a c.2.1
    let c2 := word32 a c.2.2
    let inner : FV × Flags := if t.quad then (let q := roundVec a (fmaX a.rnd c2.1 f c1.1); (q.1, c2.2 ||| q.2)) else (c1.1, 0)
    let r := roundVec a (fmaX a.rnd inner.1 f c0.1)
    (r.1, lo.2 ||| inv.2 ||| d.2 ||| u.2 ||| c0.2 ||| c1.2 ||| inner.2 ||| r.2)

/-- The work registers of a micro-program (R250). -/
abbrev WRegs := List FV

/-- How many of a, b and c an operation of a micro-program takes (R250). -/
def stepArity (op : Nat) : Nat := if op = 4 ∨ op = 11 then 3 else if op ≤ 6 then 2 else 1

/-- One micro-program step's value on its operands (R250). Each rounding is RNE; SAT and FTZ of the control byte act at it, but not at a FUNC step's, where subnormals are honoured (R145, R146, R239). -/
def stepValue (k : Core) (ac : Actl) (op ks : Nat) (a b c : FV) : FV × Flags :=
  match op with
  | 1 => add32 ac a b
  | 2 => add32 ac a (negX b)
  | 3 => mul32 ac a b
  | 4 => fma32 ac a b c
  | 5 => (minV a b, 0)
  | 6 => (maxV a b, 0)
  | 7 => (absX a, 0)
  | 8 => (negX a, 0)
  | 9 => builtin ks .plain a
  | 10 => tableEval ac.rne (tget FnTable.init k.tables ks) a
  | 11 => (if ltX pZero a then b else c, 0)
  | _ => (floorX a, 0)

/-- One micro-program step (R250). Its registers and its constant are operands: DAZ acts on a subnormal one but in a FUNC step, and it raises DN (R145, R152, R239). -/
def microStep (k : Core) (ac : Actl) (consts : List F32) (w : WRegs) (st : BitVec 32) : FV × Flags :=
  let op := fld st 31 26
  let ks := fld st 13 10
  let oa : Actl := if op = 9 then .plain else ac
  let a := operand32 oa (w.getD (fld st 22 20) pZero)
  let b := operand32 oa (if bit st 9 then v32 (consts.getD ks 0) else w.getD (fld st 19 17) pZero)
  let c := operand32 oa (w.getD (fld st 16 14) pZero)
  let r := stepValue k ac op ks a.1 b.1 c.1
  (r.1, a.2 ||| (if 2 ≤ stepArity op then b.2 else 0) ||| (if stepArity op = 3 then c.2 else 0) ||| r.2)

/-- A micro-program run to its END (R250). -/
def microRun (k : Core) (ac : Actl) (consts : List F32) : List (BitVec 32) → WRegs → Flags → FV × Flags
  | [], w, fl => (w.getD 0 pZero, fl)
  | st :: rest, w, fl =>
    if fld st 31 26 = 0 then (w.getD 0 pZero, fl)
    else
      let r := microStep k ac consts w st
      microRun k ac consts rest (w.set (fld st 25 23) r.1) (fl ||| r.2)

/-- Function code `code` at x (R238), under the control byte of VEC_FUNC, or none of it in the epilogue (R223, R239). -/
def fnEval (k : Core) (code : Nat) (a : Actl) (x : FV) : FV × Flags :=
  if code ≤ 1 then builtin code .plain x
  else if code ≤ 11 then builtin code a x
  else if code < 64 then tableEval a (tget FnTable.init k.tables (code - 16)) x
  else
    let m := tget Micro.init k.micros (code - 64)
    microRun k a m.consts m.steps [x, pZero, pZero, pZero, pZero, pZero, pZero, pZero] 0

/-- The array or vector format of a code, FP32 where the code is not listed. -/
def fmtAt (code : Nat) : Fmt := (fmtOf code).getD fp32

/-- Flags without NX (R223). -/
def noNX (f : Flags) : Flags := f &&& ~~~fNX

/-- The steps that are enabled (R223). -/
structure EpiCfg where
  fmt : Nat
  bias : Bool
  scale : Nat
  drop : Bool
  tap : Bool
  act : Nat
  line : Nat
  deriving DecidableEq, Repr

/-- An EPILOGUE field's parts. -/
def epiCfg (e : BitVec 64) : EpiCfg :=
  { fmt := epiFmt e, bias := bit e 43, scale := fld e 42 41, drop := bit e 40, tap := bit e 39, act := fld e 38 32, line := 128 * fld e 63 47 }

/-- The record is read (R223). -/
def EpiCfg.needsRec (c : EpiCfg) : Bool := c.bias || c.scale != 0 || c.drop || c.tap

/-- The record's fixed checks (R229). -/
def recOk (x : BitVec 512) : Bool := zeros x [(511, 324), (63, 56), (31, 27)] && decide (fld x 26 24 ≤ 2) && fld x 255 224 != 0

/-- BIAS_FMT as an array format code. -/
def biasFmt (x : BitVec 512) : Nat := fld x 26 24

/-- The element index of R225. -/
def dropIndex (x : BitVec 512) (t n : Nat) : Nat := (fld x 287 256 + t) * fld x 255 224 + fld x 319 288 + n

/-- The Wellhead draw keeps an element (R225). -/
def dropKeeps (e : Started) (x : BitVec 512) (idx : Nat) : Bool :=
  decide (drawWord e.seed e.step (fb x 192 32) (fb x 160 32) idx < fld x 127 96)

/-- A run reads the epilogue record, where a step needs it; none when the record fails its checks, with the command failed (R224, R229). -/
def Run.readRec (r : Run) (c : EpiCfg) : Option (BitVec 512) × Run :=
  if !c.needsRec then (some 0, r)
  else
    let d := r.localRead c.line c.line 64
    let x := BitVec.ofNat 512 (leNat (vals d.1))
    if d.1.any fun b => !b.got then (none, d.2.finish)
    else if recOk x then (some x, d.2)
    else (none, d.2.failWith 0x201 0)

/-- Elements `lo` to `lo + n - 1` of a vector parameter, as patterns; none when an access is not performed, with the command failed (R229). -/
def Run.readWords (r : Run) (addr fmt lo n : Nat) : Option (List Nat) × Run :=
  let d := r.localRead addr (addr + lo * fmtBytes fmt) (n * fmtBytes fmt)
  if d.1.any fun b => !b.got then (none, d.2.finish) else (some (wordsOf (fmtBytes fmt) d.1), d.2)

/-- The bias and scale values of a panel, from vector `first` on (R224). -/
structure EpiVecs where
  first : Nat
  bias : List Nat
  scale : List Nat

/-- The bias and scale values of vectors `lo` to `lo + n - 1` are read; none when one is not readable (R224, R229). -/
def Run.readVecs (r : Run) (c : EpiCfg) (x : BitVec 512) (lo n : Nat) : Option EpiVecs × Run :=
  let b := if c.bias then r.readWords (fld x 23 0) (biasFmt x) lo n else (some [], r)
  match b.1 with
  | none => (none, b.2)
  | some bs =>
    let s := if c.scale = 2 then b.2.readWords (fld x 55 32) 0 lo n else (some [], b.2)
    (s.1.map fun ss => { first := lo, bias := bs, scale := ss }, s.2)

/-- What the epilogue makes of one output: its code, its tap code and its flags (R222, R223, R227). -/
structure EpiOut where
  code : Nat
  tap : Nat
  flags : Flags

/-- Step 2 (R222, R224). A subnormal operand of an enabled step raises DN, y included (R152, R223). -/
def epiBias (c : EpiCfg) (x : BitVec 512) (v : EpiVecs) (y : FV) (n : Nat) : FV × Flags :=
  if c.bias then
    let b := readFp (fmtAt (biasFmt x)) .plain (v.bias.getD (n - v.first) 0)
    let r := add32 .plain y b.1
    (r.1, dnV y ||| b.2 ||| r.2)
  else (y, 0)

/-- Step 3 (R222, R238). -/
def epiAct (k : Core) (c : EpiCfg) (y : FV) : FV × Flags :=
  let r := fnEval k c.act .plain y
  (r.1, (if c.act = 0 then 0 else dnV y) ||| r.2)

/-- Step 4 (R222). -/
def epiScale (c : EpiCfg) (x : BitVec 512) (v : EpiVecs) (y : FV) (n : Nat) : FV × Flags :=
  if c.scale = 0 then (y, 0)
  else
    let k := word32 .plain (if c.scale = 1 then fb x 64 32 else BitVec.ofNat 32 (v.scale.getD (n - v.first) 0))
    let r := mul32 .plain y k.1
    (r.1, dnV y ||| k.2 ||| r.2)

/-- Step 5 (R225). -/
def epiDrop (e : Started) (c : EpiCfg) (x : BitVec 512) (y : FV) (t n : Nat) : FV × Flags :=
  if !c.drop then (y, 0)
  else if dropKeeps e x (dropIndex x t n) then
    let k := word32 .plain (fb x 128 32)
    let r := mul32 .plain y k.1
    (r.1, dnV y ||| k.2 ||| r.2)
  else (pZero, 0)

/-- Steps 2 to 6 of one output, and its tap (R222, R223). NX comes from the output conversion alone (R153). -/
def epilogue (k : Core) (e : Started) (a : Actl) (c : EpiCfg) (x : BitVec 512) (v : EpiVecs) (y : FV) (t n : Nat) : EpiOut :=
  let y2 := epiBias c x v y n
  let y3 := epiAct k c y2.1
  let y4 := epiScale c x v y3.1 n
  let y5 := epiDrop e c x y4.1 t n
  let o := convert32 (fmtAt c.fmt) a y5.1
  let tp := if c.tap && bit x 323 then convert32 (fmtAt c.fmt) a y2.1 else (o.1, 0)
  { code := o.1, tap := tp.1, flags := noNX (y2.2 ||| y3.2 ||| y4.2 ||| y5.2 ||| tp.2) ||| o.2 }

/-- Some element index of a command's outputs reaches 2^34, which R229 refuses. Indexes rise with t and n, so the last output decides. -/
def dropTooFar (c : EpiCfg) (x : BitVec 512) (tokens vectors : Nat) : Bool := c.drop && decide (2 ^ 34 ≤ dropIndex x (tokens - 1) (vectors - 1))

end Sys2Proof.Machine
end

