-- ==== Sys2Proof/Machine/Buckets.lean ====
section
/-! DEFINITION. Data-parallel groups, gradient buckets and collectives: SET_GROUP, CREATE_BUCKET, BUCKET_ADD and BUCKET_FLUSH (R525 to R546). -/

namespace Sys2Proof.Machine

/-- Some started command is a bucket command that satisfies a test on its bucket. -/
def bucketStarted (s : State) (p : Nat → Bool) : Bool :=
  s.allStarted.any fun e => cmdOp e.2.2.desc / 16 == 6 && p (bucketOf e.2.2.desc)

/-- Buckets bound to a group. -/
def boundTo (s : State) (g b : Nat) : Bool := match s.bucket b with
  | none => false
  | some k => k.group == g

/-- Window `w` of core `c`, where it is open. -/
def State.window (s : State) (c w : Nat) : Option Window := tget none (s.core c).cfg.windows w

/-- A landing window is open with WRITE and CTR_EN set (R526). -/
def landingOk (s : State) (c w : Nat) : Bool := coreOk c && (match s.window c w with
  | none => false
  | some x => x.wr && x.ctrEn)

/-- Another group names a window (R526). -/
def otherNames (s : State) (g c w : Nat) : Bool :=
  s.groups.any fun e => e.1 != g && (match e.2 with
    | none => false
    | some x => (x.coreA == c && x.winA == w) || (x.coreB == c && x.winB == w))

/-- The ranks of a SET_GROUP request buffer, as 16-bit words. -/
def rankWords (n : Nat) (req : List Byte) : List (BitVec 16) := (chunksOf 2 n (padTo (2 * n) req)).map fun b => BitVec.ofNat 16 (leNat b)

/-- A list of ranks is admitted: distinct endpoints of KIND 0, SELF exactly once (R526). -/
def ranksOk (s : State) (ws : List (BitVec 16)) : Bool :=
  let ids := ws.map fun w => fld w 11 0
  (ws.all fun w => fld w 15 12 == 0) && (decide ids.Nodup) && ids.contains s.selfEp && s.hasSelf
    && (ids.all fun i => match s.endpoint i with
        | none => false
        | some e => !e.roce)

/-- The group that a SET_GROUP describes (R525). -/
def groupFrom (s : State) (x : Ctx) (ws : List (BitVec 16)) : Group :=
  let ids := ws.map fun w => (fb w 0 12 : BitVec 12)
  { ranks := ids, selfRank := ids.idxOf (BitVec.ofNat 12 s.selfEp), core := x.f 20 16, queue := x.f 25 24, coreA := x.f 36 32, winA := x.f 45 40, coreB := x.f 52 48, winB := x.f 61 56, flushCount := 0, broken := false, landed := [] }

/-- A landing window's counter is set to 0 in message mode (R528). -/
def zeroLanding (s : State) (c w : Nat) : State :=
  match s.window c w with
  | none => s
  | some x => s.modCfg c fun g => { g with counters := tset Counter.init g.counters x.counter.toNat { value := 0, overflow := false, messages := true } }

/-- Every bucket bound to a group is cleared (R528). -/
def clearBuckets (s : State) (g : Nat) : State :=
  { s with buckets := s.buckets.filter fun e => match e.2 with
      | none => true
      | some b => b.group != g }

/-- SET_GROUP (R525 to R529). -/
def execSetGroup (m : Msg) (s : State) : Res :=
  serve { plainOp 0x0611 1 [(383, 62), (55, 53), (47, 46), (39, 37), (31, 26), (23, 21), (7, 4)] with buf := true } m s fun s x =>
    let g := x.f 3 0
    let n := x.f 15 8
    let started := bucketStarted s (boundTo s g)
    if n = 0 then
      (if !x.m.ptr || !noRequest x.m then refuse s 0x201
       else if started then refuse s 0x203
       else .done { clearBuckets s g with groups := tset none s.groups g none } .ok)
    else
      let ws := rankWords n x.m.req
      let r := groupFrom s x ws
      if !x.m.ptr || msgReqLen x.m != 2 * n || decide (n < 2) || decide (128 < n) || !coreOk r.core || !ranksOk s ws
          || !landingOk s r.coreA r.winA || !landingOk s r.coreB r.winB || (r.coreA == r.coreB && r.winA == r.winB)
          || otherNames s g r.coreA r.winA || otherNames s g r.coreB r.winB then refuse s 0x201
      else if started then refuse s 0x203
      else
        let s : State := { clearBuckets s g with groups := tset none s.groups g (some r) }
        .done (zeroLanding (zeroLanding s r.coreA r.winA) r.coreB r.winB) (.val 0 r.selfRank)

/-- Element size of a bucket. -/
def Bucket.elem (b : Bucket) : Nat := if b.bf16 then 2 else 4

/-- Elements of a shard (R533). -/
def shardElems (b : Bucket) (g : Group) : Nat := b.length / g.ranks.length

/-- Bytes of a shard. -/
def shardBytes (b : Bucket) (g : Group) : Nat := shardElems b g * b.elem

/-- The size of a window, 0 where it is closed. -/
def windowSize (s : State) (c w : Nat) : Nat := match s.window c w with
  | none => 0
  | some x => x.size

/-- CREATE_BUCKET's refusals with BAD_FIELD (R533). -/
def bucketBad (s : State) (i : Nat) (b : Bucket) : Bool :=
  match s.group b.group with
  | none => true
  | some g =>
    let n := g.ranks.length
    let need := 2 * (n - 1) * shardBytes b g
    let others := (s.buckets.filter fun e => e.1 != i).filterMap fun e => e.2.map fun k => (k.addr, bucketBytes k)
    b.addr % 4096 != 0 || b.length % (1024 * n) != 0 || !inHbm b.addr (bucketBytes b) || hits b.addr (bucketBytes b) (windowRanges s ++ storeRanges s ++ others)
      || decide (windowSize s g.coreA g.winA < need) || decide (windowSize s g.coreB g.winB < need)

/-- CREATE_BUCKET (R533). -/
def execCreateBucket (m : Msg) (s : State) : Res :=
  serve (plainOp 0x0610 1 [(383, 104), (31, 17)]) m s fun s x =>
    let i := x.f 11 0
    let b : Bucket := { addr := x.f 103 64, length := x.f 63 32, bf16 := bit x.p 16, group := x.f 15 12 }
    if b.length != 0 && bucketBad s i b then refuse s 0x201
    else if bucketStarted s (fun k => k == i) then refuse s 0x203
    else .done { s with buckets := tset none s.buckets i (if b.length = 0 then none else some b) } .ok

/-- No earlier bucket command of the command's group is incomplete (R536). -/
def bucketAccepts (s : State) (d : BitVec 512) : Bool := !bucketStarted s (fun b => (s.bucket b).map (fun k => k.group) == groupOf s d)

/-- A bucket command at work: its bucket and group, or its end. A command whose bucket is gone since admission ends with BAD_FIELD; one of a BROKEN group with ABORTED (R546). -/
def Run.withBucket (r : Run) (f : Bucket → Nat → Group → Run) : Run :=
  match r.s.bucket (bucketOf r.e.desc) with
  | none => r.failWith 0x201 0
  | some b =>
    match r.s.group b.group with
    | none => r.failWith 0x201 0
    | some g => if g.broken then r.failWith 0x600 0 else f b b.group g

/-- Array format code of a bucket. -/
def Bucket.fmt (b : Bucket) : Nat := if b.bf16 then 1 else 0

/-- A sum as a bucket stores it, under ACTL: FP32 as it is, with FTZ, or converted to BF16 (R145, R537, R541). -/
def Bucket.convert (b : Bucket) (a : Actl) (v : FV) : Nat × Flags := if b.bf16 then convert32 (fmtAt 1) a v else convertTo fp32 a v

/-- The rounding of a bucket's additions: RNE with subnormals honoured, and SAT (R146, R537, R541; log entry 110). -/
def Actl.sums (a : Actl) : Actl := { Actl.plain with sat := a.sat }

/-- One element of a BUCKET_ADD: its code and flags (R537). -/
def addElem (a : Actl) (srcFmt : Nat) (b : Bucket) (old : Option Nat) (src : Nat) : Nat × Flags :=
  let x := readFp (fmtAt srcFmt) .plain src
  let y : FV × Flags := match old with
    | none => x
    | some o =>
      let v := readFp (fmtAt b.fmt) .plain o
      let s := add32 a.sums v.1 x.1
      (s.1, v.2 ||| x.2 ||| s.2)
  let c := b.convert a y.1
  (c.1, y.2 ||| c.2)

/-- The update unit of the chunk of 1,024 elements, counted from the range's start, that an element of a BUCKET_ADD lies in (R344, R537). -/
def addUnit (b : Bucket) (at' j : Nat) : Nat := chanOf (at' + j / 1024 * 1024 * b.elem) / 16

/-- The 128-byte lines of a BUCKET_ADD's range, each as its first element and how many it holds. -/
def addLines (b : Bucket) (at' n : Nat) : List (Nat × Nat) :=
  let first := min n ((128 - at' % 128) / b.elem)
  (0, first) :: (List.range (ceilDiv (n - first) (128 / b.elem))).map fun i => (first + i * (128 / b.elem), min (128 / b.elem) (n - first - i * (128 / b.elem)))

/-- One line of a BUCKET_ADD, `k` elements from element `j`: its part of the result, and the run (R537). -/
def addLine (b : Bucket) (a : Actl) (fresh : Bool) (sf src at' : Nat) (r : Run) (j k : Nat) : List BufPart × Run :=
  let x := r.apart.localRead src (src + j * fmtBytes sf) (k * fmtBytes sf)
  let old := if fresh then (([], x.2) : List Bt × Run) else x.2.devRead (at' + j * b.elem) (k * b.elem)
  let olds := wordsOf b.elem old.1
  let out := (wordsOf (fmtBytes sf) x.1).zipIdx.map fun y => addElem a sf b (if fresh then none else some (olds.getD y.2 0)) y.1
  let part := bufPart (at' + j * b.elem) (bytesOfWords b.elem (out.map fun y => y.1))
  (noteParts (old.2.noteOf (joinFlags out) (addUnit b at' j) 0) [part], { old.2 with e := r.e })

/-- BUCKET_ADD at work (R537, R538). The 128-byte lines of its result that the command notes are written at once, and the others when the command completes (log entry 55); each brings its flags and failures as it is written (R155). -/
def attemptAdd (r : Run) : Run :=
  r.withBucket fun b _ _ =>
    let n := r.field 95 64 + 1
    let sf := r.field 21 21
    let fresh := r.field 20 20 = 1
    let at' := b.addr + r.field 63 32 * b.elem
    if r.e.cursor = 1 then r.putRest
    else match r.coherent (if fresh then [] else [(at', n * b.elem)]) [(at', n * b.elem)] with
    | .stop x => r.stopAt x ((addLines b at' n).map fun l => (addUnit b at' l.1, at' + l.1 * b.elem, l.2 * b.elem))
    | .go r =>
      let src := r.localRead (r.field 119 96) (r.field 119 96) (n * fmtBytes sf)
      if src.1.any fun x => !x.got then { src.2 with e := src.2.e.atUnit r.e (addUnit b at' ((src.1.takeWhile fun (x : Bt) => x.got).length / fmtBytes sf)) }.finish
      else
        let bs := (addLines b at' n).foldl (fun acc l =>
          let d := addLine b (actlOf (fb (cmdBody r.e.desc) 0 8)) (decide fresh) sf (r.field 119 96) at' acc.2 l.1 l.2
          (acc.1 ++ [d.1], d.2)) (([], r) : List (List BufPart) × Run)
        let w := bs.2.putBlocks r.e.first.contains bs.1
        if w.e.buf.isEmpty then w.finish else w

/-- The slot of sender rank `r` in the landing window of owner rank `s` (R539). -/
def slotOfRank (r s : Nat) : Nat := if r < s then r else r - 1

/-- The landing core and window of a flush (R539). -/
def Group.landing (g : Group) (flush : Nat) : Nat × Nat := if flush % 2 = 0 then (g.coreA, g.winA) else (g.coreB, g.winB)

/-- The byte offset in the landing window of owner `s` of what rank `r` writes: reduce-scatter area, then all-gather area (R539). -/
def landOffset (b : Bucket) (g : Group) (gather : Bool) (r s : Nat) : Nat :=
  ((if gather then g.ranks.length - 1 else 0) + slotOfRank r s) * shardBytes b g

/-- The flush that a started flush command is: its group's count, which advances at its completion (R540). -/
def flushMb (grp bucket flush : Nat) : BitVec 32 := BitVec.ofNat 32 (grp * 2 ^ 28 + bucket * 2 ^ 16 + flush % 65536)

/-- The stage and rank that a flush has reached: sending shards, awaiting contributions, sending its own shard, awaiting shards, awaiting acknowledgements. -/
def Run.flushAt (r : Run) (stage rank : Nat) : Run := { r with e := { r.e with cursor := 256 * stage + rank, wait := .none } }

/-- A member cannot take a flush: its status (R468, R506, R531). -/
def memberFault (s : State) (ep : Nat) : Option Nat :=
  match s.endpoint ep with
  | none => some 0x504
  | some e =>
    if e.self then none
    else match e.quarantine with
      | some st => some st.toNat
      | none => match e.profile with
        | some p => if p.toNat < 3 then some 0x502 else none
        | none => none

/-- One write of a flush to a rank, or what it waits for. -/
def Run.flushSend (r : Run) (b : Bucket) (grp : Nat) (g : Group) (gather : Bool) (rank want : Nat) : Run :=
  let ep := (g.ranks.getD rank 0).toNat
  match gateOf r.s (some ep) want with
  | .fail st => (r.failWith st 0).byPeer r (BitVec.ofNat 12 ep)
  | .wait => r.block (.endpoint ep)
  | .go via _ =>
    match r.s.freeTag r.core with
    | none => r.block .net
    | some tag =>
      let l := g.landing g.flushCount
      let part := if gather then g.selfRank else rank
      let d := r.devRead (b.addr + part * shardBytes b g) (shardBytes b g)
      let f : Frame := { Frame.zero with core := BitVec.ofNat 5 l.1, window := BitVec.ofNat 6 l.2, mb := flushMb grp (bucketOf r.e.desc) g.flushCount }
      { d.2 with s := sendWrite d.2.s (.cmd r.core r.queue r.e.id) .write tag via ep 2 f (landOffset b g gather g.selfRank rank) d.1 }

/-- The writes of a flush's stage, rank by rank (R540). `fuel` bounds them. -/
def Run.flushSends (b : Bucket) (grp : Nat) (g : Group) (gather : Bool) (want stage : Nat) : Nat → Run → Run
  | 0, r => r
  | fuel + 1, r =>
    let rank := r.e.cursor % 256
    if g.ranks.length ≤ rank then r.flushAt (stage + 1) 0
    else if rank = g.selfRank then Run.flushSends b grp g gather want stage fuel (r.flushAt stage (rank + 1))
    else
      let r' := r.flushSend b grp g gather rank want
      if r'.e.done || r'.e.wait != .none then r' else Run.flushSends b grp g gather want stage fuel (r'.flushAt stage (rank + 1))

/-- What landed from a rank (R539). -/
def Run.landedFrom (r : Run) (b : Bucket) (g : Group) (gather : Bool) (rank : Nat) : List Bt × Run :=
  let l := g.landing g.flushCount
  match r.s.window l.1 l.2 with
  | none => ([], r)
  | some w => r.devRead (spadBase + l.1 * spadSize + w.base + landOffset b g gather rank g.selfRank) (shardBytes b g)

/-- The contributions of every rank to the own shard, in rank order (R541). -/
def Run.contributions (r : Run) (b : Bucket) (g : Group) : List (List Nat) × Run :=
  (List.range g.ranks.length).foldl
    (fun acc rank =>
      let d := if rank = g.selfRank then acc.2.devRead (b.addr + rank * shardBytes b g) (shardBytes b g) else acc.2.landedFrom b g false rank
      (acc.1 ++ [wordsOf b.elem d.1], d.2))
    ([], r)

/-- The reduction of one element in rank order (R541). -/
def reduceElem (a : Actl) (b : Bucket) (vs : List Nat) : Nat × Flags :=
  let xs := vs.map fun v => readFp (fmtAt b.fmt) .plain v
  let acc : FV × Flags := match xs with
    | [] => (pZero, 0)
    | x :: rest => rest.foldl (fun acc y =>
        let s := add32 a.sums acc.1 y.1
        (s.1, acc.2 ||| y.2 ||| s.2)) x
  let c := b.convert a acc.1
  (c.1, acc.2 ||| c.2)

/-- The own shard is reduced and written to the bucket (R540, R541). -/
def Run.reduceShard (r : Run) (b : Bucket) (g : Group) : Run :=
  let c := r.contributions b g
  let a := actlOf (fb (cmdBody r.e.desc) 0 8)
  let out := (List.range (shardElems b g)).map fun i => reduceElem a b (c.1.map fun v => v.getD i 0)
  (c.2.devWrite (b.addr + g.selfRank * shardBytes b g) (bytesOfWords b.elem (out.map fun x => x.1))).flag (out.foldl (fun acc x => acc ||| x.2) 0)

/-- Each landed shard is copied to its place in the bucket (R540). -/
def Run.gatherShards (r : Run) (b : Bucket) (g : Group) : Run :=
  (List.range g.ranks.length).foldl
    (fun r rank =>
      if rank = g.selfRank then r
      else
        let d := r.landedFrom b g true rank
        d.2.devWrite (b.addr + rank * shardBytes b g) d.1)
    r

/-- The landing counter of the flush has reached a target (R540). -/
def Run.landedReach (r : Run) (g : Group) (target : Nat) : Bool :=
  let l := g.landing g.flushCount
  match r.s.window l.1 l.2 with
  | none => false
  | some w => decide (target ≤ (tget Counter.init (r.s.core l.1).cfg.counters w.counter.toNat).value.toNat)

/-- Every other rank's contribution to the own shard has landed. In an ALL_REDUCE the counter alone does not say so, because an early all-gather write counts as well (R540, R541; log entry 47). -/
def Group.contributed (g : Group) : Bool :=
  let xs := tget [] g.landed (g.flushCount % 2)
  (List.range g.ranks.length).all fun k => k == g.selfRank || xs.any fun x => x.rank == k && !x.gather && x.last

/-- Landed frames of the flush named another bucket (R543). -/
def Run.foreign (r : Run) (g : Group) : Bool := (tget [] g.landed (g.flushCount % 2)).any fun x => x.bucket != BitVec.ofNat 12 (bucketOf r.e.desc)

/-- A flush ends: the window counter returns to 0, the flush count advances, and RESULT holds S (R540). -/
def Run.flushEnd (r : Run) (b : Bucket) (grp : Nat) (g : Group) : Run :=
  let l := g.landing g.flushCount
  let s := zeroLanding r.s l.1 l.2
  let s := s.modGroup grp fun x => { x with flushCount := x.flushCount + 1, landed := tset [] x.landed (x.flushCount % 2) [] }
  { r with s := s, e := { r.e with result := BitVec.ofNat 32 (shardElems b g) } }.finish

/-- A flush from the stage that it has reached (R540). It awaits what lands only once it holds no network tag (R593). `fuel` bounds the stages. -/
def Run.flushStages (b : Bucket) (grp : Nat) (g : Group) (want : Nat) : Nat → Run → Run
  | 0, r => r
  | fuel + 1, r =>
    let op := r.field 23 22
    let n := g.ranks.length
    let next (r' : Run) : Run := if r'.e.done || r'.e.wait != .none then r' else Run.flushStages b grp g want fuel r'
    match r.e.cursor / 256 with
    | 0 => if op = 1 then Run.flushStages b grp g want fuel (r.flushAt 2 0) else next (Run.flushSends b grp g false want 0 (n + 1) r)
    | 1 =>
      if !r.ops.isEmpty then r.block .net
      else if !r.landedReach g (n - 1) || (op == 2 && !r.foreign g && !g.contributed) then r.block .program
      else if r.foreign g then r.failWith 0x506 0
      else next ((r.reduceShard b g).flushAt (if op = 0 then 4 else 2) 0)
    | 2 => next (Run.flushSends b grp g true want 2 (n + 1) r)
    | 3 =>
      if !r.ops.isEmpty then r.block .net
      else if !r.landedReach g (if op = 2 then 2 * (n - 1) else n - 1) then r.block .program
      else if r.foreign g then r.failWith 0x506 0
      else next ((r.gatherShards b g).flushAt 4 0)
    | _ => if r.ops.isEmpty then r.flushEnd b grp g else r.block .net

/-- BUCKET_FLUSH at work (R531, R540 to R546). A member that cannot take the flush ends it at once, whatever its stage; an operation that is refused or lost ends it once the others are answered (R545). -/
def attemptFlush (want : Nat) (r : Run) : Run :=
  r.withBucket fun b grp g =>
    let r := { r with e := { r.e with wait := .none } }
    let fault := if r.e.cursor / 256 < 4 && !r.e.opLost then g.ranks.findSome? fun ep => (memberFault r.s ep.toNat).map fun st => (st, ep) else none
    match fault with
    | some x => (r.failWith x.1 0).byPeer r x.2
    | none =>
      if r.e.opLost then (if r.ops.isEmpty then r.finish else r.block .net) else Run.flushStages b grp g want 8 r

/-- BUCKET_ADD (R537). `first` are the lines that the update units have written by the time of the next command (R538; log entry 55). -/
def execBucketAdd (core : CoreId) (queue : QueueId) (first : List Nat) (s : State) : Res :=
  startCmd [0x60] core.val queue.val s bucketAccepts fun r => attemptAdd (r.doing first)

/-- BUCKET_FLUSH (R540). -/
def execBucketFlush (core : CoreId) (queue : QueueId) (port : PortId) (s : State) : Res := startCmd [0x61] core.val queue.val s bucketAccepts (attemptFlush port.val)

end Sys2Proof.Machine
end

