-- ==== Sys2Proof/Machine/MatMath.lean ====
section
/-! DEFINITION. The arithmetic of the matrix arrays on values: the order of accumulation (R188 to R191), masking (R202), and the checksums (R213 to R221). A position that is masked or lies in the zero-fill border holds no value. -/

namespace Sys2Proof.Machine

/-- One row of operand values; a masked position holds none (R202). -/
abbrev Lane := List (Option FV)

/-- The arrays' rounding to FP32: RNE whatever RND holds, with SAT and FTZ (R143, R145). -/
def roundArr (a : Actl) (v : FV) : FV × Flags :=
  let r := roundTo fp32 a.rne v false
  (r.val, r.flagsArr)

/-- A sum in the arrays (R143, R152). -/
def addArr (a : Actl) (x y : FV) : FV × Flags :=
  let s := addX .rne x y
  let r := roundArr a s.1
  (r.1, flagIf s.2 fNV ||| r.2)

/-- The product at one position; a masked position contributes +0 and raises nothing (R143, R202, R210). -/
def termOf (x w : Option FV) : FV × Flags :=
  match x, w with
  | some x, some w =>
    let p := mulX x w
    (p.1, flagIf p.2 fNV)
  | _, _ => (pZero, 0)

/-- The exact sum of the two products of one FP8 row (R188). -/
def pairTerm (p q : FV × Flags) : FV × Flags :=
  let s := addX .rne p.1 q.1
  (s.1, p.2 ||| q.2 ||| flagIf s.2 fNV)

/-- The rows of FP8, two positions to a row; the second of a last, half-masked row is +0 (R168, R188, R202). -/
def pairUp : List (FV × Flags) → List (FV × Flags)
  | p :: q :: rest => pairTerm p q :: pairUp rest
  | [p] => [pairTerm p (pZero, 0)]
  | [] => []

/-- One column over one segment of `n` positions, from a start value: rows in ascending order, each added with one rounding (R188). The rows beyond the last position of REDUCE are masked: together they add +0 (R202). -/
def dotSeg (a : Actl) (fp8 : Bool) (n : Nat) (xs ws : Lane) (start : FV) : FV × Flags :=
  let ts := (xs.zip ws).map fun p => termOf p.1 p.2
  let r := (if fp8 then pairUp ts else ts).foldl
    (fun acc p =>
      let s := addArr a acc.1 p.1
      (s.1, acc.2 ||| p.2 ||| s.2))
    (start, 0)
  if ts.length < n then ((addArr a r.1 pZero).1, r.2) else r

/-- One level of the pairwise tree (R189). -/
def treeLevel (f : FV → FV → FV × Flags) : List FV → List FV × Flags
  | x :: y :: rest =>
    let s := f x y
    let r := treeLevel f rest
    (s.1 :: r.1, s.2 ||| r.2)
  | rest => (rest, 0)

/-- The fixed pairwise tree over values (R189, R241). `levels` bounds the levels. -/
def treeSum (f : FV → FV → FV × Flags) : Nat → List FV → FV × Flags
  | 0, vs => (vs.getD 0 pZero, 0)
  | levels + 1, vs =>
    let l := treeLevel f vs
    let r := treeSum f levels l.1
    (r.1, l.2 ||| r.2)

/-- The geometry of a shape and format: lanes, column groups and segment (R192, R193). -/
structure ShapeGeom where
  lanes : Nat
  groups : Nat
  seg : Nat
  deriving DecidableEq, Repr

def shapeGeom (shape statFmt : Nat) : ShapeGeom := { lanes := 16 / 2 ^ shape, groups := 2 ^ shape, seg := if 3 ≤ statFmt then 64 else 32 }

/-- The span of a shape: the reduction positions of one chunk (R192). -/
def ShapeGeom.span (g : ShapeGeom) : Nat := g.seg * g.groups

/-- Segment `gi` of the chunk that starts at `k0`. -/
def ShapeGeom.slice (g : ShapeGeom) (xs : Lane) (k0 gi : Nat) : Lane := (xs.drop (k0 + gi * g.seg)).take g.seg

/-- The value of column `col` for a vector in a pass, where an error of the column's cells replaces it (R220). -/
def cellErr (us : List ArrayUpset) (pass n col : Nat) (v : FV) : FV :=
  us.foldl (fun v u => match u with
    | .cell p i c x => if p = pass ∧ i = n ∧ c.val = col then v32 x else v
    | _ => v) v

/-- A segment of a weight vector as the row buses deliver it in a pass, from span position `at'` on (R220). -/
def busErr (us : List ArrayUpset) (pass n at' : Nat) (seg : Lane) : Lane :=
  us.foldl (fun l u => match u with
    | .bus p i pos x => if p = pass ∧ i = n ∧ at' ≤ pos ∧ (l.getD (pos - at') none).isSome then l.set (pos - at') (some (v32 x)) else l
    | _ => l) seg

/-- The code of an output, where an error of the epilogue or of its write replaces it (R220). -/
def outErr (us : List ArrayUpset) (t n code : Nat) : Nat :=
  us.foldl (fun c u => match u with
    | .output i j x => if i = t ∧ j = n then x.toNat else c
    | _ => c) code

/-- The accumulator of an output, where an error beyond the checks replaces it (R220). -/
def drainErr (us : List ArrayUpset) (t n : Nat) (v : FV) : FV :=
  us.foldl (fun v u => match u with
    | .drain i j x => if i = t ∧ j = n then v32 x else v
    | _ => v) v

/-- What a column's stationary registers hold in a pass, where an error of one replaces its value (R220). -/
def regErr (us : List ArrayUpset) (pass array col : Nat) (xs : Lane) : Lane :=
  us.foldl (fun l u => match u with
    | .register p i c pos x => if p = pass ∧ i.val = array ∧ c.val = col ∧ (l.getD pos none).isSome then l.set pos (some (v32 x)) else l
    | _ => l) xs

/-- A column's output of an array for a vector in a pass (R188). -/
def columnOut (a : Actl) (fp8 : Bool) (g : ShapeGeom) (us : List ArrayUpset) (pass array n col : Nat) (xs seg : Lane) : FV × Flags :=
  let d := dotSeg a fp8 g.seg (regErr us pass array col xs) seg pZero
  (cellErr us pass n col d.1, d.2)

/-- A column's output of an array for the checksum vector of a group, where an error of its cells replaces it (R214, R220). -/
def checkOut (a : Actl) (fp8 : Bool) (g : ShapeGeom) (us : List ArrayUpset) (pass array k col : Nat) (xs seg : Lane) : FV :=
  us.foldl (fun v u => match u with
    | .checkCell p i j c x => if p = pass ∧ i.val = array ∧ j = k ∧ c.val = col then v32 x else v
    | _ => v) (dotSeg a fp8 g.seg (regErr us pass array col xs) seg pZero).1

/-- The chunk sum of one output: its lane's columns combined by the tree (R189). -/
def chunkSum (a : Actl) (g : ShapeGeom) (fp8 : Bool) (us : List ArrayUpset) (pass array n lane : Nat) (xs ws : Lane) (k0 : Nat) : FV × Flags :=
  let ps := (List.range g.groups).map fun gi =>
    columnOut a fp8 g us pass array n (gi * g.lanes + lane) (g.slice xs k0 gi) (busErr us pass n (gi * g.seg) (g.slice ws k0 gi))
  let t := treeSum (addArr a) 4 (ps.map fun p => p.1)
  (t.1, ps.foldl (fun f p => f ||| p.2) t.2)

/-- The drain accumulator of one output: the chunk sums added in ascending order to the start value (R190). `pass` is the pass of chunk 0. -/
def drainSum (a : Actl) (g : ShapeGeom) (fp8 : Bool) (us : List ArrayUpset) (pass array n lane : Nat) (xs ws : Lane) (reduce : Nat) (start : FV) : FV × Flags :=
  (List.range (ceilDiv reduce g.span)).foldl
    (fun acc ch =>
      let c := chunkSum a g fp8 us (pass + ch) array n lane xs ws (ch * g.span)
      let s := addArr a acc.1 c.1
      (s.1, acc.2 ||| c.2 ||| s.2))
    (start, 0)

/-- A checker's sum: FP32 under RNE, no flag of the command (R213, R215; log entry 123). -/
def chkAdd (x y : FV) : FV := (addArr .plain x y).1

/-- A mismatching check: the pass, the place of its vector in the array's stream of the pass, the kind (0 lane, 1 group) and the array (R219). -/
structure Mismatch where
  pass : Nat
  place : Nat
  kind : Nat
  array : Nat
  deriving DecidableEq, Repr

/-- Mismatches in the order they are met: the members of a gang stream in lockstep (R184, R198, R221). Of those met in one slot the lane check comes first, and then the lowest array (log entry 120). -/
def Mismatch.before (x y : Mismatch) : Bool :=
  decide (x.pass < y.pass) || (x.pass == y.pass && (decide (x.place < y.place) || (x.place == y.place && (decide (x.kind < y.kind) || (x.kind == y.kind && decide (x.array < y.array))))))

/-- The judgement of one check (R215, R218): values A and B, the magnitude M and τ. -/
def judge (tau x y m : FV) : Bool :=
  if isFinV x && isFinV y then ltX (mul32 .plain tau m).1 (absX (chkAdd x (negX y)))
  else isFinV m

/-- The sum of a row's values over columns, from +0, where any is unmasked (R213). -/
def columnSum (f : FV → FV) (vs : List (Option FV)) : Option FV :=
  if vs.any Option.isSome then some (vs.foldl (fun acc v => match v with | none => acc | some x => chkAdd acc (f x)) pZero) else none

/-- One array's stationary tile in a pass: the physical columns' lanes, none for a masked lane (R193, R202). -/
abbrev Tile := List (Option Lane)

/-- The tile of lane tile `lt` in the chunk at `k0`. -/
def tileOf (g : ShapeGeom) (rows : List Lane) (lt k0 : Nat) : Tile :=
  (List.range 16).map fun l => (rows[lt * g.lanes + l % g.lanes]?).map fun x => g.slice x k0 (l / g.lanes)

/-- The loader's sums of a tile for one column group: Σ f(x) of each row (R213). In a Shallows shape a row carries a weight of its own for each column group, and the lane holds one sum for each (log entry 100). -/
def loaderSums (g : ShapeGeom) (f : FV → FV) (tile : Tile) (gi : Nat) : Lane :=
  (List.range g.seg).map fun r => columnSum f ((List.range 16).map fun l =>
    if l / g.lanes = gi then (tile.getD l none).bind fun x => (x.getD r none) else none)

/-- A weight vector's segments in the chunk at `k0`. -/
def segsOf (g : ShapeGeom) (w : Lane) (k0 : Nat) : List Lane := (List.range g.groups).map fun gi => g.slice w k0 gi

/-- A checksum-lane value: the groups' sums in turn, from a start value (R213, R215; log entry 100). -/
def laneChain (a : Actl) (fp8 : Bool) (n : Nat) (sums : List Lane) (segs : List Lane) (start : FV) : FV :=
  (sums.zip segs).foldl (fun acc p => (dotSeg a fp8 n p.1 p.2 acc).1) start

/-- Every value of lanes is finite. -/
def lanesFinite (ls : List Lane) : Bool := ls.all fun l => l.all fun v => match v with | none => true | some x => isFinV x

/-- The checksum lane's value for a vector, where an error of the lane or the loader's sums replaces it (R220). -/
def laneErr (us : List ArrayUpset) (pass n : Nat) (v : FV) : FV :=
  us.foldl (fun v u => match u with
    | .lane p i x => if p = pass ∧ i = n then v32 x else v
    | _ => v) v

/-- The checksum vector that an array's feeder inserts after group `k`, where an error replaces an element (R220). -/
def insertErr (us : List ArrayUpset) (pass array k at' : Nat) (seg : Lane) : Lane :=
  us.foldl (fun l u => match u with
    | .inserted p i j pos x => if p = pass ∧ i.val = array ∧ j = k ∧ at' ≤ pos ∧ (l.getD (pos - at') none).isSome then l.set (pos - at') (some (v32 x)) else l
    | _ => l) seg

/-- The magnitude of group `k`, where an error of its accumulator replaces it (R220). -/
def magErr (us : List ArrayUpset) (pass array k : Nat) (m : FV) : FV :=
  us.foldl (fun m u => match u with
    | .magnitude p i j x => if p = pass ∧ i.val = array ∧ j = k then v32 x else m
    | _ => m) m

/-- The lane and group checks of one array over one group of its vectors (R213 to R215, R218). The lane check runs on the panel's own vectors (log entry 121), M is one chain over all of them (log entry 122), and no rounding of a check raises a flag of the command (log entry 123). `place` is the first vector's place in the array's stream, `k` the group's number. -/
def groupChecks (a : Actl) (g : ShapeGeom) (fp8 : Bool) (us : List ArrayUpset) (inserted : Bool) (tau : FV) (tile : Tile) (vecs : List (Nat × List Lane)) (pass array place k : Nat) : List Mismatch :=
  let sums := (List.range g.groups).map (loaderSums g id tile)
  let mags := (List.range g.groups).map (loaderSums g absX tile)
  let absSegs (segs : List Lane) : List Lane := segs.map fun l => l.map (Option.map absX)
  let bussed := vecs.map fun v => (v.1, v.2.zipIdx.map fun l => busErr us pass v.1 (l.2 * g.seg) l.1)
  let ck : List Lane := (List.range g.groups).map fun gi => insertErr us pass array k (gi * g.seg) ((List.range g.seg).map fun r =>
    columnSum id (vecs.map fun v => (v.2.getD gi []).getD r none))
  let m := bussed.foldl (fun m v => laneChain .plain fp8 g.seg mags (absSegs v.2) m) pZero
  let m := magErr us pass array k (if inserted then laneChain .plain fp8 g.seg mags (absSegs ck) m else m)
  let outs := bussed.map fun v => (List.range 16).map fun l =>
    (tile.getD l none).map fun x => (columnOut a fp8 g us pass array v.1 l x (v.2.getD (l / g.lanes) [])).1
  let lane := (bussed.zip outs).zipIdx.filterMap fun p =>
    let x := laneErr us pass p.1.1.1 (laneChain a fp8 g.seg sums p.1.1.2 pZero)
    let y := p.1.2.foldl (fun acc o => match o with | none => acc | some v => chkAdd acc v) pZero
    if judge tau x y m then some { pass := pass, place := place + p.2, kind := 0, array := array } else none
  let group := if !inserted then [] else (List.range 16).filterMap fun l =>
    match tile.getD l none with
    | none => none
    | some x =>
      let v := checkOut a fp8 g us pass array k l x (ck.getD (l / g.lanes) [])
      let y := outs.foldl (fun acc o => match o.getD l none with | none => acc | some v => chkAdd acc v) pZero
      if judge tau v y m then some { pass := pass, place := place + vecs.length - 1, kind := 1, array := array } else none
  lane ++ group

/-- The checks of one array in one pass: its vectors in groups of `interval`, the last one shorter (R214, R221). With no group check, the vectors of the pass are the group over which M accumulates (log entry 101). -/
def passChecks (a : Actl) (g : ShapeGeom) (fp8 : Bool) (us : List ArrayUpset) (interval : Nat) (tau : FV) (tile : Tile) (vecs : List (Nat × List Lane)) (pass array : Nat) : List Mismatch :=
  let groups := if interval = 0 then [vecs] else chunksOf interval (vecs.length + 1) vecs
  groups.zipIdx.flatMap fun grp => groupChecks a g fp8 us (interval != 0) tau tile grp.1 pass array (interval * grp.2) grp.2

/-- The pass of an error. -/
def upsetPass : ArrayUpset → Option Nat
  | .cell p _ _ _ => some p
  | .bus p _ _ _ => some p
  | .lane p _ _ => some p
  | .inserted p _ _ _ _ => some p
  | .magnitude p _ _ _ => some p
  | .drain _ _ _ => none
  | .register p _ _ _ _ => some p
  | .checkCell p _ _ _ _ => some p
  | .output _ _ _ => none

/-- The exponent of τ = 2^-e (R216). -/
def MatArgs.tauExp (m : MatArgs) : Nat := if m.tau ≠ 0 then m.tau else if m.statFmt = 0 then 20 else 14

/-- The vectors of a panel (R184, R198). -/
def MatArgs.panel (m : MatArgs) : Nat := 1024 * ((gangOf m.mode m.array).getD []).length

/-- The span chunks and the panels of a command (R184). -/
def MatArgs.chunks (m : MatArgs) : Nat := ceilDiv m.reduce (shapeGeom m.shape m.statFmt).span
def MatArgs.panels (m : MatArgs) : Nat := ceilDiv m.vectors m.panel

/-- The pass of a lane tile, panel and span chunk (R219). -/
def MatArgs.pass (m : MatArgs) (lt p ch : Nat) : Nat := (lt * m.panels + p) * m.chunks + ch

/-- The lane tiles and panels of a command, in the order of R184. -/
def MatArgs.tilePanels (m : MatArgs) : List (Nat × Nat) :=
  (List.range (ceilDiv m.tokens (shapeGeom m.shape m.statFmt).lanes)).flatMap fun lt => (List.range m.panels).map fun p => (lt, p)

/-- The array of a command that streams a vector (R198). -/
def MatArgs.arrayOf (m : MatArgs) (n : Nat) : Nat := m.array + n % m.panel / 32 % ((gangOf m.mode m.array).getD []).length

/-- Every mismatch of the passes that a command has run, for its first `reached` lane tiles and panels, in order (R184, R198, R213 to R221). A pass with a NaN or Infinity operand is skipped (R218). A pass that meets no error has no mismatch where τ is 2^-14 or more (R217; log entry 102). -/
def allChecks (m : MatArgs) (a : Actl) (us : List ArrayUpset) (reached : Nat) (rows wts : List Lane) : List Mismatch :=
  let g := shapeGeom m.shape m.statFmt
  let fp8 := decide (3 ≤ m.statFmt)
  let arrays := (gangOf m.mode m.array).getD []
  let interval := match m.ck with | 0 => 0 | 1 => 16 | 2 => 64 | _ => 256
  let tau : FV := .fin false 1 (-(m.tauExp : Int))
  let found := (m.tilePanels.take reached).flatMap fun lp => (List.range m.chunks).flatMap fun ch =>
    let lt := lp.1
    let p := lp.2
    let pass := m.pass lt p ch
    if m.tauExp ≤ 14 ∧ (us.any fun u => upsetPass u == some pass) = false then []
    else
      let k0 := ch * g.span
      let tile := tileOf g rows lt k0
      let vecs := (List.range (min m.panel (m.vectors - p * m.panel))).map fun i => (p * m.panel + i, segsOf g (wts.getD (p * m.panel + i) []) k0)
      if !(lanesFinite (tile.filterMap id) && vecs.all fun v => lanesFinite v.2) then []
      else arrays.flatMap fun arr =>
        passChecks a g fp8 us interval tau tile (vecs.filter fun v => m.arrayOf v.1 == arr) pass arr
  sortBy Mismatch.before found

end Sys2Proof.Machine
end

