-- ==== Sys2Proof/Machine/BlockCode.lean ====
section
/-! DEFINITION. The coding of 4 KiB store blocks: LOSSLESS, NARROW and NONE (R326 to R332, R340). -/

namespace Sys2Proof.Machine

/-- The slot size of a coding (R326). -/
def slotBytes (coding : Nat) : Nat := if coding = 0 then 4160 else if coding = 1 then 2112 else 4096

/-- An element's exponent field and its remaining bits under a view: BF16 for 0, FP32 for 1 (R331). -/
def elemExp (view x : Nat) : Nat := if view = 0 then (x >>> 7) % 256 else (x >>> 23) % 256
def elemRest (view x : Nat) : Nat :=
  if view = 0 then (x >>> 15) * 128 + x % 128 else (x >>> 31) * 2 ^ 23 + x % 2 ^ 23

/-- The element of an exponent and remaining bits (R331). -/
def elemOf (view e rest : Nat) : Nat :=
  if view = 0 then (rest / 128) * 2 ^ 15 + e * 128 + rest % 128 else (rest / 2 ^ 23) * 2 ^ 31 + e * 2 ^ 23 + rest % 2 ^ 23

/-- Bytes of an element and of its remaining bits. -/
def elemLen (view : Nat) : Nat := if view = 0 then 2 else 4
def restLen (view : Nat) : Nat := if view = 0 then 1 else 3

/-- The codes and escape bytes of exponents, from the exponent before (R331). -/
def expCodes : Nat → List Nat → List Nat × List Nat
  | _, [] => ([], [])
  | prev, e :: es =>
    let d : Int := (e : Int) - prev
    let r := expCodes e es
    if -7 ≤ d ∧ d ≤ 7 then ((d + 7).toNat :: r.1, r.2) else (15 :: r.1, e :: r.2)

/-- Codes two to a byte, the earlier in the low nibble (R331). -/
def packNibbles : List Nat → List Byte
  | a :: b :: rest => BitVec.ofNat 8 (a + 16 * b) :: packNibbles rest
  | [a] => [BitVec.ofNat 8 a]
  | [] => []

/-- The nibbles of bytes, low first. -/
def nibbles (bs : List Byte) : List Nat := bs.flatMap fun b => [b.toNat % 16, b.toNat / 16]

/-- The coded form of a chunk (R331). -/
def codeChunk (view : Nat) (raw : List Byte) : List Byte :=
  let xs := (chunksOf (elemLen view) 65 raw).map leNat
  let c := expCodes 127 (xs.map (elemExp view))
  packNibbles c.1 ++ (c.2.map fun e => BitVec.ofNat 8 e) ++ xs.flatMap fun x => leBytes (restLen view) (elemRest view x)

/-- What a chunk stores (R330). -/
def storeChunk (view : Nat) (raw : List Byte) : List Byte :=
  if raw.all fun b => b == 0 then []
  else if view = 2 then raw
  else
    let c := codeChunk view raw
    if c.length < 128 then c else raw

/-- A block header (R329). -/
def blockHeader (plen coding view : Nat) (scaleK : Int) (crc : BitVec 32) (lens : List Nat) : List Byte :=
  leBytes 64 ((leNat (lens.map fun n => BitVec.ofNat 8 n)) + crc.toNat * 2 ^ 256 + (BitVec.ofInt 16 scaleK).toNat * 2 ^ 288 + view * 2 ^ 304 + coding * 2 ^ 308 + 0xA7 * 2 ^ 312 + plen * 2 ^ 320)

/-- The stored bytes of a LOSSLESS block (R329 to R331). -/
def encodeLossless (view : Nat) (raw : List Byte) : List Byte :=
  let cs := (chunksOf 128 33 raw).map (storeChunk view)
  let lens := cs.map List.length
  blockHeader lens.sum 1 view 0 (crc32c raw) lens ++ cs.flatten

/-- The scale of NARROW coding: the smallest k for which the largest finite magnitude is at most 448 × 2^k (R332). -/
def narrowScale (xs : List FV) : Int :=
  let a := xs.foldl (fun a x => if isFinV x then maxV a (absX x) else a) pZero
  match a with
  | .fin _ m e => if m = 0 then 0 else
    let l := Nat.log2 m
    if m * 4 ≤ 7 * 2 ^ l then e + l - 8 else e + l - 7
  | _ => 0

/-- A value times 2^k, exactly. -/
def scaleV (v : FV) (k : Int) : FV := match v with
  | .fin s m e => .fin s m (e + k)
  | _ => v

/-- The stored bytes of a NARROW block, with the flags raised (R329, R332). -/
def encodeNarrow (a : Actl) (raw : List Byte) : List Byte × Flags :=
  let xs := (chunksOf 2 2049 raw).map leNat
  let k := narrowScale (xs.map (decodeFp bf16))
  let cs := xs.map fun x =>
    let v := readFp bf16 a x
    let c := convertTo e4m3 a (scaleV v.1 (-k))
    (BitVec.ofNat 8 c.1, v.2 ||| c.2)
  let payload := cs.map fun c => c.1
  (blockHeader 2048 2 0 k (crc32c payload) [] ++ payload, cs.foldl (fun f c => f ||| c.2) 0)

/-- A raw block's stored bytes under a coding and view (R326). -/
def encodeBlock (coding view : Nat) (a : Actl) (raw : List Byte) : List Byte × Flags :=
  if coding = 0 then (encodeLossless view raw, 0) else if coding = 1 then encodeNarrow a raw else (raw, 0)

/-- The exponents that codes and escapes spell, and the bytes left; none where the escapes run out or a code chunk ends early (R331). -/
def readExps : Nat → List Nat → List Byte → Option (List Nat × List Byte)
  | _, [], bs => some ([], bs)
  | prev, c :: cs, bs =>
    if c = 15 then
      match bs with
      | [] => none
      | b :: rest => (readExps b.toNat cs rest).map fun r => (b.toNat :: r.1, r.2)
    else
      let e : Nat := (((prev : Int) + c - 7) % 256).toNat
      (readExps e cs bs).map fun r => (e :: r.1, r.2)

/-- A stored chunk decoded to 128 bytes (R330, R331, R340). -/
def decodeChunk (view : Nat) (c : List Byte) : Option (List Byte) :=
  if c.isEmpty then some (List.replicate 128 0#8)
  else if c.length = 128 then some c
  else if view ≤ 1 ∧ c.length < 128 then
    let n := 128 / elemLen view
    if c.length < n / 2 then none
    else
      match readExps 127 (nibbles (c.take (n / 2))) (c.drop (n / 2)) with
      | none => none
      | some (es, rest) =>
        if rest.length = n * restLen view then
          some ((es.zip ((chunksOf (restLen view) (n + 1) rest).map leNat)).flatMap fun p => leBytes (elemLen view) (elemOf view p.1 p.2))
        else none
  else none

/-- Chunks cut by their lengths. -/
def cutBy : List Nat → List Byte → List (List Byte)
  | [], _ => []
  | n :: ns, bs => bs.take n :: cutBy ns (bs.drop n)

/-- Every element decoded, or none. -/
def allSome {α : Type} : List (Option α) → Option (List α)
  | [] => some []
  | none :: _ => none
  | some x :: xs => (allSome xs).map fun r => x :: r

/-- The header's checks for a coding (R340). -/
def headerGood (h : BitVec 512) (coding : Nat) : Bool :=
  fld h 319 312 == 0xA7 && fld h 309 308 == coding + 1 && zeros h [(511, 336), (311, 310), (307, 306)]

/-- A LOSSLESS block's raw bytes from its header and payload; none when it is corrupt (R340). -/
def decodeLossless (h : BitVec 512) (payload : List Byte) : Option (List Byte) :=
  let lens := (List.range 32).map fun i => fld h (8 * i + 7) (8 * i)
  if headerGood h 0 && lens.sum == fld h 335 320 then
    match allSome ((cutBy lens payload).map (decodeChunk (fld h 305 304))) with
    | none => none
    | some cs => if crc32c cs.flatten = fb h 256 32 then some cs.flatten else none
  else none

/-- A NARROW block's raw bytes and flags from its header and payload; none when it is corrupt (R332, R340). -/
def decodeNarrow (a : Actl) (h : BitVec 512) (payload : List Byte) : Option (List Byte × Flags) :=
  if headerGood h 1 && crc32c payload == fb h 256 32 then
    let k : Int := (fb h 288 16 : BitVec 16).toInt
    let cs := payload.map fun b =>
      let v := readFp e4m3 a b.toNat
      let c := convertTo bf16 a (scaleV v.1 k)
      (c.1, v.2 ||| c.2)
    some (cs.flatMap fun c => leBytes 2 c.1, cs.foldl (fun f c => f ||| c.2) 0)
  else none

end Sys2Proof.Machine
end

