-- ==== Sys2Proof/Machine/Save.lean ====
section
/-! DEFINITION. The activation store: SAVE_OPEN, SAVE_COPY, SAVE_CLOSE and RESTORE, and the append that taps share (R326, R333 to R342). -/

namespace Sys2Proof.Machine

/-- The open record of a stream. -/
def Core.saveRec (k : Core) (stream : Nat) : Option SaveRec := tget none k.records stream

/-- The state with a stream's record changed. -/
def State.setRec (s : State) (c stream : Nat) (v : Option SaveRec) : State :=
  s.modCore c fun k => { k with records := tset none k.records stream v }

/-- The HBM range that a record reserves (R326). -/
def recRange (s : State) (region offset blocks coding : Nat) : Nat × Nat :=
  ((tget (0, 0) s.regions region).1 + offset, blocks * slotBytes coding)

/-- Every open record's range. -/
def openRanges (s : State) : List (Nat × Nat) :=
  allCores.flatMap fun c => (s.core c).records.filterMap fun e => e.2.map fun r => recRange s r.region r.offset r.blocks r.coding.toNat

/-- Some blocks at an offset lie in a configured region (R339). -/
def inRegion (s : State) (region offset blocks coding : Nat) : Bool :=
  let g := tget (0, 0) s.regions region
  g.2 != 0 && decide (offset + blocks * slotBytes coding ≤ g.2)

/-- SAVE_OPEN (R333, R339). -/
def attemptOpen (r : Run) : Run :=
  let st := r.field 10 8
  let m := tget StreamMode.init r.k.cfg.streams st
  let rec' : SaveRec := { queue := r.queue, region := r.field 15 12, offset := r.field 135 96, blocks := r.field 91 64, used := 0, coding := m.coding, view := m.view, written := 0 }
  let range := recRange r.s rec'.region rec'.offset rec'.blocks m.coding.toNat
  if !inRegion r.s rec'.region rec'.offset rec'.blocks m.coding.toNat || hits range.1 range.2 (openRanges r.s) then r.failWith 0x308 4
  else if (r.k.saveRec st).isSome then r.failWith 0x308 5
  else { r with s := r.s.setRec r.core st (some rec') }.finish

/-- The reason why an append of `n` blocks to a stream faults, if any (R339). `bf` says that the data is BF16. -/
def appendFault (r : Run) (stream n : Nat) (bf : Bool) : Option Nat :=
  match r.k.saveRec stream with
  | none => some 0
  | some x =>
    if x.blocks < x.used + n then some 1
    else if x.coding = 1 ∧ !bf then some 2
    else if x.queue ≠ r.queue then some 3
    else none

/-- One raw block is coded and written to its slot (R326, R327). Poison of its source bytes travels with the block (R318). -/
def appendBlock (stream : Nat) (a : Actl) (r : Run) (raw : List Bt) : Run :=
  match r.k.saveRec stream with
  | none => r
  | some x =>
    let enc := encodeBlock x.coding.toNat x.view.toNat a (padTo 4096 (vals raw))
    let range := recRange r.s x.region x.offset x.used x.coding.toNat
    let bytes : List Bt := if x.coding = 2 then raw ++ cleanBytes (List.replicate (4096 - raw.length) 0#8) else markBytes (anyMark raw) enc.1
    let w := r.devWrite (range.1 + range.2) (bytes.map fun b => { b with got := true })
    { w with s := w.s.setRec w.core stream (some { x with used := x.used + 1, written := x.written + enc.1.length }) }.flag enc.2

/-- Raw bytes are appended to a stream's record, padded to whole blocks (R326, R334). -/
def Run.append (r : Run) (stream : Nat) (a : Actl) (bytes : List Bt) (bf : Bool) : Run :=
  match appendFault r stream (ceilDiv bytes.length 4096) bf with
  | some reason => r.fault 0x308 reason
  | none => (chunksOf 4096 (bytes.length / 4096 + 1) bytes).foldl (appendBlock stream a) r

/-- A started command that appends marks its stream in its cursor. -/
def Run.claims (r : Run) (stream : Nat) : Run := { r with e := { r.e with cursor := stream + 1 } }

/-- A started command appends to a stream: a SAVE_COPY or a tap (R334). -/
def appends (e : Started) (stream : Nat) : Bool := e.cursor == stream + 1 && (cmdOp e.desc == 0x41 || cmdOp e.desc / 16 == 1)

/-- A stream of a core is in use (R334). -/
def streamBusy (s : State) (c stream : Nat) : Bool := (List.range 4).any fun q => (s.queue c q).started.any fun e => appends e stream

/-- SAVE_COPY (R333, R334, R339). -/
def attemptSaveCopy (r : Run) : Run :=
  let st := r.field 10 8
  let n := r.field 63 32
  match appendFault r st (ceilDiv n 4096) true with
  | some reason => r.failWith 0x308 reason
  | none =>
    let d := r.localRead (r.field 183 160) (r.field 183 160) n
    ((d.2.append st (actlOf (fb (cmdBody r.e.desc) 0 8)) d.1 true).claims st).finish

/-- SAVE_CLOSE completes once every append has completed, and closes the record (R333). -/
def attemptClose (r : Run) : Run :=
  let st := r.field 10 8
  match r.k.saveRec st with
  | none => r.failWith 0x308 0
  | some x =>
    if x.queue ≠ r.queue then r.failWith 0x308 3
    else if streamBusy r.s r.core st then r
    else { r with s := r.s.setRec r.core st none, e := { r.e with result := BitVec.ofNat 32 (min x.written 0xFFFFFFFF) } }.finish

/-- The raw bytes of one stored block, with their marks (R338, R340, R318). -/
def restoreBlock (a : Actl) (coding addr index : Nat) (r : Run) : List Bt × Run :=
  if coding = 2 then r.devRead addr 4096
  else
    let h := r.devRead addr 64
    let hd := BitVec.ofNat 512 (leNat (vals h.1))
    let p := h.2.devRead (addr + 64) (if coding = 0 then min (fld hd 335 320) 4096 else 2048)
    let mark := anyMark h.1 || anyMark p.1
    let got : Option (List Byte × Flags) := if coding = 0 then (decodeLossless hd (vals p.1)).map fun x => (x, 0) else decodeNarrow a hd (vals p.1)
    match got with
    | some x => (markBytes mark x.1, p.2.flag x.2)
    | none => (markBytes true (List.replicate 4096 0#8), p.2.fault 0x403 index)

/-- Blocks from `i` on, `n` of them. -/
def restoreBlocks (a : Actl) (coding base : Nat) : Nat → Nat → Run → List Bt × Run
  | 0, _, r => ([], r)
  | n + 1, i, r =>
    let b := restoreBlock a coding (base + i * slotBytes coding) i r
    let rest := restoreBlocks a coding base n (i + 1) b.2
    (b.1 ++ rest.1, rest.2)

/-- RESTORE (R333, R338 to R340). -/
def attemptRestore (r : Run) : Run :=
  let n := r.field 63 32
  let coding := r.field 17 16
  let first := r.field 91 64
  let blocks := ceilDiv n 4096
  if !inRegion r.s (r.field 15 12) (r.field 135 96) (first + blocks) coding then r.failWith 0x308 4
  else
    let base := (recRange r.s (r.field 15 12) (r.field 135 96) 0 coding).1
    let d := restoreBlocks (actlOf (fb (cmdBody r.e.desc) 0 8)) coding base blocks first r
    (d.2.localWrite (r.field 183 160) (r.field 183 160) (d.1.take n)).finish

/-- The save engine accepts a SAVE_COPY when its stream is free (R334). -/
def saveAccepts (c : Nat) (s : State) (d : BitVec 512) : Bool := !streamBusy s c (fld (cmdBody d) 10 8)

/-- SAVE_OPEN (R333). -/
def execSaveOpen (core : CoreId) (queue : QueueId) (s : State) : Res := startCmd [0x40] core.val queue.val s anyTime attemptOpen

/-- SAVE_COPY (R333, R334). -/
def execSaveCopy (core : CoreId) (queue : QueueId) (s : State) : Res := startCmd [0x41] core.val queue.val s (saveAccepts core.val) attemptSaveCopy

/-- SAVE_CLOSE (R333). -/
def execSaveClose (core : CoreId) (queue : QueueId) (s : State) : Res := startCmd [0x42] core.val queue.val s anyTime attemptClose

/-- RESTORE (R333, R338). -/
def execRestore (core : CoreId) (queue : QueueId) (s : State) : Res := startCmd [0x43] core.val queue.val s anyTime attemptRestore

end Sys2Proof.Machine
end

