-- ==== Sys2Proof/Machine/Tables.lean ====
section
/-! DEFINITION. Loadable tables and micro-programs: which commands use them, LOAD_TABLE and LOAD_MICROPROGRAM, and their hold (R248 to R254). -/

namespace Sys2Proof.Machine

/-- What a LOAD message replaces: a table or a micro-program slot. -/
inductive FnSlot where
  | table (i : Nat)
  | micro (i : Nat)
  deriving DecidableEq, Repr

/-- The slot that a function code names (R238). -/
def codeSlot (code : Nat) : List FnSlot :=
  if 16 ≤ code ∧ code < 32 then [.table (code - 16)] else if 64 ≤ code ∧ code < 128 then [.micro (code - 64)] else []

/-- The slots that a command uses, with the tables that its micro-program's steps apply (R250, R253). -/
def fnSlots (k : Core) (d : BitVec 512) : List FnSlot :=
  if cmdOp d / 16 = 1 then codeSlot (fld (cmdBody d) 358 352)
  else if cmdOp d = 0x21 then
    let own := codeSlot (fld (cmdBody d) 31 24)
    own ++ own.flatMap fun f => match f with
      | .table _ => []
      | .micro i => (tget Micro.init k.micros i).steps.filterMap fun st => if fld st 31 26 = 0x0A then some (.table (fld st 13 10)) else none
  else []

/-- The cores and the slot of a LOAD message's INLINE field (R249, R251). -/
def loadTarget (opcode : BitVec 16) (p : BitVec 384) : List Nat × FnSlot :=
  (coresOf (fld p 23 0), if opcode = 0x0411 then .table (fld p 27 24) else .micro (fld p 29 24))

/-- No started command on the named cores uses the slot (R253). -/
def loadFree (s : State) (opcode : BitVec 16) (p : BitVec 384) : Bool :=
  let t := loadTarget opcode p
  t.1.all fun c => (List.range 4).all fun q => (s.queue c q).started.all fun e => !(fnSlots (s.core c) e.desc).contains t.2

/-- No held LOAD message keeps a command of a core from starting (R253). -/
def fnOpen (s : State) (c : Nat) (d : BitVec 512) : Bool :=
  let used := fnSlots (s.core c) d
  used.isEmpty || !(s.mbx.held.any fun h => (h.opcode == 0x0410 || h.opcode == 0x0411) &&
    (let t := loadTarget h.opcode (effPayload h.msg)
     t.1.contains c && used.contains t.2))

/-- One table entry of 16 bytes: c0, c1, c2 and a reserved word (R248). -/
def tableEntry (bs : List Byte) : F32 × F32 × F32 :=
  let x := BitVec.ofNat 128 (leNat bs)
  (fb x 0 32, fb x 32 32, fb x 64 32)

/-- The entries of a table image. -/
def tableImage (req : List Byte) : List (List Byte) := chunksOf 16 1024 (padTo 16384 req)

/-- The table that a LOAD_TABLE message describes (R248, R249). -/
def tableOf (p : BitVec 384) (req : List Byte) : FnTable :=
  { xLo := fb p 32 32, invH := fb p 64 32, quad := bit p 28, entries := tsetList (0, 0, 0) [] 0 ((tableImage req).map tableEntry) }

/-- The constants of a micro-program image. -/
def microConsts (req : List Byte) : List F32 := (chunksOf 4 16 (padTo 64 req)).map fun b => BitVec.ofNat 32 (leNat b)

/-- The steps of a micro-program image (R251). -/
def microSteps (req : List Byte) : List (BitVec 32) := (chunksOf 4 256 ((padTo 1088 req).drop 64)).map fun b => BitVec.ofNat 32 (leNat b)

/-- A step is END (R250). -/
def isEnd (st : BitVec 32) : Bool := fld st 31 26 == 0

/-- A step before END is admitted (R251). -/
def microStepOk (st : BitVec 32) : Bool :=
  let op := fld st 31 26
  let k := fld st 13 10
  decide (op ≤ 12) && fld st 8 0 == 0 && (op != 9 || (decide (2 ≤ k) && decide (k ≤ 11))) && !((op == 9 || op == 10) && bit st 9)

/-- A micro-program image is admitted (R251). -/
def microOk (req : List Byte) : Bool :=
  let st := microSteps req
  st.any isEnd && (st.takeWhile fun x => !isEnd x).all microStepOk

/-- The micro-program that an image holds; steps from END on are not kept (R251). -/
def microOf (req : List Byte) : Micro := { consts := microConsts req, steps := ((microSteps req).takeWhile fun x => !isEnd x) ++ [0] }

/-- A load takes effect on every named core (R249, R251). -/
def applyLoad (s : State) (opcode : BitVec 16) (p : BitVec 384) (req : List Byte) : State :=
  let t := loadTarget opcode p
  t.1.foldl (fun s c => s.modCore c fun k => match t.2 with
    | .table i => { k with tables := tset FnTable.init k.tables i (tableOf p req) }
    | .micro i => { k with micros := tset Micro.init k.micros i (microOf req) }) s

/-- A load is applied at once, or held until its slot is free and no earlier load of it waits (R81, R253). -/
def loadNow (s : State) (x : Ctx) (opcode : BitVec 16) : Answer :=
  let h := heldOf opcode.toNat x.m 0
  if loadFree s opcode x.p && !s.behind h then .done (applyLoad s opcode x.p x.m.req) .ok else .hold s h

/-- LOAD_MICROPROGRAM (R251 to R254). -/
def execLoadMicroprogram (m : Msg) (s : State) : Res :=
  serve { plainOp 0x0410 1 [(383, 30)] with cap := some capMicro, buf := true } m s fun s x =>
    if !x.m.ptr || msgReqLen x.m != 1088 || !microOk x.m.req then refuse s 0x201 else loadNow s x 0x0410

/-- LOAD_TABLE (R249, R252 to R254). -/
def execLoadTable (m : Msg) (s : State) : Res :=
  serve { plainOp 0x0411 1 [(383, 96), (31, 29)] with cap := some capTables, buf := true } m s fun s x =>
    if !x.m.ptr || msgReqLen x.m != 16384 || !((tableImage x.m.req).all fun b => leNat (b.drop 12) == 0) then refuse s 0x201 else loadNow s x 0x0411

end Sys2Proof.Machine
end

