-- ==== Sys2Proof/Machine/Matrix.lean ====
section
/-! DEFINITION. The matrix commands MATMUL, CONV and ELTWISE: operand reads (R172 to R174, R202, R207 to R210), the epilogue and the tap (R222 to R229, R335), and the arrays that run them (R178, R203 to R205). -/

namespace Sys2Proof.Machine

/-- One operand element by logical address (R145, R152). -/
def Run.elem (r : Run) (fmt : Nat) (a : Actl) (base addr : Nat) : FV × Run :=
  let d := r.localRead base addr (fmtBytes fmt)
  let v := readFp (fmtAt fmt) a (leNat (vals d.1))
  (v.1, d.2.flag v.2)

/-- `n` positions of a lane from position `j` of the operand at `base`; a position without an address holds no value. -/
def readLane (fmt : Nat) (a : Actl) (base : Nat) (addr : Nat → Option Nat) : Nat → Nat → Run → Lane × Run
  | 0, _, r => ([], r)
  | n + 1, j, r =>
    let h : Option FV × Run := match addr j with
      | none => (none, r)
      | some x =>
        let e := r.elem fmt a base x
        (some e.1, e.2)
    let t := readLane fmt a base addr n (j + 1) h.2
    (h.1 :: t.1, t.2)

/-- `n` lanes of `len` positions from lane `i`. -/
def readLanes (fmt : Nat) (a : Actl) (base : Nat) (addr : Nat → Nat → Option Nat) (len : Nat) : Nat → Nat → Run → List Lane × Run
  | 0, _, r => ([], r)
  | n + 1, i, r =>
    let h := readLane fmt a base (addr i) len 0 r
    let t := readLanes fmt a base addr len n (i + 1) h.2
    (h.1 :: t.1, t.2)

/-- Lanes continued, each by its own. -/
def joinLanes (xs ys : List Lane) : List Lane := List.zipWith (fun x y => x ++ y) xs ys

/-- Lanes in the other orientation, `n` of them. -/
def turnLanes (n : Nat) (ls : List Lane) : List Lane := (List.range n).map fun i => ls.map fun l => l.getD i none

/-- One 32×32 block of a stored matrix, read whole (R172, R181): its first `ni` rows of `nj` positions, where a position that is not live holds no value. Parity is checked on the words that hold the values (R302). -/
def readBlock (fmt : Nat) (a : Actl) (base addr : Nat) (live : Nat → Nat → Bool) (ni nj : Nat) (r : Run) : List Lane × Run :=
  let d := r.usedRead base addr (1024 * fmtBytes fmt) fun i =>
    let k := i / fmtBytes fmt
    decide (k / 32 < ni) && decide (k % 32 < nj) && live (k / 32) (k % 32)
  let rows := ((chunksOf 32 33 (wordsOf (fmtBytes fmt) d.1)).take ni).zipIdx.map fun row =>
    (row.1.take nj).zipIdx.map fun x => if live row.2 x.2 then some (readFp (fmtAt fmt) a x.1) else none
  (rows.map fun row => row.map fun x => x.map fun v => v.1, d.2.flag (rows.flatten.foldl (fun f x => f ||| (x.map fun v => v.2).getD 0) 0))

/-- Rows `i0` to `i0 + ni - 1` and columns `j0` to `j0 + nj - 1` of a stored matrix of `cols` columns, block by block in ascending address order (R172, R181). -/
def readBlocks (fmt : Nat) (a : Actl) (base cols : Nat) (live : Nat → Nat → Bool) (i0 ni j0 nj : Nat) (r : Run) : List Lane × Run :=
  (List.range (ceilDiv ni 32)).foldl (fun acc bi =>
    let i := i0 + 32 * bi
    let rows := min 32 (ni - 32 * bi)
    let row := (List.range (ceilDiv nj 32)).foldl (fun row bj =>
      let j := j0 + 32 * bj
      let d := readBlock fmt a base (base + layoutOff cols fmt i j) (fun x y => live (i + x) (j + y)) rows (min 32 (nj - 32 * bj)) row.2
      (joinLanes row.1 d.1, d.2)) (List.replicate rows [], acc.2)
    (acc.1 ++ row.1, row.2)) ([], r)

/-- The input pixel under a kernel tap of an output position, inside the input (R208, R210). -/
def convPixel (g : ConvGeom) (t k : Nat) : Option Nat :=
  let tap := k / g.cpad
  let y := t / g.ow * g.sy + tap / g.kw * g.dy
  let x := t % g.ow * g.sx + tap % g.kw * g.dx
  if g.padT ≤ y ∧ y < g.padT + g.ih ∧ g.padL ≤ x ∧ x < g.padL + g.iw then some ((y - g.padT) * g.iw + (x - g.padL)) else none

/-- The address of stationary element (t, k) (R174, R207, R208, R210). -/
def statAddr (m : MatArgs) (t k : Nat) : Option Nat :=
  match m.geom with
  | none => some (m.stat + if m.statTurned then layoutOff m.tokens m.statFmt k t else layoutOff m.reduce m.statFmt t k)
  | some g => if g.c ≤ k % g.cpad then none else (convPixel g t k).map fun p => m.stat + layoutOff g.c m.statFmt p (k % g.cpad)

/-- Reduction position `k` of a weight vector is no masked channel (R208, R210). -/
def MatArgs.weighs (m : MatArgs) (k : Nat) : Bool := match m.geom with
  | none => true
  | some g => decide (k % g.cpad < g.c)

/-- The stationary tile of lane tile `lt` and chunk `ch`: the loader reads it row by row, and within a row column by column (R183, R193). The lanes are those of its tokens, over the chunk's positions. -/
def loadTile (m : MatArgs) (a : Actl) (lt ch : Nat) (r : Run) : List Lane × Run :=
  let g := shapeGeom m.shape m.statFmt
  let t0 := lt * g.lanes
  let n := min g.lanes (m.tokens - t0)
  let len := min g.span (m.reduce - ch * g.span)
  let d := readLanes m.statFmt a m.stat (fun i j =>
    let k := i % g.groups * g.seg + i / g.groups
    if k < len then statAddr m (t0 + j) (ch * g.span + k) else none) n g.span 0 r
  ((turnLanes n d.1).map fun x => (List.range len).map fun k => x.getD (k % g.seg * g.groups + k / g.seg) none, d.2)

/-- The weight vectors of panel `p` over chunk `ch`, as the feeders read their blocks (R181, R184). -/
def loadWeights (m : MatArgs) (a : Actl) (p ch : Nat) (r : Run) : List Lane × Run :=
  let g := shapeGeom m.shape m.statFmt
  let n0 := p * m.panel
  let k0 := ch * g.span
  let n := min m.panel (m.vectors - n0)
  let len := min g.span (m.reduce - k0)
  if m.wtTurned then
    let d := readBlocks m.wtFmt a m.wt m.vectors (fun k _ => m.weighs k) k0 len n0 n r
    (turnLanes n d.1, d.2)
  else readBlocks m.wtFmt a m.wt m.reduce (fun _ k => m.weighs k) n0 n k0 len r

/-- The start values of ACC_IN for a lane tile and panel: the FP32 values at OUT_ADDR, operands like any other (R145, R190; log entry 103). -/
def accStart (m : MatArgs) (a : Actl) (t0 tn n0 nn : Nat) (r : Run) : List Lane × Run :=
  if m.accIn then readLanes 0 a m.out (fun t n => some (m.out + layoutOff m.vectors 0 (t0 + t) (n0 + n))) nn tn 0 r else ([], r)

/-- Value (i, j) of lanes, +0 where there is none. -/
def laneAt (ls : List Lane) (i j : Nat) : FV := ((ls.getD i []).getD j none).getD pZero

/-- The accumulators of lane tile `lt` and panel `p`, in token and vector order, with their flags (R190). -/
def accumulators (m : MatArgs) (a : Actl) (us : List ArrayUpset) (lt p : Nat) (rows wts start : List Lane) : List (List (FV × Flags)) :=
  let g := shapeGeom m.shape m.statFmt
  let fp8 := decide (3 ≤ m.statFmt)
  rows.zipIdx.map fun x => wts.zipIdx.map fun w =>
    let n := p * m.panel + w.2
    let d := drainSum a g fp8 us (m.pass lt p 0) (m.arrayOf n) n x.2 x.1 w.1 m.reduce (laneAt start x.2 w.2)
    (drainErr us (lt * g.lanes + x.2) n d.1, d.2)

/-- The epilogue's outputs from the accumulators whose first is output (t0, n0), where errors may replace their codes (R220, R222). -/
def epiGrid (k : Core) (e : Started) (a : Actl) (us : List ArrayUpset) (c : EpiCfg) (x : BitVec 512) (v : EpiVecs) (t0 n0 : Nat) (acc : List (List (FV × Flags))) : List (List EpiOut) :=
  acc.zipIdx.map fun row => row.1.zipIdx.map fun y =>
    let o := epilogue k e a c x v y.1.1 (t0 + row.2) (n0 + y.2)
    { o with code := outErr us (t0 + row.2) (n0 + y.2) o.code, flags := o.flags ||| y.1.2 }

/-- The bytes of outputs. -/
def outBytes (fmt : Nat) (os : List EpiOut) : List Bt := cleanBytes (os.flatMap fun o => leBytes (fmtBytes fmt) o.code)

/-- The flags of outputs. -/
def outFlags (os : List EpiOut) : Flags := os.foldl (fun f o => f ||| o.flags) 0

/-- The flags of the outputs that are not late, of which the first has number `i`. -/
def dueFlags (late : List Nat) (i : Nat) (os : List EpiOut) : Flags := outFlags ((os.zipIdx.filter fun o => !late.contains (i + o.2)).map fun o => o.1)

/-- A panel's outputs, the first of them (t0, n0), are written in block layout, each block's part of a row at once; padding positions keep their contents (R172, R202, R304). Output (t, n) has number t × columns + n; the flags of late ones come with their bytes. -/
def Run.writeGrid (r : Run) (base cols fmt t0 n0 : Nat) (late : List Nat) (outs : List (List EpiOut)) : Run :=
  outs.zipIdx.foldl (fun r row => (chunksOf 32 (row.1.length / 32 + 1) row.1).zipIdx.foldl (fun r c =>
    (r.localWrite base (base + layoutOff cols fmt (t0 + row.2) (n0 + 32 * c.2)) (outBytes fmt c.1)).flag (dueFlags late ((t0 + row.2) * cols + n0 + 32 * c.2) c.1)) r) r

/-- Outputs that are written later than the next command: their bytes and parity return to what they were, and what they will be waits with their flags (R155, R179; log entry 55). An output is named by its logical address. -/
def Run.holdBack (r : Run) (before : Core) (base fmt : Nat) (late : List (Nat × Flags)) : Run :=
  let e := fmtBytes fmt
  late.foldl (fun w x =>
    let p := xlatPart r.k.cfg r.queue base x.1 e true
    if p.1 < e then w.flag x.2
    else
      let part : BufPart := { off := p.2, bytes := (List.range e).map fun i => tget 0 r.k.spad (p.2 + i), marks := [tget false r.k.badWords (p.2 / 4)], note := some { flags := x.2, status := 0, detail := 0, unit := 0, count := 0 } }
      { w with
        s := w.s.modCore w.core fun k =>
          { k with
            spad := (List.range e).foldl (fun t i => tset 0 t (p.2 + i) (tget 0 before.spad (p.2 + i))) k.spad
            badWords := tset false k.badWords (p.2 / 4) (tget false before.badWords (p.2 / 4)) }
        e := { w.e with buf := w.e.buf ++ [part] } }) r

/-- An output that was held back is written, unless its segment is off meanwhile (R179, R300). -/
def Run.putLate (r : Run) (p : BufPart) : Run :=
  if r.k.segDead p.off then r.fault 0x302 p.off
  else
    let r : Run := { r with s := r.s.modCore r.core fun k =>
      { k with
        spad := p.bytes.zipIdx.foldl (fun t x => tset 0 t (p.off + x.2) x.1) k.spad
        badWords := tset false k.badWords (p.off / 4) (p.marks.contains true) } }
    r.flag ((p.note.map fun n => n.flags).getD 0)

/-- The outputs that were held back are written, and the command's work is over. -/
def attemptLate (r : Run) : Run :=
  let w := r.e.buf.foldl Run.putLate r
  { w with e := { w.e with buf := [], wait := .none } }.finish

/-- A command whose outputs have been written, but for those held back, is over or waits for its completion. -/
def Run.outsDone (r : Run) : Run := if r.e.buf.isEmpty then r.finish else { r with e := { r.e with cursor := 1, wait := .none } }

/-- A matrix command between panels: the current lane tile, every stationary and weight value read so far, the outputs, and how many panels have run. -/
structure MatRun where
  run : Run
  tile : List Lane
  rows : List Lane
  wts : List Lane
  outs : List (List EpiOut)
  reached : Nat

/-- The operands of lane tile `lt` and panel `p`, pass by pass: a tile is read with its first panel, the weights with the first lane tile, and a later read finds what the first one found (R184). The answer is the tile's lanes, the panel's, and the run. -/
def loadPanel (m : MatArgs) (a : Actl) (lt p tn nn : Nat) (st : MatRun) : List Lane × List Lane × Run :=
  (List.range m.chunks).foldl (fun acc ch =>
    let x := if p = 0 then loadTile m a lt ch acc.2.2 else ([], acc.2.2)
    let w := if lt = 0 then loadWeights m a p ch x.2 else ([], x.2)
    (if p = 0 then joinLanes acc.1 x.1 else acc.1, if lt = 0 then joinLanes acc.2.1 w.1 else acc.2.1, w.2))
    (if p = 0 then List.replicate tn [] else st.tile, if lt = 0 then List.replicate nn [] else (st.wts.drop (p * m.panel)).take nn, st.run)

/-- One panel of one lane tile: its passes, then its start values (log entry 113), its epilogue and its writes. A vector that cannot be read ends the command (R184, R190, R222, R224, R229). -/
def matPanel (m : MatArgs) (a : Actl) (c : EpiCfg) (x : BitVec 512) (us : List ArrayUpset) (late : List Nat) (st : MatRun) (lp : Nat × Nat) : MatRun :=
  if st.run.e.done then st
  else
    let lanes := (shapeGeom m.shape m.statFmt).lanes
    let t0 := lp.1 * lanes
    let n0 := lp.2 * m.panel
    let tn := min lanes (m.tokens - t0)
    let nn := min m.panel (m.vectors - n0)
    let d := loadPanel m a lp.1 lp.2 tn nn st
    let start := accStart m a t0 tn n0 nn d.2.2
    let rv := start.2.readVecs c x n0 nn
    let got : MatRun :=
      { st with
        run := rv.2, tile := d.1
        rows := if lp.2 = 0 then st.rows ++ d.1 else st.rows
        wts := if lp.1 = 0 then st.wts ++ d.2.1 else st.wts
        reached := st.reached + 1 }
    match rv.1 with
    | none => got
    | some v =>
      let outs := epiGrid rv.2.k rv.2.e a us c x v t0 n0 (accumulators m a us lp.1 lp.2 d.1 d.2.1 start.1)
      let old := if lp.2 = 0 then st.outs ++ List.replicate tn [] else st.outs
      { got with
        run := rv.2.writeGrid m.out m.vectors c.fmt t0 n0 late outs
        outs := old.take (old.length - tn) ++ List.zipWith (fun x y => x ++ y) (old.drop (old.length - tn)) outs }

/-- Every panel of a command, in the order of R184. -/
def matPanels (m : MatArgs) (a : Actl) (c : EpiCfg) (x : BitVec 512) (us : List ArrayUpset) (late : List Nat) (r : Run) : MatRun :=
  m.tilePanels.foldl (matPanel m a c x us late) { run := r, tile := [], rows := [], wts := [], outs := [], reached := 0 }

/-- The byte image of Out's footprint that a tap appends: the tap values, zero at padding positions (R335). -/
def tapImage (rows cols fmt : Nat) (outs : List (List EpiOut)) : List Byte :=
  (List.range (ceilDiv rows 32)).flatMap fun bi => (List.range (ceilDiv cols 32)).flatMap fun bj =>
    (List.range 32).flatMap fun i => (List.range 32).flatMap fun j =>
      leBytes (fmtBytes fmt) (match (outs.getD (32 * bi + i) [])[32 * bj + j]? with | none => 0 | some o => o.tap)

/-- The tap is appended to its stream; a fault leaves Out written (R227, R339). The coding of the tap raises no NX in the matrix command (R153). -/
def Run.tap (r : Run) (c : EpiCfg) (x : BitVec 512) (a : Actl) (bytes : List Byte) : Run :=
  if c.tap then
    let w := (r.append (fld x 322 320) a (cleanBytes bytes) (c.fmt == 1)).claims (fld x 322 320)
    { w with e := { w.e with flags := r.e.flags ||| noNX w.e.flags } }
  else r

/-- Mismatching checks give ABFT_MISMATCH, RESULT their number and DETAIL the first (R219). -/
def Run.checked (r : Run) (ms : List Mismatch) : Run :=
  match ms with
  | [] => r
  | m :: _ =>
    let r' := r.fault 0x401 (m.array * 2 ^ 30 + m.kind * 2 ^ 29 + m.pass % 2 ^ 29)
    { r' with e := { r'.e with result := BitVec.ofNat 32 (min ms.length 0xFFFFFFFF) } }

/-- The arrays take a command: it runs or is pending, gated quarters ask for their ramp-up, and a ramp-down that waits is given up (R178, R205). -/
def takeArrays (r : Run) : Run :=
  { r with s := r.s.modCore r.core fun k =>
      { k with arrays := (arraysOf r.e.desc).foldl (fun t i => tmod ArrayState.init t i fun x =>
          { x with cmds := x.cmds ++ [(r.queue, r.e.id)], rampUp := x.gated != 0, rampDown := false }) k.arrays } }

/-- The control byte of a command. -/
def Run.actl (r : Run) : Actl := actlOf (fb (cmdBody r.e.desc) 0 8)

/-- A matrix command's panels and checks; late outputs are those that the next command does not find written (R179, R184, R219). A command that a vector ends has no late output. -/
def matWork (m : MatArgs) (c : EpiCfg) (x : BitVec 512) (us : List ArrayUpset) (late : List Nat) (r : Run) : MatRun :=
  let a := r.actl
  let d := matPanels m a c x us late r
  let d := if d.run.e.done then matPanels m a c x us [] r else d
  { d with run := d.run.checked (allChecks m a us d.reached d.rows d.wts) }

/-- MATMUL and CONV at work (R174 to R191, R202, R208 to R223). `late` are the outputs, numbered t × VECTORS + n, that are not yet written when the next command comes (R179; log entry 55). -/
def attemptMatrix (us : List ArrayUpset) (late : List Nat) (r : Run) : Run :=
  let m := matArgs r.e.desc
  let c := epiCfg m.epi
  let rc := (takeArrays r).readRec c
  match rc.1 with
  | none => rc.2
  | some x =>
    if dropTooFar c x m.tokens m.vectors then rc.2.failWith 0x201 0
    else
      let late := late.eraseDups.filter fun i => decide (i < m.tokens * m.vectors)
      let d := matWork m c x us late rc.2
      if d.run.e.done then d.run
      else
        let w := d.run.tap c x rc.2.actl (tapImage m.tokens m.vectors c.fmt d.outs)
        (w.holdBack rc.2.k m.out c.fmt (late.map fun i =>
          (m.out + layoutOff m.vectors c.fmt (i / m.vectors) (i % m.vectors), (((d.outs.getD (i / m.vectors) [])[i % m.vectors]?).map fun o => o.flags).getD 0))).outsDone

/-- One element-wise product, rounded to FP32; no accumulation from +0 follows it, so that a product of -0 stays -0 (R212; log entry 104). -/
def eltProduct (a : Actl) (p : Option FV × Option FV) : FV × Flags :=
  let t := termOf p.1 p.2
  let x := roundArr a t.1
  (x.1, t.2 ||| x.2)

/-- Products per cycle of ELTWISE by the format of X (R212). -/
def eltRate (fmt : Nat) : Nat := if fmt = 0 then 8 else if fmt ≤ 2 then 32 else 64

/-- The operands of an ELTWISE, cycle by cycle: X and B of each cycle's products in turn (R212). -/
def readElts (a : Actl) (xf bf x b n : Nat) (r : Run) : List (Option FV × Option FV) × Run :=
  (List.range (ceilDiv n (eltRate xf))).foldl (fun acc i =>
    let i0 := i * eltRate xf
    let len := min (eltRate xf) (n - i0)
    let xs := readLane xf a x (fun j => some (x + j * fmtBytes xf)) len i0 acc.2
    let bs := readLane bf a b (fun j => some (b + j * fmtBytes bf)) len i0 xs.2
    (acc.1 ++ xs.1.zip bs.1, bs.2)) ([], r)

/-- ELTWISE at work (R212, R222); an error of a cell replaces a product, and no check sees it (R220). `late` are the outputs that are not yet written when the next command comes (R179; log entry 55). -/
def attemptEltwise (us : List ArrayUpset) (late : List Nat) (r : Run) : Run :=
  let b := cmdBody r.e.desc
  let c := epiCfg (fb b 320 64)
  let a := r.actl
  let n := eltCount b
  let rc := (takeArrays r).readRec c
  match rc.1 with
  | none => rc.2
  | some x =>
    if dropTooFar c x 1 n then rc.2.failWith 0x201 0
    else
      let d := readElts a (fld b 18 16) (fld b 22 20) (fld b 119 96) (fld b 151 128) n rc.2
      let rv := d.2.readVecs c x 0 n
      match rv.1 with
      | none => rv.2
      | some v =>
        let ps := (d.1.map (eltProduct a)).zipIdx.map fun p => (drainErr us 0 p.2 p.1.1, p.1.2)
        let outs := (epiGrid rv.2.k rv.2.e a us c x v 0 0 [ps]).flatten
        let late := late.eraseDups.filter fun i => decide (i < n)
        let w := (rv.2.localWrite (fld b 183 160) (fld b 183 160) (outBytes c.fmt outs)).flag (dueFlags late 0 outs)
        ((w.tap c x a (outs.flatMap fun o => leBytes (fmtBytes c.fmt) o.tap)).holdBack rv.2.k (fld b 183 160) c.fmt (late.map fun i =>
          (fld b 183 160 + i * fmtBytes c.fmt, ((outs[i]?).map fun o => o.flags).getD 0))).outsDone

/-- The stream that a matrix command taps, by its epilogue record (R223, R334). -/
def tapStream (s : State) (c q : Nat) (d : BitVec 512) : Option Nat :=
  let e := epiCfg (fb (cmdBody d) 320 64)
  if e.tap then (xlat (s.core c).cfg q e.line 64 false).map fun p => fld (tget 0 (s.core c).spad (p + 40)) 2 0 else none

/-- Every named array can take a command, a tapped stream is free, and neither a held load nor a power hold keeps the command back (R178, R253, R334, R684). -/
def arraysAccept (c q : Nat) (s : State) (d : BitVec 512) : Bool :=
  s.powerOpen && ((arraysOf d).all fun i => decide ((tget ArrayState.init (s.core c).arrays i).cmds.length < 2))
    && (match tapStream s c q d with | none => true | some st => !streamBusy s c st) && fnOpen s c d

/-- MATMUL (R174). -/
def execMatmul (core : CoreId) (queue : QueueId) (upsets : List ArrayUpset) (late : List Nat) (s : State) : Res := startCmd [0x10] core.val queue.val s (arraysAccept core.val queue.val) (attemptMatrix upsets late)

/-- CONV (R208). -/
def execConv (core : CoreId) (queue : QueueId) (upsets : List ArrayUpset) (late : List Nat) (s : State) : Res := startCmd [0x11] core.val queue.val s (arraysAccept core.val queue.val) (attemptMatrix upsets late)

/-- ELTWISE (R212). -/
def execEltwise (core : CoreId) (queue : QueueId) (upsets : List ArrayUpset) (late : List Nat) (s : State) : Res := startCmd [0x12] core.val queue.val s (arraysAccept core.val queue.val) (attemptEltwise upsets late)

/-- After RIPPLE_GAP idle cycles an array begins to ramp down: an array without a command, or one whose command has met bubbles or freezes for as long; `ends` says that such a run of a command's idle cycles ends, which ramps the array up again (R203 to R206). -/
def execRampDown (core : CoreId) (array : Fin 4) (ends : Bool) (s : State) : Res :=
  .next (s.modCore core.val fun k => { k with arrays := tmod ArrayState.init k.arrays array.val fun x =>
    if ends then (if x.cmds.isEmpty then x else { x with rampDown := false, rampUp := x.gated != 0 })
    else if x.gated != 0xF then { x with rampDown := true, rampUp := false } else x })

/-- An array waits for the ramp arbiter. -/
def ArrayState.asks (x : ArrayState) : Bool := x.rampUp || x.rampDown

/-- One quarter ramp: down in the order 3, 2, 1, 0, up in the order 0, 1, 2, 3 (R204, R205). -/
def ArrayState.ramp (x : ArrayState) : ArrayState :=
  if x.rampDown then
    let g := x.gated ||| (match [3, 2, 1, 0].find? fun q => !x.gated.getLsbD q with | none => 0 | some q => 1#4 <<< q)
    { x with gated := g, rampDown := g != 0xF }
  else if x.rampUp then
    let g := x.gated &&& ~~~(match [0, 1, 2, 3].find? fun q => x.gated.getLsbD q with | none => 0 | some q => 1#4 <<< q)
    { x with gated := g, rampUp := g != 0 }
  else x

/-- The array of a core that the arbiter serves next: the first that asks, in turn after the one it served last (R691). -/
def Core.nextRamp (k : Core) : Option Nat := ((List.range 4).map fun i => (k.lastRamp + 1 + i) % 4).find? fun a => (tget ArrayState.init k.arrays a).asks

/-- The core and the array that the arbiter serves next: the first core with an array that asks, in turn after the core it served last (R691). -/
def State.nextRamp (s : State) : Option (Nat × Nat) :=
  ((List.range 24).map fun i => (s.power.rampCore + 1 + i) % 24).findSome? fun c => (s.core c).nextRamp.map fun a => (c, a)

/-- The ramp arbiter grants one waiting quarter ramp, round-robin by core, and within a core by array number; while the core clocks are stopped it grants none (R691 to R693; log entry 27). -/
def execRampGrant (s : State) : Res :=
  match if s.clocked then s.nextRamp else none with
  | none => .next s
  | some (c, a) =>
    let s := s.modCore c fun k => { k with arrays := tmod ArrayState.init k.arrays a ArrayState.ramp, lastRamp := a }
    .next { s with power := { s.power with rampCore := c } }

end Sys2Proof.Machine
end

