-- ==== Sys2Proof/Machine/Vector.lean ====
section
/-! DEFINITION. The vector unit: VEC_ELEM, VEC_FUNC, VEC_ROWSTAT, VEC_SOFTMAX and VEC_NORM (R144, R157, R225, R232 to R247). -/

namespace Sys2Proof.Machine

/-- Element-wise arithmetic on FP32 values (R144, R233); COPY is the value itself. -/
def elemOp (a : Actl) (func : Nat) (x y z scalar : FV) : FV × Flags :=
  match func with
  | 0 => roundVec a (addX a.rnd x y)
  | 1 => roundVec a (addX a.rnd x (negX y))
  | 2 => roundVec a (mulX x y)
  | 3 => roundVec a (fmaX a.rnd x y z)
  | 4 => (maxV x y, 0)
  | 5 => (minV x y, 0)
  | 7 => roundVec a (mulX x scalar)
  | 8 => roundVec a (addX a.rnd x scalar)
  | _ => (x, 0)

/-- Values with the flags of their making. -/
abbrev Vals := List FV × Flags

/-- A function applied to each value, flags accumulated. -/
def mapV (f : FV → FV × Flags) (xs : List FV) : Vals :=
  let r := xs.map f
  (r.map fun v => v.1, r.foldl (fun acc v => acc ||| v.2) 0)

/-- The lane of element j is j mod 64, and each lane combines its elements in ascending j (R241). -/
def laneFold (f : FV → FV → FV × Flags) (start : FV) (xs : List FV) : Vals :=
  (chunksOf 64 (xs.length / 64 + 1) xs).foldl
    (fun acc c =>
      let r := acc.1.zipIdx.map fun p => match (c.drop p.2).head? with
        | none => (p.1, (0 : Flags))
        | some x => f p.1 x
      (r.map fun v => v.1, r.foldl (fun fl v => fl ||| v.2) acc.2))
    (List.replicate 64 start, 0)

/-- A statistic of a row: the lanes, then the pairwise tree of six levels (R241). Lanes start from the given value, +0 for a sum as in R188 and -Infinity for the maximum; a lane without elements enters the tree with it (log entry 32). -/
def rowStat (f g : FV → FV → FV × Flags) (start : FV) (xs : List FV) : FV × Flags :=
  let l := laneFold f start xs
  let t := treeSum g 6 l.1
  (t.1, l.2 ||| t.2)

/-- The row maximum (R233, R241). -/
def rowMax (xs : List FV) : FV := (rowStat (fun a b => (maxV a b, 0)) (fun a b => (maxV a b, 0)) (.inf true) xs).1

/-- The row sum (R241). In a row operation every FP32 rounding is RNE, and the command's SAT and FTZ act at it; what one of its operations computes is no operand for DAZ and DN in the next (log entry 98). -/
def rowSum (a : Actl) (xs : List FV) : FV × Flags := rowStat (add32 a) (add32 a) pZero xs

/-- The row's sum of squares (R241). -/
def rowSumSq (a : Actl) (xs : List FV) : FV × Flags := rowStat (fun acc x => fma32 a x x acc) (add32 a) pZero xs

/-- A row statistic as FP32 memory holds it: FTZ acts on the result (R145). -/
def statWord (a : Actl) (v : FV) : F32 × Flags :=
  let c := convertTo fp32 a.rne v
  (BitVec.ofNat 32 c.1, c.2)

/-- LOG2E (R243). -/
def log2e : FV := v32 0x3FB8AA3B

/-- EXP2((x - m) × LOG2E), each operation rounded to FP32 under RNE; a subnormal result among them is used as it is (R243; log entry 98). -/
def expShift (a : Actl) (m x : FV) : FV × Flags :=
  let d := add32 a x (negX m)
  let p := mul32 a d.1 log2e
  let e := builtin 2 a p.1
  (e.1, d.2 ||| p.2 ||| e.2)

/-- Operands of a row encoded in a format, each with its flags; `nx` false withholds NX (R233). -/
def encodeRow (a : Actl) (fmt : Nat) (nx : Bool) (xs : List (FV × Flags)) : List Byte × Flags :=
  let blocks (f : List (FV × Flags) → List Byte × Flags) : List Byte × Flags :=
    let r := (chunksOf 32 (xs.length / 32 + 1) xs).map f
    (r.flatMap fun b => b.1, r.foldl (fun acc b => acc ||| b.2) 0)
  let r :=
    if fmt = 5 then blocks (encodeBs8 a)
    else if fmt = 6 then blocks (encodeBs8u a)
    else
      let r := xs.map fun x => convertTo (fmtAt fmt) a x.1
      (r.flatMap fun v => leBytes (fmtBytes fmt) v.1, joinFlags r ||| joinFlags xs)
  (r.1, if nx then r.2 else noNX r.2)

/-- The elements of a row of bytes in a format, under DAZ, each with its DN (R136, R145). -/
def decodeElems (a : Actl) (fmt : Nat) (bs : List Byte) : List (FV × Flags) :=
  if fmt = 5 ∨ fmt = 6 then
    (chunksOf 33 (bs.length / 33 + 1) bs).flatMap fun b =>
      let e := (b.getD 32 0).toNat
      (b.take 32).map fun c => (if fmt = 5 then decodeBs8 e c else decodeBs8u e c, 0)
  else (chunksOf (fmtBytes fmt) (bs.length + 1) bs).map fun b => readFp (fmtAt fmt) a (leNat b)

/-- Values with their joint flags. -/
def joinVals (xs : List (FV × Flags)) : Vals := (xs.map fun v => v.1, joinFlags xs)

/-- Values of a row of bytes in a format, under DAZ (R136, R145). -/
def decodeRow (a : Actl) (fmt : Nat) (bs : List Byte) : Vals := joinVals (decodeElems a fmt bs)

/-- What one row yields: pieces to write, as the operand's address, the piece's address and bytes, with flags. -/
structure RowOut where
  writes : List (Nat × Nat × List Byte)
  flags : Flags
  deriving DecidableEq, Repr

/-- A row of results in OUT. -/
def rowOut (v : VecArgs) (a : Actl) (row : Nat) (nx : Bool) (r : Vals) : RowOut :=
  let e := encodeRow a v.outFmt nx (r.1.map fun x => (x, 0))
  { writes := [(v.out, v.out + row * v.stride v.outFmt, e.1)], flags := r.2 ||| e.2 }

/-- VEC_ELEM COPY on one row's elements: a conversion of each operand, or an encoding of each block (R144, R158, R233). A BS8 or BS8U element is a subnormal input where its FP32 value is one (log entry 99). -/
def copyRow (v : VecArgs) (a : Actl) (row : Nat) (xs : List (FV × Flags)) : RowOut :=
  let blocked := decide (5 ≤ v.aFmt) && decide (5 ≤ v.outFmt)
  let e := encodeRow a v.outFmt true (if blocked then xs.map fun x => operand32 a x.1 else xs)
  { writes := [(v.out, v.out + row * v.stride v.outFmt, e.1)], flags := e.2 }

/-- VEC_FUNC on one element, to its FP32 result (R239). The reciprocal of a subnormal that overflows raises OF and NX alone (R157). -/
def funcElem (k : Core) (v : VecArgs) (a : Actl) (x : FV × Flags) : FV × Flags :=
  let y := fnEval k v.func a x.1
  let big := (convertTo (fmtAt v.outFmt) a y.1).2 &&& fOF != 0 || y.2 &&& fOF != 0
  (y.1, (if v.func == 4 && big then 0 else x.2) ||| y.2)

/-- VEC_ELEM on one row, COPY and DROP apart (R232, R233). -/
def elemRow (v : VecArgs) (a : Actl) (row : Nat) (xs ys zs : List FV) : RowOut :=
  let sc : FV × Flags := if v.func = 7 ∨ v.func = 8 then word32 a v.scalar else (pZero, 0)
  let r := xs.zipIdx.map fun x => elemOp a v.func x.1 (ys.getD x.2 pZero) (zs.getD x.2 pZero) sc.1
  rowOut v a row (v.func != 4 && v.func != 5) (r.map fun y => y.1, r.foldl (fun acc y => acc ||| y.2) sc.2)

/-- VEC_ELEM DROP on one row's patterns: a dropped element is +0 and raises no flag (R225, R226). -/
def dropRow (e : Started) (v : VecArgs) (a : Actl) (x : BitVec 512) (row : Nat) (bs : List Byte) : RowOut :=
  let r := (chunksOf (fmtBytes v.aFmt) (bs.length + 1) bs).zipIdx.map fun b =>
    if dropKeeps e x (dropIndex x row b.2) then
      let y := readFp (fmtAt v.aFmt) a (leNat b.1)
      let k := word32 a (fb x 128 32)
      let p := roundVec a (mulX y.1 k.1)
      (p.1, y.2 ||| k.2 ||| p.2)
    else (pZero, 0)
  rowOut v a row true (r.map fun y => y.1, r.foldl (fun acc y => acc ||| y.2) 0)

/-- VEC_ROWSTAT on one row (R242). -/
def statRow (v : VecArgs) (a : Actl) (row : Nat) (xs : List FV) : RowOut :=
  let m := statWord a (if v.func.testBit 0 then rowMax xs else pZero)
  let s := if v.func.testBit 1 then rowSum a xs else (pZero, 0)
  let q := if v.func.testBit 2 then rowSumSq a xs else (pZero, 0)
  { writes := [(v.out, v.out + 16 * row, vecBytes m.1 ++ vecBytes (b32 s.1) ++ vecBytes (b32 q.1) ++ leBytes 4 0)], flags := m.2 ||| s.2 ||| q.2 }

/-- The two-pass softmax of one row (R243, R247). Its subnormal intermediates are used as they are and raise no DN (log entry 98). -/
def softRow (v : VecArgs) (a : Actl) (row : Nat) (xs : List FV) : RowOut :=
  let m := rowMax xs
  let ps := mapV (expShift a m) xs
  let s := rowSum a ps.1
  let c := builtin 4 a s.1
  let ys := mapV (fun p => mul32 a p c.1) ps.1
  rowOut v a row true (ys.1, ps.2 ||| s.2 ||| c.2 ||| ys.2)

/-- The online softmax of one row with its record (m, S) (R244). -/
def onlineRow (v : VecArgs) (a : Actl) (row : Nat) (xs : List FV) (m s : FV × Flags) : RowOut :=
  let m' := maxV m.1 (rowMax xs)
  let low := decide (m' = .inf true)
  let ps : Vals := if low then (xs.map fun _ => pZero, 0) else mapV (expShift a m') xs
  let c : FV × Flags := if low then (one, 0) else expShift a m' m.1
  let sum := rowSum a ps.1
  let s' := fma32 a s.1 c.1 sum.1
  let w := statWord a m'
  let o := rowOut v a row true ps
  { writes := o.writes ++ [(v.aux, v.aux + 8 * row, vecBytes w.1 ++ vecBytes (b32 s'.1)), (v.c, v.c + 4 * row, vecBytes (b32 c.1))]
    flags := if low then 0 else m.2 ||| s.2 ||| o.flags ||| c.2 ||| sum.2 ||| s'.2 ||| w.2 }

/-- A row length as a value. -/
def lenV (n : Nat) : FV := .fin false n 0

/-- Layer normalization of one row (R245). Its subnormal intermediates are used as they are and raise no DN (log entry 98). -/
def layerRow (v : VecArgs) (a : Actl) (row : Nat) (xs gam bet : List FV) : RowOut :=
  let s := rowSum a xs
  let mu := div32 a s.1 (lenV v.len)
  let ds := mapV (fun x => add32 a x (negX mu.1)) xs
  let q := rowSumSq a ds.1
  let vr := div32 a q.1 (lenV v.len)
  let eps := word32 a v.scalar
  let t := add32 a vr.1 eps.1
  let r := builtin 6 a t.1
  let ys := ds.1.zipIdx.map fun d =>
    let p := mul32 a d.1 r.1
    let y := fma32 a p.1 (gam.getD d.2 one) (bet.getD d.2 pZero)
    (y.1, p.2 ||| y.2)
  rowOut v a row true (ys.map fun y => y.1, ys.foldl (fun acc y => acc ||| y.2) (s.2 ||| mu.2 ||| ds.2 ||| q.2 ||| vr.2 ||| eps.2 ||| t.2 ||| r.2))

/-- RMS normalization of one row (R245). -/
def rmsRow (v : VecArgs) (a : Actl) (row : Nat) (xs gam : List FV) : RowOut :=
  let q := rowSumSq a xs
  let vr := div32 a q.1 (lenV v.len)
  let eps := word32 a v.scalar
  let t := add32 a vr.1 eps.1
  let r := builtin 6 a t.1
  let ys := xs.zipIdx.map fun x =>
    let p := mul32 a x.1 r.1
    let y := mul32 a p.1 (gam.getD x.2 one)
    (y.1, p.2 ||| y.2)
  rowOut v a row true (ys.map fun y => y.1, ys.foldl (fun acc y => acc ||| y.2) (q.2 ||| vr.2 ||| eps.2 ||| t.2 ||| r.2))

/-- The bytes of an operand's row, or none where an access of it is not performed; the command has then failed and stops (R237, R281, R300). -/
def Run.rowBytesAt (r : Run) (base addr n : Nat) : Option (List Byte) × Run :=
  let d := r.localRead base addr n
  if d.1.any fun b => !b.got then (none, d.2.finish) else (some (vals d.1), d.2)

/-- The values of row `off` bytes into an operand; none are needed where the command does not use it. -/
def Run.rowVals (r : Run) (used : Bool) (a : Actl) (fmt base off n : Nat) : Option (List FV) × Run :=
  if !used then (some [], r)
  else
    let d := r.rowBytesAt base (base + off) (rowBytes fmt n)
    match d.1 with
    | none => (none, d.2)
    | some bs =>
      let v := decodeRow a fmt bs
      (some v.1, d.2.flag v.2)

/-- A row's results are written; a write that is not performed fails the command, which then stops (R237). -/
def Run.writeRow (r : Run) (o : RowOut) : Run :=
  o.writes.foldl (fun r w =>
    if r.e.done then r
    else
      let p := r.localPut w.1 w.2.1 (cleanBytes w.2.2)
      if p.2 then p.1 else p.1.finish) (r.flag o.flags)

/-- The record (m, S) of a row of the online softmax (R244). -/
def Run.softRec (r : Run) (v : VecArgs) (a : Actl) (row : Nat) : Option ((FV × Flags) × (FV × Flags)) × Run :=
  let d := r.rowBytesAt v.aux (v.aux + 8 * row) 8
  (d.1.map fun bs => (word32 a (BitVec.ofNat 32 (leNat (bs.take 4))), word32 a (BitVec.ofNat 32 (leNat (bs.drop 4)))), d.2)

/-- One row from its operands' values (R232, R233, R242, R243, R245). -/
def plainRow (v : VecArgs) (a : Actl) (row : Nat) (xs ys zs : List FV) : RowOut :=
  match v.op with
  | 0x20 => elemRow v a row xs ys zs
  | 0x22 => statRow v a row xs
  | 0x23 => softRow v a row xs
  | _ => if v.func = 0 then layerRow v a row xs ys zs else rmsRow v a row xs ys

/-- The command works on each element of A apart: COPY, DROP and VEC_FUNC. -/
def VecArgs.unary (v : VecArgs) : Bool := v.op == 0x21 || (v.op == 0x20 && (v.func == 6 || v.func == 9))

/-- One row of a command that works on each element of A apart (R225, R233, R239). -/
def unaryRow (k : Core) (e : Started) (v : VecArgs) (a : Actl) (x : BitVec 512) (row : Nat) (bs : List Byte) : RowOut :=
  if v.op = 0x21 then rowOut v a row true (joinVals ((decodeElems a v.aFmt bs).map (funcElem k v a)))
  else if v.func = 9 then dropRow e v a x row bs
  else copyRow v a row (decodeElems a v.aFmt bs)

/-- One row of a vector command. -/
def Run.vecRow (r : Run) (v : VecArgs) (x : BitVec 512) (row : Nat) : Run :=
  let a := actlOf v.actl
  let aOff := row * v.stride v.aFmt
  if v.unary then
    let d := r.rowBytesAt v.a (v.a + aOff) (rowBytes v.aFmt v.len)
    match d.1 with
    | none => d.2
    | some bs => d.2.writeRow (unaryRow r.k r.e v a x row bs)
  else
    let xs := r.rowVals true a v.aFmt v.a aOff v.len
    match xs.1 with
    | none => xs.2
    | some xv =>
      if v.op = 0x23 ∧ v.func = 1 then
        let m := xs.2.softRec v a row
        match m.1 with
        | none => m.2
        | some p => m.2.writeRow (onlineRow v a row xv p.1 p.2)
      else
        let u := v.uses
        let ys := xs.2.rowVals u.1 a v.bFmt v.b (if v.bBcast then 0 else row * v.stride v.bFmt) v.len
        match ys.1 with
        | none => ys.2
        | some yv =>
          let zs := ys.2.rowVals u.2.1 a v.bFmt v.c (if v.cBcast then 0 else row * v.stride v.bFmt) v.len
          match zs.1 with
          | none => zs.2
          | some zv => zs.2.writeRow (plainRow v a row xv yv zv)

/-- Rows from `row` on, until the last or until the command stops (R237). -/
def Run.vecRows (v : VecArgs) (x : BitVec 512) : Nat → Nat → Run → Run
  | 0, _, r => r
  | n + 1, row, r => if r.e.done then r else Run.vecRows v x n (row + 1) (r.vecRow v x row)

/-- The vector unit takes a command (R232). -/
def takeVector (r : Run) : Run := { r with s := r.s.modCore r.core fun k => { k with vecCmds := k.vecCmds ++ [(r.queue, r.e.id)] } }

/-- What a DROP reads of the epilogue record: the record alone, at AUX_ADDR (R225, R232). -/
def dropCfg (v : VecArgs) : EpiCfg := { fmt := v.outFmt, bias := false, scale := 0, drop := true, tap := false, act := 0, line := v.aux }

/-- A vector command at work. -/
def attemptVector (r : Run) : Run :=
  let v := vecArgs r.e.desc
  let r := takeVector r
  if v.op = 0x20 ∧ v.func = 9 then
    let rc := r.readRec (dropCfg v)
    match rc.1 with
    | none => rc.2
    | some x => if dropTooFar (dropCfg v) x v.rows v.len then rc.2.failWith 0x201 0 else (Run.vecRows v x v.rows 0 rc.2).finish
  else (Run.vecRows v 0 v.rows 0 r).finish

/-- The vector unit runs one command and holds one more (R232); a held load keeps users of its slot back (R253), and a power hold every command (R684). -/
def vectorAccepts (c : Nat) (s : State) (d : BitVec 512) : Bool := s.powerOpen && decide ((s.core c).vecCmds.length < 2) && fnOpen s c d

/-- VEC_ELEM (R232, R233). -/
def execVecElem (core : CoreId) (queue : QueueId) (s : State) : Res := startCmd [0x20] core.val queue.val s (vectorAccepts core.val) attemptVector

/-- VEC_FUNC (R238, R239). -/
def execVecFunc (core : CoreId) (queue : QueueId) (s : State) : Res := startCmd [0x21] core.val queue.val s (vectorAccepts core.val) attemptVector

/-- VEC_ROWSTAT (R242). -/
def execVecRowstat (core : CoreId) (queue : QueueId) (s : State) : Res := startCmd [0x22] core.val queue.val s (vectorAccepts core.val) attemptVector

/-- VEC_SOFTMAX (R243, R244). -/
def execVecSoftmax (core : CoreId) (queue : QueueId) (s : State) : Res := startCmd [0x23] core.val queue.val s (vectorAccepts core.val) attemptVector

/-- VEC_NORM (R245). -/
def execVecNorm (core : CoreId) (queue : QueueId) (s : State) : Res := startCmd [0x24] core.val queue.val s (vectorAccepts core.val) attemptVector

end Sys2Proof.Machine
end

