-- ==== Sys2Proof/Machine/Boundary.lean ====
section
/-! DEFINITION. Conversions at stage boundaries: wire formats, tile layouts and the padding of rows (R161 to R166, R508, R744). -/

namespace Sys2Proof.Machine

/-- The wire format of a local format under a profile (R161, R162, R744). -/
def wireFmt (fmt profile : Nat) : Nat :=
  if 3 ≤ profile then fmt
  else if profile = 0 then (match fmt with | 0 => 0 | 1 => 1 | 2 => 0 | _ => 1)
  else (match fmt with | 4 => 2 | 5 => 1 | 6 => 1 | f => f)

/-- The tile layout of a profile, in elements (R501, R508). -/
def wireTile (profile : Nat) : Nat := if profile = 0 then 64 else 128

/-- A row length rounded up to a tile (R508). -/
def tileUp (n t : Nat) : Nat := ceilDiv n t * t

/-- How slot data crosses a boundary, in units that convert as a whole: an element, or a block of 32 where a block format is involved. -/
structure WireMap where
  local' : Nat
  wire : Nat
  unit : Nat
  rowUnits : Nat
  localUnits : Nat
  wireUnits : Nat
  deriving DecidableEq, Repr

/-- Bytes of `n` elements in a queue format; `n` is a multiple of 32 for a block format. -/
def unitBytes (fmt n : Nat) : Nat := rowBytes fmt n

/-- The map of a queue's format under a profile (R161, R508). -/
def wireMap (f : QueueFmt) (profile : Nat) : WireMap :=
  let l := f.fmt.toNat
  let u := if l = 5 ∨ l = 6 then 32 else 1
  { local' := l, wire := wireFmt l profile, unit := u, rowUnits := ceilDiv f.rowLen u, localUnits := tileUp f.rowLen 128 / u, wireUnits := tileUp f.rowLen (wireTile profile) / u }

/-- Local and wire bytes of a unit. -/
def WireMap.localBytes (m : WireMap) : Nat := unitBytes m.local' m.unit
def WireMap.wireBytes (m : WireMap) : Nat := unitBytes m.wire m.unit

/-- The local byte offset of a wire unit (R508). -/
def WireMap.place (m : WireMap) (k : Nat) : Nat := (k / m.wireUnits * m.localUnits + k % m.wireUnits) * m.localBytes

/-- A row of values converted between two formats: RNE, subnormals honoured, SAT, FTZ and DAZ clear (R163). -/
def convertRow (src dst : Nat) (bs : List Byte) : List Byte × Flags :=
  encodeRow .plain dst true (decodeElems .plain src bs)

/-- One element of an array format with a NaN made canonical (R165). -/
def canonNan (fmt : Nat) (bs : List Byte) : List Byte :=
  if isNan (decodeFp (fmtAt fmt) (leNat bs)) then leBytes bs.length (fmtAt fmt).nanBits else bs

/-- An inbound unit: converted, or the same bytes with canonical NaNs where both formats are one (R163, R165; log entry 33). -/
def WireMap.convIn (m : WireMap) (bs : List Byte) : List Byte × Flags :=
  if m.wire ≠ m.local' then convertRow m.wire m.local' bs
  else if 5 ≤ m.local' then (bs, 0)
  else (canonNan m.local' bs, 0)

/-- An outbound unit (R161). -/
def WireMap.convOut (m : WireMap) (bs : List Byte) : List Byte × Flags :=
  if m.wire = m.local' then (bs, 0) else convertRow m.local' m.wire bs

/-- Local bytes to write, at their offset in the slot, with flags. -/
structure InPiece where
  off : Nat
  bytes : List Byte
  flags : Flags
  deriving DecidableEq, Repr

/-- What one wire unit, or a part of one, makes in the slot. A row's padding is written by the device, with the row's last wire unit where the wire row is the shorter (R508). The bytes that a part of a unit would convert to are not stated: free values by its bytes (R409; log entry 3). -/
def WireMap.inUnit (m : WireMap) (p : Nat × List Byte) : List InPiece :=
  let wb := m.wireBytes
  let k := p.1 / wb
  let base := m.place k
  let full := p.2.length == wb
  let pad := decide (m.rowUnits ≤ k % m.wireUnits)
  let own : InPiece :=
    if full then
      (if pad then { off := base, bytes := List.replicate m.localBytes 0, flags := 0 }
       else
         let c := m.convIn p.2
         { off := base, bytes := c.1, flags := c.2 })
    else if m.wire = m.local' then { off := base + p.1 % wb, bytes := if pad then List.replicate p.2.length 0 else p.2, flags := 0 }
    else { off := base, bytes := if pad then List.replicate m.localBytes 0 else (List.range m.localBytes).map fun i => Config.freeByte (leNat (p.2 ++ [1])) (base + i), flags := 0 }
  let last := k % m.wireUnits + 1 == m.wireUnits && p.1 % wb + p.2.length == wb
  if last && decide (m.wireUnits < m.localUnits) then
    [own, { off := base + m.localBytes, bytes := List.replicate ((m.localUnits - m.wireUnits) * m.localBytes) 0, flags := 0 }]
  else [own]

/-- The local writes of an inbound frame at a wire offset (R163, R508). -/
def WireMap.inbound (m : WireMap) (off : Nat) (payload : List Byte) : List InPiece :=
  (pieces m.wireBytes (payload.length / m.wireBytes + 2) off payload).flatMap m.inUnit

/-- Wire bytes with their marks, and the flags of their conversion. -/
abbrev WireOut := List Bt × Flags

/-- What one local unit contributes to the wire: nothing beyond the wire row; no flag for padding (R508). A part of a unit at the end of the slot is completed by free values by its bytes (R409; log entry 3). -/
def WireMap.outUnit (m : WireMap) (p : Nat × List Bt) : WireOut :=
  let k := p.1 / m.localBytes
  let col := k % m.localUnits
  if m.wireUnits ≤ col then ([], 0)
  else if m.wire = m.local' then (p.2, 0)
  else
    let whole := vals p.2 ++ (List.range (m.localBytes - p.2.length)).map fun i => Config.freeByte (leNat (vals p.2 ++ [1])) (p.1 + p.2.length + i)
    let c := m.convOut whole
    (markBytes (anyMark p.2) c.1, if m.rowUnits ≤ col then 0 else c.2)

/-- The wire bytes of a slot's local data (R161, R508). -/
def WireMap.outbound (m : WireMap) (bs : List Bt) : WireOut :=
  let r := (pieces m.localBytes (bs.length / m.localBytes + 2) 0 bs).map m.outUnit
  (r.flatMap fun x => x.1, r.foldl (fun acc x => acc ||| x.2) 0)

end Sys2Proof.Machine
end

