-- ==== Sys2Proof/Machine/Send.lean ====
section
/-! DEFINITION. SEND_SLOT: an output slot goes to the neighbour's remote slot under a held credit (R118, R122, R128, R161, R164, R424, R427, R507 to R512). -/

namespace Sys2Proof.Machine

/-- The device address of a slot. -/
def slotAddr (k : MbQueue) (i : Nat) : Nat := k.base + i * k.stride

/-- The count at which a slot is full, or the bytes it sends (CONFIGURE_QUEUE, CONFIGURE_SLOT). -/
def slotExpected (k : MbQueue) (x : Slot) : Nat := (x.expected.getD k.expected).toNat

/-- Local format and row length of a queue (R502). -/
def State.queueFmt (s : State) (q : Nat) : QueueFmt := tget QueueFmt.init s.fabric.queueFmt q

/-- A slot of an output queue changes. -/
def Run.modSlot (r : Run) (q i : Nat) (f : Slot → Slot) : Run := { r with s := { r.s with stage := r.s.stage.modSlot q i f } }

/-- A send's profile is fixed once its endpoint has one (R507). -/
def Run.fixProfile (r : Run) (p : Option (BitVec 3)) : Run := { r with e := { r.e with profile := r.e.profile.orElse fun _ => p } }

/-- A sent slot's entry enters the step record: the digest of its data in the device and the send's flags (R424; log entry 30). -/
def Run.recordOut (r : Run) (q : Nat) (mb : BitVec 32) (bs : List Bt) : Run :=
  { r with s := r.s.record 32 fun x => { x with outputs := x.outputs ++ [{ queue := q, mb := mb, digest := digestOf (vals bs), flags := r.e.flags }] } }

/-- The slot is SENT (R118, R122). -/
def Run.slotSent (r : Run) (q i bytes : Nat) : Run := (r.modSlot q i fun x => { x with state := 5, counter := BitVec.ofNat 32 bytes }).finish

/-- The slot's data is read, and the run stops where its segment is off (R300, R317). -/
def Run.slotData (r : Run) (k : MbQueue) (i : Nat) : List Bt × Run :=
  let n := slotExpected k (r.s.stage.slot (r.field 1 0) i)
  let d := r.devRead (slotAddr k i) n
  if d.1.any fun b => !b.got then (d.1, d.2.finish) else d

/-- The wire bytes of slot data under a profile. -/
def Run.toWire (r : Run) (q profile : Nat) (bs : List Bt) : List Bt × Run :=
  let w := (wireMap (r.s.queueFmt q) profile).outbound bs
  (w.1, r.flag w.2)

/-- The frames of a send leave under its credit; the credit is spent (R122, R472, R510 to R512). -/
def Run.launch (r : Run) (k : MbQueue) (q i tag : Nat) (via : Via) (ep rs : Nat) (gen : BitVec 16) (profile : Nat) : Run :=
  let mb := fb (cmdBody r.e.desc) 32 32
  let d := r.slotData k i
  if d.2.e.done then d.2
  else
    let w := d.2.toWire q profile d.1
    let r := w.2.recordOut q mb d.1
    let s : State := { r.s with stage := r.s.stage.modRemote q rs fun x => { x with credit := none } }
    let f : Frame := { Frame.zero with queue := BitVec.ofNat 2 (q - 2), slot := BitVec.ofNat 8 rs, slotGen := wireGen profile gen, mb := mb }
    let r := { r with e := { r.e with cursor := 2 } }
    if w.1.isEmpty then { r with s := s }.slotSent q i 0
    else { r with s := sendWrite s (.cmd r.core r.queue r.e.id) (.slotSend q i) tag via ep 4 f 0 w.1 }.block .net

/-- A send under ISOLATE 1 digests its data and completes without link traffic; its flags are those of the recorded neighbour's profile (R427). -/
def Run.isolated (r : Run) (k : MbQueue) (q i profile : Nat) : Run :=
  let mb := fb (cmdBody r.e.desc) 32 32
  let d := r.slotData k i
  if d.2.e.done then d.2
  else
    let w := d.2.toWire q profile d.1
    (w.2.recordOut q mb d.1).slotSent q i w.1.length

/-- The direction of an output queue's receiver in the stage address table: downstream for FWD-OUT, upstream for BWD-OUT (R27). -/
def outDir (q : Nat) : Nat := if q = 2 then 1 else 0

/-- SEND_SLOT once its slot is SENDING: its endpoint with a path, its credit, a network tag (R113, R122, R468, R506). An empty stage address entry ends it with ENDPOINT_UNKNOWN (log entry 114). -/
def Run.sendOn (r : Run) (k : MbQueue) (q i want : Nat) : Run :=
  match r.s.ovt.replay with
  | some ⟨_, rec', true, _, _⟩ => r.isolated k q i (((rec'.snap.profiles.getD (outDir q) none).map fun p => p.toNat).getD 4)
  | _ =>
    match r.s.stage.receiver q with
    | none => r.failWith 0x504 0
    | some a =>
      let ep := a.endpoint.toNat
      let r := r.fixProfile ((r.s.endpoint ep).bind fun e => e.profile)
      let rs := fld (cmdBody r.e.desc) 63 32 % a.peerInSlots
      match gateOf r.s (some ep) want with
      | .fail st => r.failWith st 0
      | .wait => r.block (.endpoint ep)
      | .go via p =>
        match (r.s.stage.rslot q rs).credit with
        | none => r.block .program
        | some gen =>
          match r.s.freeTag r.core with
          | none => r.block .net
          | some tag =>
            let x := r.s.stage.slot q i
            match r.coherent [(slotAddr k i, slotExpected k x)] [] with
            | .stop y => y
            | .go r => r.launch k q i tag via ep rs gen ((r.e.profile.map BitVec.toNat).getD p)

/-- SEND_SLOT at work (R118, R122, R128). Places: 0 not begun, 1 SENDING, 2 its frames have left. -/
def attemptSendSlot (want : Nat) (r : Run) : Run :=
  let q := r.field 1 0
  let i := r.field 15 8
  let mb := fb (cmdBody r.e.desc) 32 32
  let r := { r with e := { r.e with wait := .none } }
  match r.s.stage.queue q with
  | none => r.failWith 0x306 0
  | some k =>
    if r.e.cursor = 2 then
      (if !r.ops.isEmpty then r.block .net
       else if !r.e.opLost then r.slotSent q i (r.s.stage.slot q i).counter.toNat
       else r.finish)
    else if r.e.cursor = 1 then r.sendOn k q i want
    else
      let x := r.s.stage.slot q i
      if !slotThere r.s q i || x.state != 3 || x.mb != mb then r.failWith 0x306 0
      else
        let r := r.modSlot q i fun x => { x with state := 4, counter := 0 }
        { r with e := { r.e with cursor := 1 } }.sendOn k q i want

/-- SEND_SLOT (R122). -/
def execSendSlot (core : CoreId) (queue : QueueId) (port : PortId) (s : State) : Res := startCmd [0x05] core.val queue.val s anyTime (attemptSendSlot port.val)

end Sys2Proof.Machine
end

