-- ==== Sys2Proof/Machine/Recall.lean ====
section
/-! DEFINITION. The recall engine's search: lists chosen, entries collected, ranked, re-ranked, filtered and reported (R388 to R396). -/

namespace Sys2Proof.Machine

/-- The fields of a TARN_QUERY (R388). -/
structure QueryArgs where
  index : Nat
  byCentroid : Bool
  flush : Bool
  nprobe : Nat
  k : Nat
  pool : Nat
  rerank : Nat
  bf16 : Bool
  dim : Nat
  epoch : Nat
  sketch : Nat
  qvec : Nat
  lists : Nat
  out : Nat
  mask : BitVec 64
  value : BitVec 64
  daz : Bool
  deriving DecidableEq, Repr

/-- The fields of a query's descriptor. -/
def queryArgs (d : BitVec 512) : QueryArgs :=
  let b := cmdBody d
  { index := fld b 11 8, byCentroid := bit b 14, flush := bit b 15, nprobe := fld b 23 16 + 1, k := fld b 33 24 + 1, pool := fld b 47 34 + 1, rerank := fld b 49 48, bf16 := bit b 50, dim := fld b 63 51 + 1, epoch := fld b 95 64, sketch := fld b 135 96, qvec := fld b 175 136, lists := fld b 215 176, out := fld b 255 216, mask := fb b 256 64, value := fb b 320 64, daz := (actlOf (fb b 0 8)).daz }

/-- Bytes of a vector. -/
def QueryArgs.vecLen (a : QueryArgs) : Nat := a.dim * if a.bf16 then 2 else 4

/-- The order of candidates: distance, item, list, position (R390). -/
def Cand.before (a b : Cand) : Bool :=
  if a.dist != b.dist then decide (a.dist < b.dist)
  else if a.item != b.item then decide (a.item < b.item)
  else if a.list != b.list then decide (a.list < b.list)
  else decide (a.pos < b.pos)

/-- The number of one bits of a byte. -/
def onesOf (b : Byte) : Nat := ((List.range 8).filter fun i => b.getLsbD i).length

/-- The distance between two sketches (R390). -/
def hamming (a b : List Byte) : Nat := ((a.zip b).map fun p => onesOf (p.1 ^^^ p.2)).sum

/-- A directory entry as the engines read it (R372). -/
def Run.dirRead (r : Run) (x : Index) (l : Nat) : DirEntry × Run :=
  let d := r.devRead (x.dir + 32 * l) 32
  (dirEntry d.2.s x.dir l, d.2)

/-- The lists that a query names, or none where one of them does not exist (R389, R396). -/
def Run.namedLists (r : Run) (x : Index) (a : QueryArgs) : Option (List Nat) × Run :=
  let d := r.devRead a.lists (4 * a.nprobe)
  let ls := wordsOf 4 d.1
  (if ls.any fun l => decide (x.lists ≤ l) then none else some ls.dedup, d.2)

/-- What a batch streams: bytes, and what their reading met (R317, R399). -/
structure Streamed where
  bytes : List Bt
  faults : List (Nat × Nat)
  deriving DecidableEq, Repr

/-- Some bytes are streamed from HBM. -/
def stream (s : State) (a n : Nat) : Streamed × State :=
  let d := devRead s a n
  ({ bytes := d.1, faults := d.2.1 }, d.2.2)

/-- A centroid of an index is streamed (R399). -/
def streamCentroid (x : Index) (acc : List Streamed × State) (l : Nat) : List Streamed × State :=
  let d := stream acc.2 (x.centroid + l * sketchBytes x.width) (sketchBytes x.width)
  (acc.1 ++ [d.1], d.2)

/-- One streamed log position with its tombstone word (R372). -/
structure Position where
  pos : Nat
  entry : Streamed
  tomb : Streamed
  deriving DecidableEq, Repr

/-- A streamed list: its directory entry and its log positions (R372, R377). -/
structure ListStream where
  list : Nat
  dir : Streamed
  positions : List Position
  deriving DecidableEq, Repr

/-- The positions of a list are streamed, each entry with its tombstone word. -/
def streamPosition (x : Index) (d : DirEntry) (acc : List Position × State) (j : Nat) : List Position × State :=
  let e := stream acc.2 (d.log + j * entryBytes x.width) (entryBytes x.width)
  let t := stream e.2 (d.tomb + 4 * j) 4
  (acc.1 ++ [{ pos := j, entry := e.1, tomb := t.1 }], t.2)

/-- A list of an index is streamed: its directory entry, and its log as far as LENGTH (R377, R399). -/
def streamList (x : Index) (acc : List ListStream × State) (l : Nat) : List ListStream × State :=
  let d := stream acc.2 (x.dir + 32 * l) 32
  let e := dirEntry d.2 x.dir l
  let ps := (List.range e.length).foldl (streamPosition x e) ([], d.2)
  (acc.1 ++ [{ list := l, dir := d.1, positions := ps.1 }], ps.2)

/-- The lists whose centroids lie nearest, ties by list number (R389). -/
def nearLists (cs : List Streamed) (n : Nat) (q : List Byte) : List Nat :=
  let ds := cs.zipIdx.map fun c => (hamming q (vals c.1.bytes), c.2)
  ((sortBy (fun (u v : Nat × Nat) => decide (u.1 < v.1) || (u.1 == v.1 && decide (u.2 < v.2))) ds).take n).map fun p => p.2

/-- A streamed position as a candidate of a query, where it is visible at its read epoch. A poisoned entry or tombstone word leaves it out (R377, R396). -/
def Position.candidate (x : Index) (a : QueryArgs) (q : List Byte) (l : Nat) (p : Position) : Option Cand :=
  let w := sketchBytes x.width
  let bs := vals p.entry.bytes
  let tr := BitVec.ofNat 256 (leNat (bs.drop w))
  let seen := decide (fld tr 159 128 ≤ a.epoch) && decide (a.epoch < leNat (vals p.tomb.bytes))
  if anyMark p.entry.bytes || anyMark p.tomb.bytes || !seen then none
  else some { dist := hamming q (bs.take w), item := fld tr 103 64, list := l, pos := p.pos, attr := fb tr 0 64, vec := fld tr 202 160 }

/-- A query meets what was streamed. -/
def Run.meet (r : Run) (x : Streamed) : Run := r.faults x.faults

/-- A query meets a streamed list, and takes its candidates (R391, R399). -/
def Run.scanList (x : Index) (a : QueryArgs) (q : List Byte) (acc : List Cand × Run) (l : ListStream) : List Cand × Run :=
  l.positions.foldl (fun acc p => (acc.1 ++ (p.candidate x a q l.list).toList, (acc.2.meet p.entry).meet p.tomb)) (acc.1, acc.2.meet l.dir)

/-- The values of a vector, with DN for its subnormals (R392). -/
def QueryArgs.vecVals (a : QueryArgs) (bs : List Byte) : Vals :=
  decodeRow { Actl.plain with daz := a.daz } (if a.bf16 then 1 else 0) bs

/-- A score: products exact, added in ascending order with one rounding each; the squares of L2 are of rounded differences (R392). -/
def QueryArgs.score (a : QueryArgs) (q v : Vals) : FV × Flags :=
  (q.1.zip v.1).foldl
    (fun acc p =>
      let d : FV × Flags := if a.rerank = 2 then addArr .plain p.1 (negX p.2) else (p.1, 0)
      let t := mulX d.1 (if a.rerank = 2 then d.1 else p.2)
      let s := addArr .plain acc.1 t.1
      (s.1, acc.2 ||| d.2 ||| flagIf t.2 fNV ||| s.2))
    (pZero, q.2 ||| v.2)

/-- Where an entry's vector lies, as far as reading it goes: no vector, the device's own memory, another slot's, or an address that cannot be (R393, R396). -/
inductive VecPlace where
  | none
  | own (a : Nat)
  | far (slot a : Nat)
  | bad
  deriving DecidableEq, Repr

/-- The place of a VEC_ADDR. -/
def vecPlace (s : State) (a : QueryArgs) (v : Nat) : VecPlace :=
  if v = 0 then .none
  else if v % 128 ≠ 0 then .bad
  else if s.ownSlot = some (v / 2 ^ 40) then (if rangeOk (v % 2 ^ 40) a.vecLen then .own (v % 2 ^ 40) else .bad)
  else .far (v / 2 ^ 40) (v % 2 ^ 40)

/-- The vectors of a pool that lie in other slots, in the pool's order (R393). -/
def farVecs (s : State) (a : QueryArgs) (pool : List Cand) : List (Nat × Nat) :=
  if a.rerank = 0 then []
  else pool.filterMap fun c => match vecPlace s a c.vec with
    | .far slot p => some (slot, p)
    | _ => none

/-- The bytes that came back from other slots, of `n` bytes from a place of the concatenated vectors on (R393). -/
def Started.farBytes (e : Started) (i n : Nat) : List Bt := bufBytes (e.buf.filter fun p => decide (i ≤ p.off) && decide (p.off < i + n))

/-- A score, and whether R160 breaks its ties by ascending id alone: the sum of a vector holding M that passed every finite value, or the NaN of a vector holding NaN. -/
structure Score where
  val : FV
  byItem : Bool
  deriving DecidableEq, Repr

/-- A vector holds the largest finite magnitude M of its format (R160). -/
def QueryArgs.holdsMax (a : QueryArgs) (bs : List Byte) : Bool :=
  let w := if a.bf16 then 2 else 4
  (chunksOf w a.dim bs).any fun x => leNat x % 2 ^ (8 * w - 1) == if a.bf16 then 0x7F7F else 0x7F7FFFFF

/-- R160 breaks the ties of a score by ascending id. -/
def QueryArgs.tiesByItem (a : QueryArgs) (q v : List Byte) (x : FV) : Bool :=
  match x with
  | .nan => (a.vecVals q).1.any isNan || (a.vecVals v).1.any isNan
  | .inf false => a.holdsMax q || a.holdsMax v
  | _ => false

/-- The score of a candidate, and how many bytes of the remote vectors it takes; NaN for an entry without a vector and for a poisoned one (R392, R393, R396). -/
def Run.scoreOf (r : Run) (a : QueryArgs) (q : List Byte) (qBad : Bool) (far : Nat) (c : Cand) : Score × Nat × Run :=
  let rate (bs : List Byte) (bad : Bool) (r : Run) : Score × Run :=
    if bad || qBad then (⟨.nan, false⟩, r)
    else
      let x := a.score (a.vecVals q) (a.vecVals bs)
      (⟨x.1, a.tiesByItem q bs x.1⟩, r.flag x.2)
  match vecPlace r.s a c.vec with
  | .none => (⟨.nan, false⟩, far, r)
  | .bad => (⟨.nan, false⟩, far, r)
  | .own p =>
    let d := r.devRead p a.vecLen
    let x := rate (vals d.1) (match placeOf p with | .hbm _ => anyMark d.1 | _ => false) d.2
    (x.1, far, x.2)
  | .far _ _ =>
    let bs := r.e.farBytes far a.vecLen
    let x := rate (vals bs) (anyMark bs) r
    (x.1, far + a.vecLen, x.2)

/-- The order of scored candidates: by score; ties by the key of R390, but among the scores that R160 names by ascending item id, and those before the others that tie with them (R160, R392; log entry 116). -/
def scoredBefore (l2 : Bool) (a b : Score × Cand) : Bool :=
  let tie : Bool :=
    if a.1.byItem != b.1.byItem then a.1.byItem
    else if a.1.byItem && a.2.item != b.2.item then decide (a.2.item < b.2.item)
    else a.2.before b.2
  match isNan a.1.val, isNan b.1.val with
  | false, true => true
  | true, false => false
  | true, true => tie
  | false, false =>
    if ltX a.1.val b.1.val then l2
    else if ltX b.1.val a.1.val then !l2
    else tie

/-- The pool in its final order, with scores (R391, R392). -/
def Run.ranked (r : Run) (a : QueryArgs) (pool : List Cand) : List (FV × Cand) × Run :=
  if a.rerank = 0 then (pool.map fun c => (pZero, c), r)
  else
    let q := r.devRead a.qvec a.vecLen
    let qBad := anyMark q.1 && (match placeOf a.qvec with | .hbm _ => true | _ => false)
    let sc := pool.foldl
      (fun acc c =>
        let x := acc.2.2.scoreOf a (vals q.1) qBad acc.2.1 c
        (acc.1 ++ [(x.1, c)], x.2.1, x.2.2))
      (([], 0, q.2) : List (Score × Cand) × Nat × Run)
    ((sortBy (scoredBefore (a.rerank == 2)) sc.1).map fun x => (x.1.val, x.2), sc.2.2)

/-- A 32-byte result record (R394). -/
def resultBytes (x : FV × Cand) : List Byte :=
  leBytes 32 ((b32 x.1).toNat * 2 ^ 192 + x.2.attr.toNat * 2 ^ 128 + x.2.list * 2 ^ 64 + x.2.dist * 2 ^ 40 + x.2.item)

/-- A status that leaves a query without records (R396): every failure but poison and bad parity. -/
def noRecords (st : BitVec 16) : Bool := !([0, 0x402, 0x400].contains st.toNat)

/-- A query has failed so that it writes no records: by its status, or because a vector that it asked a peer for did not come, whatever status ranks above that (R396, R610). -/
def Started.barren (e : Started) : Bool := noRecords e.status || e.opLost

/-- The memory that a query's pool makes it read as vectors, in the device. -/
def vecRanges (s : State) (a : QueryArgs) (pool : List Cand) : List (Nat × Nat) :=
  if a.rerank = 0 then []
  else (a.qvec, a.vecLen) :: pool.filterMap fun c => match vecPlace s a c.vec with
    | .own p => some (p, a.vecLen)
    | _ => none

/-- The memory that a query reads before its pool is known. -/
def queryReads (x : Index) (a : QueryArgs) : List (Nat × Nat) :=
  (a.sketch, sketchBytes x.width) :: if a.byCentroid then [] else [(a.lists, 4 * a.nprobe)]

/-- The READ for the remote vectors' next bytes leaves, or the reason why it cannot leave yet (R113, R393, R468, R476). No READ crosses its path's largest payload. -/
def Run.issueVec (r : Run) (a : QueryArgs) (far : List (Nat × Nat)) (want : Nat) : Run :=
  let pos := r.e.cursor
  let v := far.getD (pos / a.vecLen) (0, 0)
  let done := pos % a.vecLen
  let tg := r.target (.board v.1 v.2)
  match gateOf r.s tg.1 want with
  | .fail st => r.failWith st 0
  | .wait => r.block (.endpoint (tg.1.getD 0))
  | .go via _ =>
    let l := r.s.maxPayload via
    let k := min (a.vecLen - done) (l - (tg.2.2 + done) % l)
    r.sendRead tg via (tg.2.2 + done) pos k (done + k == a.vecLen)

/-- READs of remote vectors until all have left, or one must wait. A query that has failed asks for nothing more. `fuel` bounds them. -/
def Run.issueVecs (a : QueryArgs) (far : List (Nat × Nat)) (want : Nat) : Nat → Run → Run
  | 0, r => r
  | fuel + 1, r =>
    if far.length * a.vecLen ≤ r.e.cursor || r.e.barren then r
    else
      let r' := r.issueVec a far want
      if r'.e.done || r'.e.wait != .none then r' else Run.issueVecs a far want fuel r'

/-- A query whose vectors are there is ranked, filtered and reported (R391 to R396). -/
def Run.report (r : Run) (a : QueryArgs) (pool : List Cand) : Run :=
  let k := r.ranked a pool
  let kept := (k.1.filter fun c => c.2.attr &&& a.mask == a.value &&& a.mask).take a.k
  if k.2.e.barren then k.2.finish
  else
    let w := k.2.devWrite a.out (cleanBytes (kept.flatMap resultBytes))
    let w := { w with e := { w.e with result := BitVec.ofNat 32 kept.length } }
    (if kept.length < a.k then w.fault 0x001 0 else w).finish

/-- A streamed query goes on: its remote vectors are fetched, and it is reported once they have come (R391 to R396). A VEC_ADDR that cannot be ends it; `want` is the port chosen (R472). -/
def Run.query (r : Run) (a : QueryArgs) (want : Nat) (pool : List Cand) : Run :=
  let r := { r with e := { r.e with wait := .none } }
  if a.rerank != 0 && pool.any fun c => vecPlace r.s a c.vec == .bad then r.failWith 0x201 0
  else
    let far := farVecs r.s a pool
    let r := Run.issueVecs a far want (far.length * a.vecLen + 1) r
    if r.e.done then r
    else if !r.ops.isEmpty then (if r.e.wait = .none then r.block .net else r)
    else if r.e.wait != .none then r
    else if r.e.barren then r.finish
    else match r.coherent (vecRanges r.s a pool) [(a.out, 32 * a.k)] with
    | .stop x => x
    | .go r => r.report a pool

end Sys2Proof.Machine
end

