-- ==== Sys2Proof/Machine/Tarn.lean ====
section
/-! DEFINITION. Tarn indexes: their messages, inserts, deletes and publishes, and the rendezvous batches of queries (R371 to R387, R398 to R406). -/

namespace Sys2Proof.Machine

/-- The index that a CREATE_INDEX payload describes (R371, R374). -/
def newIndex (x : Ctx) : Index :=
  { width := fb x.p 8 2, lists := x.f 39 16 + 1, dir := x.f 231 192, centroid := x.f 167 128, rdvWait := x.f 79 64, rdvMax := x.f 59 48 + 1, published := fb x.p 288 32, pendingEpoch := fb x.p 288 32 + 1, floor := fb x.p 288 32, collecting := [], closed := none, running := [], rewrites := [] }

/-- A directory entry is as R372 and R373 require. -/
def dirEntryOk (d : DirEntry) : Bool :=
  d.tomb % 128 == 0 && d.log % 256 == 0 && decide (d.cap ≤ 67108864) && decide (d.length ≤ d.cap)

/-- CREATE_INDEX's refusals with BAD_FIELD (R371, R373). -/
def indexBad (s : State) (x : Ctx) : Bool :=
  let n := newIndex x
  let rs := structRanges s n.width n.lists n.dir n.centroid
  x.f 9 8 == 3 || decide (0xFFFFFFFD < n.published.toNat) || n.dir % 256 != 0 || n.centroid % 256 != 0
    || !inHbm n.dir (32 * n.lists) || !((List.range n.lists).all fun l => dirEntryOk (dirEntry s n.dir l))
    || !(rs.all fun r => inHbm r.1 r.2) || selfOverlap rs || rs.any fun r => hits r.1 r.2 (tarnRanges s ++ storeRanges s ++ windowRanges s)

/-- CREATE_INDEX (R371 to R374). A poisoned directory word ends it (R317; log entry 105). -/
def execCreateIndex (m : Msg) (s : State) : Res :=
  serve { plainOp 0x0501 1 [(383, 320), (287, 232), (191, 168), (127, 80), (63, 60), (47, 40), (15, 10), (7, 4)] with cap := some capTarn, high := true } m s fun s x =>
    if (s.index (x.f 3 0)).isSome then refuse s 0x203
    else
    let n := newIndex x
    let d := if inHbm n.dir (32 * n.lists) then hbmRead s n.dir (32 * n.lists) else ([], none, s)
    let s := d.2.2
    match d.2.1 with
    | some a => msgPoison s x a
    | none => if indexBad s x then refuse s 0x201 else .done { s with tarn := tset none s.tarn (x.f 3 0) (some (newIndex x)) } .ok

/-- A started Tarn command names an index (R376). -/
def tarnStarted (s : State) (i : Nat) : Bool := s.allStarted.any fun e => cmdOp e.2.2.desc / 16 == 5 && fld (cmdBody e.2.2.desc) 11 8 == i

/-- The Tarn commands of armed blocks that name an index find it destroyed when they start, whatever index is created meanwhile (R387, R396). -/
def forgetIndex (s : State) (i : Nat) : State :=
  let names (d : BitVec 512) : Bool := cmdOp d / 16 == 5 && fld (cmdBody d) 11 8 == i
  allQueues.foldl (fun s cq =>
    s.modQueue cq.1 cq.2 fun u =>
      { u with armed := u.armed.map fun b => { b with absent := (b.absent ++ (b.cmds.zipIdx.filter fun d => names d.1).map fun d => d.2).eraseDups } }) { s with tarn := tset none s.tarn i none }

/-- DESTROY_INDEX (R376); without such an index there is nothing to forget. -/
def execDestroyIndex (m : Msg) (s : State) : Res :=
  serve { plainOp 0x0502 1 [(383, 4)] with cap := some capTarn } m s fun s x =>
    let i := x.f 3 0
    let busy := tarnStarted s i || (match s.index i with | none => false | some k => !k.rewrites.isEmpty)
    if busy then refuse s 0x203 else .done (if (s.index i).isNone then s else forgetIndex s i) .ok

/-- A started query of an index reads below an epoch (R401). -/
def readsBelow (s : State) (i floor : Nat) : Bool :=
  s.allStarted.any fun e => cmdOp e.2.2.desc == 0x50 && (queryArgs e.2.2.desc).index == i && decide ((queryArgs e.2.2.desc).epoch < floor)

/-- The floor rises (R401). -/
def raiseFloor (s : State) (i floor : Nat) : State := s.modIndex i fun k => { k with floor := BitVec.ofNat 32 (max k.floor.toNat floor) }

/-- SET_READER_FLOOR (R401). One that was dequeued earlier for the same index goes first (R81). -/
def execSetReaderFloor (m : Msg) (s : State) : Res :=
  serve { plainOp 0x0503 1 [(383, 64), (31, 4)] with cap := some capTarn } m s fun s x =>
    let i := x.f 3 0
    let f := x.f 63 32
    match s.index i with
    | none => refuse s 0x201
    | some k =>
      if f < k.floor.toNat ∨ k.published.toNat < f then refuse s 0x201
      else if readsBelow s i f || s.mbx.held.any (sameObject (heldOf 0x0503 m 0)) then .hold s (heldOf 0x0503 m 0)
      else .done (raiseFloor s i f) .ok

/-- A SET_READER_FLOOR that waits takes effect once its queries have completed and none dequeued earlier waits; its check holds for the floor as it stands then (R81, R401). -/
def settleFloor (s : State) (h : Held) : State :=
  let i := fld (effPayload h.msg) 3 0
  let f := fld (effPayload h.msg) 63 32
  if s.behind h || readsBelow s i f then s
  else match s.index i with
  | none => endHeld s h (.st 0x201)
  | some k => if f < k.floor.toNat then endHeld s h (.st 0x201) else endHeld (raiseFloor s i f) h .ok

/-- Every SET_READER_FLOOR whose queries have completed takes effect, in the order in which they were dequeued (R81, R401). -/
def settleFloors (s : State) : State := (s.mbx.held.filter fun h => h.opcode == 0x0503).foldl settleFloor s

/-- The rewrites in progress in the device (R406). -/
def rewriteCount (s : State) : Nat := (s.tarn.map fun e => match e.2 with | none => 0 | some k => k.rewrites.length).sum

/-- A list of an index is being rewritten (R403). -/
def Index.rewriting (k : Index) (l : Nat) : Bool := k.rewrites.any fun r => r.list == l

/-- START_REWRITE (R402, R403, R406). -/
def execStartRewrite (m : Msg) (s : State) : Res :=
  serve { plainOp 0x0504 1 [(383, 224), (191, 168), (127, 104), (63, 40), (15, 4)] with cap := some capTarn, high := true } m s fun s x =>
    let i := x.f 3 0
    let l := x.f 39 16
    let cap := x.f 223 192
    match s.index i with
    | none => refuse s 0x201
    | some k =>
      let rs := listRanges k.width { tomb := x.f 167 128, log := x.f 103 64, length := 0, cap := cap }
      if decide (k.lists ≤ l) || cap == 0 || decide (67108864 < cap) || x.f 167 128 % 128 != 0 || x.f 103 64 % 256 != 0
          || !(rs.all fun r => inHbm r.1 r.2) || selfOverlap rs || rs.any fun r => hits r.1 r.2 (tarnRanges s ++ storeRanges s ++ windowRanges s) then refuse s 0x201
      else if k.rewriting l || decide (64 ≤ rewriteCount s) then answerBusy s
      else
        let w : Rewrite := { src := m.src, list := l, newLog := x.f 103 64, newTomb := x.f 167 128, newCap := cap, floor := k.floor }
        .hold (s.modIndex i fun k => { k with rewrites := k.rewrites ++ [w] }) (heldOf 0x0504 m 0)

/-- GET_INDEX_STATE's response (R405). -/
def indexReply (k : Option Index) : Nat :=
  match k with
  | none => 0
  | some k =>
    k.published.toNat + k.pendingEpoch.toNat * 2 ^ 32 + k.floor.toNat * 2 ^ 64 + (k.lists - 1) * 2 ^ 96 + k.width.toNat * 2 ^ 120 + k.rewrites.length % 256 * 2 ^ 128
      + (k.collecting.length + (k.closed.getD []).length + k.running.length) * 2 ^ 144 + 2 ^ 160

/-- GET_INDEX_STATE (R405). -/
def execGetIndexState (m : Msg) (s : State) : Res :=
  serve { readOp 0x0505 0 [(383, 4)] with cap := some capTarn } m s fun s x => .done s (.val 0 (indexReply (s.index (x.f 3 0))))

/-- A write of an index that has been applied, an insert or a delete. -/
def applied (i : Nat) (e : Started) : Bool :=
  (cmdOp e.desc == 0x51 || cmdOp e.desc == 0x52) && fld (cmdBody e.desc) 11 8 == i && e.cursor == 1

/-- A delete of an index is in progress, so that no other write of it is applied (R378). -/
def deleting (s : State) (i : Nat) : Bool := s.allStarted.any fun e => cmdOp e.2.2.desc == 0x52 && applied i e.2.2 && !e.2.2.done

/-- A Tarn write at work on its index: it ends with BAD_FIELD where the index or list is not there, or was not at admission (R387), waits while its list is rewritten (R403) or an earlier write is in progress (R378), and ends with NO_RESOURCE while the pending epoch is the last (R384). -/
def Run.tarnWrite (r : Run) (onList : Bool) (f : Index → Nat → Run) : Run :=
  let l := r.field 39 16
  let i := r.field 11 8
  match r.s.index i with
  | none => r.failWith 0x201 0
  | some k =>
    if r.e.absent || (onList && decide (k.lists ≤ l)) then r.failWith 0x201 0
    else if r.e.cursor = 1 then f k l
    else if onList && k.rewriting l then r.block .rewrite
    else if deleting r.s i then r.block .applied
    else if k.pendingEpoch = 0xFFFFFFFF then r.failWith 0x101 0
    else f k l

/-- An entry image as it is appended: INSERT_EPOCH holds the pending epoch, and reserved fields are zero (R379). -/
def entryImage (width : BitVec 2) (epoch : BitVec 32) (bs : List Bt) : List Bt :=
  let w := sketchBytes width
  let t := vals (bs.drop w)
  let keep := BitVec.ofNat 256 (leNat t)
  let v := fld keep 63 0 + fld keep 103 64 * 2 ^ 64 + epoch.toNat * 2 ^ 128 + fld keep 202 160 * 2 ^ 160
  bs.take w ++ ((leBytes 32 v).zip (bs.drop w)).map fun p => { p.2 with val := p.1 }

/-- TARN_INSERT at work (R379, R383). -/
def attemptInsert (r : Run) : Run :=
  { r with e := { r.e with wait := .none } }.tarnWrite true fun k l =>
    let n := r.field 55 40 + 1
    let sz := entryBytes k.width
    match { r with e := { r.e with wait := .none } }.coherent [(r.field 167 128, n * sz)] [] with
    | .stop x => x
    | .go r =>
      let d := r.dirRead k l
      let len := d.1.length
      if d.1.cap < len + n then d.2.failWith 0x309 0
      else
        let src := d.2.devRead (r.field 167 128) (n * sz)
        if src.1.any fun b => !b.got then src.2.finish
        else
          let bs := travel (.dev (r.field 167 128)) src.1
          let w := src.2.devWrite (d.1.log + len * sz) ((chunksOf sz n bs).flatMap (entryImage k.width k.pendingEpoch))
          let w := w.devWrite (d.1.tomb + 4 * len) (cleanBytes (List.replicate (4 * n) 0xFF#8))
          let w := w.devWrite (k.dir + 32 * l + 12) (cleanBytes (leBytes 4 (len + n)))
          { w with e := { w.e with result := BitVec.ofNat 32 len, cursor := 1 } }.finish

/-- One position of a TARN_DELETE: stamped where its item matches and it is not stamped yet (R380). -/
def Run.stamp (k : Index) (d : DirEntry) (item : Nat) (acc : Nat × Run) (j : Nat) : Nat × Run :=
  let e := acc.2.devRead (d.log + j * entryBytes k.width + sketchBytes k.width) 32
  let t := e.2.devRead (d.tomb + 4 * j) 4
  if fld (BitVec.ofNat 256 (leNat (vals e.1))) 103 64 = item ∧ leNat (vals t.1) = 0xFFFFFFFF then (acc.1 + 1, t.2.devWrite (d.tomb + 4 * j) (cleanBytes (vecBytes k.pendingEpoch)))
  else (acc.1, t.2)

/-- TARN_DELETE at work (R380, R385). The positions that the command notes are stamped at once, and the others when it completes (log entry 55). -/
def attemptDelete (r : Run) : Run :=
  { r with e := { r.e with wait := .none } }.tarnWrite true fun k l =>
    let rest := decide (r.e.cursor = 1)
    let d := { r with e := { r.e with wait := .none } }.dirRead k l
    let js := (List.range d.1.length).filter fun j => rest || r.e.first.contains j
    let x := js.foldl (Run.stamp k d.1 (r.field 103 64)) (0, d.2)
    let y : Run := { x.2 with e := { x.2.e with result := x.2.e.result + BitVec.ofNat 32 x.1, cursor := 1 } }
    if rest then y.finish else y

/-- EPOCH_PUBLISH at work: it takes effect once every write applied before it has completed (R381). -/
def attemptPublish (r : Run) : Run :=
  { r with e := { r.e with wait := .none } }.tarnWrite false fun k _ =>
    let i := r.field 11 8
    if r.s.allStarted.any fun e => applied i e.2.2 then r.block .applied
    else
      let s := r.s.modIndex i fun x => { x with published := k.pendingEpoch, pendingEpoch := k.pendingEpoch + 1 }
      { r with s := s, e := { r.e with result := k.pendingEpoch } }.finish

/-- The collecting batch closes (R398). -/
def closeBatch (k : Index) : Index := { k with closed := some k.collecting, collecting := [] }

/-- The pool of a query whose batch runs (R391, R399). -/
def poolOf (x : Index) (c q id : Nat) : Option (List Cand) :=
  (x.running.find? fun r => r.core == c && r.queue == q && r.id == id).bind fun r => r.pool

/-- A query starts: it fails at once, or joins the collecting batch, which may close with it (R396, R398). -/
def joinBatch (r : Run) : Run :=
  let a := queryArgs r.e.desc
  match r.s.index a.index with
  | none => r.failWith 0x201 0
  | some k =>
    if r.e.absent then r.failWith 0x201 0
    else if a.epoch < k.floor.toNat ∨ k.published.toNat < a.epoch then r.failWith 0x205 0
    else
      let k := { k with collecting := k.collecting ++ [{ core := r.core, queue := r.queue, id := r.e.id, pool := none }] }
      let close := decide (k.rdvMax ≤ k.collecting.length) || k.rdvWait == 0 || a.flush
      { r with s := r.s.modIndex a.index fun _ => if close then closeBatch k else k }.block .batch

/-- A query whose batch runs goes on; `want` is the port chosen for its remote vectors. One that no batch runs waits in it, or joins one (R398). -/
def attemptQuery (want : Nat) (r : Run) : Run :=
  let a := queryArgs r.e.desc
  match (r.s.index a.index).bind fun k => poolOf k r.core r.queue r.e.id with
  | some pool => r.query a want pool
  | none => if r.e.wait = .batch ∧ (r.s.index a.index).isSome then r else joinBatch r

/-- While a closed batch waits, no further query of the index starts (R398). -/
def queryAccepts (s : State) (d : BitVec 512) : Bool := match s.index (queryArgs d).index with
  | none => true
  | some k => k.closed.isNone

/-- TARN_QUERY (R391, R398). -/
def execTarnQuery (core : CoreId) (queue : QueueId) (s : State) : Res := startCmd [0x50] core.val queue.val s queryAccepts joinBatch

/-- TARN_INSERT (R379). -/
def execTarnInsert (core : CoreId) (queue : QueueId) (s : State) : Res := startCmd [0x51] core.val queue.val s anyTime attemptInsert

/-- TARN_DELETE (R380). `first` are the positions that the engines have stamped by the time of the next command (R385; log entry 55). -/
def execTarnDelete (core : CoreId) (queue : QueueId) (first : List Nat) (s : State) : Res := startCmd [0x52] core.val queue.val s anyTime fun r => attemptDelete (r.doing first)

/-- EPOCH_PUBLISH (R381). -/
def execEpochPublish (core : CoreId) (queue : QueueId) (s : State) : Res := startCmd [0x53] core.val queue.val s anyTime attemptPublish

/-- The rendezvous wait of an index ends: its collecting batch closes (R398). -/
def execRendezvousTimeout (index : Fin 16) (s : State) : Res :=
  match s.index index.val with
  | none => .next s
  | some k => if k.collecting.isEmpty || k.closed.isSome then .next s else .next (s.modIndex index.val closeBatch)

/-- A batched query as a running command, where it is still there. -/
def queryRun (s : State) (q : QueryRef) : Option Run := (s.started q.core q.queue q.id).map fun e => { s := s, core := q.core, queue := q.queue, e := e }

/-- The host-window lines that a batched query needs before it is streamed (R561). -/
def queryLines (s : State) (x : Index) (q : QueryRef) : List Nat :=
  match queryRun s q with
  | none => []
  | some r => if r.e.done then [] else (queryReads x (queryArgs r.e.desc)).flatMap fun p => snoopsOf s p.1 p.2 false

/-- What a query of a starting batch asks to be streamed: its sketch, and the lists that it names; none where it goes by centroid (R389). -/
structure Probe where
  ref : QueryRef
  sketch : List Byte
  lists : Option (List Nat)
  deriving DecidableEq, Repr

/-- A query of a starting batch is read; one that cannot be streamed ends here (R389, R395, R396, R566). -/
def probeOne (x : Index) (acc : List Probe × State) (q : QueryRef) : List Probe × State :=
  match queryRun acc.2 q with
  | none => acc
  | some r =>
    let a := queryArgs r.e.desc
    if r.e.done then acc
    else if !(queryLines acc.2 x q).isEmpty then (acc.1, (r.failWith 0x507 0).store)
    else
      let sk := r.devRead a.sketch (sketchBytes x.width)
      if sk.2.e.barren then (acc.1, sk.2.finish.store)
      else if a.byCentroid then (acc.1 ++ [{ ref := q, sketch := vals sk.1, lists := none }], sk.2.store)
      else
        let ls := sk.2.namedLists x a
        match ls.1 with
        | none => (acc.1, (ls.2.failWith 0x201 0).store)
        | some l => if ls.2.e.barren then (acc.1, ls.2.finish.store) else (acc.1 ++ [{ ref := q, sketch := vals sk.1, lists := some l }], ls.2.store)

/-- The lists that a query probes (R389). -/
def Probe.probes (p : Probe) (x : Index) (n : Nat) (cs : List Streamed) : List Nat :=
  match p.lists with
  | some l => l
  | none => if x.lists ≤ n then List.range x.lists else nearLists cs n p.sketch

/-- A query takes its pool from what was streamed (R391). -/
def poolOne (x : Index) (cs : List Streamed) (ls : List ListStream) (acc : List QueryRef × State) (p : Probe) : List QueryRef × State :=
  match queryRun acc.2 p.ref with
  | none => acc
  | some r =>
    let a := queryArgs r.e.desc
    let r := if p.lists.isNone then cs.foldl Run.meet r else r
    let mine := p.probes x a.nprobe cs
    let c := (ls.filter fun l => mine.contains l.list).foldl (Run.scanList x a p.sketch) ([], r)
    (acc.1 ++ [{ p.ref with pool := some ((sortBy Cand.before c.1).take a.pool) }], c.2.store)

/-- A closed batch is streamed: the centroids once where a query goes by them, and each list probed once (R399); its queries are then the running batch. -/
def streamBatch (s : State) (i : Nat) (x : Index) (l : List QueryRef) : State :=
  let p := l.foldl (probeOne x) ([], s)
  let cs := if p.1.any fun q => q.lists.isNone then (List.range x.lists).foldl (streamCentroid x) ([], p.2) else ([], p.2)
  let nprobe (q : Probe) : Nat := match queryRun p.2 q.ref with
    | none => 0
    | some r => (queryArgs r.e.desc).nprobe
  let lists := sortBy (fun a b => decide (a < b)) (p.1.flatMap fun q => q.probes x (nprobe q) cs.1).dedup
  let ls := lists.foldl (streamList x) ([], cs.2)
  let refs := p.1.foldl (poolOne x cs.1 ls.1) ([], ls.2)
  refs.2.modIndex i fun k => { k with closed := none, running := refs.1 }

/-- The running batch has finished: none of its queries is at work (R398). -/
def batchOver (s : State) (x : Index) : Bool :=
  x.running.all fun q => match queryRun s q with
    | none => true
    | some r => r.e.done

/-- A query of the running batch goes on. -/
def stepQuery (want : Nat) (s : State) (q : QueryRef) : State :=
  match queryRun s q with
  | none => s
  | some r => if r.e.done then s else (attemptQuery want r).store

/-- A batched query keeps the lines that it waits for, until its batch is streamed (R563). -/
def keepLines (x : Index) (s : State) (q : QueryRef) : State := s.modStarted q.core q.queue q.id fun e => { e with lines := (e.lines ++ queryLines s x q).eraseDups }

/-- A batched query waits for no lines any more. -/
def dropLines (s : State) (q : QueryRef) : State := s.modStarted q.core q.queue q.id fun e => { e with lines := [] }

/-- BATCH_RUN: the running batch goes on; once it has finished, the closed batch is streamed and becomes the running one (R398, R399). While the host holds lines that its queries need, snoops go out instead; while the host does not answer, those queries alone end with HOST_UNRESPONSIVE (R395, R561, R566). `port` is chosen for the remote vectors' READs (R472). In STANDBY, or without a clock, the engines stand still (R688). -/
def execBatchRun (index : Fin 16) (port : PortId) (s : State) : Res :=
  match s.index index.val with
  | none => .next s
  | some x =>
    if s.power.standby || !s.clocked then .next s
    else if !batchOver s x then .next (x.running.foldl (stepQuery port.val) s)
    else match x.closed with
    | none => .next s
    | some l =>
      let lines := l.flatMap (queryLines s x)
      if !lines.isEmpty && !s.host.unresponsive then .next (sendSnoops (l.foldl (keepLines x) s) lines false)
      else if lines.any s.snooped then .next s
      else
        let t := streamBatch (l.foldl dropLines s) index.val x l
        .next (serveHost (((t.index index.val).getD x).running.foldl (stepQuery port.val) t))

end Sys2Proof.Machine
end

