-- ==== Sys2Proof/Machine/Update.lean ====
section
/-! DEFINITION. The update unit: optimizer slots and UPDATE (R344 to R362). -/

namespace Sys2Proof.Machine

/-- Optimizer slot `i` (R347). -/
def State.optSlot (s : State) (i : Nat) : OptSlot := tget optInit s.opt i

/-- A started UPDATE uses an optimizer slot (R350). -/
def slotUsed (s : State) (i : Nat) : Bool :=
  s.allStarted.any fun e => cmdOp e.2.2.desc == 0x70 && (updArgs e.2.2.desc).slot == i

/-- A held message waits for an optimizer slot, a CHECKPOINT_IN that has landed for all of them (R350, R432). -/
def slotHeld (s : State) (i : Nat) : Bool :=
  s.mbx.held.any fun h => ((h.opcode == 0x0601 || h.opcode == 0x0602) && fld (effPayload h.msg) 3 0 == i) || (h.opcode == 0x0B04 && h.arg == 3)

/-- What CONFIGURE_OPTIMIZER's payload makes of a slot; its hyperparameters stay. -/
def configuredSlot (p : BitVec 384) (o : OptSlot) : OptSlot :=
  { o with configured := true, algorithm := fb p 8 3, masterBf16 := bit p 12, bs8 := bit p 16, gradBf16 := bit p 20, copyFmt := fb p 24 3 }

/-- What SET_HYPERPARAMETERS' payload makes of a slot (R348). -/
def hyperSlot (p : BitVec 384) (o : OptSlot) : OptSlot :=
  let omb (b : F32) : F32 := b32 (add32 .plain one (negX (v32 b))).1
  { o with beta1 := fb p 32 32, beta2 := fb p 64 32, eps := fb p 96 32, decay := fb p 128 32, omb1 := omb (fb p 32 32), omb2 := omb (fb p 64 32) }

/-- Either message takes effect. -/
def applyOpt (s : State) (opcode : BitVec 16) (p : BitVec 384) : State :=
  { s with opt := tmod optInit s.opt (fld p 3 0) (if opcode = 0x0601 then configuredSlot p else hyperSlot p) }

/-- Either message takes effect at once, or is held until its slot is free and no earlier message of it waits (R81, R350). -/
def optNow (s : State) (x : Ctx) (opcode : BitVec 16) : Answer :=
  let h := heldOf opcode.toNat x.m 0
  if slotUsed s (x.f 3 0) || s.behind h then .hold s h else .done (applyOpt s opcode x.p) .ok

/-- CONFIGURE_OPTIMIZER (spec 09; R349, R350). -/
def execConfigureOptimizer (m : Msg) (s : State) : Res :=
  serve { plainOp 0x0601 1 [(383, 27), (23, 21), (19, 17), (15, 13), (11, 11), (7, 4)] with cap := some capUpdate } m s fun s x =>
    if decide (3 < x.f 10 8) || decide (4 < x.f 26 24) || (bit x.p 16 && !x.has capBs8) then refuse s 0x201 else optNow s x 0x0601

/-- A hyperparameter is finite. -/
def finite32 (w : F32) : Bool := isFinV (v32 w)

/-- A coefficient lies in 0 to 1 inclusive (R348). -/
def unitRange (w : F32) : Bool := finite32 w && !ltX (v32 w) pZero && !ltX one (v32 w)

/-- A hyperparameter is finite and not negative (R348). -/
def notNegative (w : F32) : Bool := finite32 w && !ltX (v32 w) pZero

/-- SET_HYPERPARAMETERS (R348 to R350). -/
def execSetHyperparameters (m : Msg) (s : State) : Res :=
  serve { plainOp 0x0602 1 [(383, 160), (31, 4)] with cap := some capUpdate, high := true } m s fun s x =>
    if unitRange (fb x.p 32 32) && unitRange (fb x.p 64 32) && notNegative (fb x.p 96 32) && notNegative (fb x.p 128 32) then optNow s x 0x0602
    else refuse s 0x201

/-- Values with the flags gathered so far. -/
abbrev FW := FV × Flags

/-- An operation on two values, its flags joined to theirs. A subnormal value that an earlier operation computed raises no DN here (log entry 118). -/
def FW.op2 (f : FV → FV → FW) (x y : FW) : FW := let r := f x.1 y.1; (r.1, r.2 ||| x.2 ||| y.2)

/-- A fused operation on three values, its flags joined to theirs. -/
def FW.fma (x y z : FW) : FW := let r := fma32 .plain x.1 y.1 z.1; (r.1, r.2 ||| x.2 ||| y.2 ||| z.2)

/-- A hyperparameter or command constant as an operand; a subnormal one is honoured and raises DN (R152, R359). -/
def FW.const (w : F32) : FW := readFp fp32 .plain w.toNat

/-- sign(c) of R359. -/
def signV : FV → FV
  | .nan => .nan
  | .inf n => .fin n 1 0
  | .fin n m _ => if m = 0 then pZero else .fin n 1 0

/-- The quotient of R359; a nonzero numerator over zero gives an Infinity with DZ (R362). -/
def divW (x y : FV) : FW :=
  let r := div32 .plain x y
  match x, y with
  | .inf _, .fin _ 0 _ => (r.1, r.2 ||| fDZ)
  | _, _ => r

/-- What one element's update yields: the parameter, the first moment, the second moment as it is stored, and the flags. -/
structure Elem where
  p : FV
  m : FV
  v : FV
  flags : Flags

/-- The parameter result fma(x, w, p) (R359); one that this rounding overflows takes the largest finite value under SAT (R160; log entry 36). -/
def paramResult (a : Actl) (x w p : FW) : FW :=
  let r := fma32 .plain x.1 w.1 p.1
  let fl := x.2 ||| w.2 ||| p.2
  match r.1 with
  | .inf n => if a.sat && (r.2 &&& fOF) != 0 then (.fin n fp32.maxFin.1 fp32.maxFin.2, r.2 ||| fl ||| fSAT) else (r.1, r.2 ||| fl)
  | _ => (r.1, r.2 ||| fl)

/-- The arithmetic of R359 on one element. DN comes from what is read and from the constants, not from computed intermediates (log entry 118). -/
def updateElem (u : UpdArgs) (o : OptSlot) (a : Actl) (grad param mom sec : FV) : Elem :=
  let c := FW.const
  let alg := o.algorithm.toNat
  let decay := !u.noDecay
  let p : FW := (param, 0)
  let m : FW := (mom, 0)
  let g0 := FW.op2 (mul32 .plain) (grad, 0) (c u.scale)
  let g := if (alg = 0 ∨ alg = 1) ∧ decay then FW.fma (c o.decay) p g0 else g0
  let t : FW × FW × FW :=
    if alg = 0 then
      let m1 := FW.fma (c o.beta1) m g
      (m1, m1, (pZero, 0))
    else if alg = 3 then
      let d := FW.fma (c o.beta1) m (FW.op2 (mul32 .plain) (c o.omb1) g)
      ((signV d.1, d.2), FW.fma (c o.beta2) m (FW.op2 (mul32 .plain) (c o.omb2) g), (pZero, 0))
    else
      let m1 := FW.fma (c o.beta1) m (FW.op2 (mul32 .plain) (c o.omb1) g)
      let v : FW := if o.bs8 then FW.op2 (mul32 .plain) (sec, 0) (sec, 0) else (sec, 0)
      let v1 := FW.fma (c o.beta2) v (FW.op2 (mul32 .plain) (c o.omb2) (FW.op2 (mul32 .plain) g g))
      let q := sqrt32 v1.1
      let r1 : FW := (q.1, q.2 ||| v1.2)
      let w := FW.op2 divW (FW.op2 (mul32 .plain) m1 (c u.bc1)) (FW.fma r1 (c u.bc2) (c o.eps))
      (w, m1, if o.bs8 then r1 else v1)
  let w := if (alg = 2 ∨ alg = 3) ∧ decay then FW.fma (c o.decay) p t.1 else t.1
  let lr := c u.lr
  let p1 := paramResult a (negX lr.1, lr.2) w p
  { p := p1.1, m := t.2.1.1, v := t.2.2.1, flags := p1.2 ||| t.2.1.2 ||| t.2.2.2 }

/-- One array's part of a block: where element `i` begins, and the bytes of `n` elements (R351, spec 09). -/
def arrayPart (code base i n : Nat) : Nat × Nat :=
  if code = 5 ∨ code = 6 then (base + i / 32 * 33, 33) else (base + i * fmtBytes code, n * fmtBytes code)

/-- A part of an array is read; subnormals are honoured (R359). -/
def readPart (code base i n : Nat) (r : Run) : Vals × Bool × Run :=
  let a := arrayPart code base i n
  let d := r.devRead a.1 a.2
  (decodeRow .plain code (vals d.1), anyMark d.1, d.2)

/-- A block's results on their way: for each array the address and the bytes, poisoned together, with the bytes that one element takes (R351, R356 to R358). -/
structure UpdOut where
  writes : List BufPart
  flags : Flags
  deriving DecidableEq, Repr

/-- Format codes of the arrays: parameter, gradient, first and second moment. -/
def optCodes (o : OptSlot) : Nat × Nat × Nat × Nat :=
  (if o.masterBf16 then 1 else 0, if o.gradBf16 then 1 else 0, if o.bs8 then 5 else 0, if o.bs8 then 6 else 0)

/-- A new parameter as the master takes it: FP32 as it is, and into BF16 a conversion that honours subnormals, without DN, unless DAZ is set (R145, R160, R360). -/
def masterOperand (a : Actl) (fmt : Nat) (v : FV) : FV × Flags := if fmt = 0 ∨ !a.daz then (v, 0) else operand32 a v

/-- A moment as it is stored: FP32 as it is, or its block encoded (R351, R360). -/
def momentRow (a : Actl) (bs8 : Bool) (code : Nat) (xs : List FV) : List Byte × Flags :=
  if bs8 then encodeRow a code true (xs.map (operand32 a)) else (xs.flatMap fun x => vecBytes (b32 x), 0)

/-- One array's part of a block on its way. A BS8 block stands together, because its elements share an exponent. -/
def updPart (code base i n : Nat) (mark : Bool) (row : List Byte × Flags) : BufPart × Flags :=
  ({ off := (arrayPart code base i n).1, bytes := row.1, marks := row.1.map fun _ => mark, elt := if code = 5 ∨ code = 6 then 33 else fmtBytes code }, row.2)

/-- One block of up to 32 elements is read and its results computed (R356 to R361). -/
def updateBlock (u : UpdArgs) (o : OptSlot) (a : Actl) (i n : Nat) (r : Run) : UpdOut × Run :=
  let k := optCodes o
  let p := readPart k.1 u.param i n r
  let g := readPart k.2.1 u.grad i n p.2.2
  let m := readPart k.2.2.1 u.m i n g.2.2
  let v : Vals × Bool × Run := if optUsesV o then readPart k.2.2.2 u.v i n m.2.2 else (([], 0), false, m.2.2)
  let mark := p.2.1 || g.2.1 || m.2.1 || v.2.1
  let es := (List.range n).map fun j => updateElem u o a (g.1.1.getD j pZero) (p.1.1.getD j pZero) (m.1.1.getD j pZero) (v.1.1.getD j pZero)
  let parts : List (BufPart × Flags) :=
    [updPart k.1 u.param i n mark (encodeRow a k.1 true (es.map fun e => masterOperand a k.1 e.p)), updPart k.2.2.1 u.m i n mark (momentRow a o.bs8 5 (es.map fun e => e.m))]
    ++ (if optUsesV o then [updPart k.2.2.2 u.v i n mark (momentRow a o.bs8 6 (es.map fun e => e.v))] else [])
    ++ (if o.copyFmt != 0 then [updPart o.copyFmt.toNat u.copy i n mark (encodeRow a o.copyFmt.toNat true (es.map fun e => operand32 a e.p))] else [])
    ++ (if u.clear then [updPart k.2.1 u.grad i n mark (List.replicate (n * fmtBytes k.2.1) 0#8, (0 : Flags))] else [])
  let fl := es.foldl (fun acc e => acc ||| e.flags) (p.1.2 ||| g.1.2 ||| m.1.2 ||| v.1.2)
  ({ writes := parts.map fun x => x.1, flags := parts.foldl (fun acc x => acc ||| x.2) fl }, v.2.2)

/-- The update unit of a block: that of the stack which holds the first master parameter of its chunk of 1,024 elements (R344). -/
def unitOf (u : UpdArgs) (o : OptSlot) (block : Nat) : Nat := chanOf (u.param + block / 32 * 1024 * fmtBytes (optCodes o).1) / 16

/-- The blocks of a command are read and computed, each by its unit (R344, R356). `fuel` bounds them. -/
def updateBlocks (u : UpdArgs) (o : OptSlot) (a : Actl) : Nat → Nat → Run → List (List BufPart) × Run
  | 0, _, r => ([], r)
  | fuel + 1, i, r =>
    if u.count ≤ i then ([], r)
    else
      let n := min 32 (u.count - i)
      let b := updateBlock u o a i n r.apart
      let rest := updateBlocks u o a fuel (i + 32) { b.2 with e := r.e }
      (noteParts (b.2.noteOf b.1.flags (unitOf u o (i / 32)) n) b.1.writes :: rest.1, rest.2)

/-- The ranges of a command's blocks, each with its unit: the arrays that block `i` uses (R344, R353). -/
def updRanges (u : UpdArgs) (o : OptSlot) : List (Nat × Nat × Nat) :=
  let k := optCodes o
  (List.range (ceilDiv u.count 32)).flatMap fun i =>
    let n := min 32 (u.count - 32 * i)
    ([(k.1, u.param), (k.2.1, u.grad), (k.2.2.1, u.m)] ++ (if optUsesV o then [(k.2.2.2, u.v)] else []) ++ (if o.copyFmt != 0 then [(o.copyFmt.toNat, u.copy)] else [])).map fun c =>
      (unitOf u o i, arrayPart c.1 c.2 (32 * i) n)

/-- UPDATE at work (R344 to R362). Every block is read before any is written, so no block meets another's poison (R358). The blocks that the command notes are written at once, and the rest when it completes (log entry 55); each brings its flags, its failures and its elements to the command as it is written (R155, R355). A slot that has changed since admission so that the fields no longer fit ends the command with BAD_FIELD. -/
def attemptUpdate (r : Run) : Run :=
  let u := updArgs r.e.desc
  let r := { r with e := { r.e with wait := .none } }
  if r.e.cursor = 1 then
    match r.coherent [] (r.e.buf.map fun p => (p.off, p.bytes.length)) with
    | .stop x => r.stopAt x (partRanges r.e.buf)
    | .go r => r.putRest
  else if !updateOk r.s r.e.desc then r.failWith 0x201 0
  else
    let o := r.s.optSlot u.slot
    match r.coherent (u.used o) (u.used o) with
    | .stop x => r.stopAt x (updRanges u o)
    | .go r =>
      let bs := updateBlocks u o (actlOf u.actl) (u.count / 32 + 1) 0 r
      let r := bs.2.putBlocks r.e.first.contains bs.1
      if r.e.buf.isEmpty then r.finish else r

/-- The update units take the command (R346). -/
def takeUpdate (r : Run) : Run := { r with s := { r.s with updateCmds := r.s.updateCmds ++ [(r.core, r.queue, r.e.id)] } }

/-- The update units take at most 16 commands, and none whose slot a held message waits for (R346, R350). -/
def updateAccepts (s : State) (d : BitVec 512) : Bool := decide (s.updateCmds.length < 16) && !slotHeld s (updArgs d).slot

/-- UPDATE (R353). `first` are the blocks that the units have written by the time of the next command (R356; log entry 55). -/
def execUpdate (core : CoreId) (queue : QueueId) (first : List Nat) (s : State) : Res :=
  startCmd [0x70] core.val queue.val s updateAccepts fun r => attemptUpdate (takeUpdate (r.doing first))

end Sys2Proof.Machine
end

