-- ==== Sys2Proof/Machine/Attempts.lean ====
section
/-! DEFINITION. A started command that waited goes on: its work is attempted again from where it stopped. -/

namespace Sys2Proof.Machine

/-- The work of a started command, by its operation; `want` is the port chosen for what leaves the device (R472). -/
def attemptAny (want : Nat) (r : Run) : Run :=
  match cmdOp r.e.desc with
  | 0x01 => attemptWait r
  | 0x03 => attemptWaitSlot r
  | 0x05 => attemptSendSlot want r
  | 0x10 => attemptLate r
  | 0x11 => attemptLate r
  | 0x12 => attemptLate r
  | 0x30 => attemptDma want r
  | 0x31 => attemptDma want r
  | 0x32 => attemptDma want r
  | 0x33 => attemptTag r
  | 0x42 => attemptClose r
  | 0x50 => attemptQuery want r
  | 0x51 => attemptInsert r
  | 0x52 => attemptDelete r
  | 0x53 => attemptPublish r
  | 0x60 => attemptAdd r
  | 0x61 => attemptFlush want r
  | 0x70 => attemptUpdate r
  | _ => r

/-- A command of a unit that STANDBY stops: the arrays, the vector units, the save engines, the Tarn engines and the update units (R688). -/
def stopsInStandby (d : BitVec 512) : Bool := [1, 2, 4, 5, 7].contains (cmdOp d / 16) || cmdOp d == 0x60

/-- A started command is attempted again, unless its work is done or its unit stands still. -/
def resume (s : State) (c q id want : Nat) : State :=
  match s.started c q id with
  | none => s
  | some e => if e.done || (s.power.standby && stopsInStandby e.desc) then s else (attemptAny want { s := s, core := c, queue := q, e := e }).store

/-- The started commands that wait for something are attempted again. -/
def resumeWaiting (s : State) (p : Wait → Bool) : State :=
  (s.allStarted.filter fun e => !e.2.2.done && p e.2.2.wait).foldl (fun s e => resume s e.1 e.2.1 e.2.2.id 0) s

/-- An operation's owner goes on once a response has changed what it waits for. -/
def resumeOwner (s : State) (o : OpOwner) : State :=
  match o with
  | .cmd c q id => resume s c q id 0
  | .firmware => s

end Sys2Proof.Machine
end

