-- ==== Sys2Proof/Machine/Receive.lean ====
section
/-! DEFINITION. What the device does with frames that arrive: link acceptance, windows, micro-batch slots, responses and slot credits (R118 to R120, R290 to R298, R435, R460, R470, R473 to R477, R509 to R513, R542, R575, R743, R748). -/

namespace Sys2Proof.Machine

/-- The endpoint of KIND 1 that names a connection (R575). -/
def connEndpoint (s : State) (c : BitVec 12) : Option Nat :=
  (s.fabric.endpoints.find? fun e => match e.2 with | none => false | some x => x.roce && x.conn == c).map fun e => e.1

/-- Credits of a received frame go back in a LINK_CTL frame, with its acknowledgement (R456, R459, R460). -/
def returnCredits (s : State) (p ty : Nat) (f : Frame) : State := s.sendLinkCtl p (vcOf ty) (unitsOf f) false

/-- A sequenced frame at a port (R456, R460, R461): its acknowledgement and credits count first; then it is accepted, discarded as a duplicate and acknowledged again, or discarded with a replay request. -/
def acceptPort (s : State) (p ty : Nat) (f : Frame) : State × Bool :=
  let pt := s.port p
  if !pt.inSession || pt.state != 2 then (s, false)
  else
    let s := (s.modPort p fun pt => pt.linked f.ack f.crVc f.crUnits).drain p
    let behind := ((s.port p).rxSeq - f.seq).toNat
    if behind = 0 then
      let s := s.modPort p fun pt => { pt with rxSeq := pt.rxSeq + 1, replayAsked := none }
      (returnCredits s p ty f, true)
    else if behind ≤ 4096 then (s.sendLinkCtl p 0 0 false, false)
    else (discardFrame s p, false)

/-- A frame on a connection: its endpoint must name the connection and be its source (R575). -/
def acceptConn (s : State) (c : BitVec 12) (f : Frame) : State × Bool :=
  match s.conn c.toNat with
  | none => (s, false)
  | some k =>
    if !(s.ethPort k.port).up then (s, false)
    else if !k.error && !k.memory && connEndpoint s c == some f.srcEp.toNat then (s, true)
    else (s.modConn c.toNat fun k => { k with dropped := k.dropped + 1 }, false)

/-- A frame arrives on its path; the flag says that it goes on to its target. Nothing arrives while every clock is stopped (R693). -/
def acceptFrame (s : State) (v : Via) (ty : Nat) (f : Frame) : State × Bool :=
  if !s.clocked then (s, false)
  else match v with
    | .port p => acceptPort s p.val ty f
    | .conn c => acceptConn s c f

/-- The unit that a refused frame is logged at: its target's core where there is one, else its path (R297; log entry 14). -/
def frameUnit (s : State) (v : Via) (f : Frame) : Nat × Nat :=
  if f.core.toNat < 24 then (0, f.core.toNat)
  else match v with
    | .port p => (4, p.val)
    | .conn c => (5, match s.conn c.toNat with | none => 0 | some k => k.port)

/-- A refusal is logged with its reason (R297, R120). -/
def logRefusal (s : State) (u : Nat × Nat) (f : Frame) (reason window : Nat) : State :=
  s.postErr { mkErr 0x301 0 u.1 u.2 with endpoint := f.srcEp, detail := BitVec.ofNat 32 (windowDetail reason window) }

/-- A response to a frame: the same tag and generation, back to its source, on the path by which it came, with a status and a reason (R473, R476). -/
def respond (s : State) (v : Via) (f : Frame) (ty status reason : Nat) (bs : List Bt) : State :=
  s.sendFrame v ty { Frame.zero with tag := f.tag, tagGen := f.tagGen, srcEp := f.dstEp, dstEp := f.srcEp, offset := BitVec.ofNat 32 status, reason := BitVec.ofNat 8 reason, lenM1 := BitVec.ofNat 12 (bs.length - 1), poison := anyMark bs, last := true, payload := vals bs }

/-- Where a frame's access lies, once its window is known: core, window, physical address. -/
structure Target where
  core : Nat
  num : Nat
  win : Window
  addr : Nat
  inside : Bool
  deriving DecidableEq, Repr

/-- A source endpoint matches a window (R295). -/
def srcMatches (w : Window) (e : BitVec 12) : Bool := e &&& w.srcMask == w.srcEp &&& w.srcMask

/-- The open window that a board address of a core lies in (R296; log entry 34). -/
def boardWindow (s : State) (c a : Nat) : Option Target :=
  ((s.core c).cfg.windows.findSome? fun e => match e.2 with
    | none => none
    | some w => if w.base ≤ a ∧ a < w.base + w.size then some (e.1, w) else none).map fun x => { core := c, num := x.1, win := x.2, addr := a, inside := false }

/-- The window that a WRITE or READ frame of some bytes targets, if it is open (R296, R297). -/
def frameTarget (s : State) (f : Frame) (n : Nat) : Option Target :=
  let c := f.core.toNat
  if 24 ≤ c then none
  else if f.queue = 3 then
    (boardWindow s c f.offset.toNat).map fun t => { t with inside := decide (t.addr + n ≤ t.win.base + t.win.size) }
  else
    (s.window c f.window.toNat).map fun w =>
      { core := c, num := f.window.toNat, win := w, addr := w.base + f.offset.toNat, inside := decide (f.offset.toNat + n ≤ w.size) }

/-- The group whose landing windows include a target (R528). -/
def landingGroup (s : State) (t : Target) : Option (Nat × Group) :=
  s.groups.findSome? fun e => match e.2 with
    | none => none
    | some g => if (g.coreA = t.core ∧ g.winA = t.num) ∨ (g.coreB = t.core ∧ g.winB = t.num) then some (e.1, g) else none

/-- A WRITE is collective when its window is a landing window, or its MB field names something (log entry 35). -/
def isCollective (s : State) (f : Frame) (t : Target) : Bool := f.mb != 0 || (landingGroup s t).isSome

/-- The checks of R542 on a collective frame: source, flush, window, and the sender's slot. Its group, and the flush that it belongs to. -/
def collectiveOf (s : State) (f : Frame) (t : Target) : Option (Nat × Group × Nat) :=
  let gi := fld f.mb 31 28
  match s.group gi, s.bucket (fld f.mb 27 16) with
  | some g, some b =>
    let n := fld f.mb 15 0
    let flush := if n = g.flushCount % 65536 then some g.flushCount else if n = (g.flushCount + 1) % 65536 then some (g.flushCount + 1) else none
    match flush with
    | none => none
    | some k =>
      let r := g.ranks.idxOf f.srcEp
      let sh := shardBytes b g
      let o := t.addr - t.win.base
      let inSlot (gather : Bool) : Bool :=
        let a := landOffset b g gather r g.selfRank
        decide (a ≤ o) && decide (o + f.payload.length ≤ a + sh)
      if r < g.ranks.length ∧ r ≠ g.selfRank ∧ b.group = gi ∧ g.landing k = (t.core, t.num) ∧ (inSlot false || inSlot true) = true then some (gi, g, k) else none
  | _, _ => none

/-- The lowest reason for which a WRITE or READ is refused, if any (R297, R542). -/
def windowReason (s : State) (f : Frame) (t : Option Target) (write : Bool) : Option Nat :=
  match t with
  | none => some 0
  | some t =>
    if !srcMatches t.win f.srcEp then some 1
    else if !(if write then t.win.wr else t.win.rd) then some 2
    else if !t.inside then some 3
    else if write && f.publish && !t.win.publish then some 4
    else if write && isCollective s f t && (collectiveOf s f t).isNone then some 6
    else none

/-- What a collective frame is for its flush: its bucket, its sender's rank, the area that it lies in, and whether it is its message's last (R539, R542, R543). -/
def landingOf (b : Bucket) (g : Group) (f : Frame) (t : Target) : Landing :=
  let r := g.ranks.idxOf f.srcEp
  { bucket := fb f.mb 16 12, rank := r, gather := decide (landOffset b g true r g.selfRank ≤ t.addr - t.win.base), last := f.last }

/-- A collective frame that lands is remembered for its flush (R540, R542, R543). -/
def noteLanding (s : State) (f : Frame) (t : Target) : State :=
  match collectiveOf s f t, s.bucket (fld f.mb 27 16) with
  | some (gi, _, k), some b =>
    s.modGroup gi fun g =>
      let x := landingOf b g f t
      { g with landed := tmod [] g.landed (k % 2) fun l => if l.contains x then l else l ++ [x] }
  | _, _ => s

/-- The status with which an accepted write ends: a dead segment, or parity left bad by a partial write (R300, R304). -/
def writeStatus (parity dead : Option Nat) : Nat := if dead.isSome then 0x302 else if parity.isSome then 0x400 else 0

/-- The payload of a frame passes the fabric's buffers: bad parity there poisons its bytes, and its sender gets PARITY (R318, R629). -/
def inboundBytes (s : State) (poison : Bool) (bs : List Byte) : List Bt × Bool × State :=
  if bs.isEmpty then ([], false, s)
  else
    let x := s.struck none
    (markBytes (poison || x.1) bs, x.1, x.2)

/-- An accepted WRITE: its bytes, its counter, its tags, and its acknowledgement (R290, R473, R477, R748). -/
def landWrite (s : State) (v : Via) (f : Frame) (t : Target) : State :=
  let n := f.payload.length
  let d := inboundBytes s f.poison f.payload
  let w := spadWrite d.2.2 t.core t.addr d.1
  if w.2.2.isSome then respond s v f 6 0x302 0 []
  else
    let s := w.1
    let s := if isCollective s f t then noteLanding s f t else s
    let s := if t.win.ctrEn then s.arrive t.core t.win.counter.toNat n f.last else s
    let s := if f.publish then s.publish t.core t.addr n else s
    respond s v f 6 (if d.2.1 then 0x400 else writeStatus w.2.1 none) 0 []

/-- A WRITE frame arrives (R297, R473, R606). -/
def execWrite (via : Via) (f : Frame) (s : State) : Res :=
  let a := acceptFrame s via 2 f
  if !a.2 then .next a.1
  else
    let s := a.1
    if s.boot.quarantined then .next (respond s via f 6 0x505 0 [])
    else
      let t := frameTarget s f f.payload.length
      match windowReason s f t true, t with
      | none, some t => .next (landWrite s via f t)
      | r, _ =>
        let reason := r.getD 0
        .next (respond (logRefusal s (frameUnit s via f) f reason f.window.toNat) via f 6 0x301 reason [])

/-- The status with which an endpoint in QUARANTINE gets no data (R33, R506). -/
def quarantineOf (s : State) (ep : Nat) : Option Nat := (s.endpoint ep).bind fun e => e.quarantine.map fun st => st.toNat

/-- A READ frame arrives: READ_DATA answers it with the data, or without payload with a status (R33, R297, R300, R303, R476, R748). -/
def execRead (via : Via) (f : Frame) (s : State) : Res :=
  let a := acceptFrame s via 3 f
  if !a.2 then .next a.1
  else
    let s := a.1
    let n := f.lenM1.toNat + 1
    match (if s.boot.quarantined then some 0x505 else quarantineOf s f.srcEp.toNat) with
    | some st => .next (respond s via f 5 st 0 [])
    | none =>
      let t := frameTarget s f n
      match windowReason s f t false, t with
      | none, some t =>
        let d := spadRead s t.core t.addr n
        .next (if d.dead.isSome then respond s via f 5 0x302 0 [] else respond s via f 5 0 0 d.bytes)
      | r, _ =>
        let reason := r.getD 0
        .next (respond (logRefusal s (frameUnit s via f) f reason f.window.toNat) via f 5 0x301 reason [])

/-- The generation check of a slot write, by the profile agreed with its sender (R120, R510 to R512). -/
def genOk (profile : Nat) (x : Slot) (gen : BitVec 16) : Bool :=
  if profile = 0 then x.v1Credit else if profile ≤ 2 then gen &&& 0xFF == x.gen &&& 0xFF else gen == x.gen

/-- The profile of an input slot's fill: the one it began with, else that of its feeder now (R507). -/
def fillProfile (s : State) (q : Nat) (x : Slot) : Option Nat :=
  match x.profile with
  | some p => some p.toNat
  | none => (s.feederProfile q).map fun p => p.toNat

/-- What an accepted slot write will do: its queue, its slot, its profile and its local pieces. -/
structure SlotFill where
  k : MbQueue
  profile : Nat
  pieces : List InPiece
  amount : Nat

/-- The check of R120 on a slot write, none where it fails: the slot exists, its source is the feeder, its generation and micro-batch match, it is not FULL, its bytes stay in the slot, and its counter stays within EXPECTED. -/
def slotCheck (s : State) (q i : Nat) (f : Frame) : Option SlotFill :=
  let x := s.stage.slot q i
  match s.stage.queue q, s.stage.feeder q, fillProfile s q x with
  | some k, some a, some p =>
    let ps := (wireMap (s.queueFmt q) p).inbound f.offset.toNat f.payload
    let amount := if k.messages then (if f.last then 1 else 0) else (ps.map fun y => y.bytes.length).sum
    let fits := ps.all fun y => decide (y.off + y.bytes.length ≤ k.stride)
    if q < 2 ∧ i < k.slots ∧ a.endpoint = f.srcEp ∧ genOk p x f.slotGen = true ∧ x.state ≠ 2 ∧ (x.state = 0 ∨ x.mb = f.mb) ∧ fits = true
        ∧ x.counter.toNat + amount ≤ slotExpected k x ∧ (tget false s.stage.v1Hold q && p == 0) = false
    then some { k := k, profile := p, pieces := ps, amount := amount } else none
  | _, _, _ => none

/-- The digest of a filled slot of a recorded step is due (R423, R424). -/
def recordFill (s : State) (q i : Nat) : State :=
  match s.ovt.current with
  | none => s
  | some _ =>
    { s with
      stage := s.stage.modSlot q i fun x => { x with pendingDigest := true }
      ovt := { s.ovt with jobs := s.ovt.jobs ++ [.slot q i []] } }

/-- The slot's counter advances, and a counter at EXPECTED makes it FULL (R118, R290, R509, R512). -/
def advanceSlot (s : State) (q i : Nat) (x : SlotFill) (f : Frame) (flags : Flags) : State :=
  let y := s.stage.slot q i
  let total := y.counter.toNat + x.amount
  let full := decide (slotExpected x.k y ≤ total)
  let s : State := { s with stage := s.stage.modSlot q i fun y =>
    { y with state := if full then 2 else 1, mb := f.mb, counter := BitVec.ofNat 32 total, flags := y.flags ||| flags, profile := some (BitVec.ofNat 3 x.profile), v1Credit := y.v1Credit && !full } }
  if full then recordFill s q i else s

/-- An accepted slot write's pieces are written; the statuses that the writes met, PARITY among them where the fabric has spoiled the payload (R303, R317, R629). -/
def writePieces (s : State) (base : Nat) (poison : Bool) (ps : List InPiece) : State × List Nat :=
  let hit : Bool × State := if ps.isEmpty then (false, s) else s.struck none
  ps.foldl
    (fun acc p =>
      let w := devWrite acc.1 (base + p.off) (markBytes (poison || hit.1) p.bytes)
      (w.1, acc.2 ++ w.2.map fun x => x.1))
    (hit.2, if hit.1 then [0x400] else [])

/-- The bytes of an Ethernet port's request receive buffer that slot writes fill while they wait for snoops (R569, R574). -/
def State.rxFill (s : State) (p : Nat) : Nat :=
  (s.host.waiting.map fun r => match r.instr with
    | .slotWrite (.conn c) f => (match s.conn c.toNat with
      | none => 0
      | some k => if k.port = p then 32 + f.payload.length else 0)
    | _ => 0).sum

/-- The device pauses the request priority of a port whose request receive buffer of 1 MiB is 75% full, and releases it below that (R569; log entry 109). -/
def State.settlePfc (s : State) : State :=
  (List.range 2).foldl
    (fun s p =>
      let full := decide (786432 ≤ s.rxFill p)
      if full == (s.ethPort p).pausing || !(s.ethPort p).up then s
      else (s.modEth p fun e => { e with pausing := full }).emit (.pfc p (s.ethPort p).reqPcp full))
    s

/-- The slot writes that waited for snoops, and those that arrive: performed, refused, or kept back while the host holds their lines (R120, R473, R561, R566). -/
def landSlot (s : State) (v : Via) (f : Frame) : State :=
  let q := f.queue.toNat
  let i := f.slot.toNat
  match slotCheck s q i f with
  | none =>
    let u : Nat × Nat := match v with
      | .port p => (4, p.val)
      | .conn c => (5, match s.conn c.toNat with | none => 0 | some k => k.port)
    respond (logRefusal s u f 5 0) v f 6 0x301 5 []
  | some x =>
    let base := slotAddr x.k i
    let lines := x.pieces.flatMap fun p => snoopsOf s (base + p.off) p.bytes.length true
    if !lines.isEmpty then
      (if s.cannotSnoop lines then respond s v f 6 0x507 0 []
       else
         let s : State := { s with host := { s.host with waiting := s.host.waiting ++ [{ instr := .slotWrite v f, lines := lines }] } }
         (sendSnoops s lines true).settlePfc)
    else
      let w := writePieces s base f.poison x.pieces
      if w.2.contains 0x302 then respond s v f 6 0x302 0 []
      else
        let s := w.1
        let flags := x.pieces.foldl (fun acc p => acc ||| p.flags) 0
        let s := advanceSlot s q i x f flags
        let s := respond s v f 6 (if w.2.contains 0x402 then 0x402 else if w.2.contains 0x400 then 0x400 else 0) 0 []
        if (s.stage.slot q i).state = 2 then resumeWaiting s (fun w => w == .program) else s

/-- A SLOT_WRITE frame arrives (R120, R473, R606). -/
def execSlotWrite (via : Via) (f : Frame) (s : State) : Res :=
  let a := acceptFrame s via 4 f
  if !a.2 then .next a.1
  else if a.1.boot.quarantined then .next (respond a.1 via f 6 0x505 0 [])
  else .next (landSlot a.1 via f)

/-- The outstanding operation that a response belongs to: its tag and generation match (R470, R476). -/
def opFor (s : State) (f : Frame) : Option NetOp := s.net.ops.find? fun o => o.tag == f.tag.toNat && o.gen == f.tagGen

/-- A response without an operation is counted and discarded (R470). -/
def staleResponse (s : State) : State := { s with net := { s.net with stale := s.net.stale + 1 } }

/-- The status that a response carries. -/
def rspStatus (f : Frame) : Nat := fld f.offset 15 0

/-- A refusal in a response reaches its command with its detail (R297). -/
def rspFault (f : Frame) (window : Nat) (ep : BitVec 12) (e : Started) : Started :=
  { e.opEnds (rspStatus f) (if rspStatus f = 0x301 then windowDetail f.reason.toNat window else 0) ep with sent := true }

/-- The window field that a command's refusals name: its own, or a flush's landing window (R297, R545). -/
def faultWindow (s : State) (e : Started) : Nat :=
  if cmdOp e.desc = 0x31 ∨ cmdOp e.desc = 0x32 then fld (cmdBody e.desc) 38 33
  else if cmdOp e.desc = 0x61 then
    (match s.bucket (bucketOf e.desc) with
     | none => 0
     | some b => ((s.group b.group).map fun g => (g.landing g.flushCount).2).getD 0)
  else 0

/-- Data arrives for a place of a destination: where the host holds a line of it, or of what waits beside it, the data waits until the line has been snooped; while the host does not answer, it is not written (R561, R566). -/
def Run.landHeld (r : Run) (side : Side) (n off : Nat) (bs : List Bt) : Run :=
  let parts := r.e.buf ++ [bufPart off bs]
  let lines := parts.flatMap fun p => (sideRange side p.off (p.off + p.bytes.length)).flatMap fun x => snoopsOf r.s x.1 x.2 true
  if lines.isEmpty then r.land side n off bs
  else if r.s.cannotSnoop lines then { r with e := { (r.e.fault 0x507 0) with opLost := true } }
  else { r with s := sendSnoops r.s lines true, e := { r.e with buf := parts, lines := (r.e.lines ++ lines).eraseDups } }

/-- READ_DATA arrives: its bytes land at the place of its READ, or join a query's vectors; poisoned data ends a transfer with PARITY and a query with HBM_UNCORRECTED, and the spec gives neither's address here (R303, R393, R396, R470, R476, R748). -/
def landReadData (s : State) (o : NetOp) (f : Frame) : State :=
  let s := s.endOp o.tag
  match o.owner, o.kind with
  | .cmd c q id, .read off len =>
    (match s.started c q id with
     | none => s
     | some e =>
       let r : Run := { s := s, core := c, queue := q, e := e }
       if rspStatus f ≠ 0 then ({ r with e := rspFault f (faultWindow s e) o.endpoint e }).store
       else
         let d := ({ r with e := { e with sent := true } } : Run).fabric (markBytes f.poison (f.payload.take len))
         let bs := d.1
         let r := d.2
         let sd := dmaSides s c e.desc
         let n := dmaLen e.desc
         if cmdOp e.desc = 0x50 then
           (let r := if f.poison then r.openFault 0x402 else r
            { r with e := { r.e with buf := r.e.buf ++ [bufPart off bs] } }.store)
         else
         let r := if f.poison then r.openFault 0x400 else r
         (match sd.2 with
          | .board _ _ => { r with e := { r.e with buf := r.e.buf ++ [bufPart off bs] } }
          | side => r.landHeld side n off bs).store)
  | _, _ => s

/-- READ_DATA (R470, R476). -/
def execReadData (via : Via) (f : Frame) (s : State) : Res :=
  let a := acceptFrame s via 5 f
  if !a.2 then .next a.1
  else match opFor a.1 f with
    | none => .next (staleResponse a.1)
    | some o => .next (resumeOwner (landReadData a.1 o f) o.owner)

/-- A slot send's counter follows its acknowledgements (R118, R122). -/
def ackSlot (s : State) (o : NetOp) (acked : Nat) : State :=
  match o.kind with
  | .slotSend q i => { s with stage := s.stage.modSlot q i fun x => { x with counter := BitVec.ofNat 32 (min o.bytes (acked * s.maxPayload o.via)) } }
  | _ => s

/-- WRITE_ACK counts one frame of its operation, with its status; the last ends the operation (R470, R473, R475). -/
def landAck (s : State) (o : NetOp) (f : Frame) : State :=
  let n := o.acked + 1
  let s := match o.owner with
    | .cmd c q id => s.modStarted c q id fun e => rspFault f (faultWindow s e) o.endpoint e
    | .firmware => s
  let s := ackSlot s o n
  if o.frames ≤ n then s.endOp o.tag
  else { s with net := { s.net with ops := s.net.ops.map fun x => if x.tag = o.tag then { x with acked := n } else x } }

/-- WRITE_ACK (R470, R473, R475). -/
def execWriteAck (via : Via) (f : Frame) (s : State) : Res :=
  let a := acceptFrame s via 6 f
  if !a.2 then .next a.1
  else match opFor a.1 f with
    | none => .next (staleResponse a.1)
    | some o => .next (resumeOwner (landAck a.1 o f) o.owner)

/-- A slot credit is accepted from the endpoint of its direction, under the rules of its profile; a foreign credit, and one for a slot already credited by an older part, are discarded and logged (R122, R435, R513, R743). -/
def landCredit (s : State) (v : Via) (f : Frame) : State :=
  let q := f.queue.toNat + 2
  let i := f.slot.toNat
  let u : Nat × Nat := match v with
    | .port p => (4, p.val)
    | .conn c => (5, match s.conn c.toNat with | none => 0 | some k => k.port)
  let log (s : State) : State := s.postErr { mkErr 0x301 0 u.1 u.2 with endpoint := f.srcEp }
  match if q < 4 then s.stage.receiver q else none with
  | none => log s
  | some a =>
    if a.endpoint ≠ f.srcEp ∨ a.peerInSlots ≤ i then log s
    else
      let x := s.stage.rslot q i
      let old := match (s.endpoint a.endpoint.toNat).bind fun e => e.profile with
        | none => false
        | some p => decide (p.toNat ≤ 2)
      let take (s : State) : State := { s with stage := s.stage.modRemote q i fun _ => { newest := if old then none else some f.slotGen, credit := some f.slotGen } }
      if old then (if x.credit.isSome then log s else take s)
      else match x.newest with
        | none => take s
        | some g => if 1 ≤ (f.slotGen - g).toNat ∧ (f.slotGen - g).toNat ≤ 32767 then take s else s

/-- SLOT_CREDIT; the sends that waited for one go on (R122, R435, R513, R743). -/
def execSlotCredit (via : Via) (f : Frame) (s : State) : Res :=
  let a := acceptFrame s via 7 f
  if !a.2 then .next a.1 else .next (resumeWaiting (landCredit a.1 via f) fun w => w == .program)

/-- A command waits for an endpoint's UP port and profile, which have not come, and has sent nothing yet; a send that awaits a credit waits for them too, once they are gone (R468). -/
def awaitsEndpoint (s : State) (c q : Nat) (e : Started) : Bool :=
  !e.done && !e.sent && !((s.opsOf c q e.id).any fun o => o.transmitted) && (match e.wait with
    | .endpoint ep => !s.reachable ep
    | .program => cmdOp e.desc == 0x05 && e.cursor == 1 && (match s.stage.receiver (fld (cmdBody e.desc) 1 0) with
      | none => false
      | some a => !s.reachable a.endpoint.toNat)
    | _ => false)

/-- The wait for an endpoint's port and profile ends with LINK_LOST (R468). -/
def execEndpointWaitTimeout (core : CoreId) (queue : QueueId) (id : Nat) (s : State) : Res :=
  match s.started core.val queue.val id with
  | none => .next s
  | some e =>
    if awaitsEndpoint s core.val queue.val e then .next ((s.dropCmdOps core.val queue.val id).modStarted core.val queue.val id fun e => { e.fault 0x500 0 with done := true, wait := .none })
    else .next s

/-- The feeder of an input queue has an UP path and a profile. -/
def feederUp (s : State) (q : Nat) : Bool :=
  match (s.stage.feeder q).bind fun a => s.endpoint a.endpoint.toNat with
  | none => false
  | some e => (s.path e 0).isSome && e.profile.isSome

/-- One millisecond has passed with no SLOT_WRITE for a queue fed by a v1 sender, and its link is UP: the held credits go out (R512). -/
def execV1CreditHold (queue : Fin 2) (s : State) : Res :=
  if tget false s.stage.v1Hold queue.val && feederUp s queue.val then
    .next ({ s with stage := { s.stage with v1Hold := tset false s.stage.v1Hold queue.val false } } : State).flushCredits
  else .next s

end Sys2Proof.Machine
end

