-- ==== Sys2Proof/Machine/Errors.lean ====
section
/-! DEFINITION. Error handling: the error log, the latches, the last-gasp area, the handling of events, and the errors of HBM (R309, R320, R606 to R628, R741, R746). -/

namespace Sys2Proof.Machine

/-- The 64-byte error record (spec 17). -/
def errBytes (r : ErrRec) : List Byte :=
  leBytes 64
    (r.gtc.toNat * 2 ^ 448 + r.seq.toNat * 2 ^ 416 + r.clientId.toNat * 2 ^ 352 + r.step.toNat * 2 ^ 320 + r.blockSeq.toNat * 2 ^ 288
      + r.cmdIndex.toNat * 2 ^ 272 + r.status.toNat * 2 ^ 256 + r.detail.toNat * 2 ^ 224 + r.address.toNat * 2 ^ 176 + r.endpoint.toNat * 2 ^ 160
      + r.unitIndex.toNat * 2 ^ 152 + r.unitClass.toNat * 2 ^ 148 + r.queue.toNat * 2 ^ 146 + r.core.toNat * 2 ^ 141 + r.severity.toNat * 2 ^ 136
      + r.count.toNat * 2 ^ 128 + r.fwInstance.toNat * 2 ^ 96)

/-- The 64-byte record of a latch (R612). -/
def latchBytes (n : Nat) (l : Option Latch) : List Byte :=
  match l with
  | none => errBytes { ErrRec.init with seq := BitVec.ofNat 32 n, count := 0 }
  | some x =>
    let b := errBytes { x.first with seq := BitVec.ofNat 32 n, count := x.count }
    leBytes 64 (leNat b + x.highest.toNat * 2 ^ 94 + 2 ^ 93)

/-- The newest record of the ring takes an event that matches it within 1 ms (R614). -/
def coalesces (n r : ErrRec) : Bool :=
  n.unitClass == r.unitClass && n.unitIndex == r.unitIndex && n.status == r.status && n.severity == r.severity && n.blockSeq == r.blockSeq
    && (r.status != 0 || fld n.detail 7 0 == fld r.detail 7 0) && decide (r.gtc.toNat - n.gtc.toNat ≤ 1000000)

/-- A ring with a full complement of records (R613). -/
def ringFull (e : Errors) : Bool := decide (256 ≤ e.ring.length)

/-- A record enters the ring, or is lost as R615 states. -/
def intoRing (e : Errors) (r : ErrRec) : Errors :=
  if !ringFull e then { e with ring := e.ring ++ [r] }
  else
    let e' : Errors := { e with overflow := satInc e.overflow 1 }
    if 2 ≤ r.severity.toNat ∧ e.ring.any (fun x => x.severity == 0) then { e' with ring := dropFirst (fun x => x.severity == 0) e.ring ++ [r] }
    else e'

/-- A record belongs to the open step: its block was admitted under that step, or it names none (R616; log entry 115). -/
def ofOpenStep (s : State) (r : ErrRec) : Bool := r.step == 0 || r.step == (match s.ovt.current with | none => s.ovt.step | some c => c.step)

/-- An event's record is written (R613 to R616, R619). -/
def writeRecord (s : State) (r : ErrRec) : State :=
  match s.err.ring.getLast? with
  | some n =>
    if coalesces n r then
      { s with err := { s.err with ring := s.err.ring.dropLast ++ [{ n with count := if n.count = 255 then 255 else n.count + 1 }] } }
    else newRecord s r
  | none => newRecord s r
where
  newRecord (s : State) (r : ErrRec) : State :=
    let seq := s.err.nextSeq
    let e := intoRing { s.err with nextSeq := seq + 1 } { r with seq := seq }
    let s : State := { s with err := e, ovt := if r.severity = 1 ∧ ofOpenStep s r = true then { s.ovt with stepFaults := satInc s.ovt.stepFaults 1 } else s.ovt }
    if 2 ≤ r.severity.toNat then ({ s with err := { s.err with alertSeqs := s.err.alertSeqs ++ [seq] } } : State).assertAlert else s

/-- A payload that the fabric has yet to carry will meet bad parity (R629). -/
def State.strike (s : State) (owner : Option (Nat × Nat × Nat)) (skip : Nat) : State := { s with strikes := s.strikes ++ [{ owner := owner, skip := skip }] }

/-- A command keeps payloads on their way through the fabric: a DMA transfer, a Tarn query, a bucket command, or an UPDATE. -/
def fabricHolds (d : BitVec 512) : Bool := [3, 5, 6, 7].contains (cmdOp d / 16)

/-- A command's payload fails its parity in a fabric buffer: one that it holds is poisoned there, and the command ends with PARITY, for which the spec states no DETAIL (log entry 3); else one that the fabric has yet to carry for it will meet it (R318, R629). A command is named by its id, which the next to start in its queue may take. -/
def spoilPayload (s : State) (c q id part : Nat) : State :=
  match s.started c q id with
  | none => if (s.queue c q).nextId ≤ id then s.strike (some (c, q, id)) part else s
  | some e =>
    if e.done then s
    else
      let held := if fabricHolds e.desc then e.buf.length else 0
      if held ≤ part then s.strike (some (c, q, id)) (part - held)
      else s.modStarted c q id fun e => { e.faultS 0x400 (openDetail c q e 0x400).toNat with buf := e.buf.modify part fun p => { p with marks := p.marks.map fun _ => true } }

/-- The scratchpad engines that work for a command (R259): the drains, loaders and feeders of its arrays, the two sides of the vector unit, the restore writes, or the DMA engine, which also reads for SAVE_COPY and BUCKET_ADD (log entry 12). TAG accesses no byte. -/
def enginesOf (d : BitVec 512) : List Nat :=
  match cmdOp d / 16 with
  | 1 => (arraysOf d).flatMap fun i => [3 + i, 8 + i, 13 + i]
  | 2 => [7, 12]
  | 3 => if cmdOp d = 0x33 then [] else [17]
  | _ => if cmdOp d = 0x43 then [1] else if cmdOp d = 0x41 ∨ cmdOp d = 0x60 then [17] else []

/-- A conflict that the banks can have had: the granted engine comes first, fabric ingress is never delayed, and the delayed engine is fabric egress or one of the command's that the access belongs to (R260, R262, R263). -/
def conflictOk (e : Option Started) (x : Conflict) : Bool :=
  decide (x.granted.toNat ≤ x.delayed.toNat) && (x.delayed.toNat == 2 || (match e with
    | none => false
    | some e => (enginesOf e.desc).contains x.delayed.toNat))

/-- Bits 26:0 of the DETAIL and of the capture of a conflict (R263, R264). -/
def conflictWord (x : Conflict) : Nat := x.delayed.toNat * 2 ^ 22 + x.granted.toNat * 2 ^ 17 + x.line.toNat

/-- A core counts a conflict, saturating, and captures the first since the last clear (R263). -/
def Core.countConflict (k : Core) (x : Conflict) : Core :=
  { k with
    conflictCount := satInc k.conflictCount 1
    conflictCapture := if bit k.conflictCapture 31 then k.conflictCapture else BitVec.ofNat 32 (2 ^ 31 + conflictWord x) }

/-- A conflict is charged to the command whose access it delayed: under STRICT it ends with SPAD_CONFLICT, DETAIL the first such; under RECORD its status is unaffected (R186, R264). -/
def Started.charge (e : Started) (x : Conflict) : Started :=
  if e.strict && (enginesOf e.desc).contains x.delayed.toNat then e.fault 0x303 (conflictWord x) else e

/-- A bank delays an access for a cycle (R262 to R264; log entry 12). -/
def bankConflict (s : State) (c : Nat) (cmd : Option (Nat × Nat)) (x : Conflict) : State :=
  let e := cmd.bind fun p => s.started c p.1 p.2
  if conflictOk e x then
    let s := s.modCore c fun k => k.countConflict x
    match cmd with
    | none => s
    | some p => s.modStarted c p.1 p.2 fun e => e.charge x
  else s

/-- What the device's own logic detects: a corrected control SRAM error is an event of CORRECTED severity; bad parity of fabric headers, tag tables or sequencer state is one of DEVICE severity, with its containment; bad parity of a payload ends its command; a bank conflict is counted and charged (R6, R262, R607, R624, R629, R746). -/
def detect (s : State) : HwEvent → State
  | .sramCorrected => s.postErr (mkEvent 1 0 0 8 0)
  | .fabricState q => s.deviceErr (mkErr 0x400 3 7 q.val)
  | .fabricPayload c q id part => spoilPayload s c.val q.val id part
  | .portPayload skip => s.strike none skip
  | .bankConflict c cmd x => bankConflict s c.val (cmd.map fun p => (p.1.val, p.2)) x

/-- The queue whose event hart 2 takes next (R621). -/
def nextQueue (s : State) : Option Nat := [3, 2, 1, 0].find? fun i => !(tget [] s.err.queues i).isEmpty

/-- Hart 2 takes the next event, from the most severe queue that holds one, and writes its record (R621, R741). Its handling is one step, so nothing preempts it (R622). -/
def handleEvent (s : State) : State :=
  if !s.itkan then s
  else
    match nextQueue s with
    | none => s
    | some i =>
      match tget [] s.err.queues i with
      | [] => s
      | r :: rest => writeRecord { s with err := { s.err with queues := tset [] s.err.queues i rest } } r

/-- ERROR_EVENT_HANDLE: what the device's own logic has detected since (operands, log entry 11) takes effect, errors reaching their queues, and hart 2 handles the next event. -/
def execErrorEventHandle (detected : List HwEvent) (s : State) : Res :=
  if s.clocked then .next (handleEvent (detected.foldl detect s)) else .next s

/-- The highest severity among the records held. -/
def maxSeverity (e : Errors) : Nat := e.ring.foldl (fun a r => max a r.severity.toNat) 0

/-- A last-gasp record is unacknowledged. -/
def lgValid (e : Errors) : Bool := e.lgFirst.isSome || e.lgLatest.isSome

/-- The 64-byte summary of READ_ERROR_LOG (R617). -/
def logSummary (s : State) (n : Nat) : List Byte :=
  let e := s.err
  let oldest := match e.ring with
    | [] => e.nextSeq
    | r :: _ => r.seq
  leBytes 64 (maxSeverity e + (if s.boot.quarantined then 4 else 0) + (if lgValid e then 8 else 0) + e.nextSeq.toNat * 2 ^ 64 + oldest.toNat * 2 ^ 96
    + e.overflow.toNat * 2 ^ 128 + s.ovt.stepFaults.toNat * 2 ^ 160 + n % 256 * 2 ^ 192)

/-- ALERT_N is released once every cause has been read, an event of DEVICE severity that awaits its record included (R607, R619). -/
def settleAlert (s : State) : State :=
  if (tget [] s.err.queues 3).isEmpty && s.err.alertSeqs.isEmpty && !s.err.alertLost && !s.err.alertFirst && !s.err.alertLatest && s.boot.fwStage != 8 then s.releaseAlert else s

/-- A read of the ring over the management path counts the causes that it shows as read (R619). -/
def alertRead (s : State) (from' : Nat) (got : List ErrRec) (all : Bool) : State :=
  let read (q : BitVec 32) : Bool := decide (from' ≤ q.toNat) && (all || got.any fun r => decide (q.toNat ≤ r.seq.toNat))
  settleAlert { s with err := { s.err with alertSeqs := s.err.alertSeqs.filter fun q => !read q, alertLost := false } }

/-- READ_ERROR_LOG (R612, R617, R619). -/
def execReadErrorLog (m : Msg) (s : State) : Res :=
  serve (queryOp 0x0901 0 [(383, 48), (39, 33)]) m s fun s x =>
    let k := x.f 47 40
    let from' := x.f 31 0
    if x.mgmt && (k == 0 || decide (15 < k)) then refuse s 0x201
    else
      let most := if k = 0 then 256 else k
      if bit x.p 32 then
        let ls := ((List.range 75).filter fun n => decide (from' ≤ n)).take most
        .done s { status := 0, payload := none, long := logSummary s ls.length ++ ls.flatMap fun n => latchBytes n (tget none s.err.latches n) }
      else
        let held := s.err.ring.filter fun r => decide (from' ≤ r.seq.toNat)
        let got := held.take most
        let out := logSummary s got.length ++ got.flatMap errBytes
        .done (if x.mgmt then alertRead s from' got (got.length == held.length) else s) { status := 0, payload := none, long := out }

/-- CLEAR_ERROR (R618, R626). The header that it updates shows a control complex that runs (R733). -/
def execClearError (m : Msg) (s : State) : Res :=
  serve (readOp 0x0902 1 [(383, 76), (63, 36)]) m s fun s x =>
    let ack := x.f 31 0
    let latch := x.f 75 64
    if (ack != 0xFFFFFFFF && decide (s.err.nextSeq.toNat ≤ ack)) || (bit x.p 32 && decide (74 < latch)) then refuse s 0x201
    else
      let e := s.err
      let e := if ack = 0xFFFFFFFF then e else { e with ring := e.ring.filter fun r => decide (ack < r.seq.toNat) }
      let e := if bit x.p 32 then { e with latches := tset none e.latches latch none } else e
      let e := if bit x.p 33 then { e with latches := [] } else e
      let e := if bit x.p 34 then { e with overflow := 0 } else e
      let e := if bit x.p 35 then { e with lgFirst := none, lgLatest := none, halted := false } else e
      .done { s with err := e } .ok

/-- LG_STATUS (R626). -/
def lgStatus (e : Errors) : Nat :=
  (if e.lgFirst.isSome then 1 else 0) + (if e.lgLatest.isSome then 2 else 0) + (if e.halted then 4 else 0) + e.lastCause.toNat * 2 ^ 8

/-- The 64-byte last-gasp header (R626). -/
def lgHeader (e : Errors) : List Byte := leBytes 64 (lgStatus e + e.tripCount.toNat * 2 ^ 32)

/-- A 960-byte last-gasp slot (R626). -/
def lgBytes (l : LgSlot) : List Byte :=
  let cause := l.cause.toNat + (if l.cause.toNat < 2 then l.hart.toNat * 2 ^ 8 else 0)
  padTo 960
    (leBytes 4 0x4C474153 ++ leBytes 4 cause ++ leBytes 8 l.gtc.toNat ++ leBytes 4 l.fwInstance.toNat ++ leBytes 4 0 ++ vecBytes l.hartState
      ++ (match l.handling with | none => List.replicate 64 0 | some r => errBytes r)
      ++ (l.fill.flatMap fun n => leBytes 2 n) ++ leBytes 4 l.overflow.toNat ++ leBytes 4 0 ++ l.waiting.flatMap errBytes)

/-- GET_LAST_GASP (R619, R627). -/
def execGetLastGasp (m : Msg) (s : State) : Res :=
  serve (queryOp 0x0903 0 [(383, 1)]) m s fun s x =>
    let latest := bit x.p 0
    let slot := if latest then s.err.lgLatest else s.err.lgFirst
    let out := lgHeader s.err ++ (match slot with | none => List.replicate 960 0 | some l => lgBytes l)
    let read : State := { s with err := if latest then { s.err with alertLatest := false } else { s.err with alertFirst := false } }
    .done (if x.mgmt then settleAlert read else s) { status := 0, payload := none, long := out }

/-- The last-gasp slot that a trip writes (R626). In cause 3 hart 2 is writing the record of the event that it has taken, and in the other causes where `handling` says so (R622, R624; log entry 50). -/
def gaspOf (s : State) (cause : BitVec 4) (hart : BitVec 2) (hs : BitVec 2048) (handling : Bool) : LgSlot :=
  let taken := if cause = 3 ∨ handling = true then nextQueue s else none
  let q (i : Nat) : List ErrRec := if taken = some i then (tget [] s.err.queues i).tail else tget [] s.err.queues i
  { cause := cause, hart := hart, gtc := s.clock.gtc, fwInstance := s.boot.fwInstance, hartState := hs, handling := taken.bind fun i => (tget [] s.err.queues i).head?,
    fill := (List.range 4).map fun i => (q i).length, overflow := s.err.overflow, waiting := (q 3 ++ q 2 ++ q 1 ++ q 0).take 9 }

/-- The trips of the last 10 s. -/
def recentTrips (s : State) : List (BitVec 64) := s.err.tripTimes.filter fun t => decide ((s.clock.gtc - t).toNat ≤ 10000000000)

/-- The slots and counts of a trip (R619, R626, R628). -/
def recordTrip (s : State) (l : LgSlot) : State :=
  let e := s.err
  let times := recentTrips s ++ [s.clock.gtc]
  { s with err := { e with
      lgFirst := if e.lgFirst.isSome then e.lgFirst else some l
      lgLatest := some l
      alertFirst := e.alertFirst || e.lgFirst.isNone
      alertLatest := true
      lastCause := l.cause
      tripCount := satInc e.tripCount 1
      tripTimes := times
      halted := decide (8 ≤ times.length) } }

/-- WATCHDOG_TRIP (R624 to R628, R644): containment, the last-gasp slot, and the reset of the control complex, which restarts on the image in control SRAM or stays held in reset. -/
def execWatchdogTrip (cause : BitVec 4) (hart : BitVec 2) (hartState : BitVec 2048) (handling : Bool) (s : State) : Res :=
  if 4 ≤ cause.toNat || s.boot.fwStage == 0 || s.boot.fwStage == 8 || !s.clocked then .next s
  else
    let s := s.contain.assertAlert
    let s := recordTrip s (gaspOf s cause hart hartState handling)
    let s := controlReset s true
    let s : State := { s with boot := { s.boot with afterTrip := true, restartDue := false } }
    .next (s.setFwStage (if s.err.halted then 8 else 2))

/-- The HBM address of a channel's offset (R314 inverted). -/
def chanAddr (channel offset : Nat) : Nat :=
  let c := channel / 16 + 8 * (channel % 16)
  let h := offset >>> 12
  let low := c ^^^ (h % 128) ^^^ ((h >>> 7) % 128) ^^^ ((h >>> 14) % 64)
  (h <<< 19) + (low <<< 12) + offset % 4096

/-- The words of one scrub pass: every word of 128 channels of 3 GiB (R320). -/
def scrubWords : Nat := 128 * (0xC0000000 / 32)

/-- The scrubber reads the next word: all channels advance together in ascending offset (R320, R316, R322). -/
def execPatrolScrub (s : State) : Res :=
  if !s.clocked || s.boot.needTrain then .next s
  else
    let k := s.hbm.scrubPos
    let a := chanAddr (k % 128) (32 * (k / 128))
    let w := a / 32
    let s := correctWeak s a 32
    let s : State :=
      if tget false s.hbm.broken w then
        ({ s with hbm := { s.hbm with broken := tset false s.hbm.broken w false, poison := tset false s.hbm.poison w true, uncorrected := satInc s.hbm.uncorrected 1 } } : State).postErr
          { mkErr 0x402 0 1 (chanOf a / 16) with address := BitVec.ofNat 40 a }
      else s
    .next { s with hbm := if k + 1 = scrubWords then { s.hbm with scrubPos := 0, scrubPasses := satInc s.hbm.scrubPasses 1 } else { s.hbm with scrubPos := k + 1 } }

/-- A channel loses its interface to the stack (R309, R607). -/
def execHbmChannelFailure (channel : Fin 128) (s : State) : Res :=
  if s.hbm.failed.getLsbD channel.val || !s.clocked then .next s
  else
    .next (({ s with hbm := { s.hbm with failed := s.hbm.failed ||| (1#128 <<< channel.val) } } : State).deviceErr (mkErr 0x402 3 1 (channel.val / 16)))

end Sys2Proof.Machine
end

