-- ==== Sys2Proof/Machine/Security.lean ====
section
/-! DEFINITION. Fuses, secure boot checks, firmware update, anti-rollback, debug access and attestation (R633 to R665, R706). -/

namespace Sys2Proof.Machine

/-- A protected word holds two bad fuses, which the sense logic cannot correct; one in a word it corrects (R634). -/
def FuseBank.badWord (b : FuseBank) : Bool := b.bad.any fun n => decide (2 ≤ n)

/-- The protected fields as 29 words of 64 bits (R634). -/
def protectedWords (b : FuseBank) : List (BitVec 64) :=
  let x : BitVec 1856 := b.serial ++ b.debugKeyHash ++ b.debugPwHash ++ b.ownerKeyHash ++ b.vendorKeyHash ++ b.seed
  (List.range 29).map fun i => fb x (64 * i) 64

/-- FUSE_ECC: 8 check bits for each protected word (R633, R634). -/
def fuseEcc (b : FuseBank) : Nat := ((protectedWords b).zipIdx.map fun w => (Config.fuseCheck w.1).toNat * 2 ^ (8 * w.2)).sum

/-- The fuse bank map: first bit, width and value of each field (R633). -/
def fuseMap (x : Security) : List (Nat × Nat × Nat) :=
  let b := x.bank
  [(0, 256, b.seed.toNat), (256, 384, b.vendorKeyHash.toNat), (640, 384, b.ownerKeyHash.toNat), (1024, 64, x.rollback.toNat), (1088, 4, b.lockR.toNat),
   (1092, 4, b.lockP.toNat), (1096, 384, b.debugPwHash.toNat), (1480, 384, b.debugKeyHash.toNat), (1864, 64, b.serial.toNat), (1936, 232, fuseEcc b),
   (2168, 12288, b.cert.length % 65536 + leNat b.cert * 2 ^ 16)]

/-- Fuse `i` of the bank is blown (R633). -/
def fuseBlown (x : Security) (i : Nat) : Bool :=
  match (fuseMap x).find? fun f => decide (f.1 ≤ i) && decide (i < f.1 + f.2.1) with
  | none => false
  | some f => f.2.2.testBit (i - f.1)

/-- Debug facilities are open (R656). -/
def State.debugOpen (s : State) : Bool := debugLevel s.sec.bank == 0 || (debugLevel s.sec.bank == 1 && s.sec.debugOpened)

/-- The rollback count (R636). -/
def State.rollbackCount (s : State) : Nat := popCount s.sec.rollback

/-- The SVN of the running image; 0 where none was loaded. -/
def State.svn (s : State) : BitVec 32 := match s.boot.image with
  | none => 0
  | some i => i.svn

/-- A slice of a list. -/
def slice {α : Type} (xs : List α) (a n : Nat) : List α := (xs.drop a).take n

/-- The little-endian number of a slice. -/
def sliceNat (bs : List Byte) (a n : Nat) : Nat := leNat (slice bs a n)

/-- Every byte of a slice is zero. -/
def sliceZero (bs : List Byte) (a n : Nat) : Bool := (slice bs a n).all fun b => b == 0

/-- The image format of check 1: MAGIC, HEADER_VERSION, BODY_LENGTH, FLAGS, and the reserved or unused fields. BODY_LENGTH is as stated where the image has as many bytes after its header (R640, R641, R645; log entry 106). -/
def imageFormatOk (img : List Byte) : Bool :=
  let body := sliceNat img 16 4
  decide (512 ≤ img.length) && sliceNat img 0 4 == 0x4E544B49 && sliceNat img 4 4 == 1
    && decide (1 ≤ body) && decide (body ≤ 1048064) && img.length == 512 + body && decide (sliceNat img 20 4 < 2)
    && sliceZero img 458 54 && (sliceNat img 20 4 == 1 || (sliceZero img 169 97 && sliceZero img 362 96))

/-- The owner key check (R641). -/
def ownerKeyOk (b : FuseBank) (img : List Byte) : Bool :=
  if b.ownerKeyHash = 0 then sliceNat img 20 4 == 0
  else sliceNat img 20 4 == 1 && sha384 (slice img 169 97) == b.ownerKeyHash.toNat

/-- The first failing check of reasons 1 to 7, in the table's order (R641). -/
def imageReason (s : State) (img : List Byte) : Option Nat :=
  let b := s.sec.bank
  if !imageFormatOk img then some 1
  else if sha384 (img.drop 512) != beNat (slice img 24 48) then some 2
  else if sha384 (slice img 72 97) != b.vendorKeyHash.toNat then some 3
  else if !ecdsaVerify (slice img 72 97) (img.take 266) (slice img 266 96) then some 4
  else if !ownerKeyOk b img then some 5
  else if sliceNat img 20 4 == 1 && !ecdsaVerify (slice img 169 97) (img.take 362) (slice img 362 96) then some 6
  else if sliceNat img 12 4 < s.rollbackCount then some 7
  else none

/-- An image that passed, as it runs. -/
def imageOf (img : List Byte) : Image :=
  { bytes := img, fwVersion := BitVec.ofNat 32 (sliceNat img 8 4), svn := BitVec.ofNat 32 (sliceNat img 12 4), ownerSigned := sliceNat img 20 4 == 1 }

/-- GET_SECURITY_STATE (spec 18). -/
def execGetSecurityState (m : Msg) (s : State) : Res :=
  serve (queryOp 0x0A01 0 []) m s fun s _ =>
    let b := s.sec.bank
    let signed := match s.boot.image with
      | none => false
      | some i => i.ownerSigned
    .done s (.val 0
      (debugLevel b + (if s.sec.debugOpened then 2 ^ 8 else 0) + s.sec.reopenMethod.toNat * 2 ^ 9 + s.rollbackCount * 2 ^ 16 + s.svn.toNat % 256 * 2 ^ 24
        + (if b.ownerKeyHash = 0 then 0 else 2 ^ 32) + (if b.debugPwHash = 0 then 0 else 2 ^ 33) + (if b.debugKeyHash = 0 then 0 else 2 ^ 34)
        + (if signed then 2 ^ 35 else 0) + s.sec.failures % 256 * 2 ^ 40 + leNat ((shaBytes b.cert).take 32) * 2 ^ 64))

/-- DEBUG_CHALLENGE's effect (R657, R664). -/
def actChallenge (nonce : BitVec 256) (s : State) : State × Reply :=
  if debugLevel s.sec.bank = 2 then (s, .st 0x700)
  else ({ s with sec := { s.sec with nonce := some nonce } }, .val 0 nonce.toNat)

/-- DEBUG_UNLOCK's format is as R658 states. -/
def unlockFormatOk (x : Ctx) : Bool :=
  if x.m.ptr then x.f 1 0 == 1 && zeros x.p [(127, 2)] && x.m.req.length == 256 && sliceZero x.m.req 97 31 && sliceZero x.m.req 224 32
  else x.f 1 0 == 0 && zeros x.p [(127, 2)]

/-- A failed unlock (R661). -/
def unlockFailed (s : State) : State × Reply :=
  (({ s with sec := { s.sec with failures := s.sec.failures + 1 } } : State).postErr (mkErr 0x702 0 8 0), .st 0x702)

/-- A successful unlock (R660). -/
def unlocked (s : State) (method : Nat) : State × Reply :=
  (({ s with sec := { s.sec with debugOpened := true, reopenMethod := BitVec.ofNat 2 method } } : State).postErr (mkEvent 5 method 0 8 0), .ok)

/-- DEBUG_UNLOCK's effect (R658 to R664). The answers given without any check come before the format (log entry 107). -/
def actUnlock (x : Ctx) (s : State) : State × Reply :=
  let b := s.sec.bank
  let serial := vecBytes b.serial
  if debugLevel b = 2 then (s, .st 0x700)
  else if debugLevel b = 0 then (s, .ok)
  else if 8 ≤ s.sec.failures then (s, .st 0x700)
  else if !unlockFormatOk x then (s, .st 0x201)
  else if x.m.ptr then
    if b.debugKeyHash = 0 then (s, .st 0x700)
    else
      let key := slice x.m.req 0 97
      let good := match s.sec.nonce with
        | none => false
        | some n => sha384 key == b.debugKeyHash.toNat && ecdsaVerify key (vecBytes n ++ serial) (slice x.m.req 128 96)
      let s : State := { s with sec := { s.sec with nonce := none } }
      if good then unlocked s 2 else unlockFailed s
  else if b.debugPwHash = 0 then (s, .st 0x700)
  else if sha384 (serial ++ (vecBytes x.p).drop 16) = b.debugPwHash.toNat then unlocked s 1
  else unlockFailed s

/-- The messages that the spec marks long-running, other than the security messages and RESET_REQUEST (R77, R104, R253, R371, R401, R402, R422, R426, R431, R516). -/
def longRunning : List Nat := [0x0102, 0x0403, 0x0410, 0x0411, 0x0501, 0x0503, 0x0504, 0x0801, 0x0B01, 0x0B02, 0x0B03, 0x0B04]

/-- A long-running message executes, of the given kinds. -/
def anyHeld (s : State) (ops : List Nat) : Bool := s.mbx.held.any fun h => ops.contains h.opcode.toNat

/-- Some queue holds an armed block. -/
def anyArmed (s : State) : Bool := allQueues.any fun cq => !(s.queue cq.1 cq.2).armed.isEmpty

/-- FIRMWARE_UPDATE's effect (R645 to R647): the restart falls due with the completion. -/
def actUpdate (x : Ctx) (s : State) : State × Reply :=
  if !x.m.ptr then (s, .st 0x201)
  else if anyArmed s || anyHeld s longRunning then (s, .st 0x203)
  else
    match imageReason s x.m.req with
    | some r => (s, .val 0x701 r)
    | none =>
      ({ s with boot := { s.boot with restartDue := true, bootAddr := BitVec.ofNat 64 (fld x.m.payload 63 12 * 4096) } },
        .val 0 (sliceNat x.m.req 8 4 + sliceNat x.m.req 12 4 % 256 * 2 ^ 32))

/-- ADVANCE_ROLLBACK's refusal, if any (R648, R664). -/
def rollbackRefusal (x : Ctx) (s : State) : Option Nat :=
  if debugLevel s.sec.bank = 1 ∧ s.sec.debugOpened = true then some 0x700
  else if x.f 7 0 ≤ s.rollbackCount ∨ s.svn.toNat < x.f 7 0 then some 0x201
  else none

/-- A RESET_REQUEST of TYPE 0 begins to execute (R671, R672, R676). -/
def actStageReset (s : State) : Answer := if s.hbm.failed != 0 || s.hot then refuse s 0x203 else .done (requestedStageReset s) .ok

/-- One security message, or a RESET_REQUEST that waited for one, begins to execute: it completes, or stays in progress (R648, R649). A quarantined device executes the RESET_REQUEST only (R608). -/
def actSecurity (h : Held) (s : State) (x : Ctx) : Answer :=
  if s.boot.quarantined && h.opcode != 0x0108 then refuse s 0x203
  else match h.opcode.toNat with
  | 0x0A02 => let r := actChallenge h.nonce s; .done r.1 r.2
  | 0x0A03 => let r := actUnlock x s; .done r.1 r.2
  | 0x0A04 => let r := actUpdate x s; .done r.1 r.2
  | 0x0A05 => match rollbackRefusal x s with
    | some st => refuse s st
    | none => .hold { s with sec := { s.sec with pulses := 0 } } { h with arg := x.f 7 0 }
  | _ => actStageReset s

/-- A security message waits while another executes; TARGET 0 marks one that waits (R649). -/
def serveSecurity (o : OpSpec) (m : Msg) (s : State) (nonce : BitVec 256) : Res :=
  serve o m s fun s x =>
    let h : Held := { heldOf o.code m 0 with nonce := nonce }
    if securityBusy s then .hold s h else actSecurity h s x

/-- The control complex restarts after FIRMWARE_UPDATE: the boot ROM reads the image again (R646, R670). -/
def restartDueNow (s : State) : State :=
  if s.boot.restartDue then
    let s := controlReset s false
    ({ s with boot := { s.boot with fetching := true, afterTrip := false } } : State).setFwStage 2
  else s

/-- A next state with its due restart carried out. -/
def thenRestart : Res → Res
  | .next s => .next (restartDueNow s)
  | r => r

/-- The messages that waited for a security message run in turn, until one stays in progress (R649, R672). `fuel` bounds them. -/
def runWaiting : Nat → State → State
  | 0, s => s
  | fuel + 1, s =>
    if s.boot.restartDue || s.mbx.held.any (fun h => h.opcode == 0x0A05 && h.arg != 0) then s
    else
      match s.mbx.held.find? fun h => [0x0A02, 0x0A03, 0x0A04, 0x0A05, 0x0108].contains h.opcode.toNat with
      | none => s
      | some h =>
        let s : State := { s with mbx := { s.mbx with held := s.mbx.held.filter fun y => y.src != h.src } }
        runWaiting fuel (settleMsg h.msg h.opcode.toNat h.msg.session (actSecurity h s (ctxOf s h.msg)))

/-- DEBUG_CHALLENGE (R657). -/
def execDebugChallenge (m : Msg) (nonce : BitVec 256) (s : State) : Res := serveSecurity (plainOp 0x0A02 2 []) m s nonce

/-- DEBUG_UNLOCK (R658 to R664). -/
def execDebugUnlock (m : Msg) (s : State) : Res := serveSecurity { plainOp 0x0A03 2 [] with buf := true } m s 0

/-- FIRMWARE_UPDATE (R645 to R649). -/
def execFirmwareUpdate (m : Msg) (s : State) : Res :=
  thenRestart (serveSecurity { plainOp 0x0A04 2 [(383, 0)] with buf := true } m s 0)

/-- ADVANCE_ROLLBACK (R648): it stays in progress while fuses are blown. -/
def execAdvanceRollback (m : Msg) (s : State) : Res := serveSecurity (plainOp 0x0A05 2 [(383, 8)]) m s 0

/-- The lowest unblown rollback fuse. -/
def nextFuse (x : BitVec 64) : Nat := ((List.range 64).find? fun i => !x.getLsbD i).getD 63

/-- A programming pulse ends (R648, R649): the fuse reads back blown or not. -/
def execFuseBlown (readsBlown : Bool) (s : State) : Res :=
  match s.mbx.held.find? fun h => h.opcode == 0x0A05 && h.arg != 0 with
  | none => .next s
  | some h =>
    if readsBlown then
      let s : State := { s with sec := { s.sec with rollback := s.sec.rollback ||| (1#64 <<< nextFuse s.sec.rollback), pulses := 0, mirrorCount := popCount (s.sec.rollback ||| (1#64 <<< nextFuse s.sec.rollback)) } }
      if h.arg ≤ s.rollbackCount then .next (restartDueNow (runWaiting 72 (endHeld s h (.val 0 s.rollbackCount)))) else .next s
    else
      let s : State := { s with sec := { s.sec with pulses := s.sec.pulses + 1 } }
      if 3 ≤ s.sec.pulses then .next (restartDueNow (runWaiting 72 (endHeld { s with sec := { s.sec with pulses := 0 } } h (.val 0x101 s.rollbackCount)))) else .next s

/-- A debug nonce lapses (R657). -/
def execNonceExpiry (s : State) : Res := .next { s with sec := { s.sec with nonce := none } }

/-- JTAG (R656, R663, R706). While JTAG_TRST_N is low the TAP stays in reset and answers nothing. IDCODE and BYPASS are answered at every level. While debug is open, an access of the debug facilities gives data, which the spec does not state, and changes nothing, and trace capture can be started; while it is closed neither has an effect (log entry 87). -/
def execJtagAccess (i : JtagInstr) (s : State) : Res :=
  match i with
  | .trst low => .next { s with sec := { s.sec with trstLow := low } }
  | .idcode => .next (if s.sec.trstLow then s else s.emit (.jtag 0x13384547))
  | .bypass => .next s
  | .debug =>
    if s.sec.trstLow || !s.debugOpen then .next s
    else .next (s.freshWord.2.emit (.jtag s.freshWord.1))
  | .trace on => .next (if s.sec.trstLow || !s.debugOpen then s else { s with sec := { s.sec with trace := on } })

/-- SPDM is answered whenever the firmware status is READY (R655). -/
def spdmAnswer (s : State) (t : State) : Res := .next (if s.ready then t else s)

/-- An SPDM error response. -/
def spdmError (s : State) (name : String) : State := s.emit (.spdm ("ERROR " ++ name) [])

/-- The slot 0 chain: the Henliux certificates of the image, then DEVICE_CERT (R652). -/
def certChain (s : State) : List Byte := Config.rootCerts ++ s.sec.bank.cert

/-- A SHA-384 digest as a field. -/
def shaField (bs : List Byte) : BitVec 384 := BitVec.ofNat 384 (sha384 bs)

/-- GET_VERSION: version 1.3, and negotiation begins anew (R651; log entry 20). -/
def execGetVersion (r : SpdmReq) (s : State) : Res :=
  match r with
  | _ => spdmAnswer s (({ s with sec := { s.sec with spdmVersion := 0x13, spdmReady := false } } : State).emit (.spdm "VERSION" [0x1300]))

/-- GET_CAPABILITIES of SPDM: CERT_CAP, CHAL_CAP, and MEAS_CAP with signatures (R651; log entry 20). -/
def execSpdmGetCapabilities (r : SpdmReq) (s : State) : Res :=
  spdmAnswer s (if r.version = 0x13 ∧ s.sec.spdmVersion = 0x13 then s.emit (.spdm "CAPABILITIES" [0x16]) else spdmError s "VersionMismatch")

/-- NEGOTIATE_ALGORITHMS: ECDSA P-384 and SHA-384 (R651; log entry 20). -/
def execNegotiateAlgorithms (r : SpdmReq) (s : State) : Res :=
  spdmAnswer s
    (if r.version ≠ 0x13 ∨ s.sec.spdmVersion ≠ 0x13 then spdmError s "VersionMismatch"
     else if bit r.hashAlgos 1 && bit r.asymAlgos 7 then ({ s with sec := { s.sec with spdmReady := true } } : State).emit (.spdm "ALGORITHMS" [0x80, 0x2, 1])
     else spdmError s "InvalidRequest")

/-- A request that needs the negotiated algorithms and slot 0. -/
def spdmServe (r : SpdmReq) (s : State) (t : State) : Res :=
  spdmAnswer s (if r.version ≠ 0x13 then spdmError s "VersionMismatch" else if !s.sec.spdmReady then spdmError s "UnexpectedRequest" else if r.slot ≠ 0 then spdmError s "InvalidRequest" else t)

/-- GET_DIGESTS (R652). -/
def execGetDigests (r : SpdmReq) (s : State) : Res := spdmServe { r with slot := 0 } s (s.emit (.spdm "DIGESTS" [shaField (certChain s)]))

/-- GET_CERTIFICATE (R652, R655). -/
def execGetCertificate (r : SpdmReq) (s : State) : Res :=
  spdmServe r s
    (if 1534 < s.sec.bank.cert.length then spdmError s "Unspecified"
     else s.emit (.spdm "CERTIFICATE" ((slice (certChain s) r.offset.toNat r.length.toNat).map fun b => b.setWidth 384)))

/-- A DeviceID signature over what was asked, as two fields (R652; log entry 20). -/
def spdmSign (s : State) (nonce : BitVec 256) (bs : List Byte) : List (BitVec 384) :=
  let g := Config.spdmSignature (s.sec.deviceKey.getD 0) nonce bs
  [fb g 384 384, fb g 0 384]

/-- CHALLENGE, answered with a DeviceID signature (R652). -/
def execChallenge (r : SpdmReq) (s : State) : Res :=
  spdmServe r s (s.emit (.spdm "CHALLENGE_AUTH" (shaField (certChain s) :: spdmSign s r.nonce (certChain s))))

/-- The running image's bytes. -/
def imageBytes (s : State) : List Byte := match s.boot.image with
  | none => []
  | some i => i.bytes

/-- What measurement blocks 2 to 5 measure (R653). -/
def measured (s : State) (i : Nat) : List Byte :=
  let b := s.sec.bank
  match i with
  | 2 => imageBytes s
  | 3 => vecBytes s.fwVersion ++ vecBytes s.svn
  | 4 => beBytes 48 b.ownerKeyHash.toNat ++ beBytes 48 b.debugPwHash.toNat ++ beBytes 48 b.debugKeyHash.toNat ++ leBytes 1 (debugLevel b) ++ leBytes 1 s.rollbackCount
  | _ => leBytes 1 (if s.sec.debugOpened then 1 else 0) ++ leBytes 1 s.sec.reopenMethod.toNat

/-- Measurement block `i` (R653). -/
def measurement (s : State) (i : Nat) : BitVec 384 := if i = 1 then Config.romDigest else shaField (measured s i)

/-- GET_MEASUREMENTS: the number of blocks, one block or all five, signed where asked (R652, R653). -/
def execGetMeasurements (r : SpdmReq) (s : State) : Res :=
  let op := r.measOp.toNat
  let blocks : Option (List (BitVec 384)) :=
    if op = 0 then some [5]
    else if op = 255 then some ((List.range 5).map fun i => measurement s (i + 1))
    else if op ≤ 5 then some [measurement s op]
    else none
  spdmServe r s
    (match blocks with
     | none => spdmError s "InvalidRequest"
     | some b => s.emit (.spdm "MEASUREMENTS" (if r.signed then b ++ spdmSign s r.nonce (b.flatMap fun x => vecBytes x) else b)))

end Sys2Proof.Machine
end

