-- ==== Sys2Proof/Machine/Overturn.lean ====
section
/-! DEFINITION. Overturn and spare takeover: SET_REPLAY_LOG, digests, REPLAY_STEP, checkpoints and ADOPT_STAGE (R417, R421 to R434). -/

namespace Sys2Proof.Machine

/-- The ranges that the bytes of a range list name, or none where a reserved bit is set (spec 11, range list entry). -/
def rangesFrom (bs : List Byte) (n : Nat) : Option (List (Nat × Nat)) :=
  let ws := (List.range n).map fun i => BitVec.ofNat 128 (leNat ((bs.drop (16 * i)).take 16))
  if ws.all fun w => zeros w [(63, 40), (127, 104)] then some (ws.map fun w => (fld w 39 0, fld w 103 64)) else none

/-- A range list in HBM: its ranges, or none where a reserved bit is set. -/
def rangeList (s : State) (addr n : Nat) : Option (List (Nat × Nat)) := rangesFrom (s.hbmBytes addr (16 * n)) n

/-- What a SET_REPLAY_LOG payload opens. -/
structure LogArgs where
  record : Bool
  payloads : Bool
  step : BitVec 32
  seed : BitVec 64
  base : Nat
  size : Nat
  count : Nat
  addr : Nat
  deriving DecidableEq, Repr

/-- The fields of SET_REPLAY_LOG. -/
def logArgs (p : BitVec 384) : LogArgs :=
  { record := fld p 1 0 == 1, payloads := bit p 2, step := fb p 32 32, seed := fb p 64 64, base := fld p 231 192, size := fld p 167 128, count := fld p 15 8, addr := fld p 295 256 }

/-- The ranges of a SET_REPLAY_LOG, or none where its fields are refused (R421). -/
def logRanges (s : State) (x : Ctx) : Option (List (Nat × Nat)) :=
  let a := logArgs x.p
  if 1 < x.f 1 0 then none
  else if !a.record then (if a.base == 0 && a.size == 0 && a.addr == 0 && a.count == 0 && !a.payloads then some [] else none)
  else if !x.has capOverturn || a.base % 4096 != 0 || a.size % 4096 != 0 || decide (64 < a.count) || a.addr % 256 != 0 || (a.addr == 0 && a.count != 0)
      || !inHbm a.base a.size || !inHbm a.addr (16 * a.count) then none
  else match rangeList s a.addr a.count with
  | none => none
  | some rs =>
    let all := (a.base, a.size) :: rs
    if (all.all fun r => inHbm r.1 r.2) && !selfOverlap all && !(all.any fun r => hits r.1 r.2 (windowRanges s)) then some rs else none

/-- The digests of input ranges that a message still awaits. -/
def rangeJobs (s : State) : Nat := (s.ovt.jobs.filter fun j => match j with | .range _ _ => true | .slot _ _ _ => false).length

/-- A step opens under MODE RECORD, or recording stays off; the SEED and STEP in force change, and no STEP fault of it has been counted (R417, R421, R422, R616). -/
def openStep (s : State) (a : LogArgs) (rs : List (Nat × Nat)) : State :=
  let s := s.scan rs
  let r := openRec s a.base a.size a.payloads a.seed a.step rs
  let r := { r with inputs := digestRanges s r.inputs }
  { s with ovt := { s.ovt with seed := a.seed, step := a.step, current := if a.record then some r else none, stepFaults := 0 } }

/-- A SET_REPLAY_LOG can complete: the open recorded step has retired, no digest is due, and no replay runs (R422). -/
def logReady (s : State) : Bool :=
  s.ovt.replay.isNone && s.ovt.jobs.isEmpty && (match s.ovt.current with | none => true | some r => stepRetired s r)

/-- SET_REPLAY_LOG's effect (R417, R421, R422): its range list is read once the device may read it, in phase 1; the digests of the new step's ranges come first, and the open step's close. -/
def setReplayLog (m : Msg) (s : State) (x : Ctx) : Answer :=
  let a := logArgs x.p
  let lines := if inHbm a.addr (16 * a.count) then snoopsFor s a.addr (16 * a.count) false else []
  if !lines.isEmpty then (if s.cannotSnoop lines then refuse s 0x507 else holdFor s (heldOf 0x0B01 m 1) lines [])
  else
    let d := if inHbm a.addr (16 * a.count) then hbmRead s a.addr (16 * a.count) else ([], none, s)
    let s := d.2.2
    match d.2.1, logRanges s x with
    | some p, _ => msgPoison s x p
    | none, none => refuse s 0x201
    | none, some rs =>
      if rs.isEmpty && logReady s then .done (openStep s.closeStep a rs) .ok
      else .hold { s with ovt := { s.ovt with jobs := s.ovt.jobs ++ rs.map fun r => .range r.1 r.2 } } { heldOf 0x0B01 m 0 with body := s.hbmBytes a.addr (16 * a.count) }

/-- SET_REPLAY_LOG (R417, R421, R422). -/
def execSetReplayLog (m : Msg) (s : State) : Res :=
  serve { plainOp 0x0B01 1 [(383, 296), (255, 232), (191, 168), (31, 16), (7, 3)] with high := true } m s fun s x => setReplayLog m s x

/-- A SET_REPLAY_LOG that waited completes, or reads its range list once that has been snooped (R422, R561). -/
def settleLog (s : State) : State :=
  match s.mbx.held.find? fun h => h.opcode == 0x0B01 with
  | none => s
  | some h =>
    if h.arg = 1 then (if h.lines.any s.snooped then s else contHeld h (setReplayLog h.msg s (ctxOf s h.msg)))
    else if logReady s then
      let a := logArgs (effPayload h.msg)
      endHeld (openStep s.closeStep a ((rangesFrom h.body a.count).getD [])) h .ok
    else s

/-- Bytes of an input slot that a record digests: its EXPECTED in byte mode, its whole stride in message mode (R423; log entry 37). -/
def slotLen (k : MbQueue) (x : Slot) : Nat := if k.messages then k.stride else slotExpected k x

/-- The local bytes of a slot, as they are read. -/
def slotData (s : State) (q i : Nat) : List Byte × State := match s.stage.queue q with
  | none => ([], s)
  | some k =>
    let d := devRead s (slotAddr k i) (slotLen k (s.stage.slot q i))
    (vals d.1, d.2.2)

/-- A filled slot's digest and payload enter the record, and the WAIT_SLOTs that it held go on (R423, R424). -/
def writeSlotDigest (s : State) (q i : Nat) : State :=
  let x := s.stage.slot q i
  let bs := (slotData s q i).1
  let s := (slotData s q i).2
  let s : State := match s.ovt.current with
    | none => s
    | some r => s.record (ingressBytes r bs.length) fun (k : StepRec) =>
        { k with ingress := k.ingress ++ [{ queue := q, slot := i, mb := x.mb, gen := x.gen, flags := x.flags, digest := digestOf bs, data := if r.payloads then bs else [] }] }
  resumeWaiting { s with stage := s.stage.modSlot q i fun (y : Slot) => { y with pendingDigest := false } } fun w => w == .digest

/-- A slot whose data the device cannot read, because the host does not answer, has no digest: its record cannot be replayed (R425, R566; log entry 37). -/
def dropDigest (s : State) (q i : Nat) : State :=
  let s : State := { s with ovt := { s.ovt with current := s.ovt.current.map fun r => { r with aborted := true } } }
  resumeWaiting { s with stage := s.stage.modSlot q i fun (y : Slot) => { y with pendingDigest := false } } fun w => w == .digest

/-- The lines of a slot's data that must be snooped before it is digested. -/
def slotLines (s : State) (q i : Nat) : List Nat := match s.stage.queue q with
  | none => []
  | some k => snoopsOf s (slotAddr k i) (slotLen k (s.stage.slot q i)) false

/-- The next due digest is written (R422, R423); where the host holds a line of the slot, it waits for the line's snoop (R561). -/
def writeDigest (s : State) : State :=
  match s.ovt.jobs with
  | [] => s
  | j :: rest =>
    let t : State := { s with ovt := { s.ovt with jobs := rest } }
    match j with
    | .range _ _ => t
    | .slot q i ls =>
      let lines := slotLines s q i
      if lines.isEmpty then writeSlotDigest t q i
      else if s.cannotSnoop lines then dropDigest t q i
      else { sendSnoops t lines false with ovt := { t.ovt with jobs := .slot q i (ls ++ lines).eraseDups :: rest } }

/-- The digest that waited for snoops is written once they have ended (R561). -/
def resumeDigest (s : State) : State :=
  match s.ovt.jobs with
  | .slot _ _ ls :: _ => if ls.isEmpty || ls.any s.snooped then s else writeDigest s
  | _ => s

/-- A core takes the configuration of a snapshot. -/
def applyCfg (snap : Snap) (s : State) (c : Nat) : State := s.modCfg c fun _ => tget CoreCfg.init snap.cores c

/-- The slots' own EXPECTED settings become those of a snapshot (R424, R426). -/
def applyExpected (g : Stage) (e : Tbl (Tbl (Option (BitVec 32)))) : Stage :=
  let clear := g.slots.foldl (fun g q => q.2.foldl (fun g x => g.modSlot q.1 x.1 fun (y : Slot) => { y with expected := none }) g) g
  e.foldl (fun g q => q.2.foldl (fun g x => g.modSlot q.1 x.1 fun (y : Slot) => { y with expected := x.2 }) g) clear

/-- The configuration snapshot is applied; the identity and the endpoint and stage address tables stay, and profiles and port states follow the policies (R426, R500, R505). -/
def applySnap (s : State) (snap : Snap) : State :=
  let s := allCores.foldl (applyCfg snap) s
  let s := snap.epochs.foldl (fun s e => s.modIndex e.1 fun k => { k with published := e.2.1, pendingEpoch := e.2.1 + 1, floor := e.2.2 }) s
  let t : State :=
    { s with
      stage := applyExpected { s.stage with queues := snap.queues } snap.expected
      opt := snap.opt
      regions := snap.regions
      fabric := { s.fabric with queueFmt := snap.queueFmt, profileMask := snap.profileMask, wiringPolicy := snap.wiringPolicy } }
  if snap.profileMask = s.fabric.profileMask ∧ snap.wiringPolicy = s.fabric.wiringPolicy then t
  else (if t.offered = s.offered then t else t.helloAll).rejudge

/-- The next recorded block can be copied into its ring and admitted: its queue has rings and room (R97, R98, R426). -/
def blockFits (s : State) (b : BlockEntry) : Option Ring :=
  let u := s.queue b.core b.queue
  match u.ring with
  | none => none
  | some r => if u.cpl.isSome ∧ u.armed.length < 64 ∧ heldEntries u + b.cmds.length ≤ 2 ^ r.log2 then some r else none

/-- What a replay writes waits for snoops: they are sent, unless the host does not answer, and its message keeps their lines (R561, R563, R566). -/
def replayWaits (s : State) (p : Replay) (lines : List Nat) : State :=
  if s.cannotSnoop lines then s
  else
    let s := sendSnoops s lines true
    { s with mbx := { s.mbx with held := s.mbx.held.map fun h => if p.src = some h.src then { h with lines := (h.lines ++ lines).eraseDups } else h } }

/-- The lines of a queue's ring that a recorded block is copied to. -/
def copyLines (s : State) (u : CmdQueue) (ring : Ring) (b : BlockEntry) : List Nat :=
  (List.range b.cmds.length).flatMap fun i => snoopsFor s (ring.base + 64 * ((u.tail.toNat + i) % 2 ^ ring.log2)) 64 true

/-- A recorded block is copied to its queue's ring at the tail and armed under the record's SEED and STEP (R417, R426). -/
def armRecorded (s : State) (rec' : StepRec) (ring : Ring) (b : BlockEntry) : State :=
  let u := s.queue b.core b.queue
  let s := b.cmds.zipIdx.foldl (fun s d => (hbmWrite s (ring.base + 64 * ((u.tail.toNat + d.2) % 2 ^ ring.log2)) (cleanBytes (vecBytes d.1))).s) s
  let blk : Block := { seq := u.nextSeq, start := u.tail, cmds := b.cmds, absent := absentAt s b.cmds, nStarted := 0, nDone := 0, seed := rec'.seed, step := rec'.step, client := 0 }
  let s := s.modQueue b.core b.queue fun u => { u with armed := u.armed ++ [blk], nextSeq := u.nextSeq + 1, tail := u.tail + BitVec.ofNat 32 b.cmds.length }
  let s := s.recordBlock { b with seq := blk.seq }
  { s with ovt := { s.ovt with replay := s.ovt.replay.map fun p => { p with next := p.next + 1 } } }

/-- The recorded blocks are admitted in their recorded order as far as their queues have room (R426), but not by a quarantined device (R607). `fuel` bounds them. -/
def admitRecorded : Nat → State → State
  | 0, s => s
  | fuel + 1, s =>
    match s.ovt.replay with
    | none => s
    | some p =>
      match p.record.blocks[p.next]? with
      | none => s
      | some b =>
        match blockFits s b with
        | none => s
        | some ring =>
          let lines := copyLines s (s.queue b.core b.queue) ring b
          if s.boot.quarantined then s
          else if !lines.isEmpty then replayWaits s p lines
          else admitRecorded fuel (armRecorded s p.record ring b)

/-- A recorded payload fills its slot, with the flags of its recorded inbound conversion (R164, R427; log entry 30). -/
def fillRecorded (s : State) (e : IngressEntry) (k : MbQueue) : State :=
  let s := (devWrite s (slotAddr k e.slot) (cleanBytes e.data)).1
  let x := s.stage.slot e.queue e.slot
  let s : State := { s with stage := s.stage.modSlot e.queue e.slot fun y => { y with state := 2, mb := e.mb, counter := BitVec.ofNat 32 (slotExpected k x), flags := e.flags } }
  resumeWaiting (recordFill s e.queue e.slot) fun w => w == .program

/-- Under ISOLATE 1, the input slots whose fills come due are filled in the recorded order (R427). -/
def fillDue (s : State) : State :=
  match s.ovt.replay with
  | none => s
  | some rp =>
    if !rp.isolate then s
    else
      rp.record.ingress.zipIdx.foldl
        (fun s e =>
          match s.ovt.replay with
          | none => s
          | some p =>
            let earlier := p.record.ingress.zipIdx.any fun o => decide (o.2 < e.2) && o.1.queue == e.1.queue && o.1.slot == e.1.slot && !p.placed.contains o.2
            if p.placed.contains e.2 || earlier || (s.stage.slot e.1.queue e.1.slot).state != 0 then s
            else match s.stage.queue e.1.queue with
            | none => s
            | some k =>
              let lines := snoopsOf s (slotAddr k e.1.slot) e.1.data.length true
              if !lines.isEmpty then replayWaits s p lines
              else fillRecorded { s with ovt := { s.ovt with replay := some { p with placed := p.placed ++ [e.2] } } } e.1 k)
        s

/-- The first index at which two lists of digests differ, if any. -/
def firstDiff (f g : List (BitVec 128)) : Option Nat :=
  (List.range (max f.length g.length)).find? fun i => (f.drop i).head? != (g.drop i).head?

/-- The recorded ingress digests, and those of the replay for the same fills (R426). -/
def ingressDigests (rec' now : StepRec) : List (BitVec 128) :=
  rec'.ingress.map fun e => ((now.ingress.find? fun o => o.queue == e.queue && o.slot == e.slot && o.mb == e.mb).map fun o => o.digest).getD (~~~e.digest)

/-- The outcome of a replay that ran to its end: REASON and the first differing entry, none where every digest matches (R428). -/
def replayDiff (rec' now : StepRec) : Option (Nat × Nat) :=
  match firstDiff (rec'.ingress.map fun e => e.digest) (ingressDigests rec' now) with
  | some i => some (2, i)
  | none =>
    match firstDiff (rec'.outputs.map fun e => digestOf (outputBytes e)) (now.outputs.map fun e => digestOf (outputBytes e)) with
    | some i => some (3, i)
    | none => (firstDiff (rec'.results.map fun e => e.digest) (now.results.map fun e => e.digest)).map fun i => (4, i)

/-- The reply of a replay (R428); a divergence is logged at STEP severity (R629). -/
def replayReply (s : State) (h : Held) (d : Option (Nat × Nat)) : State :=
  match d with
  | none => endHeld s h (.val 0 0)
  | some (reason, entry) =>
    endHeld (s.postErr { mkErr 0x404 1 8 0 with clientId := s.clientOf h.msg.session, step := match s.ovt.replay with | none => s.ovt.step | some p => p.record.step }) h (.val 0x404 (reason + entry * 2 ^ 32))

/-- A replay goes on: fills and blocks as they come due, and its close once every block has retired (R426 to R428). -/
def settleReplay (s : State) : State :=
  match s.ovt.replay with
  | none => s
  | some p =>
    let s := admitRecorded (p.record.blocks.length + 1) (fillDue s)
    match s.ovt.current with
    | none => s
    | some cur =>
      if p.record.blocks.length ≤ (s.ovt.replay.map Replay.next).getD 0 ∧ stepRetired s cur = true ∧ s.ovt.jobs.isEmpty = true then
        let s := s.scan (rangesOf cur.inputs)
        let t := match p.src.bind s.heldBy with
          | none => s
          | some h => replayReply s h (replayDiff p.record (closeRec s cur))
        { t with ovt := { t.ovt with current := none, replay := none } }
      else s

/-- The input-range digests of a record differ from the device's at an index (R426, R428). -/
def inputDiff (s : State) (r : StepRec) : Option Nat := firstDiff (r.inputs.map fun i => i.digest) ((digestRanges s r.inputs).map fun i => i.digest)

/-- The step record that a REPLAY_STEP reads at its LOG_BASE, the first poisoned word of it, and the state once it has been read (R317, R428). -/
def readRecord (s : State) (base : Nat) : Option StepRec × Option Nat × State :=
  if base % 4096 != 0 || !inHbm base 4096 then (none, none, s)
  else
    let d := hbmRead s base 4096
    match recordAt d.2.2 base with
    | none => (none, d.2)
    | some r =>
      let e := hbmRead d.2.2 (base + 4096) (r.used + 16 * r.inputs.length - 4096)
      (some r, d.2.1.or e.2.1, e.2.2)

/-- The lines of the host window that a REPLAY_STEP must snoop: those of the record's header, and after them those of the record and its input ranges (R561). -/
def replayLines (s : State) (base : Nat) : List Nat :=
  if base % 4096 != 0 || !inHbm base 4096 then []
  else
    let head := snoopsFor s base 4096 false
    if !head.isEmpty then head
    else match recordAt s base with
    | none => []
    | some r => snoopsFor s base (r.used + 16 * r.inputs.length) false ++ (rangesOf r.inputs).flatMap fun i => snoopsFor s i.1 i.2 false

/-- REPLAY_STEP's effect (R426 to R428). The record is read once the device may read it, in phase 1 (R561). -/
def replayStep (m : Msg) (s : State) (x : Ctx) : Answer :=
  let isolate := bit x.p 0
  let lines := replayLines s (x.f 103 64)
  if !lines.isEmpty then (if s.cannotSnoop lines then refuse s 0x507 else holdFor s (heldOf 0x0B02 m 1) lines [])
  else
    let d := readRecord s (x.f 103 64)
    let s := d.2.2
    match d.2.1, d.1 with
    | some a, _ => msgPoison s x a
    | none, none => .done s (.val 0x201 0)
    | none, some r =>
      if !r.closed then .done s (.val 0x201 0)
      else if r.overrun || r.aborted || (isolate && !r.payloads) then .done s (.val 0x101 0)
      else if anyArmed s || s.stage.identity.getD (0, 0) != (r.pipelineId, r.stageId) then .done s (.val 0x203 0)
      else
        let s := (applySnap s.closeStep r.snap).scan (rangesOf r.inputs)
        match inputDiff s r with
        | some i => .done (s.postErr { mkErr 0x404 1 8 0 with clientId := x.clientId, step := r.step }) (.val 0x404 (1 + i * 2 ^ 32))
        | none =>
          let cur := openRec s r.base r.size r.payloads r.seed r.step (rangesOf r.inputs)
          .hold { s with ovt := { s.ovt with current := some cur, replay := some { src := some m.src, record := r, isolate := isolate, placed := [], next := 0 } } } (heldOf 0x0B02 m 0)

/-- REPLAY_STEP (R426 to R428). -/
def execReplayStep (m : Msg) (s : State) : Res :=
  serve { plainOp 0x0B02 1 [(383, 104), (63, 1)] with cap := some capOverturn } m s fun s x => replayStep m s x

/-- A REPLAY_STEP that waited for snoops goes on (R561). -/
def beginReplay (s : State) : State :=
  match s.mbx.held.find? fun h => h.opcode == 0x0B02 && h.arg == 1 with
  | none => s
  | some h => if h.lines.any s.snooped then s else contHeld h (replayStep h.msg s (ctxOf s h.msg))

/-- A digest is written to the step record; what waited for it goes on (R422, R423). -/
def execDigestWritten (s : State) : Res := .next (serveHost (settleReplay (settleLog (writeDigest s))))

/-- What a checkpoint message names. -/
structure CkptArgs where
  ethernet : Bool
  conn : BitVec 12
  count : Nat
  addr : Nat
  offset : Nat
  deriving DecidableEq, Repr

/-- The fields of CHECKPOINT_OUT and CHECKPOINT_IN. -/
def ckptArgs (p : BitVec 384) : CkptArgs := { ethernet := bit p 0, conn := fb p 4 12, count := fld p 23 16, addr := fld p 295 256, offset := fld p 383 320 }

/-- A length padded to 4 KiB. -/
def pad4k (n : Nat) : Nat := ceilDiv n 4096 * 4096

/-- Bytes of an image with some ranges: header, range table and contents (R430). -/
def imageLen (lens : List Nat) : Nat := 4096 + pad4k (32 * lens.length) + (lens.map pad4k).sum

/-- The destination is there: a host window that holds the image, or a connection of kind MEMORY (R430, R577). -/
def mediumOk (s : State) (a : CkptArgs) (len : Nat) : Bool :=
  a.offset % 4096 == 0 &&
    (if a.ethernet then s.isMemory a.conn.toNat
     else match s.host.window with
     | none => false
     | some w => decide (a.offset + len ≤ w.2))

/-- The layout of an image's header (R430; log entry 31): its fields, the number of its ranges and its length, the digest of the rest, and the optimizer slots. -/
def imageCode : Codec (CkptImage × Nat × Nat) :=
  ((Codec.bits 32).pair ((Codec.bits 32).pair ((Codec.bits 32).pair ((Codec.bits 32).pair ((Codec.bits 64).pair ((Codec.bits 32).pair ((Codec.nat 4).pair ((Codec.nat 8).pair ((Codec.bits 128).pair optCode.list))))))))).map
    (fun x => ({ magic := x.1, format := x.2.1, pipelineId := x.2.2.1, stageId := x.2.2.2.1, seed := x.2.2.2.2.1, step := x.2.2.2.2.2.1, opt := x.2.2.2.2.2.2.2.2.2, ranges := [], digest := x.2.2.2.2.2.2.2.2.1 },
      x.2.2.2.2.2.2.1, x.2.2.2.2.2.2.2.1))
    fun y => (y.1.magic, y.1.format, y.1.pipelineId, y.1.stageId, y.1.seed, y.1.step, y.2.1, y.2.2, y.1.digest, y.1.opt)

/-- An entry of the range table, of 32 bytes: address, length and digest (R430). -/
def rangeCode : Codec RangeDigest := ((Codec.nat 8).pair ((Codec.nat 8).pair (Codec.bits 128))).map (fun x => ⟨x.1, x.2.1, x.2.2⟩) fun r => (r.addr, r.len, r.digest)

/-- The header of an image, of 4,096 bytes (R430). -/
def imageHeader (i : CkptImage) : List Byte := padTo 4096 (imageCode.put (i, i.ranges.length, imageLen (i.ranges.map fun r => r.len)))

/-- The bytes of an image after its header: its range table and its ranges' contents, each padded to 4 KiB; poison travels with the contents (R318, R430). -/
def imageBody (rs : List RangeDigest) (contents : List (List Bt)) : List Bt :=
  let pad (bs : List Bt) : List Bt := bs ++ cleanBytes (List.replicate (pad4k bs.length - bs.length) 0#8)
  pad (cleanBytes (rs.flatMap rangeCode.put)) ++ contents.flatMap pad

/-- The image that a checkpoint of some ranges writes: its header's fields, its body, and the state once the ranges have been read (R430). -/
def ckptOf (s : State) (rs : List (Nat × Nat)) : CkptImage × List Bt × State :=
  let rd := rs.foldl (fun (acc : List (List Bt) × State) r =>
    let d := hbmRead acc.2 r.1 r.2
    (acc.1 ++ [d.1], d.2.2)) (([], s) : List (List Bt) × State)
  let ranges := (rs.zip rd.1).map fun x => ({ addr := x.1.1, len := x.1.2, digest := digestOf (vals x.2) } : RangeDigest)
  let body := imageBody ranges rd.1
  let id := s.stage.identity.getD (0, 0)
  ({ magic := 0x434B5054, format := 1, pipelineId := id.1, stageId := id.2, seed := s.ovt.seed, step := s.ovt.step, opt := tgetList optInit s.opt 0 16, ranges := ranges, digest := digestOf (vals body) }, body, rd.2)

/-- A checkpoint's snoops, while the host holds lines of the window that it needs (R561). -/
def ckptLines (s : State) (a : CkptArgs) (len : Nat) (write : Bool) : List Nat :=
  match s.host.window with
  | none => []
  | some w => if a.ethernet then [] else snoopsFor s (w.1 + a.offset) len write

/-- A checkpoint that cannot go on ends with ABORTED; an interrupted CHECKPOINT_IN leaves no valid checkpoint (R433, R566). -/
def abortCkpt (s : State) (into : Bool) : Answer := refuse (if into then { s with ovt := { s.ovt with ckpt := none } } else s) 0x600

/-- A transfer of the firmware on a connection of kind MEMORY takes a network tag of its pool; none where the pool is empty (R112, R113). -/
def State.addFirmwareOp (s : State) (conn : BitVec 12) (kind : OpKind) (n : Nat) : Option State :=
  (s.freeTag 24).map fun t => s.addOp { tag := t, gen := s.tagGen t, via := .conn conn, endpoint := 0, owner := .firmware, kind := kind, frames := 1, acked := 0, sent := 1, bytes := n }

/-- The firmware's transfer on a connection has been answered, and its tag returns (R113). -/
def State.endFirmwareOp (s : State) (conn : BitVec 12) : State :=
  match s.net.ops.find? fun o => decide (o.owner = .firmware) && decide (o.via = .conn conn) with
  | none => s
  | some o => s.endOp o.tag

/-- RDMA WRITEs of a checkpoint leave, and its message waits for their acknowledgement: phase 1 is the image's body, phase 2 its header (R430, R577). While no tag is free or the port sends no request (R569, R578, R607), it waits in the phase `due`. -/
def sendCkpt (m : Msg) (s : State) (conn : BitVec 12) (k : Conn) (image : CkptImage) (offset phase due : Nat) (bs : List Byte) : Answer :=
  match if connSends s k 2 then s.addFirmwareOp conn .write bs.length else none with
  | none => .hold s { heldOf 0x0B03 m due with image := some image }
  | some s =>
    .hold ((s.emit (.rdmaWrite conn.toNat (k.remoteVa + BitVec.ofNat 64 offset) bs)).packets conn.toNat false (ceilDiv bs.length 4096)) { heldOf 0x0B03 m phase with image := some image }

/-- CHECKPOINT_OUT's effect (R430, R431, R433, R577). -/
def checkpointOut (m : Msg) (s : State) (x : Ctx) : Answer :=
  let a := ckptArgs x.p
  let rs := if inHbm a.addr (16 * a.count) then rangeList s a.addr a.count else none
  let first := if inHbm a.addr (16 * a.count) then snoopsFor s a.addr (16 * a.count) false else []
  if a.count ≤ 64 ∧ first.isEmpty = false then (if s.cannotSnoop first then abortCkpt s false else holdFor s (heldOf 0x0B03 m 0) first [])
  else
  let d := if inHbm a.addr (16 * a.count) then hbmRead s a.addr (16 * a.count) else ([], none, s)
  let s := d.2.2
  match d.2.1, rs with
  | some p, _ => msgPoison s x p
  | none, none => refuse s 0x201
  | none, some rs =>
    let len := imageLen (rs.map fun r => r.2)
    let wl := ckptLines s a len true
    let rl := rs.flatMap fun r => snoopsFor s r.1 r.2 false
    if a.count = 0 ∨ 64 < a.count ∨ (rs.all fun r => inHbm r.1 r.2) = false ∨ mediumOk s a len = false then refuse s 0x201
    else if anyArmed s then refuse s 0x203
    else if !(rl ++ wl).isEmpty then (if s.cannotSnoop (rl ++ wl) then abortCkpt s false else holdFor s (heldOf 0x0B03 m 0) rl wl)
    else
      let i := ckptOf s rs
      let s := i.2.2
      if a.ethernet then
        match s.conn a.conn.toNat with
        | none => abortCkpt s false
        | some k => if k.error then abortCkpt s false else sendCkpt m s a.conn k i.1 (a.offset + 4096) 1 0 (vals i.2.1)
      else
        match s.host.window with
        | none => refuse s 0x201
        | some w => .done (hbmWrite (hbmWrite s (w.1 + a.offset + 4096) i.2.1).s (w.1 + a.offset) (cleanBytes (imageHeader i.1))).s .ok

/-- CHECKPOINT_OUT (R430, R431, R433, R577). -/
def execCheckpointOut (m : Msg) (s : State) : Res :=
  serve { plainOp 0x0B03 1 [(319, 296), (255, 24), (3, 1)] with high := true } m s fun s x => checkpointOut m s x

/-- The header of an image is that of a checkpoint (R430, R432). -/
def headerOkOf (i : CkptImage) : Bool := i.magic == 0x434B5054 && i.format == 1 && i.opt.length == 16

/-- The image whose bytes a reader finds, as far as its header and range table tell it: none where they are not those of a checkpoint (R430, R432). -/
def imageAt (rd : Nat → Byte) : Option CkptImage :=
  if leNat (bytesAt rd 0 4) != 0x434B5054 then none
  else match imageCode.get rd 0 with
  | none => none
  | some x =>
    let n := x.1.2.1
    if !headerOkOf x.1.1 || decide (64 < n) then none
    else match rangeCode.getMany rd n 4096 with
    | none => none
    | some t =>
      let i : CkptImage := { x.1.1 with ranges := t.1 }
      if (i.ranges.all fun r => inHbm r.addr r.len) && x.1.2.2 == imageLen (i.ranges.map fun r => r.len) then some i else none

/-- Bytes of the range table of an image whose header names `n` ranges (R430). -/
def tableLen (n : Nat) : Nat := pad4k (32 * n)

/-- The ranges of an image receive their contents (R432); poison travels with them (R318). -/
def landRanges (s : State) (rs : List RangeDigest) (contents : List Bt) : State :=
  (rs.foldl (fun (acc : State × List Bt) r => ((hbmWrite acc.1 r.addr (acc.2.take r.len)).s, acc.2.drop (pad4k r.len))) (s, contents)).1

/-- A started UPDATE uses some optimizer slot (R350, R432). -/
def anySlotUsed (s : State) : Bool := s.allStarted.any fun e => cmdOp e.2.2.desc == 0x70

/-- An image that has been received whole takes effect: its optimizer slots, and the checkpoint that ADOPT_STAGE may adopt (R432, R434). -/
def takeImage (s : State) (i : CkptImage) : State := { s with opt := tsetList optInit [] 0 i.opt, ovt := { s.ovt with ckpt := some i } }

/-- The response of a CHECKPOINT_IN that succeeds (R432). -/
def imageReply (i : CkptImage) : Reply := .val 0 (i.step.toNat + i.seed.toNat * 2 ^ 64)

/-- An image is corrupt: that is logged at STEP severity, and no valid checkpoint is left (R432, R629). -/
def corruptImage (s : State) (x : Ctx) : Answer :=
  .done ({ s with ovt := { s.ovt with ckpt := none } } |>.postErr { mkErr 0x405 1 8 0 with clientId := x.clientId, step := s.ovt.step }) (.st 0x405)

/-- An image that has been read is written to its ranges and checked, and its optimizer slots are restored (R432). `body` are its bytes after the header. -/
def landImage (s : State) (x : Ctx) (i : CkptImage) (body : List Bt) : Answer :=
  let s := landRanges s i.ranges (body.drop (tableLen i.ranges.length))
  if digestOf (vals body) != i.digest || (digestRanges s i.ranges) != i.ranges then corruptImage s x
  else .done (takeImage s i) (imageReply i)

/-- The lines of an image's ranges that must be snooped before its contents are written. -/
def imageLines (s : State) (i : CkptImage) : List Nat := i.ranges.flatMap fun r => snoopsFor s r.addr r.len true

/-- An image that has arrived whole over Ethernet takes effect once no started UPDATE uses an optimizer slot and its ranges are the device's to write; until then the message waits in phase 3, with nothing done (R83, R350, R432, R561). -/
def takeArrived (m : Msg) (s : State) (x : Ctx) (i : CkptImage) (body : List Byte) : Answer :=
  let h : Held := { heldOf 0x0B04 m 3 with image := some i, body := body }
  let wl := imageLines s i
  if anySlotUsed s then .hold s h
  else if !wl.isEmpty then (if s.cannotSnoop wl then abortCkpt s true else holdFor s h [] wl)
  else landImage s x i (cleanBytes body)

/-- An RDMA READ of a checkpoint leaves: phase 1 reads the header and the longest range table, phase 2 the whole image after its header (R432, R577). While no tag is free or the port sends no request (R569, R578, R607), the message waits in the phase `due`. -/
def askCkpt (m : Msg) (s : State) (conn : BitVec 12) (k : Conn) (offset n phase due : Nat) (image : Option CkptImage) : Answer :=
  match if connSends s k 2 then s.addFirmwareOp conn (.read 0 n) n else none with
  | none => .hold s { heldOf 0x0B04 m due with image := image }
  | some s =>
    .hold (((s.emit (.rdmaRead conn.toNat (k.remoteVa + BitVec.ofNat 64 offset) n)).packets conn.toNat false 0).modConn conn.toNat fun k => { k with sentReq := k.sentReq + ceilDiv n 4096 })
      { heldOf 0x0B04 m phase with image := image }

/-- What a CHECKPOINT_IN reads first: the header and the longest range table. -/
def headLen : Nat := 4096 + tableLen 64

/-- CHECKPOINT_IN's effect (R431 to R433, R577). -/
def checkpointIn (m : Msg) (s : State) (x : Ctx) : Answer :=
  let a := ckptArgs x.p
  if a.count ≠ 0 ∨ a.addr ≠ 0 ∨ mediumOk s a 4096 = false then refuse s 0x201
  else if anyArmed s then refuse s 0x203
  else if a.ethernet then
    match s.conn a.conn.toNat with
    | none => abortCkpt s true
    | some k => if k.error then abortCkpt s true else askCkpt m s a.conn k a.offset headLen 1 0 none
  else
    match s.host.window with
    | none => refuse s 0x201
    | some w =>
      let wait (s : State) (rl wl : List Nat) : Answer := if s.cannotSnoop (rl ++ wl) then abortCkpt s true else holdFor s (heldOf 0x0B04 m 0) rl wl
      let first := ckptLines s a (min headLen (w.2 - a.offset)) false
      if !first.isEmpty then wait s first []
      else
        let s := s.scan [(w.1 + a.offset, 4096)]
        match imageAt fun j => s.hbmByte (w.1 + a.offset + j) with
        | none => corruptImage s x
        | some i =>
          let len := imageLen (i.ranges.map fun r => r.len)
          let rl := ckptLines s a len false
          let wl := imageLines s i
          if w.2 < a.offset + len then corruptImage s x
          else if anySlotUsed s then .hold s (heldOf 0x0B04 m 3)
          else if !(rl ++ wl).isEmpty then wait s rl wl
          else
            let d := hbmRead s (w.1 + a.offset + 4096) (len - 4096)
            landImage d.2.2 x i d.1

/-- CHECKPOINT_IN (R431 to R433). -/
def execCheckpointIn (m : Msg) (s : State) : Res :=
  serve { plainOp 0x0B04 1 [(319, 296), (255, 24), (3, 1)] with high := true } m s fun s x => checkpointIn m s x

/-- The header of an image whose body has been acknowledged leaves, or waits in phase 4 (R430, R577). -/
def sendHeader (s : State) (h : Held) : State :=
  let a := ckptArgs (effPayload h.msg)
  match s.conn a.conn.toNat, h.image with
  | some k, some i => contHeld h (sendCkpt h.msg s a.conn k i a.offset 2 4 (imageHeader i))
  | _, _ => contHeld h (abortCkpt s false)

/-- The RDMA READ of an image whose header and range table have arrived leaves, or waits in phase 5 (R432, R577). -/
def askImage (s : State) (h : Held) (i : CkptImage) : State :=
  let a := ckptArgs (effPayload h.msg)
  match s.conn a.conn.toNat with
  | some k => contHeld h (askCkpt h.msg s a.conn k (a.offset + 4096) (imageLen (i.ranges.map fun r => r.len) - 4096) 2 5 (some i))
  | none => contHeld h (abortCkpt s true)

/-- A checkpoint message that waits, and not for the other end, goes on as far as it can (R113, R350, R433, R561, R566, R569). -/
def retryCkpt (s : State) (h : Held) : State :=
  let x := ctxOf s h.msg
  if h.lines.any s.snooped then s
  else if h.opcode = 0x0B03 then
    (if h.arg = 0 then contHeld h (checkpointOut h.msg s x) else if h.arg = 4 then sendHeader s h else s)
  else match h.arg, h.image with
  | 0, _ => contHeld h (checkpointIn h.msg s x)
  | 3, none => contHeld h (checkpointIn h.msg s x)
  | 3, some i => contHeld h (takeArrived h.msg s x i h.body)
  | 5, some i => askImage s h i
  | _, _ => s

/-- A checkpoint message in progress. -/
def Held.ckpt (h : Held) : Bool := h.opcode == 0x0B03 || h.opcode == 0x0B04

/-- The checkpoint messages that wait go on as far as they can. -/
def settleCheckpoints (s : State) : State := (s.mbx.held.filter Held.ckpt).foldl retryCkpt s

/-- The checkpoint messages that wait for their port to send a request, or a tag, go on (R113, R569, R578). -/
def sendCheckpoints (s : State) : State := (s.mbx.held.filter fun h => h.ckpt && (ckptArgs (effPayload h.msg)).ethernet && h.arg != 3).foldl retryCkpt s

/-- The checkpoint messages in progress over a connection. -/
def ckptOver (s : State) (c : BitVec 12) (op : BitVec 16) : List Held :=
  s.mbx.held.filter fun h => h.opcode == op && (ckptArgs (effPayload h.msg)).ethernet && (ckptArgs (effPayload h.msg)).conn == c

/-- Those that await the other end. -/
def ckptOn (s : State) (c : BitVec 12) (op : BitVec 16) : List Held := (ckptOver s c op).filter fun h => h.arg == 1 || h.arg == 2

/-- The checkpoints on a connection that failed end with ABORTED; an interrupted CHECKPOINT_IN leaves no valid checkpoint (R433, R578). -/
def failCheckpoints (s : State) (c : BitVec 12) : State :=
  let ins := ckptOver s c 0x0B04
  let s := (ckptOver s c 0x0B03 ++ ins).foldl (fun s h => endHeld s h (.st 0x600)) s
  if ins.isEmpty then s else { s with ovt := { s.ovt with ckpt := none } }

/-- The acknowledgement of a CHECKPOINT_OUT's RDMA WRITEs: after the body the header leaves, and after the header the message completes (R430, R577). -/
def ackCkpt (s : State) (c : BitVec 12) (h : Held) : State :=
  let s := s.endFirmwareOp c
  if h.arg = 1 then sendHeader s h else endHeld s h .ok

/-- RDMA READ data arrives for a CHECKPOINT_IN: its header and range table first, then the whole image, which takes effect or is corrupt (R432, R577). -/
def execRdmaReadResponse (conn : BitVec 12) (data : List Byte) (s : State) : Res :=
  match (ckptOn s conn 0x0B04).head? with
  | none => .next s
  | some h =>
    let s := s.endFirmwareOp conn
    let x := ctxOf s h.msg
    match h.image with
    | some i => .next (contHeld h (takeArrived h.msg s x i (padTo (imageLen (i.ranges.map fun r => r.len) - 4096) data)))
    | none =>
      (match imageAt fun j => data.getD j 0 with
       | none => .next (contHeld h (corruptImage s x))
       | some i => .next (askImage s h i))

/-- ADOPT_STAGE (R126, R417, R434). -/
def execAdoptStage (m : Msg) (s : State) : Res :=
  serve { plainOp 0x0B05 1 [(383, 64)] with cap := some capSpare } m s fun s x =>
    match s.ovt.ckpt with
    | none => refuse s 0x203
    | some i =>
      if s.anyQueue || i.pipelineId != fb x.p 32 32 || i.stageId != fb x.p 0 32 then refuse s 0x203
      else
        .done { s with stage := { s.stage with identity := some (fb x.p 32 32, fb x.p 0 32) }, ovt := { s.ovt with seed := i.seed, step := i.step } } (.val 0 i.step.toNat)

end Sys2Proof.Machine
end

