-- ==== Sys2Proof/Machine/Held.lean ====
section
/-! DEFINITION. Messages in progress: held messages that take effect, messages that reach their limit (R82, R104, R253, R282, R350, R401, R422, R426, R516), and the end of a list rewrite (R403 to R407). -/

namespace Sys2Proof.Machine

/-- A message in progress ends with BUSY_RETRY (R83). -/
def endBusy (s : State) (h : Held) : State :=
  let b := busyRetry s
  endHeld b.1 h b.2

/-- The hold that SET_REGION puts on its queue goes on only while another one is held (R282). -/
def releaseRegion (s : State) (p : BitVec 384) : State :=
  s.modQueue (fld p 4 0) (fld p 9 8) fun u => { u with hold := regionHeld s (fld p 4 0) (fld p 9 8) }

/-- A held SET_REGION takes effect once no started command of its queue remains; its checks hold for the configuration as it stands then (R282, R283). -/
def applyHeldRegion (s : State) (h : Held) : State :=
  let x := ctxOf s h.msg
  let t := s.unheld h.src
  if !(s.queue (x.f 4 0) (x.f 9 8)).started.isEmpty then s
  else match regionRefusal t x with
  | some st => endHeld (releaseRegion t x.p) h (.st st)
  | none => endHeld (applyRegion t x) h .ok

/-- A held message takes effect once no started command uses its object (R253, R282, R350, R432). -/
def applyHeld (s : State) (h : Held) : State :=
  let p := effPayload h.msg
  match h.opcode.toNat with
  | 0x0201 => applyHeldRegion s h
  | 0x0410 => if loadFree s 0x0410 p then endHeld (applyLoad s 0x0410 p h.msg.req) h .ok else s
  | 0x0411 => if loadFree s 0x0411 p then endHeld (applyLoad s 0x0411 p h.msg.req) h .ok else s
  | 0x0601 => if slotUsed s (fld p 3 0) then s else endHeld (applyOpt s 0x0601 p) h .ok
  | 0x0602 => if slotUsed s (fld p 3 0) then s else endHeld (applyOpt s 0x0602 p) h .ok
  | 0x0B04 => if h.arg = 3 then retryCkpt s h else s
  | _ => s

/-- HELD_MESSAGE_APPLY (R253, R282, R350); of messages that name the same object, the one dequeued first goes first (R81). -/
def execHeldMessageApply (src : MsgSrc) (s : State) : Res :=
  match s.heldBy src with
  | none => .next s
  | some h => .next (if s.behind h then s else applyHeld s h)

/-- The commands that were started when an ABORT_QUEUE came and still run end with ABORTED (R104). -/
def abortRest (s : State) (h : Held) : State :=
  let c := fld (effPayload h.msg) 4 0
  let q := fld (effPayload h.msg) 9 8
  ((s.queue c q).started.filter fun e => decide (e.id < h.arg / 2 ^ 65) && !e.done).foldl (fun s e => abortCmd s c q e.id) s

/-- A replay at its limit: every queue is aborted, and the step it opened is given up (R426). One that has not begun ends with BUSY_RETRY (R83). -/
def endReplay (s : State) (h : Held) : State :=
  if h.arg = 1 then endBusy s h
  else
  let s := allQueues.foldl (fun s cq => abortQueue s cq.1 cq.2 []) s
  endHeld { s with ovt := { s.ovt with current := none, replay := none } } h (.st 0x600)

/-- A message in progress reaches its time limit and ends as its rule states (R104, R253, R282, R350, R401, R422, R426, R516). For the other messages no rule states what the limit brings. -/
def reachLimit (s : State) (h : Held) : State :=
  match h.opcode.toNat with
  | 0x0201 => endBusy (releaseRegion (s.unheld h.src) (effPayload h.msg)) h
  | 0x0410 => endBusy s h
  | 0x0411 => endBusy s h
  | 0x0503 => settleFloors (endBusy s h)
  | 0x0601 => endBusy s h
  | 0x0602 => endBusy s h
  | 0x0801 => settleTimes (endBusy s h)
  | 0x0B01 => endBusy { s with ovt := { s.ovt with jobs := s.ovt.jobs.filter fun j => match j with | .slot _ _ _ => true | .range _ _ => false } } h
  | 0x0403 => abortRest s h
  | 0x0B04 => if h.arg = 3 ∧ anySlotUsed s = true then endBusy s h else s
  | 0x0B02 => endReplay s h
  | _ => s

/-- LONG_RUNNING_LIMIT (R82). -/
def execLongRunningLimit (src : MsgSrc) (s : State) : Res :=
  match s.heldBy src with
  | none => .next s
  | some h => .next (reachLimit s h)

/-- What a rewrite copies: the kept entries with their tombstone words, in position order, or the address of the first poisoned word that it read (R403, R406). -/
def keptEntries (k : Index) (w : Rewrite) (d : DirEntry) : Nat → Nat → State → List (List Bt × List Bt) → (List (List Bt × List Bt) × Option Nat × State)
  | 0, _, s, acc => (acc, none, s)
  | n + 1, j, s, acc =>
    let t := hbmRead s (d.tomb + 4 * j) 4
    match t.2.1 with
    | some a => (acc, some a, t.2.2)
    | none =>
      if leNat (vals t.1) ≤ w.floor.toNat then keptEntries k w d n (j + 1) t.2.2 acc
      else
        let e := hbmRead t.2.2 (d.log + j * entryBytes k.width) (entryBytes k.width)
        match e.2.1 with
        | some a => (acc, some a, e.2.2)
        | none => keptEntries k w d n (j + 1) e.2.2 (acc ++ [(e.1, t.1)])

/-- The copies and the directory entry of a rewrite that keeps some entries (R403). -/
def landRewrite (s : State) (k : Index) (w : Rewrite) (kept : List (List Bt × List Bt)) : State :=
  let s := (hbmWrite s w.newLog (kept.flatMap fun e => e.1)).s
  let s := (hbmWrite s w.newTomb (kept.flatMap fun e => e.2)).s
  (hbmWrite s (k.dir + 32 * w.list) (cleanBytes (dirBytes { tomb := w.newTomb, log := w.newLog, length := kept.length, cap := w.newCap }))).s

/-- The outcome of a rewrite: its state and its message's reply (R402, R403, R406). -/
def rewriteList (s : State) (k : Index) (w : Rewrite) : State × Reply :=
  let dr := hbmRead s (k.dir + 32 * w.list) 32
  let poisoned (s : State) (a : Nat) : State × Reply :=
    (s.postErr { mkErr 0x402 1 3 (w.list % 4) with detail := BitVec.ofNat 32 (a / 256), address := BitVec.ofNat 40 a }, .st 0x402)
  match dr.2.1 with
  | some a => poisoned dr.2.2 a
  | none =>
    let d := dirEntry dr.2.2 k.dir w.list
    let r := keptEntries k w d d.length 0 dr.2.2 []
    match r.2.1 with
    | some a => poisoned r.2.2 a
    | none =>
      if w.newCap < r.1.length then (r.2.2, .st 0x101)
      else (landRewrite r.2.2 k w r.1, .val 0 (r.1.length + (d.length - r.1.length) * 2 ^ 32))

/-- A list rewrite ends: its copies and directory entry are written, the held writes go on, and its message completes (R403 to R407). Scans of the old log end within their own step; a delete in progress on the list ends first (log entry 55). In STANDBY, or without a clock, the engines stand still (R688). -/
def execRewriteComplete (index : Fin 16) (list : Nat) (s : State) : Res :=
  match s.index index.val with
  | none => .next s
  | some k =>
    match k.rewrites.find? fun w => w.list == list with
    | none => .next s
    | some w =>
      if s.power.standby || !s.clocked then .next s
      else if s.allStarted.any fun e => cmdOp e.2.2.desc == 0x52 && applied index.val e.2.2 && !e.2.2.done && fld (cmdBody e.2.2.desc) 39 16 == list then .next s
      else
      let r := rewriteList s k w
      let t := r.1.modIndex index.val fun k => { k with rewrites := k.rewrites.filter fun x => x.list != list }
      let t := match t.heldBy w.src with
        | none => t
        | some h => endHeld t h r.2
      .next (resumeWaiting t fun x => x == .rewrite)

end Sys2Proof.Machine
end

