-- ==== Sys2Proof/Machine/Telemetry.lean ====
section
/-! DEFINITION. Telemetry and power: READ_TELEMETRY, SET_TELEMETRY_RATE and the periodic snapshots (R601 to R605, R735), power states, clock limits, Ripple, voltage and the thermal thresholds (R684 to R697, R709). -/

namespace Sys2Proof.Machine

/-- The limiter counters of the table (R601). -/
def limiterCount : Nat := 236

/-- The 64-byte header of a telemetry snapshot (R603). -/
def snapHeader (s : State) (seq first returned : Nat) : List Byte :=
  leBytes 64 (s.clock.gtc.toNat + s.clock.gtc.toNat * 2 ^ 64 + seq % 2 ^ 32 * 2 ^ 128 + limiterCount * 2 ^ 160 + first * 2 ^ 176 + returned * 2 ^ 192)

/-- Limiter counters from one on, as they follow the header (R603). -/
def snapCounters (s : State) (first n : Nat) : List Byte := (tgetList 0 s.telem.lim first n).flatMap vecBytes

/-- A whole snapshot (R603). -/
def snapshot (s : State) : List Byte := padTo 2048 (snapHeader s s.telem.snapSeq.toNat 0 limiterCount ++ snapCounters s 0 limiterCount)

/-- READ_TELEMETRY (R603, R604). -/
def execReadTelemetry (m : Msg) (s : State) : Res :=
  serve (queryOp 0x0910 0 [(383, 8)]) m s fun s x =>
    let first := x.f 7 0
    let n := min 120 (limiterCount - first)
    if x.mgmt then
      if limiterCount ≤ first then refuse s 0x201
      else .done s { status := 0, payload := none, long := padTo 1024 (snapHeader s s.telem.snapSeq.toNat first n ++ snapCounters s first n) }
    else if !x.m.ptr || first != 0 then refuse s 0x201
    else .done s { status := 0, payload := none, long := snapshot s }

/-- SET_TELEMETRY_RATE's fields are refused (R605). -/
def rateBad (s : State) (x : Ctx) : Bool :=
  let n := x.f 115 112
  let v := x.f 126 120
  let p := x.f 31 0
  let size := 2048 * 2 ^ n
  p != 0 && (decide (p < 100) || decide (10000000 < p) || decide (n < 4) || (decide (63 < v) && v != 127) || x.f 103 64 % 4096 != 0 || !inHbm (x.f 103 64) size
    || hits (x.f 103 64) size (storeRanges s ++ tarnRanges s ++ bucketRanges s ++ replayRanges s))

/-- SET_TELEMETRY_RATE (R605). -/
def execSetTelemetryRate (m : Msg) (s : State) : Res :=
  serve (readOp 0x0911 1 [(383, 127), (119, 116), (111, 104), (63, 32)]) m s fun s x =>
    if rateBad s x then refuse s 0x201
    else .done { s with telem := { s.telem with period := fb x.p 0 32, dest := x.f 103 64, log2 := x.f 115 112, vector := fb x.p 120 7, due := if x.f 31 0 = 0 then 0 else s.telem.due, lines := if x.f 31 0 = 0 then [] else s.telem.lines } } .ok

/-- Where the next periodic snapshot goes (R605). -/
def snapAddr (t : Telem) : Nat := t.dest + 2048 * (t.snapSeq.toNat % 2 ^ t.log2)

/-- A periodic snapshot is written to its place in the ring, and its vector raised (R605). -/
def writeSnapshot (s : State) : State :=
  let w := (hbmWrite s (snapAddr s.telem) (cleanBytes (snapshot s))).s
  let w : State := { w with telem := { w.telem with snapSeq := w.telem.snapSeq + 1 } }
  if s.telem.vector = 127 then w else w.raise s.telem.vector.toNat

/-- The snapshots that are due are written, each once the host holds no line of its place; while the host does not answer, none is (R561, R566, R605). -/
def settleSnapshots : Nat → State → State
  | 0, s => s
  | n + 1, s =>
    let lines := snoopsFor s (snapAddr s.telem) 2048 true
    if s.telem.due = 0 then s
    else if lines.isEmpty then settleSnapshots n (writeSnapshot { s with telem := { s.telem with due := s.telem.due - 1, lines := [] } })
    else if s.cannotSnoop lines then { s with telem := { s.telem with due := 0, lines := [] } }
    else sendSnoops { s with telem := { s.telem with lines := (s.telem.lines ++ lines).eraseDups } } lines true

/-- A periodic snapshot falls due. One that falls due while the one before it still waits follows that one (R605). -/
def execTelemetrySnapshot (s : State) : Res :=
  if s.telem.period = 0 || !s.clocked then .next s
  else
    let waits := s.telem.due != 0
    let s : State := { s with telem := { s.telem with due := s.telem.due + 1 } }
    .next (if waits then s else settleSnapshots 1 s)

/-- The core clock in force, in MHz (log entry 5). -/
def State.mhz (s : State) (c : Nat) : Nat := (tget 800 s.power.clock c).toNat

/-- A core's lower and upper clock limits (R685). -/
def State.fmin (s : State) (c : Nat) : Nat := (tget 800 s.power.fmin c).toNat
def State.fmax (s : State) (c : Nat) : Nat := (tget 1600 s.power.fmax c).toNat

/-- The fastest and the slowest core clock. -/
def State.fastest (s : State) : Nat := allCores.foldl (fun a c => max a (s.mhz c)) 0
def State.slowest (s : State) : Nat := allCores.foldl (fun a c => min a (s.mhz c)) 1800

/-- The gated arrays that run a command ask to ramp up again (R205, R688). -/
def wakeArrays (k : Core) : Core :=
  { k with arrays := (List.range 4).foldl (fun t i => tmod ArrayState.init t i fun a => if a.cmds.isEmpty then a else { a with rampUp := a.gated != 0, rampDown := false }) k.arrays }

/-- SET_POWER_STATE (R688, R689). -/
def execSetPowerState (m : Msg) (s : State) : Res :=
  serve (plainOp 0x0C01 2 [(383, 2)]) m s fun s x =>
    if 1 < x.f 1 0 then refuse s 0x201
    else if x.f 1 0 = 0 then
      .done (allCores.foldl (fun s c => s.modCore c wakeArrays) { s with power := { s.power with standby := false } }) .ok
    else if anyArmed s then refuse s 0x203
    else
      let gate (k : Core) : Core := { k with arrays := (List.range 4).foldl (fun t i => tmod ArrayState.init t i fun a => { a with gated := 0xF, rampUp := false, rampDown := false }) k.arrays }
      let s := allCores.foldl (fun s c => s.modCore c gate) s
      .done { s with power := { s.power with standby := true, clock := [] } } .ok

/-- SET_CLOCK_LIMITS (R684, R685). -/
def execSetClockLimits (m : Msg) (s : State) : Res :=
  serve (plainOp 0x0C02 2 [(383, 80), (31, 24)]) m s fun s x =>
    let cap := x.f 79 64
    let hi := x.f 63 48
    let lo := x.f 47 32
    let limitsOk := lo % 25 == 0 && hi % 25 == 0 && decide (800 ≤ lo) && decide (lo ≤ hi) && decide (hi ≤ 1800)
    if (cap != 0 && (decide (cap < 400) || decide (1150 < cap))) || (x.f 23 0 != 0 && !limitsOk) then refuse s 0x201
    else
      let cs := coresOf (x.f 23 0)
      .done { s with power := { s.power with
        fmin := cs.foldl (fun t c => tset 800 t c (fb x.p 32 16)) s.power.fmin
        fmax := cs.foldl (fun t c => tset 1600 t c (fb x.p 48 16)) s.power.fmax
        cap := if cap = 0 then s.power.cap else fb x.p 64 16 } } .ok

/-- SET_RIPPLE (R690). -/
def execSetRipple (m : Msg) (s : State) : Res :=
  serve (plainOp 0x0C03 1 [(383, 40), (31, 24)]) m s fun s x =>
    if x.f 23 0 = 0 then refuse s 0x201
    else .done ((coresOf (x.f 23 0)).foldl (fun s c => s.modCore c fun k => { k with rippleGap := fb x.p 32 8 }) s) .ok

/-- THROTTLE of GET_POWER: die thermal, HBM thermal, power cap, STANDBY (R684, R696). -/
def throttleBits (s : State) : Nat :=
  (if allCores.any (fun c => decide (s.power.thermalLimit.toNat < s.fmax c)) then 1 else 0) + (if s.power.hbmHalf = 0 then 0 else 2)
    + (if s.power.capLimited then 4 else 0) + (if s.power.standby then 8 else 0)

/-- The hottest of the sensors from one on, the lowest-numbered among equals. -/
def hottest (s : State) (lo n : Nat) : Nat := (List.range n).foldl (fun a i => if s.temp a < s.temp (lo + i) then lo + i else a) lo

/-- GET_POWER's response (R696). -/
def powerReply (s : State) : Nat :=
  let p := s.power
  let t (i : Nat) : Nat := (tget 0 p.temps i).toNat
  p.energy.toNat + p.avgW.toNat * 2 ^ 64 + p.peakW.toNat * 2 ^ 80 + p.cap.toNat * 2 ^ 96 + s.fastest * 2 ^ 112 + s.slowest * 2 ^ 128 + p.mv.toNat * 2 ^ 144
    + hottest s 0 41 * 2 ^ 160 + t (hottest s 0 33) * 2 ^ 168 + t (hottest s 33 8) * 2 ^ 176 + (if p.standby then 2 ^ 184 else 0) + throttleBits s * 2 ^ 192

/-- GET_POWER (R696). -/
def execGetPower (m : Msg) (s : State) : Res :=
  serve (queryOp 0x0C04 0 []) m s fun s _ => .done s (.val 0 (powerReply s))

/-- The thermal limit after 100 µs: it falls while a die sensor is at its throttle threshold, and rises once every sensor is 2 °C below (R693, R694). -/
def nextThermal (s : State) : Nat :=
  let t := s.power.thermalLimit.toNat
  if (List.range 33).any fun i => decide (95 ≤ s.temp i) then max 800 (t - 25)
  else if (List.range 41).all fun i => decide (s.temp i ≤ 93) then min 1800 (t + 25)
  else t

/-- The HBM stacks whose sensors satisfy a test, of those in a mask. -/
def stacksStill (s : State) (mask : BitVec 8) (p : Int → Bool) : BitVec 8 := BitVec.ofNat 8 ((List.range 8).map fun i => if mask.getLsbD i && p (s.temp (33 + i)) then 2 ^ i else 0).sum

/-- The clock that the limits give a core, 800 MHz at least, in steps of 25 MHz (R684, R688, R693). -/
def targetMhz (s : State) (thermal power c : Nat) : Nat :=
  if s.power.standby then 800 else max 800 (min (s.fmax c) (min thermal power) / 25 * 25)

/-- The typical voltages at and around a fastest core clock, in mV, lower first: the table's own where it lists the clock, else those of its neighbours in the table (R687). -/
def typicalMv (f : Nat) : Nat × Nat :=
  if f ≤ 800 then (700, 700) else if f < 1200 then (700, 740) else if f = 1200 then (740, 740)
  else if f < 1600 then (740, 790) else if f = 1600 then (790, 790) else if f < 1800 then (790, 850) else (850, 850)

/-- The fused voltages that a clock may have: within 20 mV of the typical value, within the 0.70 to 0.85 V of the rail (R687, R708). -/
def fusedBand (f : Nat) : Nat × Nat := (max 700 ((typicalMv f).1 - 20), min 850 ((typicalMv f).2 + 20))

/-- The setpoint for a fastest core clock: the fused voltage, which lies in its band, on the regulator's steps of 5 mV (R687, R708; log entry 21). -/
def setpoint (f : Nat) : Nat :=
  let b := fusedBand f
  b.1 + 5 * ((Config.fusedStep (BitVec.ofNat 16 f)).toNat % ((b.2 - b.1) / 5 + 1))

/-- The fastest clock that a setpoint supports; 800 MHz is always supported (R687, R709). -/
def supportedMhz (mv : Nat) : Nat := ((List.range 41).filter fun i => decide (setpoint (800 + 25 * i) ≤ mv)).foldl (fun a i => max a (800 + 25 * i)) 800

/-- The length of the power manager's interval, in nanoseconds (R684). -/
def powerInterval : Nat := 100000

/-- POWER_MANAGER_TICK: each core clock is set to the lowest limit and the rail to its voltage (R684, R687, R693, R694, R709). `powerLimit` is the frequency that keeps each core's share within POWER_CAP, `hold` the share of the interval, in 256ths, for which the starts of matrix and vector commands are held while every core already runs at 800 MHz, and `avsAcked` says whether the regulator acknowledged the setpoint. -/
def execPowerManagerTick (powerLimit : List (BitVec 16)) (hold : BitVec 8) (avsAcked : Bool) (s : State) : Res :=
  if !s.clocked || !s.itkan then .next s
  else
    let thermal := nextThermal s
    let cap (c : Nat) : Nat := (powerLimit.getD c 1800).toNat
    let want (c : Nat) : Nat := targetMhz s thermal (cap c) c
    let mv := setpoint (allCores.foldl (fun a c => max a (want c)) 0)
    let write := mv != s.power.mv.toNat
    let lost := write && !avsAcked
    let top := supportedMhz s.power.mv.toNat
    let held : BitVec 8 := if allCores.all fun c => s.mhz c == 800 then hold else 0
    let clock (c : Nat) : Nat := if lost && decide (s.mhz c < want c) then min (want c) (max (s.mhz c) top) else want c
    let p : Power :=
      { s.power with
        thermalLimit := BitVec.ofNat 16 thermal
        clock := allCores.foldl (fun t c => tset 800 t c (BitVec.ofNat 16 (clock c))) s.power.clock
        capLimited := held != 0 || allCores.any fun c => decide (cap c < min (s.fmax c) thermal)
        hold := held
        holdLeft := held.toNat * powerInterval / 256
        hbmHalf := stacksStill s s.power.hbmHalf fun t => decide (93 < t)
        refresh2x := stacksStill s s.power.refresh2x fun t => decide (85 ≤ t)
        mv := if write && avsAcked then BitVec.ofNat 16 mv else s.power.mv
        avsWant := if lost then some (BitVec.ofNat 16 mv) else none }
    let t : State := { s with power := p }
    let t := if write then t.emit (.avs (BitVec.ofNat 16 mv)) else t
    .next (if lost && s.power.avsWant.isNone then t.postErr (mkEvent 6 0 0 8 0) else t)

/-- An unacknowledged AVSBus write is retried (R709). -/
def execAvsRetry (acked : Bool) (s : State) : Res :=
  match s.power.avsWant with
  | none => .next s
  | some v => .next (({ s with power := if acked then { s.power with mv := v, avsWant := none } else s.power } : State).emit (.avs v))

/-- TELEMETRY_SAMPLE: the sensor block measures and rewrites the telemetry registers; `limiter` is how far each limiter counter has counted since the last sample (R601, R735). -/
def execTelemetrySample (avgW peakW : BitVec 16) (energy : BitVec 64) (temps : List (BitVec 8)) (limiter : List (BitVec 64)) (s : State) : Res :=
  if !s.clocked then .next s
  else
    let s : State := { s with power := { s.power with avgW := avgW, peakW := peakW, energy := energy, temps := tsetList 0 s.power.temps 0 (temps.take 41) } }
    let die := tget 0 s.power.temps (hottest s 0 33)
    let hbm := tget 0 s.power.temps (hottest s 33 8)
    .next { s with telem := { s.telem with
      power := s.power.cap ++ avgW
      clock := BitVec.ofNat 32 (s.fastest * 2 ^ 16 + s.slowest)
      temp := BitVec.ofNat 32 (2 ^ 31 + throttleBits s * 2 ^ 24 + hottest s 0 41 * 2 ^ 16 + hbm.toNat * 2 ^ 8 + die.toNat)
      lim := (List.range limiterCount).foldl (fun t i => tset 0 t i (tget 0 t i + limiter.getD i 0)) s.telem.lim } }

/-- A sensor's reading is stored. -/
def setTemp (s : State) (i : Nat) (t : BitVec 8) : State := { s with power := { s.power with temps := tset 0 s.power.temps i t } }

/-- THERMAL_THROTTLE: a sensor reaches 95 °C; the power manager limits the clocks, and a hot stack is held to half its bandwidth (R693). -/
def execThermalThrottle (sensor : Fin 41) (temp : BitVec 8) (s : State) : Res :=
  if temp.toInt < 95 || !s.clocked then .next s
  else
    let s := setTemp s sensor.val temp
    .next (if sensor.val < 33 then s else { s with power := { s.power with hbmHalf := s.power.hbmHalf ||| (1#8 <<< (sensor.val - 33)) } })

/-- The unit of a sensor (R746). -/
def sensorUnit (i : Nat) : Nat × Nat := if i < 24 then (0, i) else if i < 32 then (7, i - 24) else if i = 32 then (8, 0) else (1, i - 33)

/-- THERMAL_CRITICAL: a sensor has held 105 °C for 1 ms: a DEVICE record, quarantine, and every core at 800 MHz, from which the thermal limit rises again under R694 (R693, R697, R746). -/
def execThermalCritical (sensor : Fin 41) (temp : BitVec 8) (s : State) : Res :=
  if temp.toInt < 105 || !s.clocked then .next s
  else
    let s := setTemp s sensor.val temp
    let u := sensorUnit sensor.val
    .next (({ s with power := { s.power with thermalLimit := 800, clock := [] } } : State).deviceErr (mkEvent 7 sensor.val 3 u.1 u.2))

/-- THERMAL_TRIP: THERMTRIP_N asserts and every clock stops (R693, R695). -/
def execThermalTrip (sensor : Fin 41) (temp : BitVec 8) (s : State) : Res :=
  if temp.toInt < (if sensor.val < 33 then 120 else 110) || !s.clocked then .next s
  else .next (({ setTemp s sensor.val temp with power := { (setTemp s sensor.val temp).power with thermtrip := true } } : State).emit .thermtrip)

/-- REFRESH_THRESHOLD: an HBM sensor reaches 85 °C and its stack doubles its refresh rate (R693). -/
def execRefreshThreshold (stack : Fin 8) (temp : BitVec 8) (s : State) : Res :=
  if temp.toInt < 85 || !s.clocked then .next s
  else
    let s := setTemp s (33 + stack.val) temp
    .next { s with power := { s.power with refresh2x := s.power.refresh2x ||| (1#8 <<< stack.val) } }

end Sys2Proof.Machine
end

