-- ==== Sys2Proof/Machine/Boot.lean ====
section
/-! DEFINITION. Power-up, the boot flow and the resets from outside: fuse sensing, the image checks, Itkan's start, HBM training and zeroing, POWER_ON, DEVICE reset (R52, R308, R309, R639 to R644, R667 to R682, R727, R730). -/

namespace Sys2Proof.Machine

/-- PWRGOOD rises: every domain has been reset (R670). -/
def execPowerOn (s : State) : Res := if s.boot.pwrgood then .next s else .next (fullReset s true)

/-- PWRGOOD falls: every domain is held in reset, ALERT_N and THERMTRIP_N are deasserted (R667, R669, R695). -/
def execPwrgoodFall (s : State) : Res :=
  if s.boot.pwrgood then
    let s := fullReset s true
    .next { s with boot := { s.boot with pwrgood := false } }
  else .next s

/-- A DEVICE reset that was requested begins (R670, R671, R673, R729). A device whose clocks a thermal trip has stopped stays as it is (R695). -/
def execDeviceReset (s : State) : Res := if s.boot.resetDue && s.clocked then .next (fullReset s false) else .next s

/-- The value from which the DeviceID key pair follows: HMAC-SHA-384 of the fixed label under DEVICE_ID_SEED (R638; log entry 20). -/
def deviceKeyOf (b : FuseBank) : BitVec 384 := BitVec.ofNat 384 (hmac384 (vecBytes b.seed) Config.deviceLabel)

/-- The fuse bank is sensed, the DeviceID key is derived, and the control complex leaves reset into ROM_WAIT (R638, R639, R680). -/
def execFuseSense (s : State) : Res :=
  if s.sec.sensed || !s.clocked then .next s
  else
    let s : State := { s with sec := { s.sec with sensed := true, fuseError := s.sec.bank.badWord, mirrorCount := popCount s.sec.rollback, deviceKey := some (deviceKeyOf s.sec.bank) } }
    .next (if s.boot.fwStage = 0 then s.setFwStage 1 else s)

/-- The first failing check of the boot ROM on what it has read, in the table's order (R641). -/
def bootReason (s : State) (img : Option (List Byte)) : Option Nat :=
  if s.sec.fuseError || !s.sec.sensed then some 8
  else match img with
  | none => some 9
  | some bs => imageReason s bs

/-- IMAGE_CHECK: the boot ROM checks the image that it has fetched, none where the fetch failed; after a watchdog trip, the image in control SRAM (R641, R644, R679). -/
def execImageCheck (image : Option (List Byte)) (s : State) : Res :=
  if s.boot.fwStage != 2 || s.boot.startReady || !s.clocked then .next s
  else
    let img := if s.boot.fetching then image else s.boot.image.map fun i => i.bytes
    match bootReason s img, img with
    | none, some bs => .next { s with boot := { s.boot with image := some (imageOf bs), fetching := false, startReady := true } }
    | some r, _ => .next (s.bootFailed r)
    | none, none => .next (s.bootFailed 9)

/-- The channels at a start of Itkan: enabled ones enter FAULTED with FW_RESTART, and none belongs to a session (R52). -/
def faultChannels (s : State) : State :=
  (List.range 64).foldl
    (fun s n => s.modChan n fun c =>
      { c with session := 0, busy := false, dropCpl := false, state := if c.enabled then 2 else c.state, reason := if c.enabled then 5 else c.reason })
    s

/-- Itkan starts: the instance count advances, every session is void, every enabled channel is FAULTED, and no nonce is valid; after a trip its record is written (R52, R625, R657, R746). -/
def execItkanStart (s : State) : Res :=
  if !s.boot.startReady || s.boot.fwStage != 2 || !s.clocked then .next s
  else
    let trip := s.boot.afterTrip
    let s := faultChannels s
    let s : State :=
      { s with
        boot := { s.boot with fwInstance := s.boot.fwInstance + 1, startReady := false, afterTrip := false }
        mbx := { s.mbx with sessions := [], issued := [], held := [] }
        sec := { s.sec with nonce := none } }
    let s := s.setFwStage 3
    .next (if trip then s.postErr (mkEvent 8 s.err.lastCause.toNat 3 8 0) else s)

/-- HBM training ends; each channel that failed is a DEVICE error, and the boot goes on to zeroing (R309, R681). -/
def execHbmTrainingDone (failed : BitVec 128) (s : State) : Res :=
  if s.boot.fwStage != 4 || !s.clocked then .next s
  else
    let s : State := { s with hbm := { s.hbm with failed := failed } }
    let s := ((List.range 128).filter fun i => failed.getLsbD i).foldl (fun s i => s.deviceErr (mkErr 0x402 3 1 (i / 16))) s
    .next (s.setFwStage 5)

/-- HBM is zeroed with valid ECC, and the firmware becomes READY (R308, R680). -/
def execHbmZeroingDone (s : State) : Res :=
  if s.boot.fwStage != 5 || !s.clocked then .next s
  else .next (becomeReady { s with hbm := { s.hbm with mem := [], poison := [], weak := [], broken := [] }, boot := { s.boot with needTrain := false } })

/-- The boot ROM starts a fetch of the image at BOOT_ADDR; without an address the fetch fails (R679, R682, R730). -/
def bootGo (s : State) : State :=
  if s.boot.fwStage = 1 ∨ s.boot.fwStage = 7 then
    let s := ({ s with boot := { s.boot with fetching := true, reason := 0 } } : State).setFwStage 2
    if s.boot.bootAddr = 0 then s.bootFailed 9 else s
  else s

end Sys2Proof.Machine
end

