-- ==== Sys2Proof/Machine/Complete.lean ====
section
/-! DEFINITION. The completion of commands: COMMAND_COMPLETE with its record, event and error, WAIT_TIMEOUT and CONSUMER_HEAD_UPDATE (R94, R104, R105, R109 to R117, R178, R232, R275, R287, R288, R546, R607, R613). -/

namespace Sys2Proof.Machine

/-- The peer endpoint that a failed command involves: that of the operation that gave its status, else the one its descriptor names. -/
def peerOf (s : State) (c q : Nat) (e : Started) : BitVec 12 :=
  if e.peer != 0 then e.peer
  else if !([0x500, 0x501, 0x301, 0x502, 0x504, 0x505].contains e.status.toNat) then 0
  else if cmdOp e.desc = 0x05 then (match s.stage.receiver (fld (cmdBody e.desc) 1 0) with
    | none => 0
    | some a => a.endpoint)
  else if cmdOp e.desc / 16 = 3 then
    let r : Run := { s := s, core := c, queue := q, e := e }
    let sd := dmaSides s c e.desc
    BitVec.ofNat 12 ((r.target (if sd.2.remote then sd.2 else sd.1)).1.getD 0)
  else 0

/-- DONE_EVENT advances; an overflow is the command's own status unless it carries a worse one (R94, R110). -/
def doneEvent (s : State) (c : Nat) (e : Started) : State × Started :=
  if bit e.desc 30 then
    let a := addEvent s c (fld e.desc 29 24) 1
    (a.1, if a.2 then e.fault 0x305 0 else e)
  else (s, e)

/-- The statuses whose DETAIL the spec gives. -/
def detailStated : List Nat := [0x300, 0x301, 0x302, 0x303, 0x304, 0x307, 0x308, 0x400, 0x401, 0x402, 0x403]

/-- The commands whose RESULT the spec gives: Tarn commands, SAVE_CLOSE, BUCKET_FLUSH and UPDATE; a checksum mismatch counts there too. -/
def resultStated (e : Started) : Bool :=
  e.status == 0x401 || cmdOp e.desc / 16 == 5 || cmdOp e.desc == 0x42 || cmdOp e.desc == 0x61 || cmdOp e.desc == 0x70

/-- DETAIL and RESULT where the spec states none are free values, the same in every run of a step (R408, R409; log entry 3). -/
def fillFree (c q : Nat) (e : Started) : Started :=
  { e with
    detail := if detailStated.contains e.status.toNat then e.detail else openDetail c q e e.status.toNat
    result := if resultStated e then e.result else Config.freeResult c q e.index e.desc e.seed e.step e.status }

/-- The unit at which a command's error is recorded: the update unit of an UPDATE or BUCKET_ADD, a Tarn command's coordinating engine, or its core (R344, R366, R537, R611). -/
def cmdUnit (c : Nat) (e : Started) : Nat × Nat :=
  if cmdOp e.desc = 0x70 ∨ cmdOp e.desc = 0x60 then (2, e.unit) else if cmdOp e.desc / 16 = 5 then (3, fld (cmdBody e.desc) 11 8 % 4) else (0, c)

/-- The error record of a command that ends with a status of ranks 1 to 19 (R613, R746). -/
def cmdErr (s : State) (c q : Nat) (e : Started) : ErrRec :=
  { mkErr e.status.toNat 1 (cmdUnit c e).1 (cmdUnit c e).2 with
    clientId := e.client, step := e.step, blockSeq := e.blockSeq, cmdIndex := BitVec.ofNat 16 e.index, detail := e.detail
    address := if e.status = 0x402 then BitVec.ofNat 40 (e.detail.toNat * 256) else 0
    endpoint := peerOf s c q e, queue := BitVec.ofNat 2 q, core := BitVec.ofNat 5 c }

/-- A status of STEP severity (R610). -/
def stepFault (st : BitVec 16) : Bool := decide (rankOf st.toNat ≤ 19)

/-- A completion record (spec 03, Completion record). -/
def recordBytes (gtc : BitVec 64) (c q : Nat) (e : Started) (phase : Bool) : List Byte :=
  leBytes 32
    (e.status.toNat + e.flags.toNat * 2 ^ 16 + (if e.suspect then 2 ^ 23 else 0) + c * 2 ^ 24 + q * 2 ^ 29 + (if phase then 2 ^ 31 else 0)
      + fld e.desc 63 32 * 2 ^ 32 + e.blockSeq.toNat * 2 ^ 64 + e.index * 2 ^ 96 + cmdOp e.desc * 2 ^ 112 + e.result.toNat * 2 ^ 128
      + e.detail.toNat * 2 ^ 160 + gtc.toNat * 2 ^ 192)

/-- A command writes a record (R114). -/
def writesRecord (e : Started) : Bool := bit e.desc 8 || e.status != 0

/-- Where the next record of a ring goes. -/
def recordAddr (r : CplRing) : Nat := r.base + 32 * (r.written.toNat % 2 ^ r.log2)

/-- PHASE of the next record: 1 on the first pass, inverted on each later one. -/
def recordPhase (r : CplRing) : Bool := r.written.toNat / 2 ^ r.log2 % 2 == 0

/-- A record is written, and its vector raised (R114). -/
def writeRec (s : State) (c q : Nat) (e : Started) : State :=
  match (s.queue c q).cpl with
  | none => s
  | some r =>
    let s := (hbmWrite s (recordAddr r) (cleanBytes (recordBytes s.clock.gtc c q e (recordPhase r)))).s
    let s := s.modQueue c q fun u => { u with cpl := some { r with written := r.written + 1 } }
    if r.vector = 127 then s else s.raise r.vector.toNat

/-- One more command of a block is complete. -/
def Block.countDone (b : Block) : Block := { b with nDone := b.nDone + 1 }

/-- Every command of a block is complete (R102). -/
def Block.over (b : Block) : Bool := decide (b.cmds.length ≤ b.nDone)

/-- The newer of two BLOCK_SEQ values, where 0xFFFF_FFFF is none (R105). -/
def newerSeq (a b : BitVec 32) : BitVec 32 := if a = 0xFFFFFFFF ∨ (b - a).toNat < 2 ^ 31 then b else a

/-- A command leaves its queue; its block retires with the last one (R102, R105, R113). -/
def leaveQueue (e : Started) (u : CmdQueue) : CmdQueue :=
  let armed := u.armed.map fun b => if b.seq = e.blockSeq then b.countDone else b
  { u with
    started := u.started.filter fun x => x.id != e.id
    armed := armed.filter fun b => !b.over
    retiredSeq := (armed.filter Block.over).foldl (fun a b => newerSeq a b.seq) u.retiredSeq }

/-- The first byte count that a remaining reservation of one side of a ring holds, or the end of the reservations (R287). -/
def ringEdge (k : Core) (region : Nat) (push : Bool) (now stop : BitVec 32) : BitVec 32 :=
  let held := (List.range 4).flatMap fun q => (k.queue q).started.filterMap fun e =>
    if circOf e.desc == some region && (fld (cmdBody e.desc) 19 18 == 2) == push then e.ringAt else none
  held.foldl (fun a b => if (b - now).toNat < (a - now).toNat then b else a) stop

/-- HEAD and TAIL of a ring advance over completed reservations, in order (R287). -/
def settleRing (k : Core) (region : Nat) : Core :=
  match tget none k.cfg.circ region with
  | none => k
  | some g => { k with cfg := { k.cfg with circ := tset none k.cfg.circ region (some { g with head := ringEdge k region false g.head g.resHead, tail := ringEdge k region true g.tail g.resTail }) } }

/-- A command leaves its core's units: its arrays, the vector unit, its ring (R178, R232, R287). -/
def leaveCore (q : Nat) (e : Started) (k : Core) : Core :=
  let own (x : Nat × Nat) : Bool := x == (q, e.id)
  let k : Core :=
    { k with
      arrays := (List.range 4).foldl (fun t i => tmod ArrayState.init t i fun x => { x with cmds := x.cmds.filter fun y => !own y }) k.arrays
      vecCmds := k.vecCmds.filter fun y => !own y }
  match circOf e.desc with
  | none => k
  | some i => settleRing k i

/-- A flush that ends with a status of STEP severity or with ABORTED marks its group BROKEN (R546). -/
def breakGroup (s : State) (e : Started) : State :=
  if cmdOp e.desc = 0x61 && (stepFault e.status || e.status == 0x600) then
    match s.bucket (bucketOf e.desc) with
    | none => s
    | some b => { s with groups := tmod none s.groups b.group (Option.map fun g => { g with broken := true }) }
  else s

/-- What waited for commands to complete goes on (R104, R401, R422, R426). -/
def settleAll (s : State) : State := settleReplay (settleLog (settleAborts (settleFloors s)))

/-- The host-held lines that a record's write must snoop first (R115, R561). -/
def recordLines (s : State) (c q : Nat) (e : Started) : List Nat :=
  match (s.queue c q).cpl with
  | none => []
  | some r => if writesRecord e then snoopsFor s (recordAddr r) 32 true else []

/-- A command whose work is done completes (R109 to R115). A record whose line needs a snoop that the host does not answer is not written, and the command ends with HOST_UNRESPONSIVE (R566). -/
def retire (s : State) (c q : Nat) (e : Started) : State :=
  let d := doneEvent s c e
  let lines := recordLines d.1 c q d.2
  let lost := d.1.cannotSnoop lines
  let f := fillFree c q (if lost then d.2.fault 0x507 0 else d.2)
  let s := if stepFault f.status then d.1.postErr (cmdErr d.1 c q f) else d.1
  let s := if writesRecord f && !lost then writeRec s c q f else s
  let s := (s.modQueue c q (leaveQueue f)).dropCmdOps c q e.id
  let s := dropQuery (s.modCore c (leaveCore q f)) c q e.id
  settleAll (breakGroup { s with updateCmds := s.updateCmds.filter fun x => x != (c, q, e.id), strikes := s.strikes.filter fun x => decide (x.owner ≠ some (c, q, e.id)) } f)

/-- A command is the one its unit runs: each array that took it runs it first and is ramped up, and the vector unit runs it first (R178, R205, R232). -/
def unitsDone (k : Core) (q id : Nat) : Bool :=
  let first (l : List (Nat × Nat)) : Bool := !l.contains (q, id) || l.head? == some (q, id)
  first k.vecCmds && (List.range 4).all fun i =>
    let x := tget ArrayState.init k.arrays i
    first x.cmds && (!x.cmds.contains (q, id) || x.gated == 0)

/-- A quarantined device may end a started command that cannot go on with ABORTED (R607). -/
def endQuarantined (s : State) (c q id : Nat) : State :=
  match s.started c q id with
  | none => s
  | some e => if s.boot.quarantined && !e.done then abortCmd s c q id else s

/-- The lines that a command's record needs, an overflow of its DONE_EVENT counted in, if the host can be asked for them (R94, R110, R561). -/
def linesDue (s : State) (c q : Nat) (e : Started) : List Nat :=
  let d := doneEvent s c e
  let lines := recordLines d.1 c q d.2
  if s.cannotSnoop lines then [] else lines

/-- COMMAND_COMPLETE: the command's remaining work is attempted, and it completes once that work is done, its units have run it and its record can be written (R109). `port` is chosen for what leaves the device (R472). While the core's clock is stopped nothing completes (R688, R693). -/
def execCommandComplete (core : CoreId) (queue : QueueId) (id : Nat) (port : PortId) (s : State) : Res :=
  let c := core.val
  let q := queue.val
  if !s.clocked then .next s
  else
    let s := endQuarantined (resume s c q id port.val) c q id
    match s.started c q id with
    | none => .next s
    | some e =>
      if !e.done || !unitsDone (s.core c) q id || (s.power.standby && stopsInStandby e.desc) then .next s
      else
        let lines := linesDue s c q e
        if lines.isEmpty then .next (serveHost (retire s c q e))
        else .next (sendSnoops (s.modStarted c q id fun e => { e with lines := lines }) lines true)

/-- DETAIL of a wait that its timer ended: a tag wait names its kind and number (R275, R288); of another wait it is not stated (log entry 3). -/
def waitDetail (c q : Nat) (e : Started) : BitVec 32 :=
  match e.wait with
  | .tagSlot n _ _ => BitVec.ofNat 32 n
  | .circular i => BitVec.ofNat 32 (2 ^ 31 + i)
  | _ => openDetail c q e 0x304

/-- A wait that the queue's wait timer ends (R111, R275, R288). -/
def timed (e : Started) : Bool :=
  !e.done && (match e.wait with | .program => true | .tagSlot _ _ _ => true | .circular _ => true | _ => false)

/-- What a command waits for has come meanwhile: its work, attempted, would end or go on. -/
def waitOver (s : State) (c q : Nat) (e : Started) : Bool :=
  let r := attemptAny 0 { s := s, core := c, queue := q, e := e }
  r.e.done || r.e.wait != e.wait

/-- A started command's wait ends with TAG_WAIT_TIMEOUT (R111, R275). -/
def timeoutCmd (s : State) (c q : Nat) (e : Started) : State :=
  s.modStarted c q e.id fun x => { x.fault 0x304 (waitDetail c q e).toNat with done := true, wait := .none }

/-- WAIT_TIMEOUT: the wait timer of a command expires (R111, R275): the wait of the started command named ends, while what it waits for has not come; or, where none is named, the next command's WAIT_EVENT condition does, without the command's work. -/
def execWaitTimeout (core : CoreId) (queue : QueueId) (id : Option Nat) (s : State) : Res :=
  let c := core.val
  let q := queue.val
  match id with
  | some i =>
    match s.started c q i with
    | none => .next s
    | some e => if timed e && !waitOver s c q e then .next (timeoutCmd s c q e) else .next s
  | none =>
    match nextCmd (s.queue c q) with
    | none => .next s
    | some (b, d) =>
      if queueOpen s c q && !waitMet (s.core c) d then
        let e := startedOf (s.queue c q) b d
        .next (timeoutCmd (beginCmd s c q b { e with wait := .program }) c q { e with wait := .program })
      else .next s

/-- CONSUMER_HEAD_UPDATE: the consumer writes its head index (R115, R117). -/
def execConsumerHeadUpdate (core : CoreId) (queue : QueueId) (head : BitVec 32) (s : State) : Res :=
  match (s.queue core.val queue.val).cpl with
  | none => .next s
  | some r =>
    if 2 ^ r.log2 < (head - r.written).toInt then .next (s.postErr { mkErr 0x201 0 0 core.val with queue := BitVec.ofNat 2 queue.val, core := BitVec.ofNat 5 core.val })
    else
      let s := (hbmWrite s r.headAddr (cleanBytes (vecBytes head))).s
      .next (s.modQueue core.val queue.val fun u => { u with cpl := some { r with head := head } })

end Sys2Proof.Machine
end

