-- ==== Sys2Proof/Machine/Ethernet.lean ====
section
/-! DEFINITION. The ordinary network: CONFIGURE_ETHERNET and what happens on the two Ethernet ports and their RoCE v2 connections (R568 to R581). -/

namespace Sys2Proof.Machine

/-- CONFIGURE_ETHERNET's opcode entry. -/
def opEthernet : OpSpec := { plainOp 0x0720 2 [(127, 48), (39, 33), (31, 28), (15, 9), (7, 3)] with buf := true }

/-- The action of a CONFIGURE_ETHERNET request. -/
def ethAction (m : Msg) : Nat := fld (effPayload m) 2 0

/-- The request's pointer block is there, with the request buffer length of its action; an action that places nothing there has no request buffer (R739). -/
def ethLenOk (x : Ctx) (n : Nat) : Bool := x.m.ptr && if n = 0 then noRequest x.m else msgReqLen x.m == n

/-- The 64-byte record of the request buffer. -/
def ethRecord (x : Ctx) : BitVec 512 := BitVec.ofNat 512 (leNat (padTo 64 x.m.req))

/-- A port as a port record describes it, its link and PTP as they are. -/
def portOf (r : BitVec 512) (p : EthPort) : EthPort :=
  { p with
    configured := true, ip := fb r 384 128, mac := fb r 336 48, vlanId := fb r 324 12, vlanEn := bit r 323, reqPcp := fb r 320 3, spillPcp := fb r 317 3
    reqDscp := fb r 311 6, spillDscp := fb r 305 6, enabled := bit r 304, up := p.up && bit r 304 }

/-- A port carries a connection. -/
def portCarries (s : State) (p : Nat) : Bool := s.eth.conns.any fun e => match e.2 with
  | none => false
  | some k => k.port == p

/-- Two port settings differ in PORT_EN at most (R571). -/
def onlyEnable (a b : EthPort) : Bool := { a with enabled := b.enabled, up := b.up } == b

/-- CONFIGURE_ETHERNET with action SET_PORT, and with a reserved action (R571). Another action belongs to another row and does not begin here. -/
def execSetPort (m : Msg) (s : State) : Res :=
  if 1 ≤ ethAction m ∧ ethAction m ≤ 4 then .next s
  else
    serve opEthernet m s fun s x =>
      let r := ethRecord x
      let p := x.f 8 8
      if ethAction m != 0 || !ethLenOk x 64 || fld r 303 0 != 0 || fld r 322 320 == fld r 319 317 then refuse s 0x201
      else if portCarries s p && !onlyEnable (portOf r (s.ethPort p)) (s.ethPort p) then refuse s 0x203
      else .done (s.modEth p (portOf r)) .ok

/-- The line rate of a port in GB/s (R568, R577). -/
def lineRate : Rat := 50

/-- A connection as a connection record describes it. -/
def connOf (r : BitVec 512) : Conn :=
  { remoteIp := fb r 384 128, nextHopMac := fb r 336 48, qpnReq := fb r 312 24, qpnSpill := fb r 288 24, txPsn := fb r 264 24, rxPsn := fb r 240 24
    remoteVa := fb r 176 64, rKey := fb r 144 32, lostMs := if fld r 143 128 = 0 then 50 else fb r 128 16, port := fld r 115 115, memory := bit r 114, loader := bit r 113
    error := false, rateReq := lineRate, rateSpill := lineRate, sentReq := 0, sentSpill := 0, queued := [], unackedPkts := 0, unacked := [], opsFailed := 0, retransmits := 0, cnps := 0, dropped := 0 }

/-- A connection record's fields lie in their ranges. -/
def connFieldsOk (r : BitVec 512) : Bool :=
  let c := connOf r
  fld r 112 0 == 0 && decide (3 ≤ c.lostMs.toNat) && decide (c.lostMs.toNat ≤ 60000) && (!c.memory || c.qpnSpill == 0)

/-- CONNECT (R71, R573). -/
def execConnect (m : Msg) (s : State) : Res :=
  if ethAction m = 1 then
    serve opEthernet m s fun s x =>
      let r := ethRecord x
      let c := fld r 127 116
      if !ethLenOk x 64 || !connFieldsOk r || (bit r 113 && !x.has capRoceInput) then refuse s 0x201
      else if (s.conn c).isSome then refuse s 0x203
      else .done (({ s with eth := { s.eth with conns := tset none s.eth.conns c (some (connOf r)) } } : State).flushCredits) .ok
  else .next s

/-- A connection's operations and checkpoints end, as on entering ERROR (R433, R578, R579). -/
def failConn (s : State) (c : BitVec 12) : State := failCheckpoints (s.loseConn c.toNat) c

/-- DISCONNECT (R579); without such a connection there is nothing to tear down. -/
def execDisconnect (m : Msg) (s : State) : Res :=
  if ethAction m = 2 then
    serve opEthernet m s fun s x =>
      let c := fb x.p 16 12
      if !ethLenOk x 0 then refuse s 0x201
      else if (connEndpoint s c).isSome then refuse s 0x203
      else
        let t := failConn s c
        .done { t with eth := { t.eth with conns := tset none t.eth.conns c.toNat none } } .ok
  else .next s

/-- SET_PTP (R572, R580). -/
def execSetPtp (m : Msg) (s : State) : Res :=
  if ethAction m = 3 then
    serve opEthernet m s fun s x =>
      if !ethLenOk x 0 then refuse s 0x201
      else .done (s.modEth (x.f 8 8) fun p => { p with ptpEn := bit x.p 32, ptpDomain := fb x.p 40 8, ptpMeasuring := false, ptpSync := none, ptpPair := none, ptpReq := none }) .ok
  else .next s

/-- GET_STATUS's response (R581). -/
def ethReply (p : EthPort) (c : Option Conn) : Nat :=
  let k : Nat := match c with
    | none => 0
    | some k => (if k.error then 2 else 1) * 2 ^ 264 + k.opsFailed.toNat * 2 ^ 232 + k.retransmits.toNat * 2 ^ 200 + k.cnps.toNat * 2 ^ 168
  p.ptpOffset.toNat * 2 ^ 320 + p.ptpDelay.toNat * 2 ^ 288 + (if p.ptpEn then (if p.ptpMeasuring then 2 else 1) else 0) * 2 ^ 280 + (if p.up then 1 else 0) * 2 ^ 272 + k

/-- GET_STATUS (R581). -/
def execGetStatus (m : Msg) (s : State) : Res :=
  if ethAction m = 4 then
    serve opEthernet m s fun s x =>
      if !ethLenOk x 0 then refuse s 0x201
      else .done s (.val 0 (ethReply (s.ethPort (x.f 8 8)) (s.conn (x.f 27 16))))
  else .next s

/-- Half a rate, and no less than 1 GB/s (R570). -/
def halved (r : Rat) : Rat := max 1 (r / 2)

/-- A rate after 55 µs without a notification (R570). -/
def recovered (r : Rat) : Rat := min lineRate (r + 1 / 2)

/-- A Congestion Notification Packet names a queue pair of a connection (R570, R581). -/
def execCnp (conn : BitVec 12) (spill : Bool) (s : State) : Res :=
  .next (s.modConn conn.toNat fun k =>
    { k with rateReq := if spill then k.rateReq else halved k.rateReq, rateSpill := if spill then halved k.rateSpill else k.rateSpill, cnps := satInc k.cnps 1 })

/-- 55 µs pass without a notification for a queue pair (R570). -/
def execRateRecovery (conn : BitVec 12) (spill : Bool) (s : State) : Res :=
  .next (s.modConn conn.toNat fun k =>
    { k with rateReq := if spill then k.rateReq else recovered k.rateReq, rateSpill := if spill then recovered k.rateSpill else k.rateSpill })

/-- The connections of a port. -/
def connsOn (s : State) (p : Nat) : List Nat := s.eth.conns.filterMap fun e => match e.2 with
  | none => none
  | some k => if k.port = p then some e.1 else none

/-- A priority flow control frame stops or releases a priority; frames held for it leave (R569). -/
def execPfcPause (port : Fin 2) (priority : BitVec 3) (on : Bool) (s : State) : Res :=
  if !(s.ethPort port.val).up then .next s
  else
    let one : BitVec 8 := 1#8 <<< priority.toNat
    let s := s.modEth port.val fun p => { p with paused := if on then p.paused ||| one else p.paused &&& ~~~one }
    .next (sendCheckpoints (s.drainConns (connsOn s port.val)))

/-- An inbound RDMA request is answered with a Remote Access Error NAK (R577). -/
def execRdmaInbound (conn : BitVec 12) (s : State) : Res :=
  match s.conn conn.toNat with
  | none => .next s
  | some k => if k.error || !(s.ethPort k.port).up then .next s else .next (s.emit (.rdmaNak conn.toNat))

/-- A frame that is neither RoCE v2 nor PTP traffic for IP_ADDR is dropped and counted (R571). -/
def execEthernetOtherFrame (port : Fin 2) (s : State) : Res :=
  if (s.ethPort port.val).up then .next (s.modEth port.val fun p => { p with dropped := p.dropped + 1 }) else .next s

/-- A connection waits for an acknowledgement or a read response of its peer, or for its port, which is down (R578). -/
def connWaits (s : State) (c : BitVec 12) (k : Conn) : Bool :=
  let held := !k.queued.isEmpty || !(ckptOver s c 0x0B03 ++ ckptOver s c 0x0B04).isEmpty
  !k.error && (decide (0 < k.unackedPkts) || (held && !(s.ethPort k.port).up) || !(ckptOn s c 0x0B04).isEmpty)

/-- Something that the connection has sent and that awaits its answer may be sent again: the port is up, and the priority not paused (R569, R578). -/
def connResends (s : State) (c : BitVec 12) (k : Conn) : Bool :=
  let e := s.ethPort k.port
  let rdma := decide (k.unacked.length < k.unackedPkts) || !(ckptOn s c 0x0B04).isEmpty
  !k.error && e.up && ((k.unacked.any fun t => !ethPaused e t.ty.toNat) || (rdma && !ethPaused e 2))

/-- A packet that is not acknowledged is sent again (R578). -/
def retransmit (s : State) (c : BitVec 12) : State :=
  (s.modConn c.toNat fun k => { k with retransmits := satInc k.retransmits 1 }).emit (.roceRetransmit c.toNat)

/-- RC_RETRANSMIT (R578). -/
def execRcRetransmit (conn : BitVec 12) (s : State) : Res :=
  match s.conn conn.toNat with
  | none => .next s
  | some k => if connResends s conn k then .next (retransmit s conn) else .next s

/-- A packet has stayed unacknowledged for LOST_MS: the connection enters ERROR (R578). -/
def execConnectionError (conn : BitVec 12) (s : State) : Res :=
  match s.conn conn.toNat with
  | none => .next s
  | some k =>
    if connWaits s conn k then
      let s := failConn (s.modConn conn.toNat fun k => { k with error := true }) conn
      .next (s.postErr { mkErr 0x500 2 5 k.port with endpoint := BitVec.ofNat 12 ((connEndpoint s conn).getD 0) })
    else .next s

/-- The origin and ingress times of a Sync are known: a Delay_Req leaves, with its egress time kept (R580). -/
def askDelay (s : State) (n : Nat) (origin ingress : BitVec 64) : State :=
  let p := s.ethPort n
  (s.modEth n fun p => { p with ptpSync := none, ptpPair := some (origin, ingress), ptpReq := some s.clock.gtc, ptpSeq := p.ptpSeq + 1 }).emit (.ptpDelayReq n p.ptpDomain p.ptpSeq)

/-- The Delay_Resp to a port's Delay_Req: the path delay, and PTP time minus GTC (R580). The master's times are `t1` and `t4`, the port's `t2` and `t3`. -/
def measured1588 (p : EthPort) (t4 : BitVec 64) : EthPort :=
  match p.ptpPair, p.ptpReq with
  | some (t1, t2), some t3 =>
    let delay := ((t2 - t1) + (t4 - t3)).toInt / 2
    { p with ptpReq := none, ptpMeasuring := true, ptpDelay := BitVec.ofInt 32 delay, ptpOffset := t1 + BitVec.ofInt 64 delay - t2 }
  | _, _ => p

/-- A PTP message reaches the slave clock of a port, in its domain: a Sync of a one-step master, or of a two-step master with its Follow_Up, starts a delay exchange, and the Delay_Resp ends it; corrections are counted in (R580; log entry 70). The PTP clock never steers the GTC. -/
def execPtpMessage (port : Fin 2) (m : PtpMsg) (s : State) : Res :=
  let n := port.val
  let p := s.ethPort n
  let mine (d : BitVec 8) : Bool := p.ptpEn && p.up && s.clocked && d == p.ptpDomain
  match m with
  | .sync d seq twoStep origin corr =>
    if !mine d then .next s
    else if twoStep then .next (s.modEth n fun p => { p with ptpSync := some (seq, s.clock.gtc - corr) })
    else .next (askDelay s n (origin + corr) s.clock.gtc)
  | .followUp d seq origin corr =>
    (match p.ptpSync with
     | some (sq, t2) => if mine d && sq == seq then .next (askDelay s n (origin + corr) t2) else .next s
     | none => .next s)
  | .delayResp d seq received corr =>
    if mine d && seq + 1 == p.ptpSeq then .next (s.modEth n fun p => measured1588 p (received - corr)) else .next s

/-- An enabled port comes up; what waited for it leaves (R568, R574). -/
def execEthernetLinkUp (port : Fin 2) (s : State) : Res :=
  let p := s.ethPort port.val
  if p.configured && p.enabled && !p.up && s.clocked then
    let s := s.modEth port.val fun p => { p with up := true }
    .next (sendCheckpoints (s.drainConns (connsOn s port.val)))
  else .next s

/-- A port loses its link; its connections stay until their loss timers end them (R578). -/
def execEthernetLinkDown (port : Fin 2) (s : State) : Res := .next (s.modEth port.val fun p => { p with up := false })

/-- An acknowledgement covers what the connection has sent, and completes a CHECKPOINT_OUT's writes; a NAK of a sequence error or an RNR NAK makes the device send again (R575, R577, R578). -/
def execRoceAck (conn : BitVec 12) (kind : RoceAckKind) (s : State) : Res :=
  match s.conn conn.toNat with
  | none => .next s
  | some k =>
    if k.error || !(s.ethPort k.port).up then .next s
    else
      match kind with
      | .ack =>
        let s := s.modConn conn.toNat fun k => { k with unackedPkts := 0, unacked := [] }
        .next ((ckptOn s conn 0x0B03).foldl (fun s h => ackCkpt s conn h) s)
      | .nak => if connResends s conn k then .next (retransmit s conn) else .next s
      | .rnr => if connResends s conn k then .next (retransmit s conn) else .next s

end Sys2Proof.Machine
end

