-- ==== Sys2Proof/Machine/Pcie.lean ====
section
/-! DEFINITION. The device's PCIe configuration space, as far as the spec names what it holds: identity, base address registers, and the capability structures of the features that are supported (R548, R549, R552, R555). The places and codes of its fields are those of the PCI Express and CXL standards, and the places of the structures the model's (log entry 112). -/

namespace Sys2Proof.Machine

/-- A word of configuration space: the bits that are fixed, those that the host may write, and the value that these take when the host interface is reset. -/
structure ConfigWord where
  fixed : BitVec 32
  writable : BitVec 32
  initial : BitVec 32
  deriving DecidableEq, Repr

/-- A word whose bits are all fixed. -/
def fixedWord (v : BitVec 32) : ConfigWord := { fixed := v, writable := 0, initial := 0 }

/-- A word with writable bits, clear at reset. -/
def freeBits (v mask : BitVec 32) : ConfigWord := { fixed := v, writable := mask, initial := 0 }

/-- The type 0 header: vendor and device ID, command, class and revision, the three 64-bit BARs of 16 MiB, 64 GiB and 256 KiB with BAR2 prefetchable, and the first capability (R549, R552). -/
def headerWords : List (Nat × ConfigWord) :=
  [(0x00, fixedWord (0x3384#16 ++ Config.vendorId)), (0x04, freeBits 0x00100000 0x00000146), (0x08, fixedWord (Config.classCode ++ 0xB1#8)), (0x10, freeBits 0x4 0xFF000000), (0x14, freeBits 0 0xFFFFFFFF),
   (0x18, freeBits 0xC 0), (0x1C, freeBits 0 0xFFFFFFF0), (0x20, freeBits 0x4 0xFFFC0000), (0x24, freeBits 0 0xFFFFFFFF), (0x34, fixedWord 0x40)]

/-- The PCI Express capability: an endpoint with payloads of up to 512 bytes and FLR, read requests of up to 4,096 bytes, 10-bit tags, the Completion Timeout Value, and links of up to 64 GT/s and 16 lanes without ASPM (R548, R549). -/
def expressWords : List (Nat × ConfigWord) :=
  [(0x40, fixedWord 0x00028010), (0x44, fixedWord 0x10008022), (0x48, { fixed := 0, writable := 0x000071EF, initial := 0x00002000 }), (0x4C, fixedWord 0x00000106), (0x64, fixedWord 0x0003001F),
   (0x68, freeBits 0 0x0000101F)]

/-- The MSI-X capability: 64 vectors, with the table and the pending bits in BAR0 (R548, R552). -/
def msixWords : List (Nat × ConfigWord) := [(0x80, freeBits 0x003F0011 0xC0000000), (0x84, fixedWord 0x100000), (0x88, fixedWord 0x101000)]

/-- The extended capabilities: AER, DOE, the 14-bit tags of Device 3, and the CXL DVSEC. No other structure is present (R548, R555). -/
def extendedWords : List (Nat × ConfigWord) :=
  [(0x100, fixedWord 0x15020001), (0x150, fixedWord 0x1802002E), (0x180, fixedWord 0x1901002F), (0x184, fixedWord 0x6), (0x188, freeBits 0 0x4), (0x190, fixedWord 0x00010023), (0x194, fixedWord 0x1E98)]

/-- The word at an aligned offset of configuration space; every other one is reserved. -/
def configWord (o : Nat) : ConfigWord := (((headerWords ++ expressWords ++ msixWords ++ extendedWords).find? fun w => w.1 == o).map fun w => w.2).getD (fixedWord 0)

/-- What a read of configuration space returns. -/
def readConfig (s : State) (o : Nat) : BitVec 32 :=
  let w := configWord o
  w.fixed ||| ((w.initial ^^^ tget 0 s.host.config o) &&& w.writable)

/-- A word of configuration space is written: its writable bits take the value. -/
def writeConfig (s : State) (o : Nat) (v : BitVec 32) : State :=
  let w := configWord o
  { s with host := { s.host with config := tset 0 s.host.config o ((v ^^^ w.initial) &&& w.writable) } }

/-- The address that a 64-bit BAR has been given: BAR0, BAR2 or BAR4 (R552). -/
def barBase (s : State) (bar : Nat) : BitVec 64 := (readConfig s (0x14 + 4 * bar) ++ readConfig s (0x10 + 4 * bar)) &&& ~~~15#64

/-- The largest payload in bytes that the host has allowed (R548). -/
def payloadLimit (s : State) : Nat := min 512 (128 * 2 ^ fld (readConfig s 0x48) 7 5)

/-- The largest read request in bytes that the host has allowed (R548). -/
def readLimit (s : State) : Nat := min 4096 (128 * 2 ^ fld (readConfig s 0x48) 14 12)

/-- The longest completion timeout in microseconds that the host has set; 50 ms by default (R549). -/
def completionTimeout (s : State) : Nat :=
  match fld (readConfig s 0x68) 3 0 with
  | 1 => 100
  | 2 => 10000
  | 5 => 55000
  | 6 => 210000
  | 9 => 900000
  | 10 => 3500000
  | 13 => 13000000
  | 14 => 64000000
  | _ => 50000

/-- The data objects that DOE answers, by vendor and type: Discovery, and CXL Table Access (R548). -/
def doeObjects : List (Nat × Nat) := [(0x0001, 0), (0x1E98, 2)]

/-- DOE Discovery: the object at an index, and the next index, 0 after the last. -/
def doeDiscovery (i : Nat) : Option (Nat × Nat × Nat) := (doeObjects[i]?).map fun o => (o.1, o.2, if i + 1 < doeObjects.length then i + 1 else 0)

end Sys2Proof.Machine
end

