-- ==== Sys2Proof/Machine/Registers.lean ====
section
/-! DEFINITION. BAR0 and BAR4 register writes, and the mailbox channels' registers and timers (R21, R22, R53 to R62, R76, R549, R550, R673, R679, R722 to R736). -/

namespace Sys2Proof.Machine

/-- A command that the host link must carry (R551, R695, R726). -/
def byHost (s t : State) : Res := .next (if s.hostOpen then t else s)

/-- A doorbell latches its tail, which is evaluated while channel and firmware are READY (R55, R56, R732). -/
def ringDoorbell (s : State) (n : Nat) (v : BitVec 32) : State := evalDoorbell (s.modChan n fun c => { c with doorbell := fb v 0 16 }) n

/-- MBX_DOORBELL (R55, R56, R732). -/
def execMbxDoorbell (chan : ChanId) (value : BitVec 32) (s : State) : Res := byHost s (ringDoorbell s chan.val value)

/-- CHANNEL_RESET (R61). -/
def execChannelReset (chan : ChanId) (s : State) : Res := byHost s (resetChan s chan.val)

/-- ENABLE is set or cleared (R53, R58, R61, R62): setting it needs a DISABLED channel, READY firmware and nonzero ring bases; clearing it leaves a READY channel DISABLED. -/
def setEnable (s : State) (n : Nat) (on : Bool) : State :=
  let c := s.chan n
  if on then
    if !c.enabled && c.state == 0 && s.ready && c.reqBase != 0 && c.cplBase != 0 then
      evalDoorbell (s.modChan n fun c => { c with enabled := true, state := 1, phase := true }) n
    else s
  else s.modChan n fun c => { c with enabled := false, state := if c.state = 1 then 0 else c.state }

/-- ENABLE of MBX_CTL (R62). -/
def execEnable (chan : ChanId) (on : Bool) (s : State) : Res := byHost s (setEnable s chan.val on)

/-- The host advances the completion head (R60). -/
def setCplHead (s : State) (n : Nat) (v : BitVec 32) : State := s.modChan n fun c => { c with cplHead := fb v 0 16 }

/-- MBX_CPL_HEAD (R60). -/
def execMbxCplHead (chan : ChanId) (value : BitVec 32) (s : State) : Res := byHost s (setCplHead s chan.val value)

/-- The moderation time of the oldest unsignalled completion passes (R59). -/
def execModerationTimer (chan : ChanId) (s : State) : Res :=
  let c := s.chan chan.val
  if c.unsignalled != 0 && fld c.moderation 31 16 != 0 && c.irqEnable then .next ((s.modChan chan.val fun c => { c with unsignalled := 0 }).raise c.vector.toNat)
  else .next s

/-- A session with a lease has delivered no request for LEASE_MS (R76, R77). -/
def execSessionLeaseExpiry (handle : BitVec 32) (s : State) : Res :=
  if s.ready && s.mbx.sessions.any (fun x => x.handle == handle && x.leaseMs != 0) then .next (closeSession s handle) else .next s

/-- A fetch of a request fails in PCIe: the channel is FAULTED with FETCH_ERROR (R53, R549). -/
def execFetchError (chan : ChanId) (s : State) : Res :=
  let c := s.chan chan.val
  if canDequeue s (.chan chan) then .next (s.modChan chan.val fun _ => { c with state := 2, reason := 3 }) else .next s

/-- BOOT_GO (R679, R682). -/
def execBootGo (value : BitVec 32) (s : State) : Res := byHost s (if bit value 0 then bootGo s else s)

/-- RESET_CTL: the key asks for a DEVICE reset in every firmware state (R673, R729). -/
def resetKey (s : State) (v : BitVec 32) : State := if fld v 7 0 = 0xD5 then { s with boot := { s.boot with resetDue := true } } else s

/-- RESET_CTL (R673). -/
def execResetCtl (value : BitVec 32) (s : State) : Res := byHost s (resetKey s value)

/-- FW_IRQ_STATUS: a 1 clears its bit (R21, R731). -/
def clearIrq (s : State) (v : BitVec 32) : State := { s with irq := { s.irq with status := s.irq.status &&& ~~~(fb v 0 3) } }

/-- FW_IRQ_STATUS (R731). -/
def execFwIrqStatus (value : BitVec 32) (s : State) : Res := byHost s (clearIrq s value)

/-- SPAD_CONFLICT_CLR of a core (R736). -/
def clearConflicts (s : State) (c : Nat) (v : BitVec 32) : State := if bit v 0 then s.modCore c fun k => { k with conflictCount := 0, conflictCapture := 0 } else s

/-- SPAD_CONFLICT_CLR (R736). -/
def execSpadConflictClr (core : CoreId) (value : BitVec 32) (s : State) : Res := byHost s (clearConflicts s core.val value)

/-- A vector field takes a value of 0 to 63; a write of another value is dropped (R53, FW_IRQ_CTL). -/
def vectorField (old : BitVec 7) (v : BitVec 32) : BitVec 7 := if fld v 14 8 < 64 then fb v 8 7 else old

/-- Half of a 64-bit register is written, its low 12 bits reserved. -/
def setHalf (x : BitVec 64) (hi : Bool) (v : BitVec 32) : BitVec 64 :=
  if hi then v ++ (fb x 0 32 : BitVec 32) else (fb x 32 32 : BitVec 32) ++ (v &&& 0xFFFFF000#32)

/-- FW_IRQ_CTL is written. -/
def setIrqCtl (s : State) (v : BitVec 32) : State := { s with irq := { s.irq with enable := bit v 15, vector := vectorField s.irq.vector v } }

/-- One word of the MSI-X table is written; a vector that is unmasked while pending is sent (R731; log entry 6). -/
def setMsix (s : State) (i w : Nat) (v : BitVec 32) : State :=
  match w with
  | 0 => { s with irq := { s.irq with msixAddr := tmod 0 s.irq.msixAddr i fun x => (fb x 32 32 : BitVec 32) ++ (v &&& 0xFFFFFFFC#32) } }
  | 1 => { s with irq := { s.irq with msixAddr := tmod 0 s.irq.msixAddr i fun x => v ++ (fb x 0 32 : BitVec 32) } }
  | 2 => { s with irq := { s.irq with msixData := tset 0 s.irq.msixData i v } }
  | _ =>
    let s : State := { s with irq := { s.irq with msixCtl := tset 1 s.irq.msixCtl i (v &&& 1) } }
    if !bit v 0 && bit s.irq.pba i then ({ s with irq := { s.irq with pba := s.irq.pba &&& ~~~(1#64 <<< i) } } : State).sendMsix i else s

/-- BOOT_ADDR is unlocked (R728). -/
def bootAddrOpen (s : State) : Bool := s.boot.fwStage == 1 || s.boot.fwStage == 7

/-- One 32-bit word is written in BAR0; registers that ignore writes, and reserved offsets, keep their values (R22, R722). -/
def writeBar0 (s : State) (o : Nat) (v : BitVec 32) : State :=
  if o = 0x10 ∨ o = 0x14 then (if bootAddrOpen s then { s with boot := { s.boot with bootAddr := setHalf s.boot.bootAddr (o == 0x14) v } } else s)
  else if o = 0x18 then (if bit v 0 then bootGo s else s)
  else if o = 0x1C then resetKey s v
  else if o = 0x28 then setIrqCtl s v
  else if o = 0x2C then clearIrq s v
  else if 0x10000 ≤ o ∧ o < 0x50000 then (if o % 0x1000 = 0 then ringDoorbell s ((o - 0x10000) / 0x1000) v else s)
  else if 0x100000 ≤ o ∧ o < 0x100400 then setMsix s ((o - 0x100000) / 16) (o % 16 / 4) v
  else if 0x200000 ≤ o ∧ o < 0x200180 ∧ o % 16 = 8 then clearConflicts s ((o - 0x200000) / 16) v
  else s

/-- MBX_CTL is written: IRQ_ENABLE and MSIX_VECTOR, then CHANNEL_RESET, which wins over ENABLE, or ENABLE (R53, R61, R62). -/
def writeCtl (s : State) (n : Nat) (v : BitVec 32) : State :=
  let s := s.modChan n fun c => { c with irqEnable := bit v 15, vector := vectorField c.vector v }
  if bit v 1 then resetChan s n
  else if bit v 0 = (s.chan n).enabled then s
  else setEnable s n (bit v 0)

/-- One 32-bit word is written in BAR4 (R53). -/
def writeBar4 (s : State) (o : Nat) (v : BitVec 32) : State :=
  let n := o / 0x1000
  let r := o % 0x1000
  let free := !(s.chan n).enabled
  if r = 0 ∨ r = 4 then (if free then s.modChan n fun c => { c with reqBase := setHalf c.reqBase (r == 4) v } else s)
  else if r = 8 ∨ r = 0xC then (if free then s.modChan n fun c => { c with cplBase := setHalf c.cplBase (r == 0xC) v } else s)
  else if r = 0x10 then writeCtl s n v
  else if r = 0x20 then setCplHead s n v
  else if r = 0x24 then moderate (s.modChan n fun c => { c with moderation := v }) n
  else s

/-- One 32-bit word is written. -/
def writeWord (bar : Bar) (s : State) (o : Nat) (v : BitVec 32) : State := match bar with
  | .bar0 => writeBar0 s o v
  | .bar4 => writeBar4 s o v
  | .config => writeConfig s o v

/-- A register write, poisoned or not, of any size; 8 bytes are two 4-byte accesses, the lower first (R550, R723). Configuration space is written by words (log entry 112). -/
def writeRegister (s : State) (bar : Bar) (offset size : Nat) (value : BitVec 64) (poison : Bool) : State :=
  if poison then s.emit .aer
  else if (size = 4 ∨ size = 8) ∧ offset % size = 0 then
    let s := writeWord bar s offset (fb value 0 32)
    if size = 8 then writeWord bar s (offset + 4) (fb value 32 32) else s
  else match bar with
    | .bar0 => s.postErr (mkErr 0x201 0 6 0)
    | .bar4 => s
    | .config => s

/-- REGISTER_WRITE (R21, R550, R723). -/
def execRegisterWrite (bar : Bar) (offset size : Nat) (value : BitVec 64) (poison : Bool) (s : State) : Res := byHost s (writeRegister s bar offset size value poison)

end Sys2Proof.Machine
end

