-- ==== Sys2Proof/Machine/HostLink.lean ====
section
/-! DEFINITION. The host window through BAR2 and CXL.mem, the coherence tracker, and the host link itself (R548 to R567, R670, R682). -/

namespace Sys2Proof.Machine

/-- BAR2_READ (R550, R553, R554). -/
def execBar2Read (offset len : Nat) (s : State) : Res :=
  if !s.hostOpen then .next s
  else if s.host.committed then .next (s.emit .bar2Unsupported)
  else match inWindow s offset len with
  | none => .next (s.emit .bar2Unsupported)
  | some a =>
    let r := hbmRead s a len
    .next (r.2.2.emit (.bar2Data (vals r.1) (anyMark r.1)))

/-- BAR2_WRITE (R550, R553, R554). -/
def execBar2Write (offset : Nat) (data : List Byte) (poison : Bool) (s : State) : Res :=
  if !s.hostOpen then .next s
  else if s.host.committed then .next (s.emit .bar2Unsupported)
  else match inWindow s offset data.length with
  | none => .next ((s.emit .bar2Unsupported).postErr (mkErr 0x201 0 6 0))
  | some a => .next (hbmWrite s a (markBytes poison data)).s

/-- MEMRD (R560). -/
def execMemRd (line : Nat) (mv : Meta) (s : State) : Res := .next (hostRead s (.memRd line mv) line mv true)

/-- MEMRDDATA (R560). -/
def execMemRdData (line : Nat) (mv : Meta) (s : State) : Res := .next (hostRead s (.memRdData line mv) line mv false)

/-- MEMINV (R560). -/
def execMemInv (line : Nat) (s : State) : Res := .next (hostInv s (.memInv line) line)

/-- MEMCLNEVCT (R560). -/
def execMemClnEvct (line : Nat) (s : State) : Res := .next (hostEvict s line)

/-- MEMWR (R560, R561, R567). -/
def execMemWr (line : Nat) (mv : Meta) (data : List Byte) (poison : Bool) (s : State) : Res :=
  .next (hostWrite s (.memWr line mv data poison) line mv (markBytes poison (padTo 64 data)))

/-- MEMWRPTL (R560, R561, R567). -/
def execMemWrPtl (line : Nat) (mv : Meta) (data : List Byte) (byteEnable : List Bool) (poison : Bool) (s : State) : Res :=
  .next (hostWrite s (.memWrPtl line mv data byteEnable poison) line mv (enabledBytes (padTo 64 data) byteEnable poison))

/-- A slot write that waited for snoops runs again. -/
def rerunSlot (s : State) (r : HostReq) : State := match r.instr with
  | .slotWrite v f => landSlot s v f
  | _ => s

/-- The device's own accesses that waited for snoops are tried again, each waiting anew where a line is still missing. -/
def resumeSnooped (s : State) : State := settleReplay (beginReplay (settleLog (resumeDigest (settleCheckpoints (settleSubmits (resumeWaiting s fun w => w == .snoop))))))

/-- What waited for a line's snoop goes on: the device's own accesses first, then the host's requests in order, as far as no device access still waits for their lines (R561, R563). -/
def releaseLine (s : State) (line : Nat) : State :=
  let ready (r : HostReq) : Bool := fromNetwork r && r.lines.contains line && !r.lines.any s.snooped
  let mine := s.host.waiting.filter ready
  let s : State := { s with host := { s.host with waiting := s.host.waiting.filter fun r => !ready r } }
  let s := resumeSnooped (mine.foldl rerunSlot s)
  (serveHost (settleSnapshots s.telem.due s)).settlePfc

/-- The snoop of a line is over. -/
def endSnoop (s : State) (line : Nat) : State := { s with host := { s.host with snoops := s.host.snoops.filter fun p => p.line != line } }

/-- A snoop of a line has been crossed by the host's eviction of it (R565). -/
def State.crossed (s : State) (line : Nat) : Bool := s.host.snoops.any fun p => p.line == line && p.crossed

/-- BIRSP: the entry takes the state that the host reports, none where its eviction has crossed the snoop, and what waited goes on (R561, R563, R565). -/
def execBiRsp (line : Nat) (rsp : SnoopRsp) (s : State) : Res :=
  if !s.hostOpen || !s.snooped line then .next s
  else
    let v := match rsp with
      | .i => none
      | .s => if s.crossed line then none else some false
      | .e => if s.crossed line then none else some true
    .next (releaseLine ((endSnoop s line).track line v) line)

/-- BICONFLICT: every Cmp that the device owes the line goes first, then BIConflictAck (R565). -/
def execBiConflict (line : Nat) (s : State) : Res :=
  if !s.hostOpen || !s.snooped line then .next s
  else
    let owed (r : HostReq) : Bool := match r.instr with
      | .memInv l => l == line
      | _ => false
    let mine := s.host.waiting.filter owed
    let s : State := { s with host := { s.host with waiting := s.host.waiting.filter fun r => !owed r } }
    .next ((mine.foldl (fun s _ => hostDrop s line) s).emit (.conflictAck line))

/-- SNOOP_TIMEOUT: the host link is logged at PORT severity, and accesses that need a snoop fail until it is reset (R566). -/
def execSnoopTimeout (line : Nat) (s : State) : Res :=
  if !s.snooped line || !s.clocked then .next s
  else
    let s := (endSnoop s line).postErr (mkErr 0x507 2 6 0)
    .next (releaseLine { s with host := { s.host with unresponsive := true } } line)

/-- The checkpoints that wait on the host window when the host link fails end with ABORTED (R433). -/
def abortWindowCkpts (s : State) : State :=
  let mine := s.mbx.held.filter fun h => (h.opcode == 0x0B03 || h.opcode == 0x0B04) && !(ckptArgs (effPayload h.msg)).ethernet
  let s := mine.foldl (fun s h => endHeld s h (.st 0x600)) s
  if mine.any fun h => h.opcode == 0x0B04 then { s with ovt := { s.ovt with ckpt := none } } else s

/-- HOST_LINK_RESET (R566, R567, R670, R682, R683): what waited on the host's copies goes on without them. An FLR leaves the link up. -/
def execHostLinkReset (cause : HostLinkCause) (s : State) : Res :=
  if !s.clocked then .next s
  else
    let net := s.host.waiting.filter fromNetwork
    let up := s.host.linkUp && cause == .flr
    let cxl := s.host.cxl
    let s := resetHostLink (abortWindowCkpts s)
    let s : State := { s with host := { s.host with linkUp := up, cxl := up && cxl }, power := { s.power with perst := if cause = .perst then true else s.power.perst } }
    let s := resumeSnooped (net.foldl rerunSlot s)
    .next (settleSnapshots s.telem.due s).settlePfc

/-- PCIE_LINK_TRAINED: a link of ×4, ×8 or ×16 comes up, with CXL.mem at 64 GT/s (R548, R551, R555). -/
def execPcieLinkTrained (width gts : Nat) (s : State) : Res :=
  if s.host.linkUp || !s.clocked || !([4, 8, 16].contains width) then .next s
  else .next { s with host := { s.host with linkUp := true, cxl := gts == 64 }, power := { s.power with perst := false } }

/-- HDM_DECODER_COMMIT (R557). -/
def execHdmDecoderCommit (base size : BitVec 64) (ways : Nat) (s : State) : Res :=
  if !s.hostOpen || !s.host.cxl || s.host.committed then .next s
  else
    let good := match s.host.window with
      | none => false
      | some w => size.toNat == w.2 && ways == 1
    .next { s with host := { s.host with committed := good, errNotCommitted := !good, decBase := if good then base else s.host.decBase } }

end Sys2Proof.Machine
end

