-- ==== Sys2Proof/Machine/Session.lean ====
section
/-! DEFINITION. Sessions, channels and RESET_REQUEST messages (R57 to R79, R671 to R676). -/

namespace Sys2Proof.Machine

/-- The revision granted within MIN_REV to MAX_REV, if any (R69). -/
def grantRev (lo hi : Nat) : Option (BitVec 16) :=
  ([0x0302, 0x0301, 0x0300].find? fun r => decide (lo ≤ r) && decide (r ≤ hi)).map fun r => BitVec.ofNat 16 r

/-- A handle that the firmware has not issued in this instance: the operand's where it is nonzero and fresh, else the least that is fresh; zero where every handle has been issued (R72, log entry 11). -/
def freshHandle (s : State) (want : BitVec 32) : BitVec 32 :=
  if want != 0 && !s.mbx.issued.contains want then want
  else
    (((List.range (s.mbx.issued.length + 1)).map fun i => BitVec.ofNat 32 (i + 1)).find? fun h => h != 0 && !s.mbx.issued.contains h).getD 0

/-- The OPEN_SESSION response (R69, R70). -/
def openReply (s : State) (rev : BitVec 16) (handle : BitVec 32) : Nat :=
  rev.toNat + s.fwVersion.toNat % 256 * 2 ^ 16 + s.fwVersion.toNat / 256 % 256 * 2 ^ 24 + s.fwVersion.toNat / 65536 * 2 ^ 32
    + handle.toNat * 2 ^ 64 + (capsOf rev).toNat * 2 ^ 128 + 1048576 * 2 ^ 192 + 3 * 2 ^ 224 + 0xB1 * 2 ^ 232

/-- OPEN_SESSION's opcode entry. -/
def opOpen : OpSpec := { plainOp 0x0101 0 [(383, 160), (63, 40)] with quar := true, high := true }

/-- The session that OPEN_SESSION creates, with its completion's session handle (R69 to R73, R78); NO_RESOURCE once every handle has been issued (R72, R90). -/
def openSession (s : State) (x : Ctx) (want : BitVec 32) : State × BitVec 32 × Reply :=
  let priv := x.f 39 32
  if (s.chan x.chan).session != 0 then (s, 0, .st 0x203)
  else if 2 < priv then (s, 0, .st 0x201)
  else
    match grantRev (x.f 15 0) (x.f 31 16) with
    | none => (s, 0, .val 0x202 (0x0300 + 0x0302 * 2 ^ 16))
    | some rev =>
      let h := freshHandle s want
      if priv = 2 ∧ s.mbx.sessions.any (fun y => y.privilege == 2) then (s, 0, .st 0x203)
      else if h = 0 then (s, 0, .st 0x101)
      else
        let n : Session := { handle := h, privilege := BitVec.ofNat 8 priv, rev := rev, clientId := fb x.p 64 64, leaseMs := fb x.p 128 32 }
        let s : State := { s with mbx := { s.mbx with sessions := s.mbx.sessions ++ [n], issued := s.mbx.issued ++ [h] } }
        let s := s.modChan x.chan fun c => { c with session := h }
        (s, h, .val 0 (openReply s rev h))

/-- OPEN_SESSION (R69 to R73, R78). A nonzero SESSION in its header is accepted: the model's choice (log entry 92). Over MCTP the implicit session already stands, so it is refused there (R86). -/
def execOpenSession (m : Msg) (handle : BitVec 32) (s : State) : Res :=
  if canDequeue s m.src then
    let s := dequeue s m.src
    match refusal s opOpen false m with
    | some st => .next (finishMsg s m 0x0101 m.session (.st st))
    | none =>
      let r := openSession s (ctxOf s m) handle
      .next (finishMsg r.1 m 0x0101 r.2.1 r.2.2)
  else .next s

/-- The other channels of a session that have a message in progress (R77), as bits of a number. -/
def busyChans (s : State) (h : BitVec 32) (but : Nat) : Nat :=
  (((List.range 64).filter fun n => n != but && (s.chan n).session == h && (s.chan n).busy).map fun n => 2 ^ n).sum

/-- CLOSE_SESSION (R74, R77): it completes only after the messages already begun on the session's other channels; the last of them to end completes it (`settleCloses`). -/
def execCloseSession (m : Msg) (s : State) : Res :=
  serve { plainOp 0x0102 0 [] with quar := true } m s fun s x =>
    if busyChans s x.session x.chan ≠ 0 then .hold s (heldOf 0x0102 m (busyChans s x.session x.chan))
    else .done (closeSession s x.session) .ok

/-- ATTACH_CHANNEL (R74, R79). -/
def execAttachChannel (m : Msg) (s : State) : Res :=
  serve { plainOp 0x0103 0 [(383, 6)] with quar := true } m s fun s x =>
    let t := x.f 5 0
    if t = x.chan then refuse s 0x201
    else if (s.chan t).state != 1 then refuse s 0x203
    else if (s.chan t).session != 0 then refuse s 0x203
    else .done (s.modChan t fun c => { c with session := x.session }) .ok

/-- DETACH_CHANNEL (R74, R79). -/
def execDetachChannel (m : Msg) (s : State) : Res :=
  serve { plainOp 0x0104 0 [(383, 6)] with quar := true } m s fun s x =>
    let t := x.f 5 0
    if t = x.chan then refuse s 0x201
    else if (s.chan t).session != x.session then refuse s 0x203
    else .done (detachChan s t) .ok

/-- GET_DEVICE_INFO (R75). -/
def execGetDeviceInfo (m : Msg) (s : State) : Res :=
  serve (queryOp 0x0105 0 []) m s fun s _ =>
    .done s (.val 0 (s.fwVersion.toNat + 0xB1 * 2 ^ 32 + 24 * 2 ^ 40 + 384 * 2 ^ 48 + s.sec.bank.serial.toNat * 2 ^ 64
      + s.boot.fwInstance.toNat * 2 ^ 128 + s.fabric.coord.toNat * 2 ^ 160))

/-- GET_CAPABILITIES (R75). -/
def execGetCapabilities (m : Msg) (s : State) : Res :=
  serve (queryOp 0x0106 0 []) m s fun s x => .done s (.val 0 (x.caps.toNat * 2 ^ 128))

/-- The used payload bytes of a message as they came, those beyond 48 included on the management path (R75, R85). -/
def echoBytes (m : Msg) : List Byte :=
  if m.ptr then vecBytes (effPayload m) else (vecBytes m.payload ++ m.extra).take m.payloadLen

/-- ECHO (R75). -/
def execEcho (m : Msg) (s : State) : Res :=
  serve (queryOp 0x0107 0 []) m s fun s _ => .done s { status := 0, payload := none, long := echoBytes m }

/-- The opcodes of the index (R91). -/
def opcodes : List Nat :=
  [0x0101, 0x0102, 0x0103, 0x0104, 0x0105, 0x0106, 0x0107, 0x0108, 0x0201, 0x0202, 0x0203, 0x0204, 0x0205, 0x0206, 0x0207,
   0x0210, 0x0211, 0x0212, 0x0220, 0x0301, 0x0302, 0x0303, 0x0304, 0x0305, 0x0306, 0x0401, 0x0402, 0x0403, 0x0404, 0x0405]
  ++ [0x0410, 0x0411, 0x0501, 0x0502, 0x0503, 0x0504, 0x0505, 0x0601, 0x0602, 0x0610, 0x0611, 0x0701, 0x0702, 0x0703, 0x0704,
   0x0705, 0x0706, 0x0710, 0x0711, 0x0720, 0x0801, 0x0802, 0x0803, 0x0804, 0x0901, 0x0902, 0x0903, 0x0910, 0x0911]
  ++ [0x0A01, 0x0A02, 0x0A03, 0x0A04, 0x0A05, 0x0B01, 0x0B02, 0x0B03, 0x0B04, 0x0B05, 0x0C01, 0x0C02, 0x0C03, 0x0C04]

/-- A message whose opcode the index does not list completes with BAD_OPCODE (R84); over MCTP it is not in the management subset and completes with NOT_PERMITTED (R86). A listed opcode has a row of its own, so nothing happens. The session is not tested first, an order that the spec leaves open: the model's choice (log entry 94). -/
def execUnknownOpcode (m : Msg) (opcode : BitVec 16) (s : State) : Res :=
  if opcodes.contains opcode.toNat then .next s
  else if canDequeue s m.src then
    .next (finishMsg (dequeue s m.src) m opcode.toNat m.session (.st (match m.src with | .chan _ => 0x200 | .mctp _ _ => 0x203)))
  else .next s

/-- RESET_REQUEST's opcode entry (R671). -/
def opReset : OpSpec := { plainOp 0x0108 2 [(383, 2)] with quar := true }

/-- RESET_REQUEST with TYPE 0, and with the reserved types (R671, R672, R676). A request of TYPE 1 belongs to the other row and does not begin here. -/
def execResetRequestStage (m : Msg) (s : State) : Res :=
  if fld (effPayload m) 1 0 = 1 then .next s
  else
    serve opReset m s fun s x =>
      if 2 ≤ x.f 1 0 then refuse s 0x201
      else if securityBusy s then .hold s (heldOf 0x0108 m 0)
      else actStageReset s

/-- RESET_REQUEST with TYPE 1: it completes first, and the reset falls due (R671, R676). -/
def execResetRequestDevice (m : Msg) (s : State) : Res :=
  if fld (effPayload m) 1 0 = 1 then
    serve opReset m s fun s _ =>
      if s.hot then refuse s 0x203
      else .done { s with boot := { s.boot with resetDue := true } } .ok
  else .next s

end Sys2Proof.Machine
end

