-- ==== Sys2Proof/Machine/Dispatch.lean ====
section
/-! DEFINITION. The effect of one command: one arm per constructor of `Instr`, each a direct call of its meaning. -/

namespace Sys2Proof.Machine

def exec (i : Instr) (s : State) : Host.Outcome State Fault Refusal :=
  match i with
  -- Sessions and channels (spec 02)
  | .openSession m handle => Sys2Proof.Machine.execOpenSession m handle s
  | .closeSession m => Sys2Proof.Machine.execCloseSession m s
  | .attachChannel m => Sys2Proof.Machine.execAttachChannel m s
  | .detachChannel m => Sys2Proof.Machine.execDetachChannel m s
  | .getDeviceInfo m => Sys2Proof.Machine.execGetDeviceInfo m s
  | .getCapabilities m => Sys2Proof.Machine.execGetCapabilities m s
  | .echo m => Sys2Proof.Machine.execEcho m s
  | .unknownOpcode m opcode => Sys2Proof.Machine.execUnknownOpcode m opcode s
  | .resetRequestStage m => Sys2Proof.Machine.execResetRequestStage m s
  | .resetRequestDevice m => Sys2Proof.Machine.execResetRequestDevice m s
  -- Scratchpad (spec 07)
  | .setRegion m => Sys2Proof.Machine.execSetRegion m s
  | .setCircular m => Sys2Proof.Machine.execSetCircular m s
  | .openWindow m => Sys2Proof.Machine.execOpenWindow m s
  | .closeWindow m => Sys2Proof.Machine.execCloseWindow m s
  | .setCounter m => Sys2Proof.Machine.execSetCounter m s
  | .setConflictPolicy m => Sys2Proof.Machine.execSetConflictPolicy m s
  | .setSegmentPower m => Sys2Proof.Machine.execSetSegmentPower m s
  | .segmentZeroed core segment => Sys2Proof.Machine.execSegmentZeroed core segment s
  -- External memory (spec 08, 15)
  | .reserveStore m => Sys2Proof.Machine.execReserveStore m s
  | .setSaveMode m => Sys2Proof.Machine.execSetSaveMode m s
  | .getHbmState m => Sys2Proof.Machine.execGetHbmState m s
  | .setHostWindow m => Sys2Proof.Machine.execSetHostWindow m s
  -- Stage and micro-batch queues (spec 03)
  | .setStageIdentity m => Sys2Proof.Machine.execSetStageIdentity m s
  | .setStageAddress m => Sys2Proof.Machine.execSetStageAddress m s
  | .configureQueue m => Sys2Proof.Machine.execConfigureQueue m s
  | .configureSlot m => Sys2Proof.Machine.execConfigureSlot m s
  | .resetSlots m => Sys2Proof.Machine.execResetSlots m s
  | .getQueueState m => Sys2Proof.Machine.execGetQueueState m s
  -- Rings and admission (spec 03)
  | .createRing m => Sys2Proof.Machine.execCreateRing m s
  | .submitBlock m => Sys2Proof.Machine.execSubmitBlock m s
  | .abortQueue m abortStarted => Sys2Proof.Machine.execAbortQueue m abortStarted s
  | .setCompletionRing m => Sys2Proof.Machine.execSetCompletionRing m s
  | .getRingState m => Sys2Proof.Machine.execGetRingState m s
  -- Tables and held messages (spec 06, 02)
  | .loadMicroprogram m => Sys2Proof.Machine.execLoadMicroprogram m s
  | .loadTable m => Sys2Proof.Machine.execLoadTable m s
  | .heldMessageApply src => Sys2Proof.Machine.execHeldMessageApply src s
  | .longRunningLimit src => Sys2Proof.Machine.execLongRunningLimit src s
  -- Tarn messages (spec 10)
  | .createIndex m => Sys2Proof.Machine.execCreateIndex m s
  | .destroyIndex m => Sys2Proof.Machine.execDestroyIndex m s
  | .setReaderFloor m => Sys2Proof.Machine.execSetReaderFloor m s
  | .startRewrite m => Sys2Proof.Machine.execStartRewrite m s
  | .getIndexState m => Sys2Proof.Machine.execGetIndexState m s
  -- Update unit and buckets (spec 09, 14)
  | .configureOptimizer m => Sys2Proof.Machine.execConfigureOptimizer m s
  | .setHyperparameters m => Sys2Proof.Machine.execSetHyperparameters m s
  | .createBucket m => Sys2Proof.Machine.execCreateBucket m s
  | .setGroup m => Sys2Proof.Machine.execSetGroup m s
  -- Fabric (spec 13)
  | .setCoordinates m => Sys2Proof.Machine.execSetCoordinates m s
  | .setWiringMap m => Sys2Proof.Machine.execSetWiringMap m s
  | .setWiringPolicy m => Sys2Proof.Machine.execSetWiringPolicy m s
  | .setProfilePolicy m => Sys2Proof.Machine.execSetProfilePolicy m s
  | .setEndpoint m => Sys2Proof.Machine.execSetEndpoint m s
  | .removeEndpoint m => Sys2Proof.Machine.execRemoveEndpoint m s
  -- Ports (spec 12)
  | .trainPortTrain m => Sys2Proof.Machine.execTrainPortTrain m s
  | .trainPortDisable m => Sys2Proof.Machine.execTrainPortDisable m s
  | .trainPortRetrain m => Sys2Proof.Machine.execTrainPortRetrain m s
  | .getPortState m => Sys2Proof.Machine.execGetPortState m s
  -- Ethernet (spec 15)
  | .setPort m => Sys2Proof.Machine.execSetPort m s
  | .connect m => Sys2Proof.Machine.execConnect m s
  | .disconnect m => Sys2Proof.Machine.execDisconnect m s
  | .setPtp m => Sys2Proof.Machine.execSetPtp m s
  | .getStatus m => Sys2Proof.Machine.execGetStatus m s
  -- Time (spec 13)
  | .setTimeMode m => Sys2Proof.Machine.execSetTimeMode m s
  | .getTime m => Sys2Proof.Machine.execGetTime m s
  | .scheduleEdge m => Sys2Proof.Machine.execScheduleEdge m s
  | .cancelEdge m => Sys2Proof.Machine.execCancelEdge m s
  -- Errors and telemetry (spec 17, 16)
  | .readErrorLog m => Sys2Proof.Machine.execReadErrorLog m s
  | .clearError m => Sys2Proof.Machine.execClearError m s
  | .getLastGasp m => Sys2Proof.Machine.execGetLastGasp m s
  | .readTelemetry m => Sys2Proof.Machine.execReadTelemetry m s
  | .setTelemetryRate m => Sys2Proof.Machine.execSetTelemetryRate m s
  -- Security (spec 18)
  | .getSecurityState m => Sys2Proof.Machine.execGetSecurityState m s
  | .debugChallenge m nonce => Sys2Proof.Machine.execDebugChallenge m nonce s
  | .debugUnlock m => Sys2Proof.Machine.execDebugUnlock m s
  | .firmwareUpdate m => Sys2Proof.Machine.execFirmwareUpdate m s
  | .advanceRollback m => Sys2Proof.Machine.execAdvanceRollback m s
  -- Replay and checkpoints (spec 11)
  | .setReplayLog m => Sys2Proof.Machine.execSetReplayLog m s
  | .replayStep m => Sys2Proof.Machine.execReplayStep m s
  | .checkpointOut m => Sys2Proof.Machine.execCheckpointOut m s
  | .checkpointIn m => Sys2Proof.Machine.execCheckpointIn m s
  | .adoptStage m => Sys2Proof.Machine.execAdoptStage m s
  -- Power messages (spec 19)
  | .setPowerState m => Sys2Proof.Machine.execSetPowerState m s
  | .setClockLimits m => Sys2Proof.Machine.execSetClockLimits m s
  | .setRipple m => Sys2Proof.Machine.execSetRipple m s
  | .getPower m => Sys2Proof.Machine.execGetPower m s
  -- SPDM (spec 18)
  | .getVersion r => Sys2Proof.Machine.execGetVersion r s
  | .spdmGetCapabilities r => Sys2Proof.Machine.execSpdmGetCapabilities r s
  | .negotiateAlgorithms r => Sys2Proof.Machine.execNegotiateAlgorithms r s
  | .getDigests r => Sys2Proof.Machine.execGetDigests r s
  | .getCertificate r => Sys2Proof.Machine.execGetCertificate r s
  | .challenge r => Sys2Proof.Machine.execChallenge r s
  | .getMeasurements r => Sys2Proof.Machine.execGetMeasurements r s
  -- Stream commands: the queue's next command starts (spec 03, 05 to 10, 14)
  | .nop core queue => Sys2Proof.Machine.execNop core queue s
  | .wait core queue => Sys2Proof.Machine.execWait core queue s
  | .signal core queue => Sys2Proof.Machine.execSignal core queue s
  | .waitSlot core queue => Sys2Proof.Machine.execWaitSlot core queue s
  | .releaseSlot core queue => Sys2Proof.Machine.execReleaseSlot core queue s
  | .sendSlot core queue port => Sys2Proof.Machine.execSendSlot core queue port s
  | .matmul core queue upsets late => Sys2Proof.Machine.execMatmul core queue upsets late s
  | .conv core queue upsets late => Sys2Proof.Machine.execConv core queue upsets late s
  | .eltwise core queue upsets late => Sys2Proof.Machine.execEltwise core queue upsets late s
  | .vecElem core queue => Sys2Proof.Machine.execVecElem core queue s
  | .vecFunc core queue => Sys2Proof.Machine.execVecFunc core queue s
  | .vecRowstat core queue => Sys2Proof.Machine.execVecRowstat core queue s
  | .vecSoftmax core queue => Sys2Proof.Machine.execVecSoftmax core queue s
  | .vecNorm core queue => Sys2Proof.Machine.execVecNorm core queue s
  | .copy core queue port => Sys2Proof.Machine.execCopy core queue port s
  | .remoteWrite core queue port => Sys2Proof.Machine.execRemoteWrite core queue port s
  | .remoteRead core queue port => Sys2Proof.Machine.execRemoteRead core queue port s
  | .tag core queue => Sys2Proof.Machine.execTag core queue s
  | .saveOpen core queue => Sys2Proof.Machine.execSaveOpen core queue s
  | .saveCopy core queue => Sys2Proof.Machine.execSaveCopy core queue s
  | .saveClose core queue => Sys2Proof.Machine.execSaveClose core queue s
  | .restore core queue => Sys2Proof.Machine.execRestore core queue s
  | .tarnQuery core queue => Sys2Proof.Machine.execTarnQuery core queue s
  | .tarnInsert core queue => Sys2Proof.Machine.execTarnInsert core queue s
  | .tarnDelete core queue first => Sys2Proof.Machine.execTarnDelete core queue first s
  | .epochPublish core queue => Sys2Proof.Machine.execEpochPublish core queue s
  | .bucketAdd core queue first => Sys2Proof.Machine.execBucketAdd core queue first s
  | .bucketFlush core queue port => Sys2Proof.Machine.execBucketFlush core queue port s
  | .update core queue first => Sys2Proof.Machine.execUpdate core queue first s
  | .commandComplete core queue id port => Sys2Proof.Machine.execCommandComplete core queue id port s
  | .waitTimeout core queue id => Sys2Proof.Machine.execWaitTimeout core queue id s
  | .consumerHeadUpdate core queue head => Sys2Proof.Machine.execConsumerHeadUpdate core queue head s
  | .rampDown core array ends => Sys2Proof.Machine.execRampDown core array ends s
  | .rampGrant => Sys2Proof.Machine.execRampGrant s
  | .rendezvousTimeout index => Sys2Proof.Machine.execRendezvousTimeout index s
  | .batchRun index port => Sys2Proof.Machine.execBatchRun index port s
  -- Mailbox registers and timers (spec 02, 21)
  | .mbxDoorbell chan value => Sys2Proof.Machine.execMbxDoorbell chan value s
  | .channelReset chan => Sys2Proof.Machine.execChannelReset chan s
  | .enable chan on => Sys2Proof.Machine.execEnable chan on s
  | .mbxCplHead chan value => Sys2Proof.Machine.execMbxCplHead chan value s
  | .moderationTimer chan => Sys2Proof.Machine.execModerationTimer chan s
  | .sessionLeaseExpiry handle => Sys2Proof.Machine.execSessionLeaseExpiry handle s
  | .bootGo value => Sys2Proof.Machine.execBootGo value s
  | .resetCtl value => Sys2Proof.Machine.execResetCtl value s
  | .fwIrqStatus value => Sys2Proof.Machine.execFwIrqStatus value s
  | .spadConflictClr core value => Sys2Proof.Machine.execSpadConflictClr core value s
  | .registerWrite bar offset size value poison => Sys2Proof.Machine.execRegisterWrite bar offset size value poison s
  -- Host window (spec 15)
  | .bar2Read offset len => Sys2Proof.Machine.execBar2Read offset len s
  | .bar2Write offset data poison => Sys2Proof.Machine.execBar2Write offset data poison s
  | .memRd line mv => Sys2Proof.Machine.execMemRd line mv s
  | .memRdData line mv => Sys2Proof.Machine.execMemRdData line mv s
  | .memInv line => Sys2Proof.Machine.execMemInv line s
  | .memClnEvct line => Sys2Proof.Machine.execMemClnEvct line s
  | .memWr line mv data poison => Sys2Proof.Machine.execMemWr line mv data poison s
  | .memWrPtl line mv data byteEnable poison => Sys2Proof.Machine.execMemWrPtl line mv data byteEnable poison s
  | .biRsp line rsp => Sys2Proof.Machine.execBiRsp line rsp s
  | .biConflict line => Sys2Proof.Machine.execBiConflict line s
  | .snoopTimeout line => Sys2Proof.Machine.execSnoopTimeout line s
  | .hostLinkReset cause => Sys2Proof.Machine.execHostLinkReset cause s
  -- Link frames (spec 12, 13)
  | .linkCtl port f => Sys2Proof.Machine.execLinkCtl port f s
  | .hello port h l => Sys2Proof.Machine.execHello port h l s
  | .write via f => Sys2Proof.Machine.execWrite via f s
  | .read via f => Sys2Proof.Machine.execRead via f s
  | .slotWrite via f => Sys2Proof.Machine.execSlotWrite via f s
  | .readData via f => Sys2Proof.Machine.execReadData via f s
  | .writeAck via f => Sys2Proof.Machine.execWriteAck via f s
  | .slotCredit via f => Sys2Proof.Machine.execSlotCredit via f s
  | .time port t l => Sys2Proof.Machine.execTime port t l s
  | .retrainSync port sessionId ack => Sys2Proof.Machine.execRetrainSync port sessionId ack s
  | .frameDrop port => Sys2Proof.Machine.execFrameDrop port s
  | .laneLock port sessionId => Sys2Proof.Machine.execLaneLock port sessionId s
  | .laneUnlock port lane => Sys2Proof.Machine.execLaneUnlock port lane s
  | .trainingAttemptTimeout port => Sys2Proof.Machine.execTrainingAttemptTimeout port s
  | .reequalizationTimeout port => Sys2Proof.Machine.execReequalizationTimeout port s
  | .replayRequestRepeat port => Sys2Proof.Machine.execReplayRequestRepeat port s
  | .linkLostTimer port => Sys2Proof.Machine.execLinkLostTimer port s
  | .responseTimer port => Sys2Proof.Machine.execResponseTimer port s
  | .endpointWaitTimeout core queue id => Sys2Proof.Machine.execEndpointWaitTimeout core queue id s
  | .timeFrameTx port => Sys2Proof.Machine.execTimeFrameTx port s
  | .v1CreditHold queue => Sys2Proof.Machine.execV1CreditHold queue s
  -- Ethernet events (spec 15)
  | .cnp conn spill => Sys2Proof.Machine.execCnp conn spill s
  | .rateRecovery conn spill => Sys2Proof.Machine.execRateRecovery conn spill s
  | .pfcPause port priority on => Sys2Proof.Machine.execPfcPause port priority on s
  | .rdmaInbound conn => Sys2Proof.Machine.execRdmaInbound conn s
  | .ethernetOtherFrame port => Sys2Proof.Machine.execEthernetOtherFrame port s
  | .rcRetransmit conn => Sys2Proof.Machine.execRcRetransmit conn s
  | .connectionError conn => Sys2Proof.Machine.execConnectionError conn s
  | .ptpMessage port p => Sys2Proof.Machine.execPtpMessage port p s
  -- Time events (spec 13, 20)
  | .ppsEdge => Sys2Proof.Machine.execPpsEdge s
  | .referenceValid => Sys2Proof.Machine.execReferenceValid s
  | .referenceLost => Sys2Proof.Machine.execReferenceLost s
  | .edgeFire edge => Sys2Proof.Machine.execEdgeFire edge s
  -- Memory, error and reset events (spec 08, 17, 19)
  | .patrolScrub => Sys2Proof.Machine.execPatrolScrub s
  | .hbmChannelFailure channel => Sys2Proof.Machine.execHbmChannelFailure channel s
  | .errorEventHandle detected => Sys2Proof.Machine.execErrorEventHandle detected s
  | .watchdogTrip cause hart hartState handling => Sys2Proof.Machine.execWatchdogTrip cause hart hartState handling s
  | .itkanStart => Sys2Proof.Machine.execItkanStart s
  | .imageCheck image => Sys2Proof.Machine.execImageCheck image s
  | .fuseSense => Sys2Proof.Machine.execFuseSense s
  | .hbmTrainingDone failed => Sys2Proof.Machine.execHbmTrainingDone failed s
  | .hbmZeroingDone => Sys2Proof.Machine.execHbmZeroingDone s
  | .powerOn => Sys2Proof.Machine.execPowerOn s
  | .pwrgoodFall => Sys2Proof.Machine.execPwrgoodFall s
  | .deviceReset => Sys2Proof.Machine.execDeviceReset s
  | .powerManagerTick powerLimit hold avsAcked => Sys2Proof.Machine.execPowerManagerTick powerLimit hold avsAcked s
  | .avsRetry acked => Sys2Proof.Machine.execAvsRetry acked s
  | .telemetrySample avgW peakW energy temps limiter => Sys2Proof.Machine.execTelemetrySample avgW peakW energy temps limiter s
  | .telemetrySnapshot => Sys2Proof.Machine.execTelemetrySnapshot s
  | .thermalThrottle sensor temp => Sys2Proof.Machine.execThermalThrottle sensor temp s
  | .thermalCritical sensor temp => Sys2Proof.Machine.execThermalCritical sensor temp s
  | .thermalTrip sensor temp => Sys2Proof.Machine.execThermalTrip sensor temp s
  | .nonceExpiry => Sys2Proof.Machine.execNonceExpiry s
  | .jtagAccess kind => Sys2Proof.Machine.execJtagAccess kind s
  | .ethernetLinkUp port => Sys2Proof.Machine.execEthernetLinkUp port s
  | .ethernetLinkDown port => Sys2Proof.Machine.execEthernetLinkDown port s
  | .pcieLinkTrained width gts => Sys2Proof.Machine.execPcieLinkTrained width gts s
  | .hdmDecoderCommit base size ways => Sys2Proof.Machine.execHdmDecoderCommit base size ways s
  | .fetchError chan => Sys2Proof.Machine.execFetchError chan s
  | .roceAck conn kind => Sys2Proof.Machine.execRoceAck conn kind s
  | .rdmaReadResponse conn data => Sys2Proof.Machine.execRdmaReadResponse conn data s
  | .refreshThreshold stack temp => Sys2Proof.Machine.execRefreshThreshold stack temp s
  | .rewriteComplete index list => Sys2Proof.Machine.execRewriteComplete index list s
  | .digestWritten => Sys2Proof.Machine.execDigestWritten s
  | .fuseBlown readsBlown => Sys2Proof.Machine.execFuseBlown readsBlown s

end Sys2Proof.Machine
end

