-- ==== Sys2Proof/Machine/RegisterRead.lean ====
section
/-! DEFINITION. What a read of a BAR0 or BAR4 register returns (R21, R22, R24, R53, R722 to R728, R731 to R737), and the layout of the control SRAM (R50). A read changes no state, so the table gives it no row (log entry 88). -/

namespace Sys2Proof.Machine

/-- A Boolean as bit `i` of a word. -/
def flagBit (b : Bool) (i : Nat) : Nat := if b then 2 ^ i else 0

/-- One half of a 64-bit register: a 4-byte read returns it as the register stands at that read (R724). -/
def half (x : BitVec 64) (hi : Bool) : BitVec 32 := if hi then fb x 32 32 else fb x 0 32

/-- DEVICE_ID: generation, stepping and part number (R24). -/
def deviceId : BitVec 32 := 0x03B13384

/-- FW_STATUS (R727): BOOT_REASON reads 0 outside BOOT_FAILED. -/
def fwStatus (s : State) : BitVec 32 :=
  BitVec.ofNat 32 (s.boot.fwStage.toNat + flagBit s.boot.quarantined 8 + flagBit s.power.thermtrip 9 + flagBit s.err.alert 10
    + (if s.boot.fwStage = 7 then s.boot.reason.toNat * 2 ^ 16 else 0))

/-- FUSE_STATUS (R734): every field derived from the bank reads 0 until the bank is sensed (R24, R726). -/
def fuseStatus (s : State) : BitVec 32 :=
  if s.sec.sensed then
    BitVec.ofNat 32 (debugLevel s.sec.bank + flagBit s.debugOpen 2 + s.sec.mirrorCount * 2 ^ 8 + flagBit (s.sec.bank.ownerKeyHash != 0) 16
      + flagBit (s.sec.bank.debugPwHash != 0) 17 + flagBit (s.sec.bank.debugKeyHash != 0) 18 + flagBit s.sec.fuseError 19 + 2 ^ 20)
  else 0

/-- FUSE_SERIAL: 0 until the bank is sensed (R24, R726). -/
def fuseSerial (s : State) : BitVec 64 := if s.sec.sensed then s.sec.bank.serial else 0

/-- One word of the MSI-X table. -/
def msixWord (s : State) (i w : Nat) : BitVec 32 :=
  match w with
  | 0 => half (tget 0 s.irq.msixAddr i) false
  | 1 => half (tget 0 s.irq.msixAddr i) true
  | 2 => tget 0 s.irq.msixData i
  | _ => tget 1 s.irq.msixCtl i

/-- The 32-bit word at an aligned offset of BAR0. Write-only registers, reserved bits and reserved offsets read zero (R21, R22, R722). -/
def readBar0 (s : State) (o : Nat) : BitVec 32 :=
  if o = 0x00 then deviceId
  else if o = 0x04 then fwStatus s
  else if o = 0x08 then s.boot.fwInstance
  else if o = 0x10 ∨ o = 0x14 then half s.boot.bootAddr (o == 0x14)
  else if o = 0x20 ∨ o = 0x24 then half s.clock.gtc (o == 0x24)
  else if o = 0x28 then BitVec.ofNat 32 (flagBit s.irq.enable 15 + s.irq.vector.toNat * 2 ^ 8)
  else if o = 0x2C then BitVec.ofNat 32 s.irq.status.toNat
  else if o = 0x2000 then BitVec.ofNat 32 (lgStatus s.err)
  else if o = 0x2004 then s.err.tripCount
  else if o = 0x3000 then fuseStatus s
  else if o = 0x3008 ∨ o = 0x300C then half (fuseSerial s) (o == 0x300C)
  else if o = 0x4000 then s.telem.power
  else if o = 0x4004 then s.telem.clock
  else if o = 0x4008 then s.telem.temp
  else if 0x10000 ≤ o ∧ o < 0x50000 then (if o % 0x1000 = 0 then BitVec.ofNat 32 (s.chan ((o - 0x10000) / 0x1000)).doorbell.toNat else 0)
  else if 0x100000 ≤ o ∧ o < 0x100400 then msixWord s ((o - 0x100000) / 16) (o % 16 / 4)
  else if o = 0x101000 ∨ o = 0x101004 then half s.irq.pba (o == 0x101004)
  else if 0x200000 ≤ o ∧ o < 0x200180 then
    (let k := s.core ((o - 0x200000) / 16)
     if o % 16 = 0 then k.conflictCount else if o % 16 = 4 then k.conflictCapture else 0)
  else if 0x300000 ≤ o ∧ o < 0x300760 then half (tget 0 s.telem.lim ((o - 0x300000) / 8)) (o % 8 == 4)
  else 0

/-- MBX_STATUS (R53). -/
def mbxStatus (c : Channel) : BitVec 32 := BitVec.ofNat 32 (c.state.toNat + c.reason.toNat * 2 ^ 8 + flagBit (c.session != 0) 16)

/-- The 32-bit word at an aligned offset of BAR4 (R53). -/
def readBar4 (s : State) (o : Nat) : BitVec 32 :=
  let c := s.chan (o / 0x1000)
  let r := o % 0x1000
  if r = 0x00 ∨ r = 0x04 then half c.reqBase (r == 0x04)
  else if r = 0x08 ∨ r = 0x0C then half c.cplBase (r == 0x0C)
  else if r = 0x10 then BitVec.ofNat 32 (flagBit c.enabled 0 + c.vector.toNat * 2 ^ 8 + flagBit c.irqEnable 15)
  else if r = 0x14 then mbxStatus c
  else if r = 0x18 then BitVec.ofNat 32 c.reqHead.toNat
  else if r = 0x1C then BitVec.ofNat 32 c.cplTail.toNat
  else if r = 0x20 then BitVec.ofNat 32 c.cplHead.toNat
  else if r = 0x24 then c.moderation
  else 0

/-- One 32-bit word of a BAR. -/
def regWord (bar : Bar) (s : State) (o : Nat) : BitVec 32 := match bar with
  | .bar0 => readBar0 s o
  | .bar4 => readBar4 s o
  | .config => readConfig s o

/-- What a register read returns, all of it from one state; none is Unsupported Request, for another size or alignment, or a link that carries nothing (R551, R723, R724, R726). Eight bytes are the word at the lower offset and then the next. -/
def readRegister (s : State) (bar : Bar) (offset size : Nat) : Option (BitVec 64) :=
  if !s.hostOpen then none
  else if size = 4 ∧ offset % 4 = 0 then some ((0 : BitVec 32) ++ regWord bar s offset)
  else if size = 8 ∧ offset % 8 = 0 then some (regWord bar s (offset + 4) ++ regWord bar s offset)
  else none

/-- The regions of the control SRAM (R50). -/
inductive SramRegion where
  | code | data | admission | errorLog | lastGasp | reserved
  deriving DecidableEq, Repr

/-- Where a region of the control SRAM begins and how many bytes it has, in the order of the table (R50). -/
def sramLayout : List (SramRegion × Nat × Nat) :=
  [(.code, 0, 0x100000), (.data, 0x100000, 0xE0000), (.admission, 0x1E0000, 0x18000), (.errorLog, 0x1F8000, 0x4000), (.lastGasp, 0x1FC000, 0x1000),
   (.reserved, 0x1FD000, 0x3000)]

/-- A byte of the control SRAM: the image in its code region, the error log ring's records, the last-gasp header and slots, and what no rule gives a content elsewhere (R50, R613, R626, R679). -/
def sramByte (s : State) (a : Nat) : Byte :=
  let slot (l : Option LgSlot) : List Byte := match l with | none => List.replicate 960 0 | some x => lgBytes x
  if a < 0x100000 then (imageBytes s).getD a 0
  else if 0x1F8000 ≤ a ∧ a < 0x1FC000 then (s.err.ring.flatMap errBytes).getD (a - 0x1F8000) 0
  else if 0x1FC000 ≤ a ∧ a < 0x1FD000 then (lgHeader s.err ++ slot s.err.lgFirst ++ slot s.err.lgLatest).getD (a - 0x1FC000) 0
  else tget 0 s.boot.sram a

end Sys2Proof.Machine
end

