-- ==== Sys2Proof/Safety.lean ====
section
/-! DEFINITION. The terms of the claims: what counts as a safe state (canonical memories, a legal boot stage, error stores within their bounds), and when a message or a stream command begins. -/

namespace Sys2Proof.Machine

/-- Every table of bytes and marks of the external memory is canonical. -/
def Hbm.wf (h : Hbm) : Bool := tblWf 0 h.mem && tblWf false h.poison && tblWf false h.weak && tblWf false h.broken && tblWf 0 h.corrected

/-- A core's memory tables are canonical. -/
def Core.wf (k : Core) : Bool := tblWf 0 k.spad && tblWf false k.badWords && tblWf false k.tags && tblWf 0 k.events

/-- The memories of the device are canonical: equal memories are equal data. -/
def Memory.wf (s : State) : Bool := s.hbm.wf && tblWf Core.init s.cores && s.cores.all fun e => e.2.wf

/-- FW_STAGE holds a value that the spec lists (R678). -/
def stageOk (s : State) : Bool := decide (s.boot.fwStage.toNat ≤ 8)

/-- No event queue holds more than 64 records (R621). -/
def eventQueuesOk (s : State) : Bool := (List.range 4).all fun i => decide ((tget [] s.err.queues i).length ≤ 64)

/-- The error ring holds at most 256 records (R613). -/
def ringOk (s : State) : Bool := decide (s.err.ring.length ≤ 256)

/-- A safe state: canonical memories, a listed boot stage, and error stores within their bounds. -/
def Safe (s : State) : Prop := Memory.wf s = true ∧ stageOk s = true ∧ eventQueuesOk s = true ∧ ringOk s = true

/-- The state in which a message's handler runs: the request has left its ring. -/
def begun (m : Msg) (s : State) : State := dequeue s m.src

/-- What the handler of a message sees. -/
def view (m : Msg) (s : State) : Ctx := ctxOf (begun m s) m

/-- A message begins and meets none of the refusals of its opcode's entry (R23, R64, R67, R71 to R73, R85, R86, R608). -/
def accepts (o : OpSpec) (m : Msg) (s : State) : Bool := canDequeue s m.src && (refusal (begun m s) o true m).isNone

/-- A message completes on a state with a reply. -/
def replied (m : Msg) (code : Nat) (t : State) (r : Reply) : Res := .next (finishMsg t m code m.session r)

/-- A message stays in progress on a state. -/
def kept (m : Msg) (t : State) (h : Held) : Res := .next (settleMsg m 0 0 (.hold t h))

/-- The next command of a queue is of an operation and starts: R108's conditions hold and its engine accepts it. -/
def starts (op c q : Nat) (s : State) (accept : State → BitVec 512 → Bool) (b : Block) (d : BitVec 512) : Bool :=
  decide (nextCmd (s.queue c q) = some (b, d)) && cmdOp d == op && queueOpen s c q && waitMet (s.core c) d && accept s d

/-- A command as its work begins: it has started, and nothing of it has been performed. -/
def entered (c q : Nat) (s : State) (b : Block) (d : BitVec 512) : Run :=
  let e := { startedOf (s.queue c q) b d with strict := tget false (s.core c).cfg.strict q }
  { s := beginCmd s c q b e, core := c, queue := q, e := e }

/-- A command ends its work with success: it is done, waits for nothing, and its progress is stored in its queue. -/
def stored (r : Run) : Res := .next r.store

/-- Two states agree but for what completing a message touches: the mailbox, what is sent, and the interrupt registers. -/
def onlyReplies (s t : State) : Prop := t = { s with mbx := t.mbx, out := t.out, irq := t.irq }

/-- Every byte of every memory reads the same in two states. -/
def sameBytes (s t : State) : Prop := t.hbm.mem = s.hbm.mem ∧ ∀ c, (t.core c).spad = (s.core c).spad

/-- An address lies outside a run of bytes. -/
def outside (a lo n : Nat) : Bool := decide (a < lo) || decide (lo + n ≤ a)

/-- The byte that a place of the device's memories holds. -/
def byteAt (s : State) : Place → Byte
  | .hbm a => tget 0 s.hbm.mem a
  | .spad c a => tget 0 (s.core c).spad a
  | .nowhere => 0

/-- A place lies outside the `n` bytes from a device address. -/
def apart (p : Place) (a n : Nat) : Bool :=
  match p, placeOf a with
  | .hbm x, .hbm y => outside x y n
  | .spad c x, .spad k y => c != k || outside x y n
  | _, _ => true

/-- A place lies outside `n` bytes of a core's scratchpad, by physical address. -/
def apartOwn (p : Place) (c a n : Nat) : Bool :=
  match p with
  | .spad k x => k != c || outside x a n
  | _ => true

/-- A physical address lies outside the bytes that a local write of `n` bytes at a logical address may store to, in the footprint that begins at `base` (R281). -/
def spareOf (g : CoreCfg) (q base addr n a : Nat) : Bool := let p := xlatPart g q base addr n true; outside a p.2 p.1

/-- What BOOT_GO may change: the boot's stage, reason, image and fetch, and the interrupt that tells of a new stage. -/
def bootGoKeeps (s t : State) : Prop :=
  t = { s with
    boot := { s.boot with fwStage := t.boot.fwStage, reason := t.boot.reason, image := t.boot.image, fetching := t.boot.fetching, startReady := t.boot.startReady }
    irq := { s.irq with status := t.irq.status, pba := t.irq.pba }
    out := t.out }

/-- The commands that store no byte, by their rules: they configure, report, move tags, counters and records, or serve links and timers. -/
def storesNothing : Instr → Bool
  | .openSession _ _ | .closeSession _ | .attachChannel _ | .detachChannel _ | .getDeviceInfo _ | .getCapabilities _ | .echo _ | .unknownOpcode _ _ | .resetRequestDevice _ => true
  | .setRegion _ | .setCircular _ | .openWindow _ | .closeWindow _ | .setCounter _ | .setConflictPolicy _ => true
  | .reserveStore _ | .setSaveMode _ | .getHbmState _ | .setHostWindow _ => true
  | .setStageIdentity _ | .setStageAddress _ | .configureQueue _ | .configureSlot _ | .resetSlots _ | .getQueueState _ => true
  | .createRing _ | .submitBlock _ | .abortQueue _ _ | .setCompletionRing _ | .getRingState _ | .loadMicroprogram _ | .loadTable _ => true
  | .createIndex _ | .destroyIndex _ | .setReaderFloor _ | .startRewrite _ | .getIndexState _ | .configureOptimizer _ | .setHyperparameters _ | .createBucket _ => true
  | .setCoordinates _ | .setWiringMap _ | .setWiringPolicy _ | .setProfilePolicy _ | .setEndpoint _ | .removeEndpoint _ => true
  | .trainPortTrain _ | .trainPortDisable _ | .trainPortRetrain _ | .getPortState _ | .setPort _ | .connect _ | .disconnect _ | .setPtp _ | .getStatus _ => true
  | .setTimeMode _ | .getTime _ | .scheduleEdge _ | .cancelEdge _ | .readErrorLog _ | .clearError _ | .getLastGasp _ | .readTelemetry _ | .setTelemetryRate _ => true
  | .getSecurityState _ | .debugChallenge _ _ | .debugUnlock _ | .firmwareUpdate _ | .advanceRollback _ => true
  | .setPowerState _ | .setClockLimits _ | .setRipple _ | .getPower _ => true
  | .getVersion _ | .spdmGetCapabilities _ | .negotiateAlgorithms _ | .getDigests _ | .getCertificate _ | .challenge _ | .getMeasurements _ => true
  | .nop _ _ | .wait _ _ | .signal _ _ | .waitSlot _ _ | .releaseSlot _ _ | .sendSlot _ _ _ | .tag _ _ | .saveOpen _ _ | .saveClose _ _ | .tarnQuery _ _ | .epochPublish _ _ => true
  | .waitTimeout _ _ _ | .rampDown _ _ _ | .rampGrant | .rendezvousTimeout _ => true
  | .mbxDoorbell _ _ | .channelReset _ | .enable _ _ | .mbxCplHead _ _ | .moderationTimer _ | .sessionLeaseExpiry _ | .bootGo _ | .resetCtl _ | .fwIrqStatus _ | .spadConflictClr _ _ | .registerWrite _ _ _ _ _ => true
  | .bar2Read _ _ | .memRd _ _ | .memRdData _ _ | .memInv _ | .memClnEvct _ | .biConflict _ | .hdmDecoderCommit _ _ _ => true
  | .linkCtl _ _ | .hello _ _ _ | .read _ _ | .time _ _ _ | .retrainSync _ _ _ | .frameDrop _ | .laneLock _ _ | .laneUnlock _ _ | .trainingAttemptTimeout _ | .reequalizationTimeout _ => true
  | .replayRequestRepeat _ | .linkLostTimer _ | .responseTimer _ | .endpointWaitTimeout _ _ _ | .timeFrameTx _ | .v1CreditHold _ => true
  | .cnp _ _ | .rateRecovery _ _ | .pfcPause _ _ _ | .rdmaInbound _ | .ethernetOtherFrame _ | .rcRetransmit _ | .connectionError _ | .ptpMessage _ _ | .ethernetLinkUp _ | .ethernetLinkDown _ => true
  | .ppsEdge | .referenceValid | .referenceLost | .edgeFire _ | .patrolScrub | .hbmChannelFailure _ | .errorEventHandle _ | .watchdogTrip _ _ _ _ => true
  | .itkanStart | .imageCheck _ | .fuseSense | .hbmTrainingDone _ | .powerManagerTick _ _ _ | .avsRetry _ | .telemetrySample _ _ _ _ _ => true
  | .thermalThrottle _ _ | .thermalCritical _ _ | .thermalTrip _ _ | .refreshThreshold _ _ | .nonceExpiry | .jtagAccess _ | .pcieLinkTrained _ _ | .fetchError _ => true
  | _ => false

/-- The commands that release a quarantine: the resets that reach the stage logic (R608). -/
def releases : Instr → Bool
  | .resetRequestStage _ | .powerOn | .pwrgoodFall | .deviceReset | .fuseBlown _ => true
  | _ => false

end Sys2Proof.Machine
end

