-- ==== Sys2Proof/Certificates/Slice0/Obligations.lean ====
section
/-! DEFINITION. The obligations: what the commands do, as the spec's rules state it, for the provers. Where a statement speaks of a message, `begun m s` is the state its handler runs in and `view m s` what it sees; where it speaks of a stream command, `entered` is the command as its work begins. -/

open Sys2Proof Sys2Proof.Machine

/-- A step takes the command at the front of the queue and runs it with the queue's rest. -/
def Obligations.StepRunsFrontCommand : Prop :=
  ∀ (c : Instr) (rest : List Instr) (s : State), step { s with pending := c :: rest } = exec c { s with pending := rest }

/-- On an empty queue one nanosecond passes: the GTC ticks while its clock runs, by one nanosecond where it does not slew, and a power hold runs down; in INIT, Itkan's work ends, and HBM training follows where the boot needs it, else READY with the latched doorbells evaluated; while the host has no held request, nothing else happens. The tick itself, and what a slewing tick counts, are the model's choice (log entries 1, 25). -/
def Obligations.EmptyQueueOnlyPassesTime : Prop :=
  (∀ t : TimeState, t.slew = 0 → t.tick = { t with gtc := t.gtc + 1, slewWait := 0 })
  ∧ ∀ s : State, s.pending = [] → s.host.waiting = [] →
    let t : State := { s with
      clock := if s.boot.pwrgood && !s.power.thermtrip then s.clock.tick else s.clock
      power := { s.power with holdLeft := s.power.holdLeft - 1 } }
    (s.boot.fwStage ≠ 3 → step s = .next t)
    ∧ (s.boot.fwStage = 3 → s.boot.needTrain = true → step s = .next (t.setFwStage 4))
    ∧ (s.boot.fwStage = 3 → s.boot.needTrain = false → step s = .next ((List.range 64).foldl evalDoorbell (t.setFwStage 6)))

/-- The state after reset is safe. -/
def Obligations.ResetStateIsSafe : Prop := Safe State.reset

/-- What the spec's reset rules give the state after reset, and what its registers then read as. -/
def Obligations.ResetLeavesTheStatedValues : Prop :=
  let s := State.reset
  s.pending = [] ∧ s.boot.fwStage = 0 ∧ s.boot.quarantined = false ∧ s.err.ring = [] ∧ s.err.overflow = 0 ∧ s.err.alert = false
    ∧ (∀ c q, (s.queue c q).armed = [] ∧ (s.queue c q).started = [] ∧ (s.queue c q).retiredSeq = 0xFFFFFFFF ∧ (s.queue c q).cpl = none)
    ∧ (∀ c i, tget 0 (s.core c).events i = 0)
    ∧ (∀ c a, tget 0 (s.core c).spad a = 0 ∧ tget false (s.core c).tags a = false)
    ∧ (∀ c i, tget ArrayState.init (s.core c).arrays i = { cmds := [], gated := 0xF, rampUp := false, rampDown := false })
    ∧ (∀ c st, tget StreamMode.init (s.core c).cfg.streams st = { coding := 0, view := 0 })
    ∧ (∀ c i, tget Micro.init (s.core c).micros i = { consts := List.replicate 16 0, steps := [0] })
    ∧ (∀ c i, tget FnTable.init (s.core c).tables i = { xLo := 0, invH := 0x3F800000, quad := false, entries := [] })
    ∧ (∀ q, s.stage.queue q = none) ∧ s.stage.identity = none
    ∧ (∀ n, (s.chan n).state = 0 ∧ (s.chan n).enabled = false)
    ∧ (∀ c, (s.core c).rippleGap = 48) ∧ (∀ c, s.fmin c = 800 ∧ s.fmax c = 1600) ∧ s.power.cap = 1150
    ∧ s.irq.status = 0 ∧ s.irq.enable = false ∧ s.host.window = none ∧ s.host.committed = false
    ∧ readBar0 s 0 = 0x03B13384 ∧ readBar0 s 0x3000 = 0 ∧ readBar0 s 0x3008 = 0 ∧ readBar0 s 0x300C = 0

/-- Session messages take effect: a session opens on its channel, closes, takes and gives up channels; information is returned; the other opcodes complete with BAD_OPCODE. That OPEN_SESSION takes any SESSION in its header, and that an unknown opcode is answered whatever the session, are the model's choice (log entries 92, 94). -/
def Obligations.SessionMessagesTakeEffect : Prop :=
  ∀ (m : Msg) (s : State),
    let u := begun m s
    let x := view m s
    (∀ (n : ChanId) (want : BitVec 32) (rev : BitVec 16), m.src = .chan n → canDequeue s m.src = true → refusal u opOpen false m = none →
      (u.chan n.val).session = 0 → x.f 39 32 ≤ 2 → grantRev (x.f 15 0) (x.f 31 16) = some rev →
      ¬(x.f 39 32 = 2 ∧ u.mbx.sessions.any (fun y => y.privilege == 2) = true) → freshHandle u want ≠ 0 →
      exec (.openSession m want) s = .next (finishMsg
        (({ u with mbx := { u.mbx with
              sessions := u.mbx.sessions ++ [{ handle := freshHandle u want, privilege := BitVec.ofNat 8 (x.f 39 32), rev := rev, clientId := fb x.p 64 64, leaseMs := fb x.p 128 32 }]
              issued := u.mbx.issued ++ [freshHandle u want] } } : State).modChan n.val fun c => { c with session := freshHandle u want })
        m 0x0101 (freshHandle u want)
        (.val 0 (openReply (({ u with mbx := { u.mbx with
              sessions := u.mbx.sessions ++ [{ handle := freshHandle u want, privilege := BitVec.ofNat 8 (x.f 39 32), rev := rev, clientId := fb x.p 64 64, leaseMs := fb x.p 128 32 }]
              issued := u.mbx.issued ++ [freshHandle u want] } } : State).modChan n.val fun c => { c with session := freshHandle u want }) rev (freshHandle u want)))))
    ∧ (accepts { plainOp 0x0102 0 [] with quar := true } m s = true →
        (busyChans u x.session x.chan = 0 → exec (.closeSession m) s = replied m 0x0102 (closeSession u x.session) .ok)
        ∧ (busyChans u x.session x.chan ≠ 0 → exec (.closeSession m) s = kept m u (heldOf 0x0102 m (busyChans u x.session x.chan))))
    ∧ (accepts { plainOp 0x0103 0 [(383, 6)] with quar := true } m s = true → x.f 5 0 ≠ x.chan → (u.chan (x.f 5 0)).state = 1 → (u.chan (x.f 5 0)).session = 0 →
        exec (.attachChannel m) s = replied m 0x0103 (u.modChan (x.f 5 0) fun c => { c with session := x.session }) .ok)
    ∧ (accepts { plainOp 0x0104 0 [(383, 6)] with quar := true } m s = true → x.f 5 0 ≠ x.chan → (u.chan (x.f 5 0)).session = x.session →
        exec (.detachChannel m) s = replied m 0x0104 (u.modChan (x.f 5 0) fun c => { c with session := 0 }) .ok)
    ∧ (accepts (queryOp 0x0105 0 []) m s = true → ∃ v, exec (.getDeviceInfo m) s = replied m 0x0105 u (.val 0 v)
        ∧ fld (BitVec.ofNat 384 v) 31 0 = u.fwVersion.toNat ∧ fld (BitVec.ofNat 384 v) 47 40 = 24 ∧ fld (BitVec.ofNat 384 v) 63 48 = 384
        ∧ fld (BitVec.ofNat 384 v) 127 64 = u.sec.bank.serial.toNat ∧ fld (BitVec.ofNat 384 v) 159 128 = u.boot.fwInstance.toNat ∧ fld (BitVec.ofNat 384 v) 207 160 = u.fabric.coord.toNat)
    ∧ (accepts (queryOp 0x0106 0 []) m s = true → exec (.getCapabilities m) s = replied m 0x0106 u (.val 0 (x.caps.toNat * 2 ^ 128)))
    ∧ (accepts (queryOp 0x0107 0 []) m s = true → exec (.echo m) s = replied m 0x0107 u { status := 0, payload := none, long := echoBytes m })
    ∧ (∀ (n : ChanId) (op : BitVec 16), m.src = .chan n → opcodes.contains op.toNat = false → canDequeue s m.src = true →
        exec (.unknownOpcode m op) s = replied m op.toNat u (.st 0x200))
    ∧ (∀ (path : MgmtPath) (t : Fin 8) (op : BitVec 16), m.src = .mctp path t → opcodes.contains op.toNat = false → canDequeue s m.src = true →
        exec (.unknownOpcode m op) s = replied m op.toNat u (.st 0x203))

/-- RESET_REQUEST and the resets: a STAGE reset is carried out before its request completes, empties the stage logic and keeps the fabric, the clock and the security state, and HBM where no UPDATE runs; a DEVICE reset is requested, and then carried out; power going away and coming back reset everything. -/
def Obligations.ResetsReachTheirDomains : Prop :=
  (∀ (m : Msg) (s : State),
    let u := begun m s
    (accepts opReset m s = true → fld (effPayload m) 1 0 = 0 → u.hbm.failed = 0 → u.hot = false → securityBusy u = false →
        exec (.resetRequestStage m) s = replied m 0x0108 (stageReset (abortHeld u)) .ok)
    ∧ (accepts opReset m s = true → fld (effPayload m) 1 0 = 0 → securityBusy u = true → exec (.resetRequestStage m) s = kept m u (heldOf 0x0108 m 0))
    ∧ (accepts opReset m s = true → fld (effPayload m) 1 0 = 1 → u.hot = false →
        exec (.resetRequestDevice m) s = replied m 0x0108 { u with boot := { u.boot with resetDue := true } } .ok)
    ∧ (s.boot.resetDue = true → s.clocked = true → exec .deviceReset s = .next (fullReset s false))
    ∧ (s.boot.pwrgood = false → exec .powerOn s = .next (fullReset s true))
    ∧ (s.boot.pwrgood = true → exec .pwrgoodFall s = .next { fullReset s true with boot := { (fullReset s true).boot with pwrgood := false } })
    ∧ (∀ powerOn, let t := fullReset s powerOn
        t.cores = [] ∧ t.stage = Stage.init ∧ t.regions = [] ∧ t.mbx = Mailbox.init ∧ t.fabric = Fabric.init ∧ t.host = HostIf.init ∧ t.irq = Irq.init
          ∧ t.boot.fwStage = 0 ∧ t.boot.quarantined = false ∧ t.sec.bank = s.sec.bank ∧ t.sec.rollback = s.sec.rollback ∧ t.sec.debugOpened = false
          ∧ (powerOn = false → t.sec.failures = s.sec.failures ∧ t.boot.bootAddr = s.boot.bootAddr ∧ t.err.lgFirst = s.err.lgFirst ∧ t.err.lgLatest = s.err.lgLatest)
          ∧ (powerOn = true → t.sec.failures = 0 ∧ t.boot.bootAddr = 0 ∧ t.err.lgFirst = none ∧ t.err.lgLatest = none)))
  ∧ (∀ s : State, let t := stageReset s
    t.cores = [] ∧ t.stage = Stage.init ∧ t.regions = [] ∧ t.opt = [] ∧ t.tarn = [] ∧ t.groups = [] ∧ t.buckets = [] ∧ t.boot.quarantined = false
      ∧ t.clock = s.clock ∧ t.sec = s.sec ∧ t.host = s.host ∧ t.power = s.power ∧ t.fabric.endpoints = s.fabric.endpoints
      ∧ ((∀ e ∈ s.allStarted, cmdOp e.2.2.desc = 0x70 → e.2.2.done = true) → t.hbm = s.hbm ∧ t.err = s.err))

/-- Scratchpad messages take effect: base/bound pairs, circular regions, windows, counters, the conflict policy and power segments. That a segment being zeroed is turned off only after its zeroing is the model's choice (log entry 97). -/
def Obligations.ScratchpadMessagesTakeEffect : Prop :=
  ∀ (m : Msg) (s : State),
    let u := begun m s
    let x := view m s
    let c := x.f 4 0
    (accepts (plainOp 0x0201 1 [(383, 120), (95, 88), (63, 57), (31, 18), (15, 14), (11, 10), (7, 5)]) m s = true → regionRefusal u x = none →
      ((u.queue c (x.f 9 8)).started = [] → u.behind (heldOf 0x0201 m 0) = false → exec (.setRegion m) s = replied m 0x0201 (applyRegion u x) .ok)
      ∧ ((u.queue c (x.f 9 8)).started ≠ [] ∨ u.behind (heldOf 0x0201 m 0) = true → exec (.setRegion m) s = kept m (u.modQueue c (x.f 9 8) fun k => { k with hold := true }) (heldOf 0x0201 m 0)))
    ∧ (accepts { plainOp 0x0202 1 [(383, 160), (127, 121), (95, 88), (63, 20), (15, 14), (11, 10), (7, 5)] with high := true } m s = true → c < 24 → circUsed u c (x.f 19 16) = false →
      (x.f 120 96 = 0 → exec (.setCircular m) s = replied m 0x0202 (u.modCfg c fun k => { k with circ := tset none k.circ (x.f 19 16) none }) .ok)
      ∧ (let g : Circ := { queue := x.f 9 8, pair := x.f 13 12, start := x.f 87 64, size := x.f 120 96, entry := x.f 159 128, head := 0, tail := 0, resHead := 0, resTail := 0 }
         g.size ≠ 0 → g.start % 128 = 0 → g.entry ≠ 0 → g.entry % 128 = 0 → g.entry ≤ 1048576 → g.size % g.entry = 0 → circInside g ((u.core c).cfg.pair g.queue g.pair) = true →
         exec (.setCircular m) s = replied m 0x0202 (u.modCfg c fun k => { k with circ := tset none k.circ (x.f 19 16) (some g) }) .ok))
    ∧ (let w := windowOf x
       accepts { plainOp 0x0203 1 [(383, 152), (127, 121), (95, 76), (63, 60), (35, 14), (7, 5)] with high := true } m s = true → c < 24 →
       w.base % 128 = 0 → w.size % 128 = 0 → w.size ≠ 0 → w.base + w.size ≤ 0x1000000 →
       ((u.core c).cfg.windows.any fun e => match e.2 with | none => false | some o => overlaps w.base w.size o.base o.size) = false →
       tget none (u.core c).cfg.windows (x.f 13 8) = none →
       exec (.openWindow m) s = replied m 0x0203 (u.modCfg c fun k => { k with windows := tset none k.windows (x.f 13 8) (some w) }) .ok)
    ∧ (accepts (plainOp 0x0204 1 [(383, 14), (7, 5)]) m s = true → c < 24 → groupNames u c (x.f 13 8) = false →
       exec (.closeWindow m) s = replied m 0x0204 (u.modCfg c fun k => { k with windows := tset none k.windows (x.f 13 8) none }) .ok)
    ∧ (accepts (plainOp 0x0205 1 [(383, 64), (31, 24), (15, 9), (7, 5)]) m s = true → c < 24 → groupCounts u c (x.f 23 16) = false →
       exec (.setCounter m) s = replied m 0x0205 (u.modCore c fun k => k.modCounter (x.f 23 16) fun _ => { value := fb x.p 32 32, overflow := false, messages := bit x.p 8 }) .ok)
    ∧ (accepts (plainOp 0x0206 1 [(383, 17), (15, 10), (7, 5)]) m s = true → c < 24 → (bit x.p 16 = true → x.has capStrict = true) →
       exec (.setConflictPolicy m) s = replied m 0x0206 (u.modCfg c fun k => { k with strict := tset false k.strict (x.f 9 8) (bit x.p 16) }) .ok)
    ∧ (let mask : BitVec 4 := fb x.p 8 4
       accepts (plainOp 0x0207 1 [(383, 17), (15, 12), (7, 5)]) m s = true → c < 24 →
       (u.behind (heldOf 0x0207 m 0) = true → exec (.setSegmentPower m) s = kept m u (heldOf 0x0207 m 0))
       ∧ (u.behind (heldOf 0x0207 m 0) = false →
          (bit x.p 16 = false → segmentsHeld u c mask = false →
            exec (.setSegmentPower m) s = if (u.core c).segZeroing &&& mask = 0 then replied m 0x0207 (segmentsOff u c mask) .ok else kept m u (heldOf 0x0207 m 0))
          ∧ (bit x.p 16 = true → (u.core c).segOff &&& mask = 0 → (u.core c).segZeroing &&& mask = 0 → exec (.setSegmentPower m) s = replied m 0x0207 u .ok)
          ∧ (bit x.p 16 = true → ¬((u.core c).segOff &&& mask = 0 ∧ (u.core c).segZeroing &&& mask = 0) →
            (∃ tags, (∀ n, tget false tags n = if bit ((u.core c).segOff &&& mask) (n / 2048) then false else tget false (u.core c).tags n) ∧
              exec (.setSegmentPower m) s = kept m (u.modCore c fun k => { k with segOff := k.segOff &&& ~~~mask, segZeroing := k.segZeroing ||| (k.segOff &&& mask), tags := tags }) (heldOf 0x0207 m 1)))))
    ∧ (∀ (core : CoreId) (g : Fin 4), bit (s.core core.val).segZeroing g.val = true →
        exec (.segmentZeroed core g) s = .next (finishSegMsgs (s.modCore core.val fun k => { k with segZeroing := k.segZeroing &&& ~~~(1#4 <<< g.val) })))

/-- External-memory messages take effect: store regions, save modes, the HBM state and the host window. -/
def Obligations.MemoryMessagesTakeEffect : Prop :=
  ∀ (m : Msg) (s : State),
    let u := begun m s
    let x := view m s
    (let r := x.f 3 0
     let base := x.f 103 64
     let size := x.f 167 128
     accepts { plainOp 0x0210 1 [(383, 168), (127, 104), (63, 4)] with high := true } m s = true → size % 4096 = 0 → base % 4096 = 0 → regionOpen u r = false →
     (size = 0 → exec (.reserveStore m) s = replied m 0x0210 { u with regions := tset (0, 0) u.regions r (0, 0) } .ok)
     ∧ (size ≠ 0 → inHbm base size = true → hits base size ((u.regions.filter fun e => e.1 != r).map fun e => e.2) = false → hits base size (windowRanges u) = false →
        exec (.reserveStore m) s = replied m 0x0210 { u with regions := tset (0, 0) u.regions r (base, size) } .ok))
    ∧ (accepts (plainOp 0x0211 1 [(383, 20), (15, 11), (7, 5)]) m s = true → x.f 4 0 < 24 → x.f 17 16 ≠ 3 → x.f 19 18 ≠ 3 → (x.f 17 16 = 1 → x.has capNarrow = true) →
        exec (.setSaveMode m) s = replied m 0x0211 (u.modCfg (x.f 4 0) fun k => { k with streams := tset StreamMode.init k.streams (x.f 10 8) { coding := fb x.p 16 2, view := fb x.p 18 2 } }) .ok)
    ∧ (accepts (readOp 0x0212 0 []) m s = true → ∃ v, exec (.getHbmState m) s = replied m 0x0212 u (.val 0 v)
        ∧ fld (BitVec.ofNat 384 v) 287 256 = u.hbm.scrubPasses.toNat ∧ fld (BitVec.ofNat 384 v) 319 288 = u.hbm.uncorrected.toNat
        ∧ (∀ q, q < 8 → fld (BitVec.ofNat 384 v) (32 * q + 31) (32 * q) = (tget 0 u.hbm.corrected q).toNat)
        ∧ (∀ q, q < 8 → (bit (BitVec.ofNat 384 v) (320 + q) = true ↔ fld u.hbm.failed (16 * q + 15) (16 * q) = 0)))
    ∧ (let base := x.f 103 64
       let size := x.f 167 128
       accepts { plainOp 0x0220 2 [(383, 168), (127, 104), (63, 0)] with cap := some capWindow, high := true } m s = true →
       size % 0x10000000 = 0 → size ≤ 0x1000000000 → base % 0x10000000 = 0 → u.host.committed = false →
       (size = 0 → base = 0 → exec (.setHostWindow m) s = replied m 0x0220 { u with host := { u.host with window := none } } .ok)
       ∧ (size ≠ 0 → inHbm base size = true → hits base size (storeRanges u ++ tarnRanges u ++ bucketRanges u ++ replayRanges u) = false →
          exec (.setHostWindow m) s = replied m 0x0220 { u with host := { u.host with window := some (base, size) } } .ok))

/-- Stage messages take effect: identity, stage addresses, micro-batch queues and slots. -/
def Obligations.StageMessagesTakeEffect : Prop :=
  ∀ (m : Msg) (s : State),
    let u := begun m s
    let x := view m s
    (accepts (plainOp 0x0301 1 [(383, 64)]) m s = true → u.anyQueue = false →
      exec (.setStageIdentity m) s = replied m 0x0301 { u with stage := { u.stage with identity := some (fb x.p 32 32, fb x.p 0 32) } } .ok)
    ∧ (accepts (plainOp 0x0302 1 [(383, 73), (31, 28), (15, 2)]) m s = true →
      (bit x.p 1 = true → zeros x.p [(72, 64), (63, 32), (27, 16)] = true →
        exec (.setStageAddress m) s = replied m 0x0302 { u with stage := { u.stage with addr := tset none u.stage.addr (x.f 0 0) none } } .ok)
      ∧ (bit x.p 1 = false → x.f 72 64 ≠ 0 → x.f 72 64 ≤ 256 → u.isSelf (x.f 27 16) = false →
        exec (.setStageAddress m) s = replied m 0x0302
          (State.flushCredits { u with stage := { u.stage with addr := tset none u.stage.addr (x.f 0 0) (some { peerInSlots := x.f 72 64, peerStageId := fb x.p 32 32, endpoint := fb x.p 16 12 }) } }) .ok))
    ∧ (let q := x.f 1 0
       let k := queueOf x
       accepts { plainOp 0x0303 1 [(383, 160), (127, 104), (31, 25), (15, 14), (7, 5)] with high := true } m s = true → allFree u q = true →
       (bit x.p 2 = true → exec (.configureQueue m) s = replied m 0x0303 (clearQueue u q) .ok)
       ∧ (bit x.p 2 = false → k.slots ≠ 0 → k.slots ≤ 256 → k.stride % 128 = 0 → x.f 4 3 ≤ 1 → (k.inSpad = true → k.core < 24) → queueRangeOk k = true →
          exec (.configureQueue m) s = replied m 0x0303 (setQueue u q k) .ok))
    ∧ (∀ k, accepts (plainOp 0x0304 1 [(383, 64), (31, 16), (7, 2)]) m s = true → u.stage.queue (x.f 1 0) = some k → x.f 15 8 < k.slots → (u.stage.slot (x.f 1 0) (x.f 15 8)).state = 0 →
        exec (.configureSlot m) s = replied m 0x0304 { u with stage := u.stage.modSlot (x.f 1 0) (x.f 15 8) fun y => { y with expected := some (fb x.p 32 32) } } .ok)
    ∧ (accepts (plainOp 0x0305 1 [(383, 4)]) m s = true →
        exec (.resetSlots m) s = replied m 0x0305 (((List.range 4).filter fun q => (x.f 3 0).testBit q).foldl resetQueue u) .ok)
    ∧ (∀ k, accepts (readOp 0x0306 0 [(383, 2)]) m s = true → u.stage.queue (x.f 1 0) = some k →
        exec (.getQueueState m) s = replied m 0x0306 u { status := 0, payload := none, long := (List.range k.slots).flatMap (slotRecord u (x.f 1 0)) })

/-- Ring messages take effect: rings are configured, blocks armed, queues aborted and their state reported. That CREATE_RING sets the tail to 0, and which waits GET_RING_STATE reports as WAITING, are the model's reading (log entry 53). -/
def Obligations.RingMessagesTakeEffect : Prop :=
  ∀ (m : Msg) (s : State),
    let u := begun m s
    let x := view m s
    let c := x.f 4 0
    let q := x.f 9 8
    (accepts { plainOp 0x0401 1 [(383, 144), (127, 104), (63, 32), (23, 21), (15, 10), (7, 5)] with high := true } m s = true → ringFieldsOk x = true →
      (u.queue c q).armed = [] → (u.queue c q).cpl ≠ none → otherQuotas u c q + (if x.f 143 128 = 0 then 1024 else x.f 143 128) ≤ 4096 →
      exec (.createRing m) s = replied m 0x0401 (u.modQueue c q fun k => { k with
        ring := some { base := x.f 103 64, log2 := x.f 20 16, waitLimit := if x.f 31 24 = 0 then 24 else x.f 31 24, quota := if x.f 143 128 = 0 then 1024 else x.f 143 128 }
        nextSeq := 0, tail := 0, execIndex := 0, retiredSeq := 0xFFFFFFFF }) .ok)
    ∧ (∀ r, let rd := readEntries u r (x.f 63 32) (x.f 80 64)
        accepts (plainOp 0x0402 1 [(383, 81), (31, 10), (7, 5)]) m s = true → submitRefusal u x = none → (u.queue c q).armed.length < 64 → (u.queue c q).ring = some r →
        ((blockRanges r (x.f 63 32) (x.f 80 64)).flatMap fun p => snoopsFor u p.1 p.2 false) = [] →
        rd.2.1 = none → admitBlock rd.2.2 x.caps c q 0 rd.1 = none →
        exec (.submitBlock m) s = replied m 0x0402 (armBlock rd.2.2 x rd.1) (.val 0 (u.queue c q).nextSeq.toNat))
    ∧ (∀ ids, accepts (plainOp 0x0403 1 [(383, 10), (7, 5)]) m s = true → c < 24 →
        ((abortQueue u c q ids).queue c q).started = [] → exec (.abortQueue m ids) s = replied m 0x0403 (abortQueue u c q ids) (.val 0 (abortPayload (abortInfo (u.queue c q)))))
    ∧ (∀ ids, accepts (plainOp 0x0403 1 [(383, 10), (7, 5)]) m s = true → c < 24 → ((abortQueue u c q ids).queue c q).started ≠ [] →
        exec (.abortQueue m ids) s = kept m (abortQueue u c q ids) (heldOf 0x0403 m (abortPayload (abortInfo (u.queue c q)) + (u.queue c q).nextId * 2 ^ 65)))
    ∧ (accepts { plainOp 0x0404 1 [(383, 168), (127, 104), (63, 31), (23, 21), (15, 10), (7, 5)] with high := true } m s = true → c < 24 → 8 ≤ x.f 20 16 → x.f 20 16 ≤ 20 →
        (x.f 30 24 ≤ 63 ∨ x.f 30 24 = 127) → x.f 103 64 % 4096 = 0 → inHbm (x.f 103 64) (32 * 2 ^ x.f 20 16) = true → x.f 167 128 % 8 = 0 → inHbm (x.f 167 128) 4 = true →
        (u.queue c q).armed = [] →
        exec (.setCompletionRing m) s = replied m 0x0404 (u.modQueue c q fun k => { k with cpl := some { base := x.f 103 64, log2 := x.f 20 16, vector := fb x.p 24 7, headAddr := x.f 167 128, written := 0, head := 0 } }) .ok)
    ∧ (accepts (readOp 0x0405 0 [(383, 10), (7, 5)]) m s = true → c < 24 →
        exec (.getRingState m) s = replied m 0x0405 u (.val 0 (ringState u c q + (u.queue c q).armed.length * 2 ^ 2 + (u.queue c q).tail.toNat * 2 ^ 32
          + (u.queue c q).execIndex.toNat * 2 ^ 64 + (u.queue c q).retiredSeq.toNat * 2 ^ 96 + (u.queue c q).started.length * 2 ^ 128)))

/-- Loads of micro-programs and tables, and the messages in progress: applied where their object is free, held where it is not, applied later, and ended at their limit with BUSY_RETRY. -/
def Obligations.HeldMessagesTakeEffect : Prop :=
  ∀ (m : Msg) (s : State),
    let u := begun m s
    let x := view m s
    (accepts { plainOp 0x0410 1 [(383, 30)] with cap := some capMicro, buf := true } m s = true → m.ptr = true → msgReqLen m = 1088 → microOk m.req = true →
      (loadFree u 0x0410 x.p = true → u.behind (heldOf 0x0410 m 0) = false → exec (.loadMicroprogram m) s = replied m 0x0410 (applyLoad u 0x0410 x.p m.req) .ok)
      ∧ (loadFree u 0x0410 x.p = false ∨ u.behind (heldOf 0x0410 m 0) = true → exec (.loadMicroprogram m) s = kept m u (heldOf 0x0410 m 0)))
    ∧ (accepts { plainOp 0x0411 1 [(383, 96), (31, 29)] with cap := some capTables, buf := true } m s = true → m.ptr = true → msgReqLen m = 16384 →
      ((tableImage m.req).all fun b => leNat (b.drop 12) == 0) = true →
      (loadFree u 0x0411 x.p = true → u.behind (heldOf 0x0411 m 0) = false → exec (.loadTable m) s = replied m 0x0411 (applyLoad u 0x0411 x.p m.req) .ok)
      ∧ (loadFree u 0x0411 x.p = false ∨ u.behind (heldOf 0x0411 m 0) = true → exec (.loadTable m) s = kept m u (heldOf 0x0411 m 0)))
    ∧ (∀ (src : MsgSrc) (h : Held), s.heldBy src = some h →
      (s.behind h = true → exec (.heldMessageApply src) s = .next s)
      ∧ (∀ op, (op = 0x0410 ∨ op = 0x0411) → h.opcode = BitVec.ofNat 16 op → s.behind h = false → loadFree s h.opcode (effPayload h.msg) = true →
        exec (.heldMessageApply src) s = .next (endHeld (applyLoad s h.opcode (effPayload h.msg) h.msg.req) h .ok))
      ∧ (∀ op, (op = 0x0601 ∨ op = 0x0602) → h.opcode = BitVec.ofNat 16 op → s.behind h = false → slotUsed s (fld (effPayload h.msg) 3 0) = false →
        exec (.heldMessageApply src) s = .next (endHeld (applyOpt s h.opcode (effPayload h.msg)) h .ok))
      ∧ (h.opcode = 0x0201 → s.behind h = false → (s.queue (fld (effPayload h.msg) 4 0) (fld (effPayload h.msg) 9 8)).started = [] → regionRefusal (s.unheld src) (ctxOf s h.msg) = none →
        exec (.heldMessageApply src) s = .next (endHeld (applyRegion (s.unheld src) (ctxOf s h.msg)) h .ok))
      ∧ (∀ op, op ∈ [0x0410, 0x0411, 0x0601, 0x0602] → h.opcode = BitVec.ofNat 16 op → exec (.longRunningLimit src) s = .next (endBusy s h))
      ∧ (h.opcode = 0x0503 → exec (.longRunningLimit src) s = .next (settleFloors (endBusy s h)))
      ∧ (h.opcode = 0x0801 → exec (.longRunningLimit src) s = .next (settleTimes (endBusy s h)))
      ∧ (h.opcode = 0x0201 → exec (.longRunningLimit src) s = .next (endBusy (releaseRegion (s.unheld src) (effPayload h.msg)) h)))

/-- Tarn messages take effect: indexes are created, forgotten and reported; floors rise; rewrites begin. -/
def Obligations.TarnMessagesTakeEffect : Prop :=
  ∀ (m : Msg) (s : State),
    let u := begun m s
    let x := view m s
    let i := x.f 3 0
    (accepts { plainOp 0x0501 1 [(383, 320), (287, 232), (191, 168), (127, 80), (63, 60), (47, 40), (15, 10), (7, 4)] with cap := some capTarn, high := true } m s = true →
      u.index i = none →
      let n := newIndex x
      let d := hbmRead u n.dir (32 * n.lists)
      d.2.1 = none → inHbm n.dir (32 * n.lists) = true → indexBad d.2.2 x = false →
      exec (.createIndex m) s = replied m 0x0501 { d.2.2 with tarn := tset none d.2.2.tarn i (some n) } .ok)
    ∧ (accepts { plainOp 0x0502 1 [(383, 4)] with cap := some capTarn } m s = true → tarnStarted u i = false →
      (u.index i = none → exec (.destroyIndex m) s = replied m 0x0502 u .ok)
      ∧ (∀ k, u.index i = some k → k.rewrites = [] → exec (.destroyIndex m) s = replied m 0x0502 (forgetIndex u i) .ok))
    ∧ (∀ k, accepts { plainOp 0x0503 1 [(383, 64), (31, 4)] with cap := some capTarn } m s = true → u.index i = some k → k.floor.toNat ≤ x.f 63 32 → x.f 63 32 ≤ k.published.toNat →
      let waits := readsBelow u i (x.f 63 32) || u.mbx.held.any (sameObject (heldOf 0x0503 m 0))
      (waits = false → exec (.setReaderFloor m) s = replied m 0x0503 (u.modIndex i fun k => { k with floor := BitVec.ofNat 32 (max k.floor.toNat (x.f 63 32)) }) .ok)
      ∧ (waits = true → exec (.setReaderFloor m) s = kept m u (heldOf 0x0503 m 0)))
    ∧ (∀ k, let rs := listRanges k.width { tomb := x.f 167 128, log := x.f 103 64, length := 0, cap := x.f 223 192 }
      accepts { plainOp 0x0504 1 [(383, 224), (191, 168), (127, 104), (63, 40), (15, 4)] with cap := some capTarn, high := true } m s = true → u.index i = some k →
      x.f 39 16 < k.lists → x.f 223 192 ≠ 0 → x.f 223 192 ≤ 67108864 → x.f 167 128 % 128 = 0 → x.f 103 64 % 256 = 0 → rs.all (fun r => inHbm r.1 r.2) = true → selfOverlap rs = false →
      rs.any (fun r => hits r.1 r.2 (tarnRanges u ++ storeRanges u ++ windowRanges u)) = false → k.rewriting (x.f 39 16) = false → rewriteCount u < 64 →
      exec (.startRewrite m) s = kept m (u.modIndex i fun k' => { k' with rewrites := k'.rewrites ++ [{ src := m.src, list := x.f 39 16, newLog := x.f 103 64, newTomb := x.f 167 128, newCap := x.f 223 192, floor := k.floor }] }) (heldOf 0x0504 m 0))
    ∧ (accepts { readOp 0x0505 0 [(383, 4)] with cap := some capTarn } m s = true → exec (.getIndexState m) s = replied m 0x0505 u (.val 0 (indexReply (u.index i))))

/-- Update-unit and collective messages take effect: optimizer slots, hyperparameters with 1 - BETA computed once, buckets and groups. -/
def Obligations.UpdateAndGroupMessagesTakeEffect : Prop :=
  ∀ (m : Msg) (s : State),
    let u := begun m s
    let x := view m s
    (accepts { plainOp 0x0601 1 [(383, 27), (23, 21), (19, 17), (15, 13), (11, 11), (7, 4)] with cap := some capUpdate } m s = true → x.f 10 8 ≤ 3 → x.f 26 24 ≤ 4 → (bit x.p 16 = true → x.has capBs8 = true) →
      (slotUsed u (x.f 3 0) = false → u.behind (heldOf 0x0601 m 0) = false → exec (.configureOptimizer m) s = replied m 0x0601 { u with opt := tmod optInit u.opt (x.f 3 0) fun o =>
          { o with configured := true, algorithm := fb x.p 8 3, masterBf16 := bit x.p 12, bs8 := bit x.p 16, gradBf16 := bit x.p 20, copyFmt := fb x.p 24 3 } } .ok)
      ∧ (slotUsed u (x.f 3 0) = true ∨ u.behind (heldOf 0x0601 m 0) = true → exec (.configureOptimizer m) s = kept m u (heldOf 0x0601 m 0)))
    ∧ (accepts { plainOp 0x0602 1 [(383, 160), (31, 4)] with cap := some capUpdate, high := true } m s = true →
      unitRange (fb x.p 32 32) = true → unitRange (fb x.p 64 32) = true → notNegative (fb x.p 96 32) = true → notNegative (fb x.p 128 32) = true →
      (slotUsed u (x.f 3 0) = false → u.behind (heldOf 0x0602 m 0) = false → exec (.setHyperparameters m) s = replied m 0x0602 { u with opt := tmod optInit u.opt (x.f 3 0) fun o =>
          { o with beta1 := fb x.p 32 32, beta2 := fb x.p 64 32, eps := fb x.p 96 32, decay := fb x.p 128 32
                   omb1 := b32 (add32 .plain one (negX (v32 (fb x.p 32 32)))).1, omb2 := b32 (add32 .plain one (negX (v32 (fb x.p 64 32)))).1 } } .ok)
      ∧ (slotUsed u (x.f 3 0) = true ∨ u.behind (heldOf 0x0602 m 0) = true → exec (.setHyperparameters m) s = kept m u (heldOf 0x0602 m 0)))
    ∧ (let b : Bucket := { addr := x.f 103 64, length := x.f 63 32, bf16 := bit x.p 16, group := x.f 15 12 }
      accepts (plainOp 0x0610 1 [(383, 104), (31, 17)]) m s = true → bucketStarted u (fun k => k == x.f 11 0) = false →
      (b.length = 0 → exec (.createBucket m) s = replied m 0x0610 { u with buckets := tset none u.buckets (x.f 11 0) none } .ok)
      ∧ (b.length ≠ 0 → bucketBad u (x.f 11 0) b = false → exec (.createBucket m) s = replied m 0x0610 { u with buckets := tset none u.buckets (x.f 11 0) (some b) } .ok))
    ∧ (let g := x.f 3 0
      let n := x.f 15 8
      let ws := rankWords n m.req
      let r := groupFrom u x ws
      accepts { plainOp 0x0611 1 [(383, 62), (55, 53), (47, 46), (39, 37), (31, 26), (23, 21), (7, 4)] with buf := true } m s = true → m.ptr = true → msgReqLen m = 2 * n →
      bucketStarted u (boundTo u g) = false →
      (n = 0 → exec (.setGroup m) s = replied m 0x0611 { clearBuckets u g with groups := tset none u.groups g none } .ok)
      ∧ (2 ≤ n → n ≤ 128 → r.core < 24 → ranksOk u ws = true → landingOk u r.coreA r.winA = true → landingOk u r.coreB r.winB = true → ¬(r.coreA = r.coreB ∧ r.winA = r.winB) →
          otherNames u g r.coreA r.winA = false → otherNames u g r.coreB r.winB = false →
          exec (.setGroup m) s = replied m 0x0611 (zeroLanding (zeroLanding { clearBuckets u g with groups := tset none u.groups g (some r) } r.coreA r.winA) r.coreB r.winB) (.val 0 r.selfRank)))

/-- Fabric messages take effect: coordinates, the wiring map and policies, the profile policy and endpoints. That the host's SET_COORDINATES is answered NOT_PERMITTED before its fields are looked at, and that REMOVE_ENDPOINT of an absent entry completes, are the model's choice (log entries 48, 117). -/
def Obligations.FabricMessagesTakeEffect : Prop :=
  ∀ (m : Msg) (s : State),
    let u := begun m s
    let x := view m s
    (let c : BitVec 48 := fb x.p 32 16 ++ fb x.p 16 16 ++ fb x.p 0 16
     accepts { plainOp 0x0701 2 [(383, 48)] with mctp := true } m s = true →
     (x.mgmt = false → exec (.setCoordinates m) s = replied m 0x0701 u (.st 0x203))
     ∧ (x.mgmt = true → coordOk c = true → u.fabric.coord ≠ c → (u.coordSet = false ∨ ∀ p, p < 18 → (u.port p).state = 0) →
     let t := State.helloAll { u with fabric := { u.fabric with coord := c, coordEver := true } }
     exec (.setCoordinates m) s = replied m 0x0701 (if u.fabric.coordEver then t else startTraining t).rejudge .ok))
    ∧ (accepts { plainOp 0x0702 2 [(383, 0)] with buf := true } m s = true → m.ptr = true → m.req.length % 16 = 0 → m.req.length ≤ 65536 → (chunksOf 16 4097 m.req).all wireEntryOk = true →
      exec (.setWiringMap m) s = replied m 0x0702
        (State.helloAll { u with fabric := { u.fabric with wiring := (chunksOf 16 4097 m.req).map wireEntry, wiringLoaded := true, wiringHash := sha64 m.req } }).settlePorts .ok)
    ∧ (accepts (plainOp 0x0703 2 [(383, 2)]) m s = true → x.f 1 0 ≠ 3 → (x.f 1 0 ≠ 0 → x.has capAdopt = true) →
      exec (.setWiringPolicy m) s = replied m 0x0703 (State.settlePorts { u with fabric := { u.fabric with wiringPolicy := fb x.p 0 2 } }) .ok)
    ∧ (let mask : BitVec 5 := fb x.p 0 5
      let ws := (List.range 4).map (queueFmtWord x)
      accepts { plainOp 0x0704 2 [(383, 160), (31, 5)] with high := true } m s = true → ws.all queueFmtOk = true → (bit mask 0 = true → x.has capM1 = true) →
      ((bit mask 1 || bit mask 2) = true → x.has capM2 = true) → u.anyQueue = false →
      let t : State := { u with fabric := { u.fabric with profileMask := mask, queueFmt := tsetList QueueFmt.init [] 0 (ws.map queueFmtOf) } }
      exec (.setProfilePolicy m) s = replied m 0x0704 (if t.offered = u.offered then t else t.helloAll).rejudge .ok)
    ∧ (let i := x.f 11 0
      let e := endpointOf x
      accepts { plainOp 0x0705 1 [(383, 144), (95, 76), (45, 43), (39, 18), (15, 12)] with high := true } m s = true → endpointBad u e = false →
      ((e.self = false → (u.isSelf i = false ∨ u.anyQueue = false) →
        exec (.setEndpoint m) s = replied m 0x0705 ((State.judgeEndpoint { u with fabric := { u.fabric with endpoints := tset none u.fabric.endpoints i (some e) } } i).settlePorts) .ok)
      ∧ (e.self = true → changesSelf u i e = false → exec (.setEndpoint m) s = replied m 0x0705 u .ok)
      ∧ (e.self = true → changesSelf u i e = true → u.anyQueue = false →
        exec (.setEndpoint m) s = replied m 0x0705 ((State.judgeEndpoint { u with fabric := { u.fabric with
          endpoints := tset none (if u.hasSelf then tset none u.fabric.endpoints u.selfEp none else u.fabric.endpoints) i (some e) } } i).settlePorts) .ok)))
    ∧ (let i := x.f 11 0
      accepts (plainOp 0x0706 1 [(383, 12)]) m s = true → u.isSelf i = false →
      (u.stage.addr.any fun a => match a.2 with | none => false | some y => y.endpoint == BitVec.ofNat 12 i) = false → unsentOwners u i = [] →
      exec (.removeEndpoint m) s = replied m 0x0706 ((State.settlePorts { u with fabric := { u.fabric with endpoints := tset none u.fabric.endpoints i none } }).wakeEndpoint fun ep => ep == i) .ok)

/-- Port messages take effect: training starts, ends and is repeated, and the port state is reported. -/
def Obligations.PortMessagesTakeEffect : Prop :=
  ∀ (m : Msg) (s : State),
    let u := begun m s
    let x := view m s
    let p := x.f 4 0
    (accepts opTrain m s = true → trainAction m = 0 → trainOk x = true → (u.port p).state = 0 → 
      exec (.trainPortTrain m) s = replied m 0x0710 (let t := u.modPort p (trainPort x); if u.fabric.coordEver then t.enterTraining p else t) .ok)
    ∧ (accepts opTrain m s = true → trainAction m = 1 → trainOk x = true → exec (.trainPortDisable m) s = replied m 0x0710 (disablePort u p) .ok)
    ∧ (accepts opTrain m s = true → trainAction m = 2 → trainOk x = true → (u.port p).state = 2 → exec (.trainPortRetrain m) s = replied m 0x0710
        (u.modPort p fun pt => { pt with state := 3, lanes := 0, lostTimer := true, counts := { pt.counts with retrains := satInc pt.counts.retrains 1 } }) .ok)
    ∧ (accepts (queryOp 0x0711 0 [(383, 5)]) m s = true → p < 18 → exec (.getPortState m) s = replied m 0x0711 u (.val 0 (portReply (u.port p))))

/-- CONFIGURE_ETHERNET takes effect: ports, connections, PTP and the status. That DISCONNECT of an absent connection completes, and that an action ignores the fields it does not use, are the model's reading (log entries 48, 67). -/
def Obligations.EthernetMessagesTakeEffect : Prop :=
  ∀ (m : Msg) (s : State),
    let u := begun m s
    let x := view m s
    let r := ethRecord x
    (accepts opEthernet m s = true → ethAction m = 0 → ethLenOk x 64 = true → fld r 303 0 = 0 → fld r 322 320 ≠ fld r 319 317 →
      (portCarries u (x.f 8 8) = false ∨ onlyEnable (portOf r (u.ethPort (x.f 8 8))) (u.ethPort (x.f 8 8)) = true) →
      exec (.setPort m) s = replied m 0x0720 (u.modEth (x.f 8 8) (portOf r)) .ok)
    ∧ (accepts opEthernet m s = true → ethAction m = 1 → ethLenOk x 64 = true → connFieldsOk r = true → (bit r 113 = true → x.has capRoceInput = true) → u.conn (fld r 127 116) = none →
      exec (.connect m) s = replied m 0x0720 (State.flushCredits { u with eth := { u.eth with conns := tset none u.eth.conns (fld r 127 116) (some (connOf r)) } }) .ok)
    ∧ (accepts opEthernet m s = true → ethAction m = 2 → ethLenOk x 0 = true → connEndpoint u (fb x.p 16 12) = none →
      let t := failConn u (fb x.p 16 12)
      exec (.disconnect m) s = replied m 0x0720 { t with eth := { t.eth with conns := tset none t.eth.conns (fb x.p 16 12 : BitVec 12).toNat none } } .ok)
    ∧ (accepts opEthernet m s = true → ethAction m = 3 → ethLenOk x 0 = true →
      exec (.setPtp m) s = replied m 0x0720 (u.modEth (x.f 8 8) fun p => { p with ptpEn := bit x.p 32, ptpDomain := fb x.p 40 8, ptpMeasuring := false, ptpSync := none, ptpPair := none, ptpReq := none }) .ok)
    ∧ (accepts opEthernet m s = true → ethAction m = 4 → ethLenOk x 0 = true →
      exec (.getStatus m) s = replied m 0x0720 u (.val 0 (ethReply (u.ethPort (x.f 8 8)) (u.conn (x.f 27 16)))))

/-- Time messages and events take effect: modes, the time itself, the step edges and their firing, PPS edges, and the rack reference. That an edge of the reference marks its multiple of 10^9 by slewing to the nearest is the model's reading (log entry 25). -/
def Obligations.TimeCommandsTakeEffect : Prop :=
  (∀ (m : Msg) (s : State),
    let u := begun m s
    let x := view m s
    (accepts (plainOp 0x0801 2 [(383, 128), (63, 3)]) m s = true → timeModeBad x = false →
      (x.f 1 0 = 1 → exec (.setTimeMode m) s = kept m u (heldOf 0x0801 m 0))
      ∧ (x.f 1 0 = 0 → u.behind (heldOf 0x0801 m 0) = true → exec (.setTimeMode m) s = kept m u (heldOf 0x0801 m 0))
      ∧ (x.f 1 0 = 0 → u.behind (heldOf 0x0801 m 0) = false → bit x.p 2 = true → u.clock.gtc.toNat ≤ x.f 127 64 → exec (.setTimeMode m) s = replied m 0x0801 (setMode (stepGtc u (fb x.p 64 64)) (freeMode true)) .ok)
      ∧ (x.f 1 0 = 0 → u.behind (heldOf 0x0801 m 0) = false → bit x.p 2 = false → exec (.setTimeMode m) s = replied m 0x0801 (setMode u (freeMode false)) .ok))
    ∧ (accepts (readOp 0x0802 0 []) m s = true → ∃ v, exec (.getTime m) s = replied m 0x0802 { takeSource u with clock := { (takeSource u).clock with lateMask := 0 } } (.val 0 v)
      ∧ fld (BitVec.ofNat 384 v) 63 0 = u.clock.gtc.toNat ∧ fld (BitVec.ofNat 384 v) 191 128 = u.clock.lateMask.toNat)
    ∧ (let e : Edge := { time := fb x.p 64 64, period := fb x.p 128 32, core := x.f 12 8, event := x.f 21 16 }
      let t : State := { u with edges := tset none u.edges (x.f 5 0) (some e) }
      accepts { plainOp 0x0803 1 [(383, 160), (63, 22), (15, 13), (7, 6)] with high := true } m s = true → x.f 12 8 < 24 →
      (u.clock.gtc.toNat ≤ e.time.toNat → exec (.scheduleEdge m) s = replied m 0x0803 t (.val 0 0))
      ∧ (e.time.toNat < u.clock.gtc.toNat → exec (.scheduleEdge m) s = replied m 0x0803 (fireEdge t (x.f 5 0) true) (.val 0 1)))
    ∧ (accepts (plainOp 0x0804 1 [(383, 6)]) m s = true → exec (.cancelEdge m) s = replied m 0x0804 { u with edges := tset none u.edges (x.f 5 0) none } .ok))
  ∧ ∀ s : State,
    (s.clocked = true → exec .ppsEdge s = .next (markSecond ((timeHeld s).foldl applyStart s)))
    ∧ (∀ h : Held, let v : BitVec 64 := fb (effPayload h.msg) 64 64
      let mode := fld (effPayload h.msg) 1 0
      let root := bit (effPayload h.msg) 2
      (mode = 1 → s.clock.gtc.toNat ≤ v.toNat → applyStart s h = endHeld (setMode (stepGtc s v) refMode) h .ok)
      ∧ (mode ≠ 1 → root = true → s.clock.gtc.toNat ≤ v.toNat → applyStart s h = endHeld (setMode (stepGtc s v) (freeMode true)) h .ok)
      ∧ (mode ≠ 1 → root = false → applyStart s h = endHeld (setMode s (freeMode false)) h .ok)
      ∧ ((mode = 1 ∨ root = true) → v.toNat < s.clock.gtc.toNat → applyStart s h = endHeld s h (.val 0x201 s.clock.gtc.toNat)))
    ∧ (¬(s.clock.mode = 1 ∧ s.clock.state = 1) → markSecond s = s)
    ∧ (s.clock.mode = 1 → s.clock.state = 1 →
      markSecond s = { s with clock := { s.clock with slew := ((s.clock.gtc.toNat + 500000000) / 1000000000 * 1000000000 : Nat) - (s.clock.gtc.toNat : Int) } })
    ∧ (s.clock.mode = 1 → exec .referenceValid s = .next { s with clock := { s.clock with refValid := true, state := 1 } })
    ∧ (s.clock.mode = 0 → exec .referenceValid s = .next { s with clock := { s.clock with refValid := true } })
    ∧ (s.clock.mode = 1 → s.clock.state ≠ 2 → exec .referenceLost s = .next (State.postErr { s with clock := { s.clock with refValid := false, state := 2 } } (mkEvent 3 0 0 9 0)))
    ∧ (s.clock.mode = 0 → exec .referenceLost s = .next { s with clock := { s.clock with refValid := false } })
    ∧ (∀ (i : Fin 64) e, s.edge i.val = some e → e.time.toNat ≤ s.clock.gtc.toNat → ∃ t, exec (.edgeFire i) s = .next t
        ∧ (tget 0 (s.core e.core).events e.event ≠ 0xFFFFFFFF → tget 0 (t.core e.core).events e.event = tget 0 (s.core e.core).events e.event + 1)
        ∧ (tget 0 (s.core e.core).events e.event = 0xFFFFFFFF → tget 0 (t.core e.core).events e.event = 0xFFFFFFFF)
        ∧ t.edge i.val = nextEdge e s.clock.gtc ∧ t.clock = s.clock)

/-- Error-log and telemetry messages take effect. -/
def Obligations.LogMessagesTakeEffect : Prop :=
  ∀ (m : Msg) (s : State),
    let u := begun m s
    let x := view m s
    (∀ n, m.src = .chan n → accepts (queryOp 0x0901 0 [(383, 48), (39, 33)]) m s = true → bit x.p 32 = false →
      let got := (u.err.ring.filter fun r => decide (x.f 31 0 ≤ r.seq.toNat)).take (if x.f 47 40 = 0 then 256 else x.f 47 40)
      exec (.readErrorLog m) s = replied m 0x0901 u { status := 0, payload := none, long := logSummary u got.length ++ got.flatMap errBytes })
    ∧ (accepts (readOp 0x0902 1 [(383, 76), (63, 36)]) m s = true → (x.f 31 0 = 0xFFFFFFFF ∨ x.f 31 0 < u.err.nextSeq.toNat) → (bit x.p 32 = true → x.f 75 64 ≤ 74) →
      let e := u.err
      let e : Errors := if x.f 31 0 = 0xFFFFFFFF then e else { e with ring := e.ring.filter fun r => decide (x.f 31 0 < r.seq.toNat) }
      let e : Errors := if bit x.p 32 then { e with latches := tset none e.latches (x.f 75 64) none } else e
      let e : Errors := if bit x.p 33 then { e with latches := [] } else e
      let e : Errors := if bit x.p 34 then { e with overflow := 0 } else e
      let e : Errors := if bit x.p 35 then { e with lgFirst := none, lgLatest := none, halted := false } else e
      exec (.clearError m) s = replied m 0x0902 { u with err := e } .ok)
    ∧ (∀ n, m.src = .chan n → accepts (queryOp 0x0903 0 [(383, 1)]) m s = true →
      exec (.getLastGasp m) s = replied m 0x0903 u
        { status := 0, payload := none
          long := lgHeader u.err ++ (match if bit x.p 0 then u.err.lgLatest else u.err.lgFirst with | none => List.replicate 960 0 | some l => lgBytes l) })
    ∧ (∀ n, m.src = .chan n → accepts (queryOp 0x0910 0 [(383, 8)]) m s = true → m.ptr = true → x.f 7 0 = 0 →
      exec (.readTelemetry m) s = replied m 0x0910 u { status := 0, payload := none, long := snapshot u })
    ∧ (accepts (readOp 0x0911 1 [(383, 127), (119, 116), (111, 104), (63, 32)]) m s = true → rateBad u x = false →
      exec (.setTelemetryRate m) s = replied m 0x0911 { u with telem := { u.telem with period := fb x.p 0 32, dest := x.f 103 64, log2 := x.f 115 112, vector := fb x.p 120 7, due := if x.f 31 0 = 0 then 0 else u.telem.due, lines := if x.f 31 0 = 0 then [] else u.telem.lines } } .ok)

/-- Security messages take effect while no other one executes: the state is reported, a nonce is issued, debug opens by password, an update is taken, and the rollback count begins to advance; fuses, nonces and JTAG follow. What an access of the open debug facilities answers, and the form of the trace switch, are the model's choice (log entry 87). -/
def Obligations.SecurityCommandsTakeEffect : Prop :=
  ∀ (m : Msg) (s : State),
    let u := begun m s
    let x := view m s
    (accepts (queryOp 0x0A01 0 []) m s = true → ∃ v, exec (.getSecurityState m) s = replied m 0x0A01 u (.val 0 v)
      ∧ fld (BitVec.ofNat 384 v) 1 0 = debugLevel u.sec.bank ∧ fld (BitVec.ofNat 384 v) 23 16 = u.rollbackCount ∧ (bit (BitVec.ofNat 384 v) 8 = u.sec.debugOpened))
    ∧ (∀ nonce, accepts (plainOp 0x0A02 2 []) m s = true → securityBusy u = false → debugLevel u.sec.bank ≠ 2 →
      exec (.debugChallenge m nonce) s = replied m 0x0A02 { u with sec := { u.sec with nonce := some nonce } } (.val 0 nonce.toNat))
    ∧ (accepts { plainOp 0x0A03 2 [] with buf := true } m s = true → securityBusy u = false → m.ptr = false → unlockFormatOk x = true → debugLevel u.sec.bank = 1 → u.sec.failures < 8 →
      u.sec.bank.debugPwHash ≠ 0 → sha384 (vecBytes u.sec.bank.serial ++ (vecBytes x.p).drop 16) = u.sec.bank.debugPwHash.toNat →
      exec (.debugUnlock m) s = replied m 0x0A03
        (State.postErr { u with sec := { u.sec with debugOpened := true, reopenMethod := 1 } } (mkEvent 5 1 0 8 0)) .ok)
    ∧ (∀ nonce, let key := slice m.req 0 97
      accepts { plainOp 0x0A03 2 [] with buf := true } m s = true → securityBusy u = false → m.ptr = true → unlockFormatOk x = true → debugLevel u.sec.bank = 1 → u.sec.failures < 8 →
      u.sec.bank.debugKeyHash ≠ 0 → u.sec.nonce = some nonce → sha384 key = u.sec.bank.debugKeyHash.toNat →
      ecdsaVerify key (vecBytes nonce ++ vecBytes u.sec.bank.serial) (slice m.req 128 96) = true →
      exec (.debugUnlock m) s = replied m 0x0A03
        (State.postErr { u with sec := { u.sec with nonce := none, debugOpened := true, reopenMethod := 2 } } (mkEvent 5 2 0 8 0)) .ok)
    ∧ (accepts { plainOp 0x0A04 2 [(383, 0)] with buf := true } m s = true → securityBusy u = false → m.ptr = true → anyArmed u = false → anyHeld u longRunning = false → imageReason u m.req = none →
      exec (.firmwareUpdate m) s = .next (restartDueNow (finishMsg
        { u with boot := { u.boot with restartDue := true, bootAddr := BitVec.ofNat 64 (fld m.payload 63 12 * 4096) } } m 0x0A04 m.session
        (.val 0 (sliceNat m.req 8 4 + sliceNat m.req 12 4 % 256 * 2 ^ 32)))))
    ∧ (accepts (plainOp 0x0A05 2 [(383, 8)]) m s = true → securityBusy u = false → rollbackRefusal x u = none →
      exec (.advanceRollback m) s = kept m { u with sec := { u.sec with pulses := 0 } } { heldOf 0x0A05 m 0 with arg := x.f 7 0 })
    ∧ (∀ h, (s.mbx.held.find? fun h => h.opcode == 0x0A05 && h.arg != 0) = some h →
      let f : BitVec 64 := s.sec.rollback ||| (1#64 <<< nextFuse s.sec.rollback)
      popCount f < h.arg →
      exec (.fuseBlown true) s = .next { s with sec := { s.sec with rollback := f, pulses := 0, mirrorCount := popCount f } })
    ∧ exec .nonceExpiry s = .next { s with sec := { s.sec with nonce := none } }
    ∧ (∀ low, exec (.jtagAccess (.trst low)) s = .next { s with sec := { s.sec with trstLow := low } })
    ∧ (s.sec.trstLow = true → ∀ i, (∀ low, i ≠ .trst low) → exec (.jtagAccess i) s = .next s)
    ∧ (s.sec.trstLow = false → exec (.jtagAccess .idcode) s = .next (s.emit (.jtag 0x13384547)) ∧ exec (.jtagAccess .bypass) s = .next s
      ∧ (s.debugOpen = false → ∀ on, exec (.jtagAccess .debug) s = .next s ∧ exec (.jtagAccess (.trace on)) s = .next s)
      ∧ (s.debugOpen = true → ∀ on, exec (.jtagAccess (.trace on)) s = .next { s with sec := { s.sec with trace := on } })
      ∧ (s.debugOpen = true → ∃ v, exec (.jtagAccess .debug) s = .next (State.emit { s with fresh := s.fresh + 1 } (.jtag v))))

/-- Overturn messages take effect: recording opens and closes, a replay begins, checkpoints go out and come in through the host window and over Ethernet, a stage is adopted, digests are written. The layouts of record and image, and that CHECKPOINT_IN over Ethernet reads the header and the longest range table before the image, are the model's choice (log entries 30, 31). -/
def Obligations.OverturnCommandsTakeEffect : Prop :=
  ∀ (m : Msg) (s : State),
    let u := begun m s
    let x := view m s
    (∀ rs, let a := logArgs x.p
      let d := hbmRead u a.addr (16 * a.count)
      let v := d.2.2
      accepts { plainOp 0x0B01 1 [(383, 296), (255, 232), (191, 168), (31, 16), (7, 3)] with high := true } m s = true → inHbm a.addr (16 * a.count) = true →
      snoopsFor u a.addr (16 * a.count) false = [] → d.2.1 = none → logRanges v x = some rs →
      (rs = [] → logReady v = true → exec (.setReplayLog m) s = replied m 0x0B01 (openStep v.closeStep a []) .ok)
      ∧ (rs ≠ [] → exec (.setReplayLog m) s = kept m { v with ovt := { v.ovt with jobs := v.ovt.jobs ++ rs.map fun r => .range r.1 r.2 } }
          { heldOf 0x0B01 m 0 with body := v.hbmBytes a.addr (16 * a.count) }))
    ∧ (∀ r v, accepts { plainOp 0x0B02 1 [(383, 104), (63, 1)] with cap := some capOverturn } m s = true → replayLines u (x.f 103 64) = [] → readRecord u (x.f 103 64) = (some r, none, v) →
      r.closed = true → r.overrun = false → r.aborted = false → (bit x.p 0 = true → r.payloads = true) → anyArmed v = false → v.stage.identity.getD (0, 0) = (r.pipelineId, r.stageId) →
      let t := (applySnap v.closeStep r.snap).scan (rangesOf r.inputs)
      inputDiff t r = none →
      exec (.replayStep m) s = kept m { t with ovt := { t.ovt with
          current := some (openRec t r.base r.size r.payloads r.seed r.step (rangesOf r.inputs))
          replay := some { src := some m.src, record := r, isolate := bit x.p 0, placed := [], next := 0 } } } (heldOf 0x0B02 m 0))
    ∧ (∀ rs w, let a := ckptArgs x.p
      let d := hbmRead u a.addr (16 * a.count)
      let v := d.2.2
      let i := ckptOf v rs
      accepts { plainOp 0x0B03 1 [(319, 296), (255, 24), (3, 1)] with high := true } m s = true → inHbm a.addr (16 * a.count) = true → rangeList u a.addr a.count = some rs →
      snoopsFor u a.addr (16 * a.count) false = [] → d.2.1 = none →
      a.count ≠ 0 → a.count ≤ 64 → rs.all (fun r => inHbm r.1 r.2) = true → a.ethernet = false → i.2.2.host.window = some w →
      mediumOk v a (imageLen (rs.map fun r => r.2)) = true → anyArmed v = false →
      ((rs.flatMap fun r => snoopsFor v r.1 r.2 false) ++ ckptLines v a (imageLen (rs.map fun r => r.2)) true) = [] →
      exec (.checkpointOut m) s = replied m 0x0B03
        (hbmWrite (hbmWrite i.2.2 (w.1 + a.offset + 4096) i.2.1).s (w.1 + a.offset) (cleanBytes (imageHeader i.1))).s .ok)
    ∧ (∀ rs k tag, let a := ckptArgs x.p
      let d := hbmRead u a.addr (16 * a.count)
      let v := d.2.2
      let i := ckptOf v rs
      let n := (vals i.2.1).length
      accepts { plainOp 0x0B03 1 [(319, 296), (255, 24), (3, 1)] with high := true } m s = true → inHbm a.addr (16 * a.count) = true → rangeList u a.addr a.count = some rs →
      snoopsFor u a.addr (16 * a.count) false = [] → d.2.1 = none →
      a.count ≠ 0 → a.count ≤ 64 → rs.all (fun r => inHbm r.1 r.2) = true → a.ethernet = true → mediumOk v a (imageLen (rs.map fun r => r.2)) = true →
      i.2.2.conn a.conn.toNat = some k → connSends i.2.2 k 2 = true → anyArmed v = false →
      (rs.flatMap fun r => snoopsFor v r.1 r.2 false) = [] → i.2.2.freeTag 24 = some tag →
      let t := i.2.2.addOp { tag := tag, gen := i.2.2.tagGen tag, via := .conn a.conn, endpoint := 0, owner := .firmware, kind := .write, frames := 1, acked := 0, sent := 1, bytes := n }
      exec (.checkpointOut m) s = kept m
        ((t.emit (.rdmaWrite a.conn.toNat (k.remoteVa + BitVec.ofNat 64 (a.offset + 4096)) (vals i.2.1))).packets a.conn.toNat false (ceilDiv n 4096))
        { heldOf 0x0B03 m 1 with image := some i.1 })
    ∧ (∀ w i, let a := ckptArgs x.p
      let v := u.scan [(w.1 + a.offset, 4096)]
      let len := imageLen (i.ranges.map fun r => r.len)
      let d := hbmRead v (w.1 + a.offset + 4096) (len - 4096)
      accepts { plainOp 0x0B04 1 [(319, 296), (255, 24), (3, 1)] with high := true } m s = true → a.count = 0 → a.addr = 0 → a.ethernet = false → u.host.window = some w → mediumOk u a 4096 = true →
      anyArmed u = false → ckptLines u a (min headLen (w.2 - a.offset)) false = [] → (imageAt fun j => v.hbmByte (w.1 + a.offset + j)) = some i → a.offset + len ≤ w.2 → anySlotUsed v = false →
      (ckptLines v a len false ++ (i.ranges.flatMap fun r => snoopsFor v r.addr r.len true)) = [] →
      exec (.checkpointIn m) s = .next (settleMsg m 0x0B04 m.session (landImage d.2.2 x i d.1)))
    ∧ (∀ k tag, let a := ckptArgs x.p
      accepts { plainOp 0x0B04 1 [(319, 296), (255, 24), (3, 1)] with high := true } m s = true → a.count = 0 → a.addr = 0 → a.ethernet = true → mediumOk u a 4096 = true → u.conn a.conn.toNat = some k → connSends u k 2 = true →
      anyArmed u = false → u.freeTag 24 = some tag →
      let t := u.addOp { tag := tag, gen := u.tagGen tag, via := .conn a.conn, endpoint := 0, owner := .firmware, kind := .read 0 headLen, frames := 1, acked := 0, sent := 1, bytes := headLen }
      exec (.checkpointIn m) s = kept m
        (((t.emit (.rdmaRead a.conn.toNat (k.remoteVa + BitVec.ofNat 64 a.offset) headLen)).packets a.conn.toNat false 0).modConn a.conn.toNat fun k => { k with sentReq := k.sentReq + ceilDiv headLen 4096 }) (heldOf 0x0B04 m 1))
    ∧ (∀ (conn : BitVec 12) (data : List Byte) (h : Held), (ckptOn s conn 0x0B04).head? = some h →
      let t := s.endFirmwareOp conn
      (∀ i, let body := padTo (imageLen (i.ranges.map fun r => r.len) - 4096) data
        h.image = some i →
        (anySlotUsed t = false → imageLines t i = [] → exec (.rdmaReadResponse conn data) s = .next (contHeld h (landImage t (ctxOf t h.msg) i (cleanBytes body))))
        ∧ (anySlotUsed t = true → exec (.rdmaReadResponse conn data) s = .next (contHeld h (.hold t { heldOf 0x0B04 h.msg 3 with image := some i, body := body }))))
      ∧ (∀ i k, h.image = none → t.conn conn.toNat = some k → (imageAt fun j => data.getD j 0) = some i →
        exec (.rdmaReadResponse conn data) s = .next (contHeld h (askCkpt h.msg t conn k ((ckptArgs (effPayload h.msg)).offset + 4096) (imageLen (i.ranges.map fun r => r.len) - 4096) 2 5 (some i)))))
    ∧ (∀ i, accepts { plainOp 0x0B05 1 [(383, 64)] with cap := some capSpare } m s = true → u.ovt.ckpt = some i → u.anyQueue = false → i.pipelineId = fb x.p 32 32 → i.stageId = fb x.p 0 32 →
      exec (.adoptStage m) s = replied m 0x0B05
        { u with stage := { u.stage with identity := some (fb x.p 32 32, fb x.p 0 32) }, ovt := { u.ovt with seed := i.seed, step := i.step } } (.val 0 i.step.toNat))
    ∧ exec .digestWritten s = .next (serveHost (settleReplay (settleLog (writeDigest s))))

/-- Power messages take effect: power states, clock limits, Ripple and the power report. That SET_CLOCK_LIMITS which names no core ignores FMIN and FMAX is the model's reading (log entry 75). -/
def Obligations.PowerMessagesTakeEffect : Prop :=
  ∀ (m : Msg) (s : State),
    let u := begun m s
    let x := view m s
    (accepts (plainOp 0x0C01 2 [(383, 2)]) m s = true →
      (x.f 1 0 = 0 → exec (.setPowerState m) s = replied m 0x0C01 (allCores.foldl (fun t c => t.modCore c wakeArrays) { u with power := { u.power with standby := false } }) .ok)
      ∧ (x.f 1 0 = 1 → anyArmed u = false → ∃ t, exec (.setPowerState m) s = replied m 0x0C01 t .ok
          ∧ t.power = { u.power with standby := true, clock := [] } ∧ t.hbm = u.hbm ∧ t.stage = u.stage ∧ t.err = u.err
          ∧ (∀ c, (t.core c).spad = (u.core c).spad ∧ (t.core c).queues = (u.core c).queues ∧ (t.core c).events = (u.core c).events)))
    ∧ (let cap := x.f 79 64
      let lo := x.f 47 32
      let hi := x.f 63 48
      accepts (plainOp 0x0C02 2 [(383, 80), (31, 24)]) m s = true → (cap = 0 ∨ (400 ≤ cap ∧ cap ≤ 1150)) →
      (x.f 23 0 = 0 ∨ (lo % 25 = 0 ∧ hi % 25 = 0 ∧ 800 ≤ lo ∧ lo ≤ hi ∧ hi ≤ 1800)) →
      exec (.setClockLimits m) s = replied m 0x0C02 { u with power := { u.power with
        fmin := (coresOf (x.f 23 0)).foldl (fun t c => tset 800 t c (fb x.p 32 16)) u.power.fmin
        fmax := (coresOf (x.f 23 0)).foldl (fun t c => tset 1600 t c (fb x.p 48 16)) u.power.fmax
        cap := if cap = 0 then u.power.cap else fb x.p 64 16 } } .ok)
    ∧ (accepts (plainOp 0x0C03 1 [(383, 40), (31, 24)]) m s = true → x.f 23 0 ≠ 0 →
      exec (.setRipple m) s = replied m 0x0C03 ((coresOf (x.f 23 0)).foldl (fun t c => t.modCore c fun k => { k with rippleGap := fb x.p 32 8 }) u) .ok)
    ∧ (accepts (queryOp 0x0C04 0 []) m s = true → ∃ v, exec (.getPower m) s = replied m 0x0C04 u (.val 0 v)
      ∧ fld (BitVec.ofNat 384 v) 63 0 = u.power.energy.toNat ∧ fld (BitVec.ofNat 384 v) 79 64 = u.power.avgW.toNat ∧ fld (BitVec.ofNat 384 v) 95 80 = u.power.peakW.toNat
      ∧ fld (BitVec.ofNat 384 v) 111 96 = u.power.cap.toNat ∧ fld (BitVec.ofNat 384 v) 159 144 = u.power.mv.toNat)

/-- SPDM requests are answered while the firmware is READY, after negotiation and for slot 0; the answers name the certificate chain and the measurements. The algorithm and capability values are the model's reading (log entry 20). -/
def Obligations.SpdmRequestsAreAnswered : Prop :=
  ∀ (r : SpdmReq) (s : State), s.ready = true →
    (exec (.getVersion r) s = .next (State.emit { s with sec := { s.sec with spdmVersion := 0x13, spdmReady := false } } (.spdm "VERSION" [0x1300])))
    ∧ (r.version = 0x13 → s.sec.spdmVersion = 0x13 →
      exec (.spdmGetCapabilities r) s = .next (s.emit (.spdm "CAPABILITIES" [0x16]))
      ∧ (bit r.hashAlgos 1 = true → bit r.asymAlgos 7 = true →
        exec (.negotiateAlgorithms r) s = .next (State.emit { s with sec := { s.sec with spdmReady := true } } (.spdm "ALGORITHMS" [0x80, 0x2, 1]))))
    ∧ (r.version = 0x13 → s.sec.spdmReady = true →
      exec (.getDigests r) s = .next (s.emit (.spdm "DIGESTS" [shaField (certChain s)]))
      ∧ (r.slot = 0 → s.sec.bank.cert.length ≤ 1534 →
        exec (.getCertificate r) s = .next (s.emit (.spdm "CERTIFICATE" ((slice (certChain s) r.offset.toNat r.length.toNat).map fun b => b.setWidth 384))))
      ∧ (r.slot = 0 → exec (.challenge r) s = .next (s.emit (.spdm "CHALLENGE_AUTH" (shaField (certChain s) :: spdmSign s r.nonce (certChain s)))))
      ∧ (r.slot = 0 → r.signed = false → r.measOp = 0 → exec (.getMeasurements r) s = .next (s.emit (.spdm "MEASUREMENTS" [5])))
      ∧ (r.slot = 0 → r.signed = false → 1 ≤ r.measOp.toNat → r.measOp.toNat ≤ 5 → exec (.getMeasurements r) s = .next (s.emit (.spdm "MEASUREMENTS" [measurement s r.measOp.toNat])))
      ∧ (r.slot = 0 → r.signed = false → r.measOp = 255 → exec (.getMeasurements r) s = .next (s.emit (.spdm "MEASUREMENTS"
          [measurement s 1, measurement s 2, measurement s 3, measurement s 4, measurement s 5])))
      ∧ (r.slot = 0 → r.signed = true → 1 ≤ r.measOp.toNat → r.measOp.toNat ≤ 5 → exec (.getMeasurements r) s = .next (s.emit (.spdm "MEASUREMENTS"
          (measurement s r.measOp.toNat :: spdmSign s r.nonce (vecBytes (measurement s r.measOp.toNat)))))))

/-- The control commands do their work when they start: NOP nothing, WAIT ends at its threshold and waits below it, SIGNAL sets or adds and the core's waits see it, WAIT_SLOT takes a FULL input slot or a FREE output slot, RELEASE_SLOT empties one. -/
def Obligations.ControlCommandsDoTheirWork : Prop :=
  ∀ (core : CoreId) (queue : QueueId) (s : State) (b : Block) (d : BitVec 512),
    let r := entered core.val queue.val s b d
    let q := fld (cmdBody d) 1 0
    let i := fld (cmdBody d) 15 8
    let mb : BitVec 32 := fb (cmdBody d) 32 32
    (starts 0x00 core.val queue.val s anyTime b d = true → exec (.nop core queue) s = stored r.finish)
    ∧ (starts 0x01 core.val queue.val s anyTime b d = true →
      (q = 0 → fld (cmdBody d) 63 32 ≤ (tget 0 r.k.events i).toNat → exec (.wait core queue) s = stored r.finish)
      ∧ (q = 0 → (tget 0 r.k.events i).toNat < fld (cmdBody d) 63 32 → exec (.wait core queue) s = stored (r.block .program))
      ∧ (q ≠ 0 → (tget Counter.init r.k.cfg.counters i).overflow = false → fld (cmdBody d) 63 32 ≤ (tget Counter.init r.k.cfg.counters i).value.toNat →
          exec (.wait core queue) s = stored r.finish)
      ∧ (q ≠ 0 → (tget Counter.init r.k.cfg.counters i).overflow = true → exec (.wait core queue) s = stored (r.failWith 0x307 i)))
    ∧ (starts 0x02 core.val queue.val s anyTime b d = true →
      let c := fld (cmdBody d) 4 0
      let ev := fld (cmdBody d) 13 8
      (fld (cmdBody d) 16 16 = 1 → exec (.signal core queue) s = stored (Run.finish { r with s := r.s.modCore c fun k => ({ k with events := tset 0 k.events ev mb } : Core).settle }))
      ∧ (fld (cmdBody d) 16 16 = 0 → (tget 0 (r.s.core c).events ev).toNat + mb.toNat < 2 ^ 32 →
          exec (.signal core queue) s = stored (Run.finish { r with s := r.s.modCore c fun k => ({ k with events := tset 0 k.events ev (tget 0 (r.s.core c).events ev + mb) } : Core).settle })))
    ∧ (starts 0x03 core.val queue.val s anyTime b d = true → slotThere r.s q i = true →
      (q < 2 → (r.s.stage.slot q i).state = 2 → (r.s.stage.slot q i).mb = mb → (r.s.stage.slot q i).pendingDigest = false →
          exec (.waitSlot core queue) s = stored (r.flag (r.s.stage.slot q i).flags).finish)
      ∧ (q < 2 → (r.s.stage.slot q i).state ≠ 2 → exec (.waitSlot core queue) s = stored (r.block .program))
      ∧ (2 ≤ q → (r.s.stage.slot q i).state = 0 →
          exec (.waitSlot core queue) s = stored (Run.finish { r with s := { r.s with stage := r.s.stage.modSlot q i fun x => { x with state := 3, mb := mb, counter := 0 } } }))
      ∧ (2 ≤ q → (r.s.stage.slot q i).state ≠ 0 → exec (.waitSlot core queue) s = stored (r.block .program)))
    ∧ (starts 0x04 core.val queue.val s anyTime b d = true → slotThere r.s q i = true → (r.s.stage.slot q i).mb = mb →
      (q < 2 → (r.s.stage.slot q i).state = 2 → r.s.isolated = false →
          exec (.releaseSlot core queue) s = stored (Run.finish { r with
            s := State.sendCredit { r.s with stage := r.s.stage.modSlot q i fun x => { x.empty with gen := x.gen + 1 } } q i ((r.s.stage.slot q i).gen + 1) }))
      ∧ (2 ≤ q → (r.s.stage.slot q i).state = 5 →
          exec (.releaseSlot core queue) s = stored (Run.finish { r with s := { r.s with stage := r.s.stage.modSlot q i Slot.empty } })))

/-- SEND_SLOT with a held credit, a path and a tag sends the slot's data under the credit. -/
def Obligations.SendSlotSendsUnderItsCredit : Prop :=
  ∀ (core : CoreId) (queue : QueueId) (port : PortId) (s : State) (b : Block) (d : BitVec 512) (k : MbQueue) (a : StageAddr) (gen : BitVec 16) (via : Via) (p tag : Nat) (r' : Run),
    let q := fld (cmdBody d) 1 0
    let i := fld (cmdBody d) 15 8
    let r0 := entered core.val queue.val s b d
    let r1 : Run := { r0.modSlot q i fun x => { x with state := 4, counter := 0 } with e := { r0.e with cursor := 1 } }
    let r2 := r1.fixProfile ((r1.s.endpoint a.endpoint.toNat).bind fun e => e.profile)
    let rs := fld (cmdBody d) 63 32 % a.peerInSlots
    starts 0x05 core.val queue.val s anyTime b d = true → r0.s.stage.queue q = some k → slotThere r0.s q i = true → (r0.s.stage.slot q i).state = 3 →
    (r0.s.stage.slot q i).mb = fb (cmdBody d) 32 32 → r1.s.ovt.replay = none → r1.s.stage.receiver q = some a → gateOf r2.s (some a.endpoint.toNat) port.val = .go via p →
    (r2.s.stage.rslot q rs).credit = some gen → r2.s.freeTag core.val = some tag → r2.coherent [(slotAddr k i, slotExpected k (r2.s.stage.slot q i))] [] = .go r' →
    exec (.sendSlot core queue port) s = stored (r'.launch k q i tag via a.endpoint.toNat rs gen ((r'.e.profile.map BitVec.toNat).getD p))

/-- MATMUL and CONV run their panels in order: each panel's operands are loaded, its accumulators go through the epilogue, and its outputs are written in their layout; then the checks are judged and the tap is appended. ELTWISE multiplies, and its products take the same epilogue. `us` are the errors that the arrays meet, and `late` the outputs that are not yet written when the next command comes, which are held back until the completion (log entry 55). -/
def Obligations.MatrixCommandsComputeTheirOutputs : Prop :=
  ∀ (core : CoreId) (queue : QueueId) (us : List ArrayUpset) (late : List Nat) (s : State) (b : Block) (d : BitVec 512) (x : BitVec 512),
    let r := takeArrays (entered core.val queue.val s b d)
    let a := (entered core.val queue.val s b d).actl
    (∀ op, (op = 0x10 ∨ op = 0x11) → starts op core.val queue.val s (arraysAccept core.val queue.val) b d = true →
      let m := matArgs d
      let c := epiCfg m.epi
      let r0 := (r.readRec c).2
      let ls := late.eraseDups.filter fun i => decide (i < m.tokens * m.vectors)
      (r.readRec c).1 = some x → dropTooFar c x m.tokens m.vectors = false →
      let w := matPanels m a c x us ls r0
      w.run.e.done = false →
      let t := (w.run.checked (allChecks m a us w.reached w.rows w.wts)).tap c x a (tapImage m.tokens m.vectors c.fmt w.outs)
      exec (if op = 0x10 then .matmul core queue us late else .conv core queue us late) s
        = stored (t.holdBack r0.k m.out c.fmt (ls.map fun i =>
            (m.out + layoutOff m.vectors c.fmt (i / m.vectors) (i % m.vectors), (((w.outs.getD (i / m.vectors) [])[i % m.vectors]?).map fun o => o.flags).getD 0))).outsDone)
    ∧ (∀ (m : MatArgs) (c : EpiCfg) (ls : List Nat) (st : MatRun) (lt p : Nat) (v : EpiVecs), st.run.e.done = false →
      let lanes := (shapeGeom m.shape m.statFmt).lanes
      let t0 := lt * lanes
      let n0 := p * m.panel
      let tn := min lanes (m.tokens - t0)
      let nn := min m.panel (m.vectors - n0)
      let g := loadPanel m a lt p tn nn st
      let start := accStart m a t0 tn n0 nn g.2.2
      let rv := start.2.readVecs c x n0 nn
      rv.1 = some v →
      (matPanel m a c x us ls st (lt, p)).run = rv.2.writeGrid m.out m.vectors c.fmt t0 n0 ls (epiGrid rv.2.k rv.2.e a us c x v t0 n0 (accumulators m a us lt p g.1 g.2.1 start.1)))
    ∧ (∀ v, starts 0x12 core.val queue.val s (arraysAccept core.val queue.val) b d = true →
      let bd := cmdBody d
      let c := epiCfg (fb bd 320 64)
      let n := eltCount bd
      let out := fld bd 183 160
      let ls := late.eraseDups.filter fun i => decide (i < n)
      (r.readRec c).1 = some x → dropTooFar c x 1 n = false →
      let g := readElts a (fld bd 18 16) (fld bd 22 20) (fld bd 119 96) (fld bd 151 128) n (r.readRec c).2
      let rv := g.2.readVecs c x 0 n
      rv.1 = some v →
      let outs := (epiGrid rv.2.k rv.2.e a us c x v 0 0 [(g.1.map (eltProduct a)).zipIdx.map fun p => (drainErr us 0 p.2 p.1.1, p.1.2)]).flatten
      let w := (rv.2.localWrite out out (outBytes c.fmt outs)).flag (dueFlags ls 0 outs)
      exec (.eltwise core queue us late) s
        = stored ((w.tap c x a (outs.flatMap fun o => leBytes (fmtBytes c.fmt) o.tap)).holdBack rv.2.k out c.fmt (ls.map fun i =>
            (out + i * fmtBytes c.fmt, ((outs[i]?).map fun o => o.flags).getD 0))).outsDone)

/-- The vector commands work row by row while no access of theirs fails: each row's operands are read, its results computed by the command's row function and written. -/
def Obligations.VectorCommandsWorkRowByRow : Prop :=
  ∀ (core : CoreId) (queue : QueueId) (s : State) (b : Block) (d : BitVec 512),
    let r := takeVector (entered core.val queue.val s b d)
    let v := vecArgs d
    let a := actlOf v.actl
    (∀ op (i : Instr), (op, i) ∈ [(0x20, Instr.vecElem core queue), (0x21, .vecFunc core queue), (0x22, .vecRowstat core queue), (0x23, .vecSoftmax core queue), (0x24, .vecNorm core queue)] →
      starts op core.val queue.val s (vectorAccepts core.val) b d = true → ¬(v.op = 0x20 ∧ v.func = 9) → exec i s = stored (Run.vecRows v 0 v.rows 0 r).finish)
    ∧ (∀ x, starts 0x20 core.val queue.val s (vectorAccepts core.val) b d = true → v.func = 9 → (r.readRec (dropCfg v)).1 = some x → dropTooFar (dropCfg v) x v.rows v.len = false →
      exec (.vecElem core queue) s = stored (Run.vecRows v x v.rows 0 (r.readRec (dropCfg v)).2).finish)
    ∧ (∀ (x : BitVec 512) (row : Nat) (r : Run) (xv yv zv : List FV), v.unary = false →
      let xs := r.rowVals true a v.aFmt v.a (row * v.stride v.aFmt) v.len
      let ys := xs.2.rowVals v.uses.1 a v.bFmt v.b (if v.bBcast then 0 else row * v.stride v.bFmt) v.len
      let zs := ys.2.rowVals v.uses.2.1 a v.bFmt v.c (if v.cBcast then 0 else row * v.stride v.bFmt) v.len
      ¬(v.op = 0x23 ∧ v.func = 1) → xs.1 = some xv → ys.1 = some yv → zs.1 = some zv → r.vecRow v x row = zs.2.writeRow (plainRow v a row xv yv zv))
    ∧ (∀ (x : BitVec 512) (row : Nat) (r : Run) (xv : List FV) (p : (FV × Flags) × (FV × Flags)),
      let xs := r.rowVals true a v.aFmt v.a (row * v.stride v.aFmt) v.len
      v.op = 0x23 → v.func = 1 → xs.1 = some xv → (xs.2.softRec v a row).1 = some p → r.vecRow v x row = (xs.2.softRec v a row).2.writeRow (onlineRow v a row xv p.1 p.2))
    ∧ (∀ (x : BitVec 512) (row : Nat) (r : Run) (bs : List Byte), v.unary = true →
      (r.rowBytesAt v.a (v.a + row * v.stride v.aFmt) (rowBytes v.aFmt v.len)).1 = some bs →
      let w := (r.rowBytesAt v.a (v.a + row * v.stride v.aFmt) (rowBytes v.aFmt v.len)).2
      r.vecRow v x row = w.writeRow (if v.op = 0x21 then rowOut v a row true (joinVals ((decodeElems a v.aFmt bs).map (funcElem w.k v a)))
        else if v.func = 9 then dropRow w.e v a x row bs else copyRow v a row (decodeElems a v.aFmt bs)))

/-- COPY, REMOTE_WRITE, REMOTE_READ and TAG do their work, once a ring side of theirs, if any, has reserved its bytes: a transfer inside the device moves its bytes, a write into another chip leaves as frames under a tag, a read from another chip asks for its bytes, and tags are set or awaited. -/
def Obligations.DmaCommandsDoTheirWork : Prop :=
  ∀ (core : CoreId) (queue : QueueId) (port : PortId) (s : State) (b : Block) (d : BitVec 512),
    let r := entered core.val queue.val s b d
    let n := dmaLen d
    let sd := dmaSides r.s core.val d
    (∀ r0, ((r.reserve n = none ∧ r0 = r) ∨ (r.reserve n = some r0 ∧ r0.e.wait = .none)) →
      (∀ r1, starts 0x30 core.val queue.val s anyTime b d = true → sd.1.remote = false → sd.2.remote = false → r0.coherent (sideRange sd.1 0 n) (sideRange sd.2 0 n) = .go r1 →
        let r2 := Run.chunks sd false r1.tagPlan n (2 * (n / 2048 + 8)) r1
        r2.e.done = false → n ≤ r2.e.cursor → exec (.copy core queue port) s = stored (r2.countCopy sd.2 n).finish)
      ∧ (∀ r1 via p tag, starts 0x31 core.val queue.val s anyTime b d = true → sd.1.remote = false → sd.2.remote = true → (r0.coherent (sideRange sd.1 0 n) []) = .go r1 →
        gateOf r1.s (r1.target sd.2).1 port.val = .go via p →
        let r2 := Run.chunks sd true { r1.tagPlan with guarded := false, publish := false } n (n / 2048 + 8) r1
        r2.e.done = false → n ≤ r2.e.cursor → gateOf r2.s (r2.target sd.2).1 port.val = .go via p → r2.s.freeTag core.val = some tag →
        exec (.remoteWrite core queue port) s = stored (Run.block { r2 with
          s := sendWrite r2.s (.cmd core.val queue.val r.e.id) .write tag via ((r2.target sd.2).1.getD 0) 2 { (r2.target sd.2).2.1 with publish := r2.field 15 14 == 2 } (r2.target sd.2).2.2 (bufBytes r2.e.buf)
          e := { r2.e with cursor := n + 1, buf := [] } } .net))
      ∧ (∀ r1, starts 0x32 core.val queue.val s anyTime b d = true → sd.1.remote = true → r0.coherent [] (sideRange sd.2 0 n) = .go r1 →
        let r2 := Run.issueReads sd r1.tagPlan n port.val (n + 1) r1
        r2.e.done = false → r2.ops ≠ [] → exec (.remoteRead core queue port) s = stored (if r2.e.wait = .none then r2.block .net else r2)))
    ∧ (starts 0x33 core.val queue.val s anyTime b d = true → (r.tagRange.find? fun i => r.k.segDead (2048 * i)) = none →
      let op := fld (cmdBody d) 33 32
      (op < 2 → exec (.tag core queue) s = stored (r.setSlots (r.tagRange.map fun i => (core.val, i)) (op == 1)).finish)
      ∧ (2 ≤ op →
        let met := r.tagRange.filter fun i => r.k.full i == (op == 2)
        let e : Started := { r.e with granted := met.map fun i => (i, op == 2) }
        exec (.tag core queue) s = stored (match e.firstUnmet (op == 2) with
          | none => Run.finish { r with e := e }
          | some i => Run.block { r with e := e } (.tagSlot i (op == 2) (2048 * i)))))
    ∧ (∀ i, starts 0x33 core.val queue.val s anyTime b d = true → (r.tagRange.find? fun i => r.k.segDead (2048 * i)) = some i → fld (cmdBody d) 33 32 < 2 →
      exec (.tag core queue) s = stored ((r.setSlots ((r.tagRange.takeWhile fun i => !r.k.segDead (2048 * i)).map fun i => (core.val, i)) (fld (cmdBody d) 33 32 == 1)).failWith 0x302 (2048 * i)))

/-- The save commands do their work: a record is opened, appended to, closed and restored from. -/
def Obligations.SaveCommandsDoTheirWork : Prop :=
  ∀ (core : CoreId) (queue : QueueId) (s : State) (b : Block) (d : BitVec 512),
    let r := entered core.val queue.val s b d
    let bd := cmdBody d
    let st := fld bd 10 8
    (starts 0x40 core.val queue.val s anyTime b d = true →
      let m := tget StreamMode.init r.k.cfg.streams st
      let range := recRange r.s (fld bd 15 12) (fld bd 135 96) (fld bd 91 64) m.coding.toNat
      inRegion r.s (fld bd 15 12) (fld bd 135 96) (fld bd 91 64) m.coding.toNat = true → hits range.1 range.2 (openRanges r.s) = false → r.k.saveRec st = none →
      exec (.saveOpen core queue) s = stored (Run.finish { r with s := r.s.setRec core.val st (some
        { queue := queue.val, region := fld bd 15 12, offset := fld bd 135 96, blocks := fld bd 91 64, used := 0, coding := m.coding, view := m.view, written := 0 }) }))
    ∧ (starts 0x41 core.val queue.val s (saveAccepts core.val) b d = true → appendFault r st (ceilDiv (fld bd 63 32) 4096) true = none →
      let g := r.localRead (fld bd 183 160) (fld bd 183 160) (fld bd 63 32)
      exec (.saveCopy core queue) s = stored ((g.2.append st (actlOf (fb bd 0 8)) g.1 true).claims st).finish)
    ∧ (∀ x, starts 0x42 core.val queue.val s anyTime b d = true → r.k.saveRec st = some x → x.queue = queue.val → streamBusy r.s core.val st = false →
      exec (.saveClose core queue) s = stored (Run.finish { r with s := r.s.setRec core.val st none, e := { r.e with result := BitVec.ofNat 32 (min x.written 0xFFFFFFFF) } }))
    ∧ (starts 0x43 core.val queue.val s anyTime b d = true →
      inRegion r.s (fld bd 15 12) (fld bd 135 96) (fld bd 91 64 + ceilDiv (fld bd 63 32) 4096) (fld bd 17 16) = true →
      let g := restoreBlocks (actlOf (fb bd 0 8)) (fld bd 17 16) (recRange r.s (fld bd 15 12) (fld bd 135 96) 0 (fld bd 17 16)).1 (ceilDiv (fld bd 63 32) 4096) (fld bd 91 64) r
      exec (.restore core queue) s = stored (g.2.localWrite (fld bd 183 160) (fld bd 183 160) (g.1.take (fld bd 63 32))).finish)

/-- The Tarn commands and events do their work: a query joins the collecting batch, an insert appends, a delete stamps the positions reached, a publish advances the epoch once no earlier write is left; a batch closes at its timer, is streamed and goes on; a rewrite ends. -/
def Obligations.TarnCommandsDoTheirWork : Prop :=
  (∀ (core : CoreId) (queue : QueueId) (s : State) (b : Block) (d : BitVec 512) (k : Index),
    let r := entered core.val queue.val s b d
    let l := fld (cmdBody d) 39 16
    r.s.index (fld (cmdBody d) 11 8) = some k →
    (starts 0x50 core.val queue.val s queryAccepts b d = true →
      let a := queryArgs d
      let j : Index := { k with collecting := k.collecting ++ [{ core := core.val, queue := queue.val, id := r.e.id, pool := none }] }
      r.e.absent = false → k.floor.toNat ≤ a.epoch → a.epoch ≤ k.published.toNat →
      exec (.tarnQuery core queue) s = stored (Run.block { r with s := r.s.modIndex a.index fun _ => if k.rdvMax ≤ j.collecting.length ∨ k.rdvWait = 0 ∨ a.flush = true then closeBatch j else j } .batch))
    ∧ (∀ r1, starts 0x51 core.val queue.val s anyTime b d = true → r.e.absent = false → l < k.lists → k.rewriting l = false → deleting r.s (fld (cmdBody d) 11 8) = false → k.pendingEpoch ≠ 0xFFFFFFFF →
      let n := fld (cmdBody d) 55 40 + 1
      let sz := entryBytes k.width
      let src := fld (cmdBody d) 167 128
      r.coherent [(src, n * sz)] [] = .go r1 →
      let e := r1.dirRead k l
      let g := e.2.devRead src (n * sz)
      e.1.length + n ≤ e.1.cap → (g.1.any fun b => !b.got) = false →
      let w := g.2.devWrite (e.1.log + e.1.length * sz) ((chunksOf sz n (travel (.dev src) g.1)).flatMap (entryImage k.width k.pendingEpoch))
      let w := w.devWrite (e.1.tomb + 4 * e.1.length) (cleanBytes (List.replicate (4 * n) 0xFF#8))
      let w := w.devWrite (k.dir + 32 * l + 12) (cleanBytes (leBytes 4 (e.1.length + n)))
      exec (.tarnInsert core queue) s = stored (Run.finish { w with e := { w.e with result := BitVec.ofNat 32 e.1.length, cursor := 1 } }))
    ∧ (∀ first : List Nat, starts 0x52 core.val queue.val s anyTime b d = true → r.e.absent = false → l < k.lists → k.rewriting l = false → deleting r.s (fld (cmdBody d) 11 8) = false → k.pendingEpoch ≠ 0xFFFFFFFF →
      let e := (r.doing first).dirRead k l
      let y := ((List.range e.1.length).filter fun j => first.contains j).foldl (Run.stamp k e.1 (fld (cmdBody d) 103 64)) (0, e.2)
      exec (.tarnDelete core queue first) s = stored { y.2 with e := { y.2.e with result := y.2.e.result + BitVec.ofNat 32 y.1, cursor := 1 } })
    ∧ (starts 0x53 core.val queue.val s anyTime b d = true → r.e.absent = false → k.pendingEpoch ≠ 0xFFFFFFFF →
      deleting r.s (fld (cmdBody d) 11 8) = false → (r.s.allStarted.any fun e => applied (fld (cmdBody d) 11 8) e.2.2) = false →
      exec (.epochPublish core queue) s = stored (Run.finish { r with
        s := r.s.modIndex (fld (cmdBody d) 11 8) fun x => { x with published := k.pendingEpoch, pendingEpoch := k.pendingEpoch + 1 }, e := { r.e with result := k.pendingEpoch } })))
  ∧ (∀ (index : Fin 16) (s : State) (k : Index), s.index index.val = some k →
    (k.collecting ≠ [] → k.closed = none → exec (.rendezvousTimeout index) s = .next (s.modIndex index.val fun k => { k with closed := some k.collecting, collecting := [] }))
    ∧ (∀ port : PortId, s.power.standby = false → s.clocked = true → batchOver s k = false → exec (.batchRun index port) s = .next (k.running.foldl (stepQuery port.val) s))
    ∧ (∀ (port : PortId) l, s.power.standby = false → s.clocked = true → batchOver s k = true → k.closed = some l → l.flatMap (queryLines s k) = [] →
      let t := streamBatch (l.foldl dropLines s) index.val k l
      exec (.batchRun index port) s = .next (serveHost (((t.index index.val).getD k).running.foldl (stepQuery port.val) t)))
    ∧ (∀ list w h, s.power.standby = false → s.clocked = true → (k.rewrites.find? fun w => w.list == list) = some w →
      (s.allStarted.any fun e => cmdOp e.2.2.desc == 0x52 && applied index.val e.2.2 && !e.2.2.done && fld (cmdBody e.2.2.desc) 39 16 == list) = false →
      let t := (rewriteList s k w).1.modIndex index.val fun k => { k with rewrites := k.rewrites.filter fun x => x.list != list }
      t.heldBy w.src = some h → exec (.rewriteComplete index list) s = .next (resumeWaiting (endHeld t h (rewriteList s k w).2) fun x => x == .rewrite)))

/-- BUCKET_ADD adds into its bucket, BUCKET_FLUSH runs its stages, and UPDATE reads, computes and writes its blocks. Which lines and blocks are written at once, `first` says; the rest is on its way. -/
def Obligations.GradientCommandsDoTheirWork : Prop :=
  ∀ (core : CoreId) (queue : QueueId) (port : PortId) (s : State) (b : Block) (d : BitVec 512) (k : Bucket) (g : Group),
    let r := entered core.val queue.val s b d
    let bd := cmdBody d
    (r.s.bucket (bucketOf d) = some k → r.s.group k.group = some g → g.broken = false →
      (∀ (r1 : Run) (first : List Nat), starts 0x60 core.val queue.val s bucketAccepts b d = true →
        let n := fld bd 95 64 + 1
        let sf := fld bd 21 21
        let at' := k.addr + fld bd 63 32 * k.elem
        let fresh : Bool := fld bd 20 20 == 1
        (r.doing first).coherent (if fresh then [] else [(at', n * k.elem)]) [(at', n * k.elem)] = .go r1 →
        let src := r1.localRead (fld bd 119 96) (fld bd 119 96) (n * fmtBytes sf)
        (src.1.any fun x => !x.got) = false →
        let bs := (addLines k at' n).foldl (fun acc l =>
          let d := addLine k (actlOf (fb bd 0 8)) fresh sf (fld bd 119 96) at' acc.2 l.1 l.2
          (acc.1 ++ [d.1], d.2)) (([], r1) : List (List BufPart) × Run)
        let w := bs.2.putBlocks first.contains bs.1
        exec (.bucketAdd core queue first) s = stored (if w.e.buf.isEmpty then w.finish else w))
      ∧ (starts 0x61 core.val queue.val s bucketAccepts b d = true → (g.ranks.findSome? fun ep => (memberFault r.s ep.toNat).map fun st => (st, ep)) = none →
        exec (.bucketFlush core queue port) s = stored (Run.flushStages k k.group g port.val 8 r)))
    ∧ (∀ (r1 : Run) (first : List Nat), starts 0x70 core.val queue.val s updateAccepts b d = true → let u := updArgs d
      let o := r.s.optSlot u.slot
      updateOk r.s d = true → (takeUpdate (r.doing first)).coherent (u.used o) (u.used o) = .go r1 →
      let bs := updateBlocks u o (actlOf u.actl) (u.count / 32 + 1) 0 r1
      let w := bs.2.putBlocks first.contains bs.1
      exec (.update core queue first) s = stored (if w.e.buf.isEmpty then w.finish else w))

/-- A command whose work is done, that its units have run and whose record needs no snoop, completes, and one whose record needs snoops sends them; the queue's timer ends a started wait (of WAIT, WAIT_SLOT, SEND_SLOT, a flush, a tag or a ring) whose condition has not come, and the next command's WAIT_EVENT condition; the consumer's head is taken; arrays ramp. DETAIL of a wait that names neither tag nor ring is not stated (log entry 3). -/
def Obligations.QueueEventsDoTheirWork : Prop :=
  ∀ (core : CoreId) (queue : QueueId) (s : State) (e : Started),
    (∀ id port, s.clocked = true → s.started core.val queue.val id = some e → e.done = true → unitsDone (s.core core.val) queue.val id = true → (s.power.standby && stopsInStandby e.desc) = false →
      (linesDue s core.val queue.val e = [] → exec (.commandComplete core queue id port) s = .next (serveHost (retire s core.val queue.val e)))
      ∧ (linesDue s core.val queue.val e ≠ [] → exec (.commandComplete core queue id port) s
          = .next (sendSnoops (s.modStarted core.val queue.val id fun e => { e with lines := linesDue s core.val queue.val e }) (linesDue s core.val queue.val e) true)))
    ∧ (∀ id, s.started core.val queue.val id = some e → e.done = false → waitOver s core.val queue.val e = false →
      let ended (detail : BitVec 32) : State := s.modStarted core.val queue.val e.id fun x => { x.fault 0x304 detail.toNat with done := true, wait := .none }
      (∀ n full a, e.wait = .tagSlot n full a → exec (.waitTimeout core queue (some id)) s = .next (ended (BitVec.ofNat 32 n)))
      ∧ (∀ i, e.wait = .circular i → exec (.waitTimeout core queue (some id)) s = .next (ended (BitVec.ofNat 32 (2 ^ 31 + i))))
      ∧ (e.wait = .program → ∃ detail, exec (.waitTimeout core queue (some id)) s = .next (ended detail)))
    ∧ (∀ b d, nextCmd (s.queue core.val queue.val) = some (b, d) → queueOpen s core.val queue.val = true → waitMet (s.core core.val) d = false →
      let x := { startedOf (s.queue core.val queue.val) b d with wait := .program }
      ∃ detail : BitVec 32, exec (.waitTimeout core queue none) s = .next ((beginCmd s core.val queue.val b x).modStarted core.val queue.val x.id fun y => { y.fault 0x304 detail.toNat with done := true, wait := .none }))
    ∧ (∀ r head, (s.queue core.val queue.val).cpl = some r → (head - r.written).toInt ≤ 2 ^ r.log2 →
      exec (.consumerHeadUpdate core queue head) s = .next ((hbmWrite s r.headAddr (cleanBytes (vecBytes head))).s.modQueue core.val queue.val fun u => { u with cpl := some { r with head := head } }))
    ∧ (∀ (array : Fin 4) (ends : Bool), exec (.rampDown core array ends) s = .next (s.modCore core.val fun k => { k with arrays := tmod ArrayState.init k.arrays array.val fun x =>
        match ends with
        | false => if x.gated = 0xF then x else { x with rampDown := true, rampUp := false }
        | true => if x.cmds = [] then x else { x with rampDown := false, rampUp := x.gated != 0 } }))
    ∧ (∀ c a, s.clocked = true → s.nextRamp = some (c, a) →
      let t := s.modCore c fun k => { k with arrays := tmod ArrayState.init k.arrays a ArrayState.ramp, lastRamp := a }
      exec .rampGrant s = .next { t with power := { t.power with rampCore := c } })

/-- Register writes take effect while the host link is up and the clocks run, and reads return what the registers hold, write-only registers zero; the mailbox timers and fetch errors take effect. That clearing ENABLE takes a READY channel to DISABLED is the model's reading (log entry 71). -/
def Obligations.RegisterCommandsTakeEffect : Prop :=
  (∀ s : State, s.hostOpen = true →
    (∀ (n : ChanId) (v : BitVec 32), exec (.mbxDoorbell n v) s = .next (evalDoorbell (s.modChan n.val fun c => { c with doorbell := fb v 0 16 }) n.val))
    ∧ (∀ n : ChanId, exec (.channelReset n) s = .next (resetChan s n.val))
    ∧ (∀ n : ChanId, (s.chan n.val).enabled = false → (s.chan n.val).state = 0 → s.ready = true → (s.chan n.val).reqBase ≠ 0 → (s.chan n.val).cplBase ≠ 0 →
        exec (.enable n true) s = .next (evalDoorbell (s.modChan n.val fun c => { c with enabled := true, state := 1, phase := true }) n.val))
    ∧ (∀ n : ChanId, exec (.enable n false) s = .next (s.modChan n.val fun c => { c with enabled := false, state := if c.state = 1 then 0 else c.state }))
    ∧ (∀ (n : ChanId) (v : BitVec 32), exec (.mbxCplHead n v) s = .next (s.modChan n.val fun c => { c with cplHead := fb v 0 16 }))
    ∧ (∀ v : BitVec 32, bit v 0 = true → (s.boot.fwStage = 1 ∨ s.boot.fwStage = 7) → s.boot.bootAddr ≠ 0 →
        exec (.bootGo v) s = .next (State.setFwStage { s with boot := { s.boot with fetching := true, reason := 0 } } 2))
    ∧ (∀ v : BitVec 32, fld v 7 0 = 0xD5 → exec (.resetCtl v) s = .next { s with boot := { s.boot with resetDue := true } })
    ∧ (∀ v : BitVec 32, exec (.fwIrqStatus v) s = .next { s with irq := { s.irq with status := s.irq.status &&& ~~~(fb v 0 3) } })
    ∧ (∀ (c : CoreId) (v : BitVec 32), bit v 0 = true → exec (.spadConflictClr c v) s = .next (s.modCore c.val fun k => { k with conflictCount := 0, conflictCapture := 0 }))
    ∧ (∀ bar o (v : BitVec 64), o % 4 = 0 → exec (.registerWrite bar o 4 v false) s = .next (writeWord bar s o (fb v 0 32)))
    ∧ (∀ bar o (v : BitVec 64), o % 8 = 0 → exec (.registerWrite bar o 8 v false) s = .next (writeWord bar (writeWord bar s o (fb v 0 32)) (o + 4) (fb v 32 32)))
    ∧ (∀ bar o n (v : BitVec 64), exec (.registerWrite bar o n v true) s = .next (s.emit .aer))
    ∧ (∀ o n (v : BitVec 64), ¬((n = 4 ∨ n = 8) ∧ o % n = 0) → exec (.registerWrite .bar0 o n v false) s = .next (s.postErr (mkErr 0x201 0 6 0)))
    ∧ (∀ o, o % 4 = 0 → readRegister s .bar0 o 4 = some (0#32 ++ readBar0 s o) ∧ readRegister s .bar4 o 4 = some (0#32 ++ readBar4 s o))
    ∧ (∀ o, o % 8 = 0 → readRegister s .bar0 o 8 = some (readBar0 s (o + 4) ++ readBar0 s o) ∧ readRegister s .bar4 o 8 = some (readBar4 s (o + 4) ++ readBar4 s o))
    ∧ (∀ v : BitVec 64, bootAddrOpen s = true → ∃ t, exec (.registerWrite .bar0 0x10 8 v false) s = .next t ∧ readBar0 t 0x10 = fb v 0 32 &&& 0xFFFFF000 ∧ readBar0 t 0x14 = fb v 32 32))
  ∧ (∀ (s : State) (c : CoreId), readBar0 s 0x18 = 0 ∧ readBar0 s 0x1C = 0 ∧ readBar0 s (0x200000 + 16 * c.val + 8) = 0 ∧ readBar0 s 0 = 0x03B13384
    ∧ (s.sec.sensed = false → readBar0 s 0x3000 = 0 ∧ readBar0 s 0x3008 = 0 ∧ readBar0 s 0x300C = 0))
  ∧ (∀ s : State,
    (∀ n : ChanId, (s.chan n.val).unsignalled ≠ 0 → fld (s.chan n.val).moderation 31 16 ≠ 0 → (s.chan n.val).irqEnable = true →
      exec (.moderationTimer n) s = .next ((s.modChan n.val fun c => { c with unsignalled := 0 }).raise (s.chan n.val).vector.toNat))
    ∧ (∀ h x, s.ready = true → x ∈ s.mbx.sessions → x.handle = h → x.leaseMs ≠ 0 → exec (.sessionLeaseExpiry h) s = .next (closeSession s h))
    ∧ (∀ n : ChanId, canDequeue s (.chan n) = true → exec (.fetchError n) s = .next (s.modChan n.val fun c => { c with state := 2, reason := 3 })))

/-- The host window and the host link: reads return bytes, writes change them, the tracker follows the meta-value, snoops end; training and the link reset, which leaves HBM, scratchpads and the stage alone where nothing waited on the host. That a MemRdData with I leaves the tracker entry as it was, and how writes and responses that cross are ordered, are the model's choice (log entries 45, 79). -/
def Obligations.HostWindowCommandsTakeEffect : Prop :=
  (∀ s : State, s.hostOpen = true →
    (∀ o n a, s.host.committed = false → inWindow s o n = some a →
      exec (.bar2Read o n) s = .next ((hbmRead s a n).2.2.emit (.bar2Data (vals (hbmRead s a n).1) (anyMark (hbmRead s a n).1))))
    ∧ (∀ o (bs : List Byte) p a, s.host.committed = false → inWindow s o bs.length = some a → exec (.bar2Write o bs p) s = .next (hbmWrite s a (markBytes p bs)).s)
    ∧ (∀ line a, lineAddr s line = some a →
      exec (.memClnEvct line) s = .next (((crossLine s line).track line none).emit (.cxlCmp line))
      ∧ (∀ (bs : List Byte) p, (s.snooped line = true ∨ s.claimed line = false) → exec (.memWr line .i bs p) s = .next (((crossLine (hbmWrite s a (markBytes p (padTo 64 bs))).s line).track line none).emit (.cxlCmp line)))
      ∧ (∀ (bs : List Byte) be p, (s.snooped line = true ∨ s.claimed line = false) → exec (.memWrPtl line .i bs be p) s = .next (((crossLine (hbmWrite s a (enabledBytes (padTo 64 bs) be p)).s line).track line none).emit (.cxlCmp line))))
    ∧ (∀ line a, lineAddr s line = some a → s.claimed line = false →
      exec (.memInv line) s = .next ((s.track line none).emit (.cxlCmp line))
      ∧ exec (.memRd line .i) s = .next ((readLine s line a).track line none)
      ∧ exec (.memRdData line .i) s = .next (readLine s line a)
      ∧ (s.host.tracker.length < trackerSize →
          exec (.memRd line .a) s = .next ((readLine s line a).track line (some true)) ∧ exec (.memRd line .s) s = .next ((readLine s line a).track line (some false))
          ∧ exec (.memRdData line .a) s = .next ((readLine s line a).track line (some true)) ∧ exec (.memRdData line .s) s = .next ((readLine s line a).track line (some false))))
    ∧ (∀ line, s.snooped line = true →
      exec (.biRsp line .i) s = .next (releaseLine ((endSnoop s line).track line none) line)
      ∧ exec (.biRsp line .s) s = .next (releaseLine ((endSnoop s line).track line (if s.crossed line then none else some false)) line)
      ∧ exec (.biRsp line .e) s = .next (releaseLine ((endSnoop s line).track line (if s.crossed line then none else some true)) line)
      ∧ ((s.host.waiting.any fun r => match r.instr with | .memInv l => l == line | _ => false) = false → exec (.biConflict line) s = .next (s.emit (.conflictAck line)))
      ∧ exec (.snoopTimeout line) s = .next (releaseLine { (endSnoop s line).postErr (mkErr 0x507 2 6 0) with host := { (endSnoop s line).host with unresponsive := true } } line))
    ∧ (∀ (base size : BitVec 64) w, s.host.cxl = true → s.host.committed = false → s.host.window = some w → size.toNat = w.2 →
      exec (.hdmDecoderCommit base size 1) s = .next { s with host := { s.host with committed := true, errNotCommitted := false, decBase := base } }))
  ∧ (∀ s : State, s.clocked = true →
    (∀ width gts, s.host.linkUp = false → (width = 4 ∨ width = 8 ∨ width = 16) →
      exec (.pcieLinkTrained width gts) s = .next { s with host := { s.host with linkUp := true, cxl := gts == 64 }, power := { s.power with perst := false } })
    ∧ (∀ cause, s.host.waiting = [] → s.telem.due = 0 → s.mbx.held = [] → s.allStarted = [] → s.ovt.jobs = [] → s.ovt.replay = none → s.boot.fwStage ≠ 2 → ∃ t, exec (.hostLinkReset cause) s = .next t
      ∧ t.host = { HostIf.init with linkUp := s.host.linkUp && cause == .flr, cxl := (s.host.linkUp && cause == .flr) && s.host.cxl }
      ∧ t.irq = Irq.init ∧ t.hbm = s.hbm ∧ t.cores = s.cores ∧ t.stage = s.stage ∧ t.fabric = s.fabric ∧ t.err = s.err
      ∧ (∀ n, n < 64 → (t.chan n).enabled = false ∧ (t.chan n).session = 0 ∧ (t.chan n).reqHead = 0 ∧ (t.chan n).reqTail = 0 ∧ (t.chan n).cplTail = 0 ∧ (t.chan n).cplHead = 0)))

/-- Frames that a port or a connection accepts and that meet their window or slot act on their target: writes land, reads are answered, slot writes are performed, each with its acknowledgement. -/
def Obligations.LinkFramesReachTheirTargets : Prop :=
  ∀ (via : Via) (f : Frame) (s : State),
    (∀ t, (acceptFrame s via 2 f).2 = true → (acceptFrame s via 2 f).1.boot.quarantined = false →
      frameTarget (acceptFrame s via 2 f).1 f f.payload.length = some t → windowReason (acceptFrame s via 2 f).1 f (some t) true = none →
      exec (.write via f) s = .next (landWrite (acceptFrame s via 2 f).1 via f t))
    ∧ (∀ t, (acceptFrame s via 3 f).2 = true → (acceptFrame s via 3 f).1.boot.quarantined = false → quarantineOf (acceptFrame s via 3 f).1 f.srcEp.toNat = none →
      frameTarget (acceptFrame s via 3 f).1 f (f.lenM1.toNat + 1) = some t → windowReason (acceptFrame s via 3 f).1 f (some t) false = none →
      (spadRead (acceptFrame s via 3 f).1 t.core t.addr (f.lenM1.toNat + 1)).dead = none →
      exec (.read via f) s = .next (respond (acceptFrame s via 3 f).1 via f 5 0 0 (spadRead (acceptFrame s via 3 f).1 t.core t.addr (f.lenM1.toNat + 1)).bytes))
    ∧ (∀ x, (acceptFrame s via 4 f).2 = true → (acceptFrame s via 4 f).1.boot.quarantined = false →
      slotCheck (acceptFrame s via 4 f).1 f.queue.toNat f.slot.toNat f = some x →
      exec (.slotWrite via f) s = .next (landSlot (acceptFrame s via 4 f).1 via f))

/-- A frame that its window refuses changes no memory: the refusal is logged and answered with REMOTE_REFUSED and its reason; a quarantined target answers QUARANTINED, and a source in quarantine gets no data: that its READ is answered with that status, and without a log record, is the model's reading (log entry 96). -/
def Obligations.RefusedFramesAreAnswered : Prop :=
  ∀ (via : Via) (f : Frame) (s : State) (n : Nat),
    (let a := (acceptFrame s via 2 f).1
     (acceptFrame s via 2 f).2 = true → a.boot.quarantined = false → windowReason a f (frameTarget a f f.payload.length) true = some n →
      exec (.write via f) s = .next (respond (logRefusal a (frameUnit a via f) f n f.window.toNat) via f 6 0x301 n []))
    ∧ (let a := (acceptFrame s via 3 f).1
     (acceptFrame s via 3 f).2 = true → a.boot.quarantined = false → quarantineOf a f.srcEp.toNat = none → windowReason a f (frameTarget a f (f.lenM1.toNat + 1)) false = some n →
      exec (.read via f) s = .next (respond (logRefusal a (frameUnit a via f) f n f.window.toNat) via f 5 0x301 n []))
    ∧ ((acceptFrame s via 2 f).2 = true → (acceptFrame s via 2 f).1.boot.quarantined = true → exec (.write via f) s = .next (respond (acceptFrame s via 2 f).1 via f 6 0x505 0 []))
    ∧ ((acceptFrame s via 3 f).2 = true → (acceptFrame s via 3 f).1.boot.quarantined = true → exec (.read via f) s = .next (respond (acceptFrame s via 3 f).1 via f 5 0x505 0 []))
    ∧ ((acceptFrame s via 3 f).2 = true → (acceptFrame s via 3 f).1.boot.quarantined = false → quarantineOf (acceptFrame s via 3 f).1 f.srcEp.toNat = some n →
      exec (.read via f) s = .next (respond (acceptFrame s via 3 f).1 via f 5 n 0 []))
    ∧ ((acceptFrame s via 4 f).2 = true → (acceptFrame s via 4 f).1.boot.quarantined = true → exec (.slotWrite via f) s = .next (respond (acceptFrame s via 4 f).1 via f 6 0x505 0 []))

/-- Responses reach the operation of their tag and generation, and slot credits their output queue; a response without an operation is counted and nothing else. That a credit's QUEUE q names output queue q + 2 is the model's reading (log entry 28). -/
def Obligations.ResponsesReachTheirOperations : Prop :=
  ∀ (via : Via) (f : Frame) (s : State),
    ((acceptFrame s via 5 f).2 = true →
      (∀ o, opFor (acceptFrame s via 5 f).1 f = some o → exec (.readData via f) s = .next (resumeOwner (landReadData (acceptFrame s via 5 f).1 o f) o.owner))
      ∧ (opFor (acceptFrame s via 5 f).1 f = none →
          exec (.readData via f) s = .next { (acceptFrame s via 5 f).1 with net := { (acceptFrame s via 5 f).1.net with stale := (acceptFrame s via 5 f).1.net.stale + 1 } }))
    ∧ ((acceptFrame s via 6 f).2 = true →
      (∀ o, opFor (acceptFrame s via 6 f).1 f = some o → exec (.writeAck via f) s = .next (resumeOwner (landAck (acceptFrame s via 6 f).1 o f) o.owner))
      ∧ (opFor (acceptFrame s via 6 f).1 f = none →
          exec (.writeAck via f) s = .next { (acceptFrame s via 6 f).1 with net := { (acceptFrame s via 6 f).1.net with stale := (acceptFrame s via 6 f).1.net.stale + 1 } }))
    ∧ ((acceptFrame s via 7 f).2 = true → ∀ a, f.queue.toNat < 2 → (acceptFrame s via 7 f).1.stage.receiver (f.queue.toNat + 2) = some a → a.endpoint = f.srcEp →
      f.slot.toNat < a.peerInSlots →
      ((acceptFrame s via 7 f).1.stage.rslot (f.queue.toNat + 2) f.slot.toNat).newest = none → ((acceptFrame s via 7 f).1.stage.rslot (f.queue.toNat + 2) f.slot.toNat).credit = none →
      ∃ g : State, exec (.slotCredit via f) s = .next (resumeWaiting g fun w => w == .program)
        ∧ (g.stage.rslot (f.queue.toNat + 2) f.slot.toNat).credit = some f.slotGen ∧ g.hbm = (acceptFrame s via 7 f).1.hbm ∧ g.cores = (acceptFrame s via 7 f).1.cores)

/-- Link-layer traffic takes effect: LINK_CTL, HELLO, TIME and RETRAIN_SYNC, dropped frames and repeated requests, and the timers that end a session. -/
def Obligations.LinkEventsTakeEffect : Prop :=
  ∀ (port : PortId) (s : State),
    let p := port.val
    (∀ f, (s.port p).live = true → s.clocked = true →
      let t := s.modPort p fun pt => (pt.acked f.ack).credited f.crVc.toNat f.crUnits.toNat
      (f.replayReq = false → exec (.linkCtl port f) s = .next (t.drain p))
      ∧ (f.replayReq = true → (s.port p).state = 2 → exec (.linkCtl port f) s = .next ((replayFrames t p).drain p))
      ∧ (f.replayReq = true → (s.port p).state ≠ 2 → exec (.linkCtl port f) s = .next ((t.modPort p fun pt => { pt with replayDue := true }).drain p)))
    ∧ (∀ h (l : LinkFields), (s.port p).live = true → s.clocked = true → h.generation ≠ 0x80 → (s.port p).switchSeen = false →
      let u := (s.modPort p fun pt => (pt.acked l.ack).credited l.crVc.toNat l.crUnits.toNat).drain p
      exec (.hello port h l) s = .next (agreeVersion (keepPeer (u.modPort p fun pt => { pt with ownHello := some h, peerHello := some h, conflict := false }) p h false) p h).rejudge)
    ∧ (∀ (t : TimeMsg) (l : LinkFields), (s.port p).live = true → s.clocked = true → (s.clock.mode = 1 ∨ s.clock.root = true) →
      let u := (s.modPort p fun pt => (pt.acked l.ack).credited l.crVc.toNat l.crUnits.toNat).drain p
      exec (.time port t l) s
        = .next (u.modPort p fun pt => { pt with lastTimeRx := t.gtcTx, lastTimeAt := s.clock.gtc, lastHops := t.hops, lastMode := t.mode, lastRoot := t.rootCoord }))
    ∧ (∀ id (l : LinkFields), s.clocked = true → (s.port p).state = 1 → (s.port p).agreed ≠ 0 → (s.port p).lanes = 0xFF → (s.port p).version = (s.port p).agreed →
      exec (.retrainSync port id l) s = .next
        (((s.modPort p fun pt => { pt.credited l.crVc.toNat l.crUnits.toNat with inSession := true, peerSessionId := some id, counts := { pt.counts with sessions := satInc pt.counts.sessions 1 } }).enterTarget p).flushCredits))
    ∧ (∀ id l, s.clocked = true → (s.port p).state ≠ 1 → (s.port p).inSession = true → (s.port p).peerSessionId ≠ some id →
      exec (.retrainSync port id l) s = .next ((s.endSession p).enterTraining p))
    ∧ ((s.port p).state ≠ 0 → (s.port p).live = false →
      exec (.frameDrop port) s = .next (s.modPort p fun pt => { pt with counts := { pt.counts with crcErrors := satInc pt.counts.crcErrors 1 } }))
    ∧ ((s.port p).live = true → (s.port p).replayAsked = some (s.port p).rxSeq → exec (.replayRequestRepeat port) s = .next (askReplay s p))
    ∧ ((s.port p).lostTimer = true → (s.port p).inSession = true → exec (.linkLostTimer port) s = .next ((s.endSession p).enterTraining p))
    ∧ ((s.port p).inSession = true → (∃ o ∈ s.net.ops, allSent s o = true ∧ o.via = .port port) → exec (.responseTimer port) s = .next ((s.endSession p).enterTraining p))
    ∧ ((s.port p).state = 2 → (s.clock.mode = 1 ∨ s.clock.root = true) → (s.port p).lastTimeRx = 0 →
      exec (.timeFrameTx port) s = .next (s.emit (.time port { gtcTx := s.clock.gtc, echoTx := 0, echoHold := 0, correction := 0, rootCoord := s.fabric.coord, hops := s.clock.hops, mode := s.clock.mode })))

/-- Training takes effect: lanes lock and unlock, attempts time out, re-equalization starts again. -/
def Obligations.TrainingEventsTakeEffect : Prop :=
  ∀ (port : PortId) (s : State),
    let p := port.val
    s.clocked = true →
    (∀ id, (s.port p).lanes ≠ 0xFF → (s.port p).state = 1 → (s.port p).agreed = 0 →
      exec (.laneLock port id) s = .next ((s.modPort p fun pt => { pt with lanes := 0xFF, version := 1 }.withId id).sendHello p))
    ∧ (∀ id, (s.port p).lanes ≠ 0xFF → (s.port p).state = 3 → exec (.laneLock port id) s = .next (sendSync (s.modPort p fun pt => { pt with lanes := 0xFF }) p))
    ∧ (∀ lane : Fin 8, (s.port p).state = 3 → exec (.laneUnlock port lane) s = .next (s.modPort p fun pt => { pt with lanes := (s.port p).lanes &&& ~~~(1#8 <<< lane.val) }))
    ∧ (∀ lane, (s.port p).state = 1 → exec (.laneUnlock port lane) s = .next (s.modPort p fun pt => { pt with state := 1, version := 0, lanes := 0, agreed := 0, ownHello := none, switchSeen := false, adopted := false, lastHops := 0xFF }))
    ∧ (∀ lane, (s.port p).state = 2 → ∃ t, exec (.laneUnlock port lane) s = .next t ∧ (t.port p).state = 3 ∧ (t.port p).inSession = (s.port p).inSession ∧ (t.port p).unacked = (s.port p).unacked)
    ∧ ((s.port p).state = 1 → exec (.trainingAttemptTimeout port) s = .next (s.modPort p fun pt => { pt with state := 1, version := 0, lanes := 0, agreed := 0, ownHello := none, switchSeen := false, adopted := false, lastHops := 0xFF }))
    ∧ ((s.port p).state = 3 → (s.port p).lanes ≠ 0xFF → exec (.reequalizationTimeout port) s = .next (s.modPort p fun pt => { pt with lanes := 0 }))
    ∧ (∀ (core : CoreId) (queue : QueueId) id e, s.started core.val queue.val id = some e → awaitsEndpoint s core.val queue.val e = true →
      exec (.endpointWaitTimeout core queue id) s = .next ((s.dropCmdOps core.val queue.val id).modStarted core.val queue.val id fun e => { e.fault 0x500 0 with done := true, wait := .none }))
    ∧ (∀ queue : Fin 2, tget false s.stage.v1Hold queue.val = true → feederUp s queue.val = true →
      exec (.v1CreditHold queue) s = .next (State.flushCredits { s with stage := { s.stage with v1Hold := tset false s.stage.v1Hold queue.val false } }))

/-- Ethernet events take effect: congestion, pauses, inbound requests, losses and acknowledgements, PTP, and the links themselves. That an acknowledgement covers all that is outstanding, and what a PTP message carries, are the model's reading (log entries 68, 70). -/
def Obligations.EthernetEventsTakeEffect : Prop :=
  ∀ s : State,
    (∀ c spill k, s.conn c.toNat = some k → ∃ t, exec (.cnp c spill) s = .next t ∧ t.conn c.toNat = some { k with
        rateReq := if spill then k.rateReq else max 1 (k.rateReq / 2), rateSpill := if spill then max 1 (k.rateSpill / 2) else k.rateSpill, cnps := satInc k.cnps 1 })
    ∧ (∀ c spill k, s.conn c.toNat = some k → ∃ t, exec (.rateRecovery c spill) s = .next t ∧ t.conn c.toNat = some { k with
        rateReq := if spill then k.rateReq else min 50 (k.rateReq + 1 / 2), rateSpill := if spill then min 50 (k.rateSpill + 1 / 2) else k.rateSpill })
    ∧ (∀ (port : Fin 2) pr on, (s.ethPort port.val).up = true →
      let t := s.modEth port.val fun p => { p with paused := if on then p.paused ||| (1#8 <<< pr.toNat) else p.paused &&& ~~~(1#8 <<< pr.toNat) }
      exec (.pfcPause port pr on) s = .next (sendCheckpoints (t.drainConns (connsOn t port.val))))
    ∧ (∀ c k, s.conn c.toNat = some k → k.error = false → (s.ethPort k.port).up = true → exec (.rdmaInbound c) s = .next (s.emit (.rdmaNak c.toNat)))
    ∧ (∀ port : Fin 2, (s.ethPort port.val).up = true → exec (.ethernetOtherFrame port) s = .next (s.modEth port.val fun p => { p with dropped := p.dropped + 1 }))
    ∧ (∀ c k, s.conn c.toNat = some k →
      (connResends s c k = true → exec (.rcRetransmit c) s = .next ((s.modConn c.toNat fun k => { k with retransmits := satInc k.retransmits 1 }).emit (.roceRetransmit c.toNat)))
      ∧ (connWaits s c k = true → let t := failConn (s.modConn c.toNat fun k => { k with error := true }) c
        exec (.connectionError c) s = .next (t.postErr { mkErr 0x500 2 5 k.port with endpoint := BitVec.ofNat 12 ((connEndpoint t c).getD 0) })))
    ∧ (∀ (port : Fin 2) seq (origin corr : BitVec 64), (s.ethPort port.val).ptpEn = true → (s.ethPort port.val).up = true → s.clocked = true →
      let p := s.ethPort port.val
      let asks (t2 : BitVec 64) : State := (s.modEth port.val fun p => { p with ptpSync := none, ptpPair := some (origin + corr, t2), ptpReq := some s.clock.gtc, ptpSeq := p.ptpSeq + 1 }).emit (.ptpDelayReq port.val p.ptpDomain p.ptpSeq)
      exec (.ptpMessage port (.sync p.ptpDomain seq false origin corr)) s = .next (asks s.clock.gtc)
      ∧ exec (.ptpMessage port (.sync p.ptpDomain seq true origin corr)) s = .next (s.modEth port.val fun p => { p with ptpSync := some (seq, s.clock.gtc - corr) })
      ∧ (∀ t2, p.ptpSync = some (seq, t2) → exec (.ptpMessage port (.followUp p.ptpDomain seq origin corr)) s = .next (asks t2))
      ∧ (∀ t1 t2 t3, seq + 1 = p.ptpSeq → p.ptpPair = some (t1, t2) → p.ptpReq = some t3 →
          let delay := ((t2 - t1) + (origin - corr - t3)).toInt / 2
          exec (.ptpMessage port (.delayResp p.ptpDomain seq origin corr)) s = .next (s.modEth port.val fun p =>
            { p with ptpReq := none, ptpMeasuring := true, ptpDelay := BitVec.ofInt 32 delay, ptpOffset := t1 + BitVec.ofInt 64 delay - t2 })))
    ∧ (∀ port : Fin 2, (s.ethPort port.val).configured = true → (s.ethPort port.val).enabled = true → (s.ethPort port.val).up = false → s.clocked = true →
      let t := s.modEth port.val fun p => { p with up := true }
      exec (.ethernetLinkUp port) s = .next (sendCheckpoints (t.drainConns (connsOn t port.val))))
    ∧ (∀ port : Fin 2, exec (.ethernetLinkDown port) s = .next (s.modEth port.val fun p => { p with up := false }))
    ∧ (∀ c k, s.conn c.toNat = some k → k.error = false → (s.ethPort k.port).up = true →
      (let t := s.modConn c.toNat fun k => { k with unackedPkts := 0, unacked := [] }
       exec (.roceAck c .ack) s = .next ((ckptOn t c 0x0B03).foldl (fun s h => ackCkpt s c h) t))
      ∧ (connResends s c k = true → exec (.roceAck c .nak) s = .next (retransmit s c) ∧ exec (.roceAck c .rnr) s = .next (retransmit s c)))

/-- Memory and error events take effect: the scrubber reads its next word, a channel fails, the next error event is recorded, and a watchdog trip restarts the control complex. -/
def Obligations.ErrorEventsTakeEffect : Prop :=
  ∀ s : State,
    (s.clocked = true → s.boot.needTrain = false → tget false s.hbm.broken (chanAddr (s.hbm.scrubPos % 128) (32 * (s.hbm.scrubPos / 128)) / 32) = false →
      let t := correctWeak s (chanAddr (s.hbm.scrubPos % 128) (32 * (s.hbm.scrubPos / 128))) 32
      exec .patrolScrub s = .next { t with hbm := if s.hbm.scrubPos + 1 = scrubWords then { t.hbm with scrubPos := 0, scrubPasses := satInc t.hbm.scrubPasses 1 } else { t.hbm with scrubPos := s.hbm.scrubPos + 1 } })
    ∧ (∀ c : Fin 128, s.hbm.failed.getLsbD c.val = false → s.clocked = true →
      exec (.hbmChannelFailure c) s = .next (State.deviceErr { s with hbm := { s.hbm with failed := s.hbm.failed ||| (1#128 <<< c.val) } } (mkErr 0x402 3 1 (c.val / 16))))
    ∧ (∀ i r rest, s.clocked = true → s.itkan = true → ([3, 2, 1, 0].find? fun i => !(tget [] s.err.queues i).isEmpty) = some i → tget [] s.err.queues i = r :: rest →
      exec (.errorEventHandle []) s = .next (writeRecord { s with err := { s.err with queues := tset [] s.err.queues i rest } } r))
    ∧ (∀ (cause : BitVec 4) hart hs handling, cause.toNat < 4 → s.boot.fwStage ≠ 0 → s.boot.fwStage ≠ 8 → s.clocked = true → ∃ t, exec (.watchdogTrip cause hart hs handling) s = .next t
        ∧ t.boot.fwStage = (if t.err.halted then 8 else 2) ∧ t.boot.quarantined = true ∧ t.boot.afterTrip = true ∧ t.err.lastCause = cause
        ∧ t.err.tripCount = satInc s.err.tripCount 1 ∧ t.err.queues = [] ∧ t.mbx.held = [] ∧ t.sec.debugOpened = false ∧ t.err.alert = true
        ∧ (∀ l, s.err.lgFirst = some l → t.err.lgFirst = some l) ∧ (∃ l, t.err.lgLatest = some l ∧ l.cause = cause ∧ l.hart = hart ∧ l.hartState = hs)
        ∧ t.hbm = s.hbm)

/-- Boot events take effect: sensing, the image check, Itkan's start, HBM training and zeroing. -/
def Obligations.BootEventsTakeEffect : Prop :=
  ∀ s : State, s.clocked = true →
    (s.sec.sensed = false → s.boot.fwStage = 0 →
      exec .fuseSense s = .next (State.setFwStage { s with sec := { s.sec with sensed := true, fuseError := s.sec.bank.badWord, mirrorCount := popCount s.sec.rollback, deviceKey := some (deviceKeyOf s.sec.bank) } } 1))
    ∧ (∀ bs, s.boot.fwStage = 2 → s.boot.startReady = false → s.boot.fetching = true → bootReason s (some bs) = none →
      exec (.imageCheck (some bs)) s = .next { s with boot := { s.boot with image := some (imageOf bs), fetching := false, startReady := true } })
    ∧ (∀ img r, s.boot.fwStage = 2 → s.boot.startReady = false → s.boot.fetching = true → bootReason s img = some r → exec (.imageCheck img) s = .next (s.bootFailed r))
    ∧ (s.boot.startReady = true → s.boot.fwStage = 2 → s.boot.afterTrip = false → ∃ t, exec .itkanStart s = .next t
        ∧ t.boot.fwStage = 3 ∧ t.boot.fwInstance = s.boot.fwInstance + 1 ∧ t.boot.startReady = false ∧ t.mbx.sessions = [] ∧ t.mbx.held = [] ∧ t.sec.nonce = none
        ∧ (∀ n, n < 64 → (t.chan n).session = 0 ∧ ((s.chan n).enabled = true → (t.chan n).state = 2 ∧ (t.chan n).reason = 5))
        ∧ t.hbm = s.hbm ∧ t.cores = s.cores ∧ t.stage = s.stage ∧ t.err = s.err)
    ∧ (s.boot.fwStage = 4 → exec (.hbmTrainingDone 0) s = .next (State.setFwStage { s with hbm := { s.hbm with failed := 0 } } 5))
    ∧ (s.boot.fwStage = 5 → ∃ t, exec .hbmZeroingDone s = .next t ∧ t.boot.fwStage = 6 ∧ t.boot.needTrain = false ∧ t.hbm.mem = [] ∧ t.hbm.poison = [] ∧ t.hbm.weak = [] ∧ t.hbm.broken = []
        ∧ t.cores = s.cores ∧ t.stage = s.stage ∧ t.fabric = s.fabric)

/-- Power and telemetry events take effect: the power manager's tick, voltage retries, the sensor block, periodic snapshots and the thermal thresholds. The measured values are operands (log entry 11); the hysteresis of the thermal thresholds is the model's reading (log entry 76). -/
def Obligations.PowerEventsTakeEffect : Prop :=
  ∀ s : State, s.clocked = true →
    (∀ limits hold acked, s.itkan = true → ∃ t, exec (.powerManagerTick limits hold acked) s = .next t
        ∧ t.power.thermalLimit = BitVec.ofNat 16 (nextThermal s) ∧ ((∀ c, c < 24 → s.mhz c = 800) → t.power.hold = hold ∧ t.power.holdLeft = hold.toNat * 100000 / 256) ∧ ((∃ c, c < 24 ∧ s.mhz c ≠ 800) → t.power.hold = 0 ∧ t.power.holdLeft = 0) ∧ t.hbm = s.hbm ∧ t.cores = s.cores ∧ t.stage = s.stage
        ∧ (∀ c, c < 24 → t.mhz c ≤ targetMhz s (nextThermal s) (limits.getD c 1800).toNat c)
        ∧ (acked = true → ∀ c, c < 24 → t.mhz c = targetMhz s (nextThermal s) (limits.getD c 1800).toNat c))
    ∧ (∀ v, s.power.avsWant = some v → exec (.avsRetry true) s = .next (State.emit { s with power := { s.power with mv := v, avsWant := none } } (.avs v))
        ∧ exec (.avsRetry false) s = .next (s.emit (.avs v)))
    ∧ (∀ a p e temps lim, temps.length = 41 → ∃ t, exec (.telemetrySample a p e temps lim) s = .next t ∧ t.power.avgW = a ∧ t.power.peakW = p ∧ t.power.energy = e
        ∧ (∀ i, i < 41 → tget 0 t.power.temps i = temps.getD i 0) ∧ (∀ i, i < 236 → tget 0 t.telem.lim i = tget 0 s.telem.lim i + lim.getD i 0)
        ∧ t.telem.power = s.power.cap ++ a ∧ t.hbm = s.hbm ∧ t.cores = s.cores)
    ∧ (s.telem.period ≠ 0 → s.telem.due = 0 → snoopsFor s (s.telem.dest + 2048 * (s.telem.snapSeq.toNat % 2 ^ s.telem.log2)) 2048 true = [] → s.telem.vector = 127 →
      let u : State := { s with telem := { s.telem with lines := [] } }
      let w := (hbmWrite u (s.telem.dest + 2048 * (s.telem.snapSeq.toNat % 2 ^ s.telem.log2)) (cleanBytes (snapshot s))).s
      exec .telemetrySnapshot s = .next { w with telem := { w.telem with snapSeq := w.telem.snapSeq + 1 } })
    ∧ (∀ (i : Fin 41) (v : BitVec 8), i.val < 33 → 95 ≤ v.toInt → exec (.thermalThrottle i v) s = .next { s with power := { s.power with temps := tset 0 s.power.temps i.val v } })
    ∧ (∀ (i : Fin 41) (v : BitVec 8), 33 ≤ i.val → 95 ≤ v.toInt →
      exec (.thermalThrottle i v) s = .next { s with power := { s.power with temps := tset 0 s.power.temps i.val v, hbmHalf := s.power.hbmHalf ||| (1#8 <<< (i.val - 33)) } })
    ∧ (∀ (i : Fin 41) (v : BitVec 8), 105 ≤ v.toInt → ∃ t, exec (.thermalCritical i v) s = .next t ∧ t.boot.quarantined = true ∧ (∀ c, t.mhz c = 800) ∧ t.power.thermalLimit = 800 ∧ t.hbm = s.hbm)
    ∧ (∀ (i : Fin 41) (v : BitVec 8), (i.val < 33 → 120 ≤ v.toInt) → (33 ≤ i.val → 110 ≤ v.toInt) →
      exec (.thermalTrip i v) s = .next (State.emit { s with power := { s.power with temps := tset 0 s.power.temps i.val v, thermtrip := true } } .thermtrip))
    ∧ (∀ (k : Fin 8) (v : BitVec 8), 85 ≤ v.toInt →
      exec (.refreshThreshold k v) s = .next { s with power := { s.power with temps := tset 0 s.power.temps (33 + k.val) v, refresh2x := s.power.refresh2x ||| (1#8 <<< k.val) } })

/-- No command stops the block: each answers a next state from every state. -/
def Obligations.EveryCommandAnswers : Prop :=
  ∀ (c : Instr) (s : State), ∃ t, exec c s = .next t

/-- Every step keeps every memory of the device in its one canonical form, so that equal memories are equal data. -/
def Obligations.EveryStepKeepsMemoriesCanonical : Prop :=
  ∀ s t : State, Memory.wf s = true → step s = .next t → Memory.wf t = true

/-- Every step keeps the event queues within 64 records, the error ring within 256, and FW_STAGE at a listed value. -/
def Obligations.EveryStepKeepsErrorStoresBounded : Prop :=
  ∀ s t : State, stageOk s = true → eventQueuesOk s = true → ringOk s = true → step s = .next t →
    stageOk t = true ∧ eventQueuesOk t = true ∧ ringOk t = true

/-- No step clears a blown ROLLBACK fuse or changes the fuse bank, and only a programming pulse blows one. -/
def Obligations.FusesOnceBlownStayBlown : Prop :=
  ∀ s t : State, step s = .next t →
    t.sec.bank = s.sec.bank ∧ (∀ i, s.sec.rollback.getLsbD i = true → t.sec.rollback.getLsbD i = true)
    ∧ ((∀ b, s.pending.head? ≠ some (.fuseBlown b)) → t.sec.rollback = s.sec.rollback)

/-- A quarantined device stays quarantined through every step but a reset that reaches the stage logic. -/
def Obligations.QuarantineEndsOnlyByReset : Prop :=
  ∀ s t : State, s.boot.quarantined = true → (∀ c, s.pending.head? = some c → releases c = false) → step s = .next t → t.boot.quarantined = true

/-- At every step at most one ADMIN session exists. -/
def Obligations.AtMostOneAdminSession : Prop :=
  ∀ s t : State, (s.mbx.sessions.filter fun x => x.privilege == 2).length ≤ 1 → step s = .next t → (t.mbx.sessions.filter fun x => x.privilege == 2).length ≤ 1

/-- The query messages change nothing but what their own completion touches: the mailbox, what is sent and the interrupt registers. -/
def Obligations.QueriesChangeNothingElse : Prop :=
  ∀ (m : Msg) (s t : State) (i : Instr),
    i ∈ [Instr.getDeviceInfo m, .getCapabilities m, .echo m, .getHbmState m, .getQueueState m, .getRingState m, .getIndexState m, .getPortState m, .getStatus m, .readTelemetry m, .getSecurityState m, .getPower m,
         .attachChannel m, .detachChannel m, .closeSession m] ∨ (∃ op, i = .unknownOpcode m op) ∨ (∃ want, i = .openSession m want) →
    exec i s = .next t → onlyReplies s t

/-- Configuration messages change what they configure and nothing else, whether they succeed, fail or stay in progress. -/
def Obligations.ConfigurationMessagesKeepTheRest : Prop :=
  ∀ (m : Msg) (s t : State),
    (exec (.setCircular m) s = .next t → onlyReplies s { t with cores := s.cores } ∧ ∀ c, t.core c = { s.core c with cfg := { (s.core c).cfg with circ := (t.core c).cfg.circ } })
    ∧ (exec (.openWindow m) s = .next t → onlyReplies s { t with cores := s.cores } ∧ ∀ c, t.core c = { s.core c with cfg := { (s.core c).cfg with windows := (t.core c).cfg.windows } })
    ∧ (exec (.closeWindow m) s = .next t → onlyReplies s { t with cores := s.cores } ∧ ∀ c, t.core c = { s.core c with cfg := { (s.core c).cfg with windows := (t.core c).cfg.windows } })
    ∧ (exec (.setCounter m) s = .next t → onlyReplies s { t with cores := s.cores } ∧ ∀ c, t.core c = { s.core c with cfg := { (s.core c).cfg with counters := (t.core c).cfg.counters }, queues := (t.core c).queues })
    ∧ (exec (.setConflictPolicy m) s = .next t → onlyReplies s { t with cores := s.cores } ∧ ∀ c, t.core c = { s.core c with cfg := { (s.core c).cfg with strict := (t.core c).cfg.strict } })
    ∧ (exec (.setSaveMode m) s = .next t → onlyReplies s { t with cores := s.cores } ∧ ∀ c, t.core c = { s.core c with cfg := { (s.core c).cfg with streams := (t.core c).cfg.streams } })
    ∧ (exec (.setRegion m) s = .next t → onlyReplies s { t with cores := s.cores } ∧ ∀ c, t.core c = { s.core c with cfg := { (s.core c).cfg with pairs := (t.core c).cfg.pairs }, queues := (t.core c).queues })
    ∧ (exec (.setRipple m) s = .next t → onlyReplies s { t with cores := s.cores } ∧ ∀ c, t.core c = { s.core c with rippleGap := (t.core c).rippleGap })
    ∧ (exec (.setCompletionRing m) s = .next t → onlyReplies s { t with cores := s.cores } ∧ ∀ c, t.core c = { s.core c with queues := (t.core c).queues })
    ∧ (exec (.createRing m) s = .next t → onlyReplies s { t with cores := s.cores } ∧ ∀ c, t.core c = { s.core c with queues := (t.core c).queues })
    ∧ (exec (.reserveStore m) s = .next t → onlyReplies s { t with regions := s.regions })
    ∧ (exec (.setHostWindow m) s = .next t → onlyReplies s { t with host := { t.host with window := s.host.window } })
    ∧ (exec (.setStageIdentity m) s = .next t → onlyReplies s { t with stage := { t.stage with identity := s.stage.identity } })
    ∧ (exec (.configureSlot m) s = .next t → onlyReplies s { t with stage := { t.stage with slots := s.stage.slots } })
    ∧ (exec (.configureOptimizer m) s = .next t → onlyReplies s { t with opt := s.opt })
    ∧ (exec (.setHyperparameters m) s = .next t → onlyReplies s { t with opt := s.opt })
    ∧ (exec (.createBucket m) s = .next t → onlyReplies s { t with buckets := s.buckets })
    ∧ (exec (.setTelemetryRate m) s = .next t → onlyReplies s { t with telem := s.telem })
    ∧ (exec (.setClockLimits m) s = .next t → onlyReplies s { t with power := { t.power with fmin := s.power.fmin, fmax := s.power.fmax, cap := s.power.cap } })
    ∧ (exec (.clearError m) s = .next t → onlyReplies s { t with err := s.err })
    ∧ (exec (.cancelEdge m) s = .next t → onlyReplies s { t with edges := s.edges })
    ∧ (exec (.getTime m) s = .next t → onlyReplies s { t with clock := s.clock }
        ∧ t.clock = { s.clock with source := t.clock.source, hops := t.clock.hops, rootCoord := t.clock.rootCoord, state := t.clock.state, goodOffsets := t.clock.goodOffsets, lateMask := t.clock.lateMask })
    ∧ (exec (.setPort m) s = .next t → onlyReplies s { t with eth := { t.eth with ports := s.eth.ports } })
    ∧ (exec (.setPtp m) s = .next t → onlyReplies s { t with eth := { t.eth with ports := s.eth.ports } })

/-- Every command that stores nothing by its rules leaves every byte of external memory and of every scratchpad as it was; a change of segment power leaves external memory and every byte of a usable segment. -/
def Obligations.CommandsThatStoreNothingKeepMemory : Prop :=
  (∀ (c : Instr) (s t : State), storesNothing c = true → exec c s = .next t → sameBytes s t)
  ∧ (∀ (c : Instr) (s t : State), ((∃ m, c = .setSegmentPower m) ∨ ∃ k g, c = .segmentZeroed k g) → exec c s = .next t →
      t.hbm = s.hbm ∧ ∀ k a, (t.core k).segDead a = false → tget 0 (t.core k).spad a = tget 0 (s.core k).spad a)

/-- Matrix and vector commands store only into their outputs: every other scratchpad byte, every other core and, without a tap, external memory read as before. -/
def Obligations.ArithmeticStoresOnlyItsOutputs : Prop :=
  ∀ (core : CoreId) (queue : QueueId) (us : List ArrayUpset) (late : List Nat) (s t : State) (b : Block) (d : BitVec 512) (a : Nat),
    let g := (s.core core.val).cfg
    let m := matArgs d
    let c := epiCfg m.epi
    let e := epiCfg (fb (cmdBody d) 320 64)
    let v := vecArgs d
    nextCmd (s.queue core.val queue.val) = some (b, d) →
    (∀ i, i ∈ [Instr.matmul core queue us late, .conv core queue us late] → exec i s = .next t →
      (c.tap = false → t.hbm.mem = s.hbm.mem) ∧ (∀ k, k ≠ core.val → (t.core k).spad = (s.core k).spad)
      ∧ ((∀ i j, i < m.tokens → j < m.vectors → spareOf g queue.val m.out (m.out + layoutOff m.vectors c.fmt i j) (fmtBytes c.fmt) a = true) →
          tget 0 (t.core core.val).spad a = tget 0 (s.core core.val).spad a))
    ∧ (exec (.eltwise core queue us late) s = .next t →
      (e.tap = false → t.hbm.mem = s.hbm.mem) ∧ (∀ k, k ≠ core.val → (t.core k).spad = (s.core k).spad)
      ∧ ((∀ i, i < eltCount (cmdBody d) → spareOf g queue.val (fld (cmdBody d) 183 160) (fld (cmdBody d) 183 160 + i * fmtBytes e.fmt) (fmtBytes e.fmt) a = true) →
          tget 0 (t.core core.val).spad a = tget 0 (s.core core.val).spad a))
    ∧ (∀ i, i ∈ [Instr.vecElem core queue, .vecFunc core queue, .vecRowstat core queue, .vecSoftmax core queue, .vecNorm core queue] → exec i s = .next t →
      t.hbm.mem = s.hbm.mem ∧ (∀ k, k ≠ core.val → (t.core k).spad = (s.core k).spad)
      ∧ ((v.outFmt = 5 ∨ v.outFmt = 6 → v.len % 32 = 0) →
          (∀ row, row < v.rows →
            (if v.op = 0x22 then spareOf g queue.val v.out (v.out + 16 * row) 16 a else spareOf g queue.val v.out (v.out + row * v.stride v.outFmt) (rowBytes v.outFmt v.len) a) = true
            ∧ (v.op = 0x23 → v.func = 1 → spareOf g queue.val v.aux (v.aux + 8 * row) 8 a = true ∧ spareOf g queue.val v.c (v.c + 4 * row) 4 a = true)) →
          tget 0 (t.core core.val).spad a = tget 0 (s.core core.val).spad a))

/-- A DMA transfer, a restore, an UPDATE, a Tarn write and a BUCKET_ADD store, in the step that starts them, only into what their fields name: the destination of a COPY (its ring's reserved places, where it is a ring), a restore's destination, the arrays of the blocks that an UPDATE notes, the entries, tombstones and length of an insert, the tombstones of the positions that a delete notes, and the lines that a BUCKET_ADD notes. A remote transfer stores nothing when it starts. Every other byte of external memory and of every scratchpad reads as before. What an UPDATE, a delete or a BUCKET_ADD notes is done first is the model's choice (log entry 55). -/
def Obligations.TransfersStoreOnlyIntoTheirTargets : Prop :=
  ∀ (core : CoreId) (queue : QueueId) (first : List Nat) (s t : State) (b : Block) (d : BitVec 512) (x : Place),
    let r := entered core.val queue.val s b d
    let y := cmdBody d
    nextCmd (s.queue core.val queue.val) = some (b, d) →
    (∀ port, exec (.copy core queue port) s = .next t →
      let n := dmaLen d
      let side := (dmaSides r.s core.val d).2
      let u := (r.reserve n).getD r
      (∀ pos, pos < n → (∀ p ∈ sideRange side pos n, apart x p.1 p.2 = true) ∧ ∀ p ∈ u.phys side true pos (n - pos), apartOwn x p.1 p.2.1 p.2.2 = true) →
      byteAt t x = byteAt s x)
    ∧ (∀ port i, i ∈ [Instr.remoteWrite core queue port, .remoteRead core queue port] → exec i s = .next t → sameBytes s t)
    ∧ (exec (.restore core queue) s = .next t →
      (let p := xlatPart r.k.cfg queue.val (fld y 183 160) (fld y 183 160) (fld y 63 32) true
       apartOwn x core.val p.2 p.1 = true) → byteAt t x = byteAt s x)
    ∧ (exec (.update core queue first) s = .next t →
      let u := updArgs d
      let o := s.optSlot u.slot
      let k := optCodes o
      (∀ i ∈ first, 32 * i < u.count →
        ∀ c ∈ [(k.1, u.param), (k.2.2.1, u.m)] ++ (if optUsesV o then [(k.2.2.2, u.v)] else []) ++ (if o.copyFmt != 0 then [(o.copyFmt.toNat, u.copy)] else []) ++ (if u.clear then [(k.2.1, u.grad)] else []),
          let p := arrayPart c.1 c.2 (32 * i) (min 32 (u.count - 32 * i))
          apart x p.1 p.2 = true) →
      byteAt t x = byteAt s x)
    ∧ (exec (.tarnInsert core queue) s = .next t →
      (∀ k, s.index (fld y 11 8) = some k →
        let l := fld y 39 16
        let n := fld y 55 40 + 1
        let e := (r.dirRead k l).1
        (apart x (e.log + e.length * entryBytes k.width) (n * entryBytes k.width) && apart x (e.tomb + 4 * e.length) (4 * n) && apart x (k.dir + 32 * l + 12) 4) = true) →
      byteAt t x = byteAt s x)
    ∧ (exec (.tarnDelete core queue first) s = .next t →
      (∀ k, s.index (fld y 11 8) = some k →
        let e := ((r.doing first).dirRead k (fld y 39 16)).1
        ∀ j ∈ first, j < e.length → apart x (e.tomb + 4 * j) 4 = true) →
      byteAt t x = byteAt s x)
    ∧ (exec (.bucketAdd core queue first) s = .next t →
      (∀ k, s.bucket (bucketOf d) = some k →
        let a := k.addr + fld y 63 32 * k.elem
        ∀ i ∈ first, ∀ l, (addLines k a (fld y 95 64 + 1))[i]? = some l → apart x (a + l.1 * k.elem) (l.2 * k.elem) = true) →
      byteAt t x = byteAt s x)

/-- A WRITE frame stores only its payload's bytes in its window's core: every other byte of that scratchpad, every other scratchpad and external memory read as before. A READ frame stores nothing. A SLOT_WRITE frame stores only its pieces at their places of its slot; the commands that its filling the slot lets go on then do their own work. -/
def Obligations.LinkWritesStayInTheirWindow : Prop :=
  ∀ (via : Via) (f : Frame) (s t : State),
    (exec (.write via f) s = .next t → t.hbm.mem = s.hbm.mem
      ∧ ∀ c a, (c ≠ f.core.toNat ∨ ∀ w, frameTarget (acceptFrame s via 2 f).1 f f.payload.length = some w → outside a w.addr f.payload.length = true) →
          tget 0 (t.core c).spad a = tget 0 (s.core c).spad a)
    ∧ (exec (.read via f) s = .next t → sameBytes s t)
    ∧ (exec (.slotWrite via f) s = .next t → ∃ g, (t = g ∨ t = resumeWaiting g fun w => w == .program) ∧
        ∀ y : Place, (∀ x, slotCheck (acceptFrame s via 4 f).1 f.queue.toNat f.slot.toNat f = some x →
            ∀ p ∈ x.pieces, apart y (slotAddr x.k f.slot.toNat + p.off) p.bytes.length = true) → byteAt g y = byteAt s y)

/-- A write of external memory or of a scratchpad stores its bytes where nothing prevents it, and leaves every other byte as it was; so do the host's writes through its window. -/
def Obligations.MemoryWritesStoreTheirBytes : Prop :=
  ∀ (s : State) (a : Nat) (bs : List Bt),
    (∀ x, outside x a bs.length = true → tget 0 (hbmWrite s a bs).s.hbm.mem x = tget 0 s.hbm.mem x)
    ∧ (hits a bs.length (armedRanges s) = false → (∀ i, i < bs.length → s.hbm.failedAt (a + i) = false) →
        ∀ i (h : i < bs.length), bs[i].got = true → tget 0 (hbmWrite s a bs).s.hbm.mem (a + i) = bs[i].val)
    ∧ (∀ c x, outside x a bs.length = true → tget 0 ((spadWrite s c a bs).1.core c).spad x = tget 0 (s.core c).spad x)
    ∧ (∀ c, (∀ i, i < bs.length → (s.core c).segDead (a + i) = false) →
        ∀ i (h : i < bs.length), bs[i].got = true → tget 0 ((spadWrite s c a bs).1.core c).spad (a + i) = bs[i].val)
    ∧ (∀ (o : Nat) (data : List Byte) (p : Bool) (t : State), exec (.bar2Write o data p) s = .next t →
        (∀ c, (t.core c).spad = (s.core c).spad) ∧ ∀ x, (∀ w, inWindow s o data.length = some w → outside x w data.length = true) → tget 0 t.hbm.mem x = tget 0 s.hbm.mem x)
    ∧ (∀ (line : Nat) (mv : Meta) (data : List Byte) (p : Bool) (t : State), exec (.memWr line mv data p) s = .next t →
        (∀ c, (t.core c).spad = (s.core c).spad) ∧ ∀ x, (∀ w, lineAddr s line = some w → outside x w (padTo 64 data).length = true) → tget 0 t.hbm.mem x = tget 0 s.hbm.mem x)

/-- Registers of one channel, the interrupt status, the boot registers and the conflict registers change nothing but themselves; a channel's registers leave every other channel alone. So do REGISTER_WRITE's words, each by its offset: a poisoned write shows only as AER, one of another size only in the log, and 8 bytes are two words, the lower first. BOOT_GO may change the boot's stage, reason, image and fetch, and the interrupt that tells of it. The layout of configuration space is the model's (log entry 112). -/
def Obligations.RegisterWritesKeepTheRest : Prop :=
  ∀ (s t : State),
    (∀ (n : ChanId) (i : Instr), (i = .channelReset n ∨ (∃ v, i = .mbxDoorbell n v ∨ i = .mbxCplHead n v) ∨ ∃ on, i = .enable n on) → exec i s = .next t →
      t = { s with mbx := { s.mbx with chans := t.mbx.chans } } ∧ ∀ k, k ≠ n.val → t.chan k = s.chan k)
    ∧ (∀ n : ChanId, exec (.moderationTimer n) s = .next t → onlyReplies s t ∧ ∀ k, k ≠ n.val → t.chan k = s.chan k)
    ∧ (∀ v, exec (.fwIrqStatus v) s = .next t → t = { s with irq := { s.irq with status := t.irq.status } })
    ∧ (∀ c v, exec (.spadConflictClr c v) s = .next t → t = { s with cores := t.cores } ∧ ∀ k, t.core k = { s.core k with conflictCount := (t.core k).conflictCount, conflictCapture := (t.core k).conflictCapture })
    ∧ (∀ v, exec (.resetCtl v) s = .next t → t = { s with boot := { s.boot with resetDue := t.boot.resetDue } })
    ∧ (∀ v, exec (.bootGo v) s = .next t → bootGoKeeps s t)
    ∧ (∀ bar o size v, exec (.registerWrite bar o size v true) s = .next t → t = { s with out := t.out })
    ∧ (∀ bar o size v, size ≠ 4 → size ≠ 8 → exec (.registerWrite bar o size v false) s = .next t → t = { s with err := t.err })
    ∧ (∀ bar o v, o % 8 = 0 → exec (.registerWrite bar o 8 v false) s = .next t →
        ∃ u, exec (.registerWrite bar o 4 v false) s = .next u ∧ exec (.registerWrite bar (o + 4) 4 (v >>> 32) false) u = .next t)
    ∧ (∀ o v, o % 4 = 0 → exec (.registerWrite .bar0 o 4 v false) s = .next t →
        ((o = 0x10 ∨ o = 0x14) → t = { s with boot := { s.boot with bootAddr := t.boot.bootAddr } })
        ∧ (o = 0x18 → bootGoKeeps s t)
        ∧ (o = 0x1C → t = { s with boot := { s.boot with resetDue := t.boot.resetDue } })
        ∧ (o = 0x28 → t = { s with irq := { s.irq with enable := t.irq.enable, vector := t.irq.vector } })
        ∧ (o = 0x2C → t = { s with irq := { s.irq with status := t.irq.status } })
        ∧ (0x10000 ≤ o → o < 0x50000 → t = { s with mbx := { s.mbx with chans := t.mbx.chans } } ∧ ∀ k, k ≠ (o - 0x10000) / 0x1000 → t.chan k = s.chan k)
        ∧ (0x100000 ≤ o → o < 0x100400 →
            t = { s with irq := { s.irq with msixAddr := t.irq.msixAddr, msixData := t.irq.msixData, msixCtl := t.irq.msixCtl, pba := t.irq.pba }, out := t.out }
            ∧ ∀ i, i ≠ (o - 0x100000) / 16 → tget 0 t.irq.msixAddr i = tget 0 s.irq.msixAddr i ∧ tget 0 t.irq.msixData i = tget 0 s.irq.msixData i ∧ tget 1 t.irq.msixCtl i = tget 1 s.irq.msixCtl i)
        ∧ (0x200000 ≤ o → o < 0x200180 → t = { s with cores := t.cores } ∧ (∀ k, k ≠ (o - 0x200000) / 16 → t.core k = s.core k)
            ∧ ∀ k, t.core k = { s.core k with conflictCount := (t.core k).conflictCount, conflictCapture := (t.core k).conflictCapture })
        ∧ (o ∉ [0x10, 0x14, 0x18, 0x1C, 0x28, 0x2C] → ¬(0x10000 ≤ o ∧ o < 0x50000) → ¬(0x100000 ≤ o ∧ o < 0x100400) → ¬(0x200000 ≤ o ∧ o < 0x200180) → t = s))
    ∧ (∀ o v, o % 4 = 0 → exec (.registerWrite .bar4 o 4 v false) s = .next t →
        let n := o / 0x1000
        let k := t.chan n
        t = { s with mbx := { s.mbx with chans := t.mbx.chans }, irq := { s.irq with pba := t.irq.pba }, out := t.out } ∧ (∀ j, j ≠ n → t.chan j = s.chan j)
        ∧ ((o % 0x1000 = 0 ∨ o % 0x1000 = 4) → k = { s.chan n with reqBase := k.reqBase })
        ∧ ((o % 0x1000 = 8 ∨ o % 0x1000 = 0xC) → k = { s.chan n with cplBase := k.cplBase })
        ∧ (o % 0x1000 = 0x20 → k = { s.chan n with cplHead := k.cplHead })
        ∧ (o % 0x1000 = 0x24 → k = { s.chan n with moderation := k.moderation, unsignalled := k.unsignalled })
        ∧ (o % 0x1000 ∉ [0, 4, 8, 0xC, 0x10, 0x20, 0x24] → t = s))
    ∧ (∀ o v, o % 4 = 0 → exec (.registerWrite .config o 4 v false) s = .next t →
        t = { s with host := { s.host with config := t.host.config } } ∧ ∀ w, w ≠ o → readConfig t w = readConfig s w)
    ∧ (∀ c q id, exec (.endpointWaitTimeout c q id) s = .next t → onlyReplies s { t with cores := s.cores } ∧ ∀ k, t.core k = { s.core k with queues := (t.core k).queues })

/-- A doorbell moves its channel's tail: not at all by the same value, into FAULTED by a value that overruns the ring or moves backward. OPEN_SESSION on an owned channel is refused. -/
def Obligations.MailboxRulesHold : Prop :=
  (∀ (n : ChanId) (v : BitVec 32) (s : State), s.hostOpen = true → s.ready = true → (s.chan n.val).state = 1 →
    let c := s.chan n.val
    let w : BitVec 16 := fb v 0 16
    ∃ t, exec (.mbxDoorbell n v) s = .next t ∧ t = { s with mbx := { s.mbx with chans := t.mbx.chans } } ∧ (∀ k, k ≠ n.val → t.chan k = s.chan k)
      ∧ t.chan n.val =
          (if w = c.reqTail then { c with doorbell := w }
           else if 32768 < (w - c.reqTail).toNat then { c with doorbell := w, state := 2, reason := 2 }
           else if 4096 < (w - c.reqHead).toNat then { c with doorbell := w, state := 2, reason := 1 }
           else { c with doorbell := w, reqTail := w }))
  ∧ (∀ (m : Msg) (n : ChanId) (want : BitVec 32) (s : State), m.src = .chan n → canDequeue s m.src = true → refusal (begun m s) opOpen false m = none →
      ((begun m s).chan n.val).session ≠ 0 → exec (.openSession m want) s = .next (finishMsg (begun m s) m 0x0101 0 (.st 0x203)))

/-- The fabric's rules: a RETRAIN_SYNC of another session, or outside the unacknowledged frames, ends the session; a late response is counted and writes nothing; coordinates are set once; a congestion notification halves one rate. -/
def Obligations.FabricRulesHold : Prop :=
  (∀ (port : PortId) (id : BitVec 32) (l : LinkFields) (s : State), s.clocked = true → (s.port port.val).state ≠ 1 → (s.port port.val).inSession = true →
    ((s.port port.val).peerSessionId ≠ some id ∨ (s.port port.val).ackOk l.ack = false) →
    ∃ t, exec (.retrainSync port id l) s = .next t ∧ t = (s.endSession port.val).enterTraining port.val ∧ (t.port port.val).state = 1 ∧ (t.port port.val).inSession = false)
  ∧ (∀ (via : Via) (f : Frame) (s : State) (k : Nat),
      ((s.endOp k).tagGen k = s.tagGen k + 1 ∧ (f.tag.toNat = k → opFor (s.endOp k) f = none))
      ∧ ((acceptFrame s via 5 f).2 = true → opFor (acceptFrame s via 5 f).1 f = none →
          exec (.readData via f) s = .next { (acceptFrame s via 5 f).1 with net := { (acceptFrame s via 5 f).1.net with stale := (acceptFrame s via 5 f).1.net.stale + 1 } })
      ∧ ((acceptFrame s via 6 f).2 = true → opFor (acceptFrame s via 6 f).1 f = none →
          exec (.writeAck via f) s = .next { (acceptFrame s via 6 f).1 with net := { (acceptFrame s via 6 f).1.net with stale := (acceptFrame s via 6 f).1.net.stale + 1 } }))
  ∧ (∀ (m : Msg) (s : State),
      let u := begun m s
      let x := view m s
      let c : BitVec 48 := fb x.p 32 16 ++ fb x.p 16 16 ++ fb x.p 0 16
      accepts { plainOp 0x0701 2 [(383, 48)] with mctp := true } m s = true → x.mgmt = true →
      (coordOk c = false → exec (.setCoordinates m) s = replied m 0x0701 u (.st 0x201))
      ∧ (coordOk c = true → u.fabric.coord = c → exec (.setCoordinates m) s = replied m 0x0701 u .ok)
      ∧ (coordOk c = true → u.fabric.coord ≠ c → u.coordSet = true → (∃ p, p < 18 ∧ (u.port p).state ≠ 0) → exec (.setCoordinates m) s = replied m 0x0701 u (.st 0x203))
      ∧ (coordOk c = true → u.fabric.coord ≠ c → u.coordSet = true → u.fabric.coordEver = true → (∀ p, p < 18 → (u.port p).state = 0) →
          ∃ t, exec (.setCoordinates m) s = replied m 0x0701 t .ok ∧ t.fabric.coord = c ∧ ∀ p, p < 18 → (t.port p).state = 0))
  ∧ (∀ (c : BitVec 12) (spill : Bool) (k : Conn) (s : State), s.conn c.toNat = some k →
      (∃ t, exec (.cnp c spill) s = .next t ∧ t.out = s.out ∧ (∀ j, j ≠ c.toNat → t.conn j = s.conn j) ∧ t.conn c.toNat = some { k with
          rateReq := if spill then k.rateReq else max 1 (k.rateReq / 2), rateSpill := if spill then max 1 (k.rateSpill / 2) else k.rateSpill, cnps := satInc k.cnps 1 })
      ∧ (∃ t, exec (.rateRecovery c spill) s = .next t ∧ t.out = s.out ∧ (∀ j, j ≠ c.toNat → t.conn j = s.conn j) ∧ t.conn c.toNat = some { k with
          rateReq := if spill then k.rateReq else min 50 (k.rateReq + 1 / 2), rateSpill := if spill then min 50 (k.rateSpill + 1 / 2) else k.rateSpill }))

/-- The error rules: hart 2 takes the oldest event of the most severe queue; a detected error joins the end of its queue, or is lost and counted where the queue is full, and its unit's latch sees it. -/
def Obligations.ErrorEventRulesHold : Prop :=
  (∀ (s : State) (i : Nat) (r : ErrRec) (rest : List ErrRec), s.clocked = true → s.itkan = true → i < 4 → tget [] s.err.queues i = r :: rest → (∀ j, i < j → j < 4 → tget [] s.err.queues j = []) →
    exec (.errorEventHandle []) s = .next (writeRecord { s with err := { s.err with queues := tset [] s.err.queues i rest } } r))
  ∧ (∀ (s : State) (ds : List HwEvent), s.clocked = true →
    exec (.errorEventHandle ds) s = .next (handleEvent (ds.foldl detect s)) ∧ detect s .sramCorrected = s.postErr (mkEvent 1 0 0 8 0)
    ∧ (∀ q, detect s (.fabricState q) = s.deviceErr (mkErr 0x400 3 7 q.val) ∧ (detect s (.fabricState q)).boot.quarantined = true)
    ∧ (∀ (c : CoreId) (q : QueueId) id part, s.started c.val q.val id = none → detect s (.fabricPayload c q id part) = s))
  ∧ (∀ (s : State) (r : ErrRec),
      let v : ErrRec := { r with gtc := s.clock.gtc, fwInstance := s.boot.fwInstance }
      let n := latchNo r.unitClass.toNat r.unitIndex.toNat
      let t := s.postErr r
      (∀ j, j ≠ r.severity.toNat → tget [] t.err.queues j = tget [] s.err.queues j)
      ∧ ((tget [] s.err.queues r.severity.toNat).length < 64 → tget [] t.err.queues r.severity.toNat = tget [] s.err.queues r.severity.toNat ++ [v] ∧ t.err.overflow = s.err.overflow)
      ∧ (64 ≤ (tget [] s.err.queues r.severity.toNat).length → tget [] t.err.queues r.severity.toNat = tget [] s.err.queues r.severity.toNat ∧ t.err.overflow = satInc s.err.overflow 1)
      ∧ (tget none s.err.latches n = none → tget none t.err.latches n = some { first := v, highest := r.severity, count := 1 })
      ∧ (∀ l, tget none s.err.latches n = some l → tget none t.err.latches n = some { first := l.first, highest := if l.highest.toNat < r.severity.toNat then r.severity else l.highest, count := if l.count = 255 then 255 else l.count + 1 })
      ∧ (∀ j, j ≠ n → tget none t.err.latches j = tget none s.err.latches j)
      ∧ (s.deviceErr r).boot.quarantined = true)

/-- Rules of single settings: the conflict policy, a counter with what arrives after it, the hyperparameters with 1 - BETA rounded once, at once or held, and Tarn writes that name what is not there. -/
def Obligations.SettingRulesHold : Prop :=
  (∀ (m : Msg) (s : State),
    let u := begun m s
    let x := view m s
    let c := x.f 4 0
    (accepts (plainOp 0x0206 1 [(383, 17), (15, 10), (7, 5)]) m s = true → c < 24 →
      (bit x.p 16 = true → x.has capStrict = false → exec (.setConflictPolicy m) s = replied m 0x0206 u (.st 0x201))
      ∧ ((bit x.p 16 = true → x.has capStrict = true) → ∃ t, exec (.setConflictPolicy m) s = replied m 0x0206 t .ok
          ∧ tget false (t.core c).cfg.strict (x.f 9 8) = bit x.p 16 ∧ ∀ q, q ≠ x.f 9 8 → tget false (t.core c).cfg.strict q = tget false (u.core c).cfg.strict q))
    ∧ (accepts (plainOp 0x0205 1 [(383, 64), (31, 24), (15, 9), (7, 5)]) m s = true → c < 24 → groupCounts u c (x.f 23 16) = false →
      ∃ t, exec (.setCounter m) s = replied m 0x0205 t .ok ∧ tget Counter.init (t.core c).cfg.counters (x.f 23 16) = { value := fb x.p 32 32, overflow := false, messages := bit x.p 8 }
        ∧ ∀ n last, let k := if bit x.p 8 then (if last then 1 else 0) else n
            x.f 63 32 + k < 2 ^ 32 →
            tget Counter.init ((t.arrive c (x.f 23 16) n last).core c).cfg.counters (x.f 23 16) = { value := BitVec.ofNat 32 (x.f 63 32 + k), overflow := false, messages := bit x.p 8 })
    ∧ (accepts { plainOp 0x0602 1 [(383, 160), (31, 4)] with cap := some capUpdate, high := true } m s = true →
      let good := unitRange (fb x.p 32 32) && unitRange (fb x.p 64 32) && notNegative (fb x.p 96 32) && notNegative (fb x.p 128 32)
      (good = false → exec (.setHyperparameters m) s = replied m 0x0602 u (.st 0x201))
      ∧ (good = true → slotUsed u (x.f 3 0) = false → u.behind (heldOf 0x0602 m 0) = false → exec (.setHyperparameters m) s = replied m 0x0602 (applyOpt u 0x0602 x.p) .ok)
      ∧ (good = true → (slotUsed u (x.f 3 0) = true ∨ u.behind (heldOf 0x0602 m 0) = true) → exec (.setHyperparameters m) s = kept m u (heldOf 0x0602 m 0))
      ∧ (∀ v : State, let o := (applyOpt v 0x0602 x.p).optSlot (x.f 3 0)
          o.beta1 = fb x.p 32 32 ∧ o.beta2 = fb x.p 64 32 ∧ o.eps = fb x.p 96 32 ∧ o.decay = fb x.p 128 32
          ∧ o.omb1 = b32 (roundTo fp32 .plain (addX .rne one (negX (v32 (fb x.p 32 32)))).1 false).val
          ∧ o.omb2 = b32 (roundTo fp32 .plain (addX .rne one (negX (v32 (fb x.p 64 32)))).1 false).val)))
  ∧ (∀ (core : CoreId) (queue : QueueId) (s : State) (b : Block) (d : BitVec 512) (op : Nat) (i : Instr) (first : List Nat),
      (op, i) ∈ [(0x51, Instr.tarnInsert core queue), (0x52, .tarnDelete core queue first)] → starts op core.val queue.val s anyTime b d = true →
      (let r := entered core.val queue.val s b d
       r.e.absent = true ∨ r.s.index (fld (cmdBody d) 11 8) = none ∨ ∃ k, r.s.index (fld (cmdBody d) 11 8) = some k ∧ k.lists ≤ fld (cmdBody d) 39 16) →
      ∃ t e, exec i s = .next t ∧ sameBytes s t ∧ t.tarn = s.tarn ∧ e ∈ (t.queue core.val queue.val).started ∧ e.id = (s.queue core.val queue.val).nextId ∧ e.done = true ∧ e.status = 0x201)
end

