-- ==== Sys2Proof/Laws/Table.lean ====
section
/-! SUPPORT. The laws of sparse tables: what a set index reads as, that every other index is left alone, and that every table operation keeps the canonical form. -/

namespace Sys2Proof.Machine

set_option Elab.async false

variable {α : Type} [DecidableEq α] {d : α}

/-- A canonical form from a bound holds from every lower bound. -/
theorem tblWfFrom_mono {t : Tbl α} {lo lo' : Nat} (h : tblWfFrom d lo t = true) (hl : lo' ≤ lo) : tblWfFrom d lo' t = true := by
  cases t with
  | nil => rfl
  | cons e t =>
    obtain ⟨k, v⟩ := e
    simp only [tblWfFrom, Bool.and_eq_true, decide_eq_true_eq] at h ⊢
    exact ⟨⟨by omega, h.1.2⟩, h.2⟩

/-- Filtering a canonical table keeps it canonical. -/
theorem filter_wfFrom {t : Tbl α} {lo : Nat} (p : Nat × α → Bool) (h : tblWfFrom d lo t = true) : tblWfFrom d lo (t.filter p) = true := by
  induction t generalizing lo with
  | nil => rfl
  | cons e t ih =>
    obtain ⟨k, w⟩ := e
    simp only [tblWfFrom, Bool.and_eq_true, decide_eq_true_eq] at h
    obtain ⟨⟨h1, h2⟩, h3⟩ := h
    simp only [List.filter_cons]
    split
    · simp only [tblWfFrom, Bool.and_eq_true, decide_eq_true_eq]
      exact ⟨⟨h1, h2⟩, ih h3⟩
    · exact ih (tblWfFrom_mono h3 (by omega))

/-- Putting a value other than the default keeps the canonical form. -/
theorem tput_wfFrom {t : Tbl α} {lo i : Nat} {v : α} (h : tblWfFrom d lo t = true) (hi : lo ≤ i) (hv : v ≠ d) : tblWfFrom d lo (tput t i v) = true := by
  induction t generalizing lo with
  | nil => simp [tput, tblWfFrom, hi, hv]
  | cons e t ih =>
    obtain ⟨k, w⟩ := e
    simp only [tblWfFrom, Bool.and_eq_true, decide_eq_true_eq] at h
    obtain ⟨⟨h1, h2⟩, h3⟩ := h
    simp only [tput]
    split
    · simp only [tblWfFrom, Bool.and_eq_true, decide_eq_true_eq]
      exact ⟨⟨hi, hv⟩, ⟨⟨by omega, h2⟩, h3⟩⟩
    · split <;> simp only [tblWfFrom, Bool.and_eq_true, decide_eq_true_eq]
      · exact ⟨⟨h1, hv⟩, h3⟩
      · exact ⟨⟨h1, h2⟩, ih h3 (by omega)⟩

/-- Setting an index keeps a table canonical. -/
theorem tset_wf {t : Tbl α} {i : Nat} {v : α} (h : tblWf d t = true) : tblWf d (tset d t i v) = true := by
  unfold tset
  split
  · exact filter_wfFrom _ h
  · exact tput_wfFrom h (Nat.zero_le _) ‹_›

/-- Changing an index keeps a table canonical. -/
theorem tmod_wf {t : Tbl α} {i : Nat} {f : α → α} (h : tblWf d t = true) : tblWf d (tmod d t i f) = true := tset_wf h

/-- Setting consecutive indexes keeps a table canonical. -/
theorem tsetList_wf {t : Tbl α} {i : Nat} {vs : List α} (h : tblWf d t = true) : tblWf d (tsetList d t i vs) = true := by
  induction vs generalizing t i with
  | nil => exact h
  | cons v vs ih => exact ih (tset_wf h)

/-- Clearing a range keeps a table canonical. -/
theorem tclear_wf {t : Tbl α} {lo hi : Nat} (h : tblWf d t = true) : tblWf d (tclear t lo hi) = true := filter_wfFrom _ h

/-- The empty table is canonical. -/
@[simp] theorem tblWf_nil : tblWf d ([] : Tbl α) = true := rfl

omit [DecidableEq α] in
/-- A removed index reads as the default, and every other as before. -/
theorem tget_tdel {t : Tbl α} {i j : Nat} : tget d (tdel t i) j = if j = i then d else tget d t j := by
  induction t with
  | nil => simp [tdel, tget]
  | cons e t ih =>
    obtain ⟨k, w⟩ := e
    simp only [tdel, List.filter_cons, bne_iff_ne, ne_eq, tget] at ih ⊢
    split <;> simp only [tget, ih] <;> split <;> simp_all

omit [DecidableEq α] in
/-- A put index reads as its value, and every other as before. -/
theorem tget_tput {t : Tbl α} {i j : Nat} {v : α} : tget d (tput t i v) j = if j = i then v else tget d t j := by
  induction t with
  | nil => simp [tput, tget]
  | cons e t ih =>
    obtain ⟨k, w⟩ := e
    simp only [tput]
    split
    · simp [tget]
    · split
      · rename_i h
        simp only [tget, ← h]
        split <;> rfl
      · simp only [tget, ih]
        split <;> split <;> simp_all

/-- What a table reads as after one index is set. -/
theorem tget_tset {t : Tbl α} {i j : Nat} {v : α} : tget d (tset d t i v) j = if j = i then v else tget d t j := by
  unfold tset
  split
  · rename_i h
    rw [tget_tdel, h]
  · exact tget_tput

/-- A set index reads as the value set. -/
@[simp] theorem tget_tset_same {t : Tbl α} {i : Nat} {v : α} : tget d (tset d t i v) i = v := by simp [tget_tset]

/-- Every other index reads as before. -/
theorem tget_tset_ne {t : Tbl α} {i j : Nat} {v : α} (hij : j ≠ i) : tget d (tset d t i v) j = tget d t j := by simp [tget_tset, hij]

/-- What a table reads as after one index is changed. -/
theorem tget_tmod_ne {t : Tbl α} {i j : Nat} {f : α → α} (hij : j ≠ i) : tget d (tmod d t i f) j = tget d t j := tget_tset_ne hij

/-- The changed index of a table. -/
@[simp] theorem tget_tmod_same {t : Tbl α} {i : Nat} {f : α → α} : tget d (tmod d t i f) i = f (tget d t i) := tget_tset_same

omit [DecidableEq α] in
/-- Every value that a canonical table lists or holds by default satisfies what all listed values and the default satisfy. -/
theorem tget_all {t : Tbl α} {i : Nat} {p : α → Bool} (h : t.all (fun e => p e.2) = true) (hd : p d = true) : p (tget d t i) = true := by
  induction t with
  | nil => exact hd
  | cons e t ih =>
    obtain ⟨k, v⟩ := e
    simp only [List.all_cons, Bool.and_eq_true] at h
    rw [tget]
    split
    · exact h.1
    · exact ih h.2

/-- A property of every listed value survives setting one index to a value that has it. -/
theorem tset_all {t : Tbl α} {i : Nat} {v : α} {p : α → Bool} (h : t.all (fun e => p e.2) = true) (hv : p v = true) :
    (tset d t i v).all (fun e => p e.2) = true := by
  unfold tset
  split
  · simp only [tdel, List.all_eq_true, List.mem_filter] at h ⊢
    exact fun e he => h e he.1
  · clear * - h hv
    induction t with
    | nil => simp [tput, hv]
    | cons e t ih =>
      simp only [List.all_cons, Bool.and_eq_true] at h
      simp only [tput]
      split
      · simp only [List.all_cons, Bool.and_eq_true]
        exact ⟨hv, h⟩
      · split <;> simp only [List.all_cons, Bool.and_eq_true]
        · exact ⟨hv, h.2⟩
        · exact ⟨h.1, ih h.2⟩

end Sys2Proof.Machine
end

