-- ==== Sys2Proof/Laws/State.lean ====
section
/-! SUPPORT. What each update of State leaves alone: one lemma for each field and update, and what the changed component reads as. -/

namespace Sys2Proof.Machine

set_option Elab.async false

variable {s : State}

/-- A fold keeps what each of its steps keeps. -/
theorem foldl_keeps {σ α β : Type} {g : σ → β} {f : σ → α → σ} (h : ∀ s a, g (f s a) = g s) (l : List α) (s : σ) : g (l.foldl f s) = g s := by
  induction l generalizing s with
  | nil => rfl
  | cons a l ih => rw [List.foldl_cons, ih, h]

/-! A core. -/

@[simp] theorem modCore_pending {c : Nat} {f : Core → Core} : (s.modCore c f).pending = s.pending := rfl
@[simp] theorem modCore_out {c : Nat} {f : Core → Core} : (s.modCore c f).out = s.out := rfl
@[simp] theorem modCore_fresh {c : Nat} {f : Core → Core} : (s.modCore c f).fresh = s.fresh := rfl
@[simp] theorem modCore_strikes {c : Nat} {f : Core → Core} : (s.modCore c f).strikes = s.strikes := rfl
@[simp] theorem modCore_boot {c : Nat} {f : Core → Core} : (s.modCore c f).boot = s.boot := rfl
@[simp] theorem modCore_irq {c : Nat} {f : Core → Core} : (s.modCore c f).irq = s.irq := rfl
@[simp] theorem modCore_mbx {c : Nat} {f : Core → Core} : (s.modCore c f).mbx = s.mbx := rfl
@[simp] theorem modCore_hbm {c : Nat} {f : Core → Core} : (s.modCore c f).hbm = s.hbm := rfl
@[simp] theorem modCore_regions {c : Nat} {f : Core → Core} : (s.modCore c f).regions = s.regions := rfl
@[simp] theorem modCore_stage {c : Nat} {f : Core → Core} : (s.modCore c f).stage = s.stage := rfl
@[simp] theorem modCore_opt {c : Nat} {f : Core → Core} : (s.modCore c f).opt = s.opt := rfl
@[simp] theorem modCore_updateCmds {c : Nat} {f : Core → Core} : (s.modCore c f).updateCmds = s.updateCmds := rfl
@[simp] theorem modCore_tarn {c : Nat} {f : Core → Core} : (s.modCore c f).tarn = s.tarn := rfl
@[simp] theorem modCore_groups {c : Nat} {f : Core → Core} : (s.modCore c f).groups = s.groups := rfl
@[simp] theorem modCore_buckets {c : Nat} {f : Core → Core} : (s.modCore c f).buckets = s.buckets := rfl
@[simp] theorem modCore_ovt {c : Nat} {f : Core → Core} : (s.modCore c f).ovt = s.ovt := rfl
@[simp] theorem modCore_fabric {c : Nat} {f : Core → Core} : (s.modCore c f).fabric = s.fabric := rfl
@[simp] theorem modCore_net {c : Nat} {f : Core → Core} : (s.modCore c f).net = s.net := rfl
@[simp] theorem modCore_clock {c : Nat} {f : Core → Core} : (s.modCore c f).clock = s.clock := rfl
@[simp] theorem modCore_edges {c : Nat} {f : Core → Core} : (s.modCore c f).edges = s.edges := rfl
@[simp] theorem modCore_host {c : Nat} {f : Core → Core} : (s.modCore c f).host = s.host := rfl
@[simp] theorem modCore_eth {c : Nat} {f : Core → Core} : (s.modCore c f).eth = s.eth := rfl
@[simp] theorem modCore_err {c : Nat} {f : Core → Core} : (s.modCore c f).err = s.err := rfl
@[simp] theorem modCore_sec {c : Nat} {f : Core → Core} : (s.modCore c f).sec = s.sec := rfl
@[simp] theorem modCore_power {c : Nat} {f : Core → Core} : (s.modCore c f).power = s.power := rfl
@[simp] theorem modCore_telem {c : Nat} {f : Core → Core} : (s.modCore c f).telem = s.telem := rfl

/-! A command queue. -/

@[simp] theorem modQueue_pending {c q : Nat} {f : CmdQueue → CmdQueue} : (s.modQueue c q f).pending = s.pending := rfl
@[simp] theorem modQueue_out {c q : Nat} {f : CmdQueue → CmdQueue} : (s.modQueue c q f).out = s.out := rfl
@[simp] theorem modQueue_fresh {c q : Nat} {f : CmdQueue → CmdQueue} : (s.modQueue c q f).fresh = s.fresh := rfl
@[simp] theorem modQueue_strikes {c q : Nat} {f : CmdQueue → CmdQueue} : (s.modQueue c q f).strikes = s.strikes := rfl
@[simp] theorem modQueue_boot {c q : Nat} {f : CmdQueue → CmdQueue} : (s.modQueue c q f).boot = s.boot := rfl
@[simp] theorem modQueue_irq {c q : Nat} {f : CmdQueue → CmdQueue} : (s.modQueue c q f).irq = s.irq := rfl
@[simp] theorem modQueue_mbx {c q : Nat} {f : CmdQueue → CmdQueue} : (s.modQueue c q f).mbx = s.mbx := rfl
@[simp] theorem modQueue_hbm {c q : Nat} {f : CmdQueue → CmdQueue} : (s.modQueue c q f).hbm = s.hbm := rfl
@[simp] theorem modQueue_regions {c q : Nat} {f : CmdQueue → CmdQueue} : (s.modQueue c q f).regions = s.regions := rfl
@[simp] theorem modQueue_stage {c q : Nat} {f : CmdQueue → CmdQueue} : (s.modQueue c q f).stage = s.stage := rfl
@[simp] theorem modQueue_opt {c q : Nat} {f : CmdQueue → CmdQueue} : (s.modQueue c q f).opt = s.opt := rfl
@[simp] theorem modQueue_updateCmds {c q : Nat} {f : CmdQueue → CmdQueue} : (s.modQueue c q f).updateCmds = s.updateCmds := rfl
@[simp] theorem modQueue_tarn {c q : Nat} {f : CmdQueue → CmdQueue} : (s.modQueue c q f).tarn = s.tarn := rfl
@[simp] theorem modQueue_groups {c q : Nat} {f : CmdQueue → CmdQueue} : (s.modQueue c q f).groups = s.groups := rfl
@[simp] theorem modQueue_buckets {c q : Nat} {f : CmdQueue → CmdQueue} : (s.modQueue c q f).buckets = s.buckets := rfl
@[simp] theorem modQueue_ovt {c q : Nat} {f : CmdQueue → CmdQueue} : (s.modQueue c q f).ovt = s.ovt := rfl
@[simp] theorem modQueue_fabric {c q : Nat} {f : CmdQueue → CmdQueue} : (s.modQueue c q f).fabric = s.fabric := rfl
@[simp] theorem modQueue_net {c q : Nat} {f : CmdQueue → CmdQueue} : (s.modQueue c q f).net = s.net := rfl
@[simp] theorem modQueue_clock {c q : Nat} {f : CmdQueue → CmdQueue} : (s.modQueue c q f).clock = s.clock := rfl
@[simp] theorem modQueue_edges {c q : Nat} {f : CmdQueue → CmdQueue} : (s.modQueue c q f).edges = s.edges := rfl
@[simp] theorem modQueue_host {c q : Nat} {f : CmdQueue → CmdQueue} : (s.modQueue c q f).host = s.host := rfl
@[simp] theorem modQueue_eth {c q : Nat} {f : CmdQueue → CmdQueue} : (s.modQueue c q f).eth = s.eth := rfl
@[simp] theorem modQueue_err {c q : Nat} {f : CmdQueue → CmdQueue} : (s.modQueue c q f).err = s.err := rfl
@[simp] theorem modQueue_sec {c q : Nat} {f : CmdQueue → CmdQueue} : (s.modQueue c q f).sec = s.sec := rfl
@[simp] theorem modQueue_power {c q : Nat} {f : CmdQueue → CmdQueue} : (s.modQueue c q f).power = s.power := rfl
@[simp] theorem modQueue_telem {c q : Nat} {f : CmdQueue → CmdQueue} : (s.modQueue c q f).telem = s.telem := rfl

/-! A core's configuration. -/

@[simp] theorem modCfg_pending {c : Nat} {f : CoreCfg → CoreCfg} : (s.modCfg c f).pending = s.pending := rfl
@[simp] theorem modCfg_out {c : Nat} {f : CoreCfg → CoreCfg} : (s.modCfg c f).out = s.out := rfl
@[simp] theorem modCfg_fresh {c : Nat} {f : CoreCfg → CoreCfg} : (s.modCfg c f).fresh = s.fresh := rfl
@[simp] theorem modCfg_strikes {c : Nat} {f : CoreCfg → CoreCfg} : (s.modCfg c f).strikes = s.strikes := rfl
@[simp] theorem modCfg_boot {c : Nat} {f : CoreCfg → CoreCfg} : (s.modCfg c f).boot = s.boot := rfl
@[simp] theorem modCfg_irq {c : Nat} {f : CoreCfg → CoreCfg} : (s.modCfg c f).irq = s.irq := rfl
@[simp] theorem modCfg_mbx {c : Nat} {f : CoreCfg → CoreCfg} : (s.modCfg c f).mbx = s.mbx := rfl
@[simp] theorem modCfg_hbm {c : Nat} {f : CoreCfg → CoreCfg} : (s.modCfg c f).hbm = s.hbm := rfl
@[simp] theorem modCfg_regions {c : Nat} {f : CoreCfg → CoreCfg} : (s.modCfg c f).regions = s.regions := rfl
@[simp] theorem modCfg_stage {c : Nat} {f : CoreCfg → CoreCfg} : (s.modCfg c f).stage = s.stage := rfl
@[simp] theorem modCfg_opt {c : Nat} {f : CoreCfg → CoreCfg} : (s.modCfg c f).opt = s.opt := rfl
@[simp] theorem modCfg_updateCmds {c : Nat} {f : CoreCfg → CoreCfg} : (s.modCfg c f).updateCmds = s.updateCmds := rfl
@[simp] theorem modCfg_tarn {c : Nat} {f : CoreCfg → CoreCfg} : (s.modCfg c f).tarn = s.tarn := rfl
@[simp] theorem modCfg_groups {c : Nat} {f : CoreCfg → CoreCfg} : (s.modCfg c f).groups = s.groups := rfl
@[simp] theorem modCfg_buckets {c : Nat} {f : CoreCfg → CoreCfg} : (s.modCfg c f).buckets = s.buckets := rfl
@[simp] theorem modCfg_ovt {c : Nat} {f : CoreCfg → CoreCfg} : (s.modCfg c f).ovt = s.ovt := rfl
@[simp] theorem modCfg_fabric {c : Nat} {f : CoreCfg → CoreCfg} : (s.modCfg c f).fabric = s.fabric := rfl
@[simp] theorem modCfg_net {c : Nat} {f : CoreCfg → CoreCfg} : (s.modCfg c f).net = s.net := rfl
@[simp] theorem modCfg_clock {c : Nat} {f : CoreCfg → CoreCfg} : (s.modCfg c f).clock = s.clock := rfl
@[simp] theorem modCfg_edges {c : Nat} {f : CoreCfg → CoreCfg} : (s.modCfg c f).edges = s.edges := rfl
@[simp] theorem modCfg_host {c : Nat} {f : CoreCfg → CoreCfg} : (s.modCfg c f).host = s.host := rfl
@[simp] theorem modCfg_eth {c : Nat} {f : CoreCfg → CoreCfg} : (s.modCfg c f).eth = s.eth := rfl
@[simp] theorem modCfg_err {c : Nat} {f : CoreCfg → CoreCfg} : (s.modCfg c f).err = s.err := rfl
@[simp] theorem modCfg_sec {c : Nat} {f : CoreCfg → CoreCfg} : (s.modCfg c f).sec = s.sec := rfl
@[simp] theorem modCfg_power {c : Nat} {f : CoreCfg → CoreCfg} : (s.modCfg c f).power = s.power := rfl
@[simp] theorem modCfg_telem {c : Nat} {f : CoreCfg → CoreCfg} : (s.modCfg c f).telem = s.telem := rfl

/-! A started command. -/

@[simp] theorem modStarted_pending {c q i : Nat} {f : Started → Started} : (s.modStarted c q i f).pending = s.pending := rfl
@[simp] theorem modStarted_out {c q i : Nat} {f : Started → Started} : (s.modStarted c q i f).out = s.out := rfl
@[simp] theorem modStarted_fresh {c q i : Nat} {f : Started → Started} : (s.modStarted c q i f).fresh = s.fresh := rfl
@[simp] theorem modStarted_strikes {c q i : Nat} {f : Started → Started} : (s.modStarted c q i f).strikes = s.strikes := rfl
@[simp] theorem modStarted_boot {c q i : Nat} {f : Started → Started} : (s.modStarted c q i f).boot = s.boot := rfl
@[simp] theorem modStarted_irq {c q i : Nat} {f : Started → Started} : (s.modStarted c q i f).irq = s.irq := rfl
@[simp] theorem modStarted_mbx {c q i : Nat} {f : Started → Started} : (s.modStarted c q i f).mbx = s.mbx := rfl
@[simp] theorem modStarted_hbm {c q i : Nat} {f : Started → Started} : (s.modStarted c q i f).hbm = s.hbm := rfl
@[simp] theorem modStarted_regions {c q i : Nat} {f : Started → Started} : (s.modStarted c q i f).regions = s.regions := rfl
@[simp] theorem modStarted_stage {c q i : Nat} {f : Started → Started} : (s.modStarted c q i f).stage = s.stage := rfl
@[simp] theorem modStarted_opt {c q i : Nat} {f : Started → Started} : (s.modStarted c q i f).opt = s.opt := rfl
@[simp] theorem modStarted_updateCmds {c q i : Nat} {f : Started → Started} : (s.modStarted c q i f).updateCmds = s.updateCmds := rfl
@[simp] theorem modStarted_tarn {c q i : Nat} {f : Started → Started} : (s.modStarted c q i f).tarn = s.tarn := rfl
@[simp] theorem modStarted_groups {c q i : Nat} {f : Started → Started} : (s.modStarted c q i f).groups = s.groups := rfl
@[simp] theorem modStarted_buckets {c q i : Nat} {f : Started → Started} : (s.modStarted c q i f).buckets = s.buckets := rfl
@[simp] theorem modStarted_ovt {c q i : Nat} {f : Started → Started} : (s.modStarted c q i f).ovt = s.ovt := rfl
@[simp] theorem modStarted_fabric {c q i : Nat} {f : Started → Started} : (s.modStarted c q i f).fabric = s.fabric := rfl
@[simp] theorem modStarted_net {c q i : Nat} {f : Started → Started} : (s.modStarted c q i f).net = s.net := rfl
@[simp] theorem modStarted_clock {c q i : Nat} {f : Started → Started} : (s.modStarted c q i f).clock = s.clock := rfl
@[simp] theorem modStarted_edges {c q i : Nat} {f : Started → Started} : (s.modStarted c q i f).edges = s.edges := rfl
@[simp] theorem modStarted_host {c q i : Nat} {f : Started → Started} : (s.modStarted c q i f).host = s.host := rfl
@[simp] theorem modStarted_eth {c q i : Nat} {f : Started → Started} : (s.modStarted c q i f).eth = s.eth := rfl
@[simp] theorem modStarted_err {c q i : Nat} {f : Started → Started} : (s.modStarted c q i f).err = s.err := rfl
@[simp] theorem modStarted_sec {c q i : Nat} {f : Started → Started} : (s.modStarted c q i f).sec = s.sec := rfl
@[simp] theorem modStarted_power {c q i : Nat} {f : Started → Started} : (s.modStarted c q i f).power = s.power := rfl
@[simp] theorem modStarted_telem {c q i : Nat} {f : Started → Started} : (s.modStarted c q i f).telem = s.telem := rfl

/-! A port. -/

@[simp] theorem modPort_pending {p : Nat} {f : Port → Port} : (s.modPort p f).pending = s.pending := rfl
@[simp] theorem modPort_out {p : Nat} {f : Port → Port} : (s.modPort p f).out = s.out := rfl
@[simp] theorem modPort_fresh {p : Nat} {f : Port → Port} : (s.modPort p f).fresh = s.fresh := rfl
@[simp] theorem modPort_strikes {p : Nat} {f : Port → Port} : (s.modPort p f).strikes = s.strikes := rfl
@[simp] theorem modPort_boot {p : Nat} {f : Port → Port} : (s.modPort p f).boot = s.boot := rfl
@[simp] theorem modPort_irq {p : Nat} {f : Port → Port} : (s.modPort p f).irq = s.irq := rfl
@[simp] theorem modPort_mbx {p : Nat} {f : Port → Port} : (s.modPort p f).mbx = s.mbx := rfl
@[simp] theorem modPort_cores {p : Nat} {f : Port → Port} : (s.modPort p f).cores = s.cores := rfl
@[simp] theorem modPort_hbm {p : Nat} {f : Port → Port} : (s.modPort p f).hbm = s.hbm := rfl
@[simp] theorem modPort_regions {p : Nat} {f : Port → Port} : (s.modPort p f).regions = s.regions := rfl
@[simp] theorem modPort_stage {p : Nat} {f : Port → Port} : (s.modPort p f).stage = s.stage := rfl
@[simp] theorem modPort_opt {p : Nat} {f : Port → Port} : (s.modPort p f).opt = s.opt := rfl
@[simp] theorem modPort_updateCmds {p : Nat} {f : Port → Port} : (s.modPort p f).updateCmds = s.updateCmds := rfl
@[simp] theorem modPort_tarn {p : Nat} {f : Port → Port} : (s.modPort p f).tarn = s.tarn := rfl
@[simp] theorem modPort_groups {p : Nat} {f : Port → Port} : (s.modPort p f).groups = s.groups := rfl
@[simp] theorem modPort_buckets {p : Nat} {f : Port → Port} : (s.modPort p f).buckets = s.buckets := rfl
@[simp] theorem modPort_ovt {p : Nat} {f : Port → Port} : (s.modPort p f).ovt = s.ovt := rfl
@[simp] theorem modPort_net {p : Nat} {f : Port → Port} : (s.modPort p f).net = s.net := rfl
@[simp] theorem modPort_clock {p : Nat} {f : Port → Port} : (s.modPort p f).clock = s.clock := rfl
@[simp] theorem modPort_edges {p : Nat} {f : Port → Port} : (s.modPort p f).edges = s.edges := rfl
@[simp] theorem modPort_host {p : Nat} {f : Port → Port} : (s.modPort p f).host = s.host := rfl
@[simp] theorem modPort_eth {p : Nat} {f : Port → Port} : (s.modPort p f).eth = s.eth := rfl
@[simp] theorem modPort_err {p : Nat} {f : Port → Port} : (s.modPort p f).err = s.err := rfl
@[simp] theorem modPort_sec {p : Nat} {f : Port → Port} : (s.modPort p f).sec = s.sec := rfl
@[simp] theorem modPort_power {p : Nat} {f : Port → Port} : (s.modPort p f).power = s.power := rfl
@[simp] theorem modPort_telem {p : Nat} {f : Port → Port} : (s.modPort p f).telem = s.telem := rfl

/-! A connection. -/

@[simp] theorem modConn_pending {c : Nat} {f : Conn → Conn} : (s.modConn c f).pending = s.pending := rfl
@[simp] theorem modConn_out {c : Nat} {f : Conn → Conn} : (s.modConn c f).out = s.out := rfl
@[simp] theorem modConn_fresh {c : Nat} {f : Conn → Conn} : (s.modConn c f).fresh = s.fresh := rfl
@[simp] theorem modConn_strikes {c : Nat} {f : Conn → Conn} : (s.modConn c f).strikes = s.strikes := rfl
@[simp] theorem modConn_boot {c : Nat} {f : Conn → Conn} : (s.modConn c f).boot = s.boot := rfl
@[simp] theorem modConn_irq {c : Nat} {f : Conn → Conn} : (s.modConn c f).irq = s.irq := rfl
@[simp] theorem modConn_mbx {c : Nat} {f : Conn → Conn} : (s.modConn c f).mbx = s.mbx := rfl
@[simp] theorem modConn_cores {c : Nat} {f : Conn → Conn} : (s.modConn c f).cores = s.cores := rfl
@[simp] theorem modConn_hbm {c : Nat} {f : Conn → Conn} : (s.modConn c f).hbm = s.hbm := rfl
@[simp] theorem modConn_regions {c : Nat} {f : Conn → Conn} : (s.modConn c f).regions = s.regions := rfl
@[simp] theorem modConn_stage {c : Nat} {f : Conn → Conn} : (s.modConn c f).stage = s.stage := rfl
@[simp] theorem modConn_opt {c : Nat} {f : Conn → Conn} : (s.modConn c f).opt = s.opt := rfl
@[simp] theorem modConn_updateCmds {c : Nat} {f : Conn → Conn} : (s.modConn c f).updateCmds = s.updateCmds := rfl
@[simp] theorem modConn_tarn {c : Nat} {f : Conn → Conn} : (s.modConn c f).tarn = s.tarn := rfl
@[simp] theorem modConn_groups {c : Nat} {f : Conn → Conn} : (s.modConn c f).groups = s.groups := rfl
@[simp] theorem modConn_buckets {c : Nat} {f : Conn → Conn} : (s.modConn c f).buckets = s.buckets := rfl
@[simp] theorem modConn_ovt {c : Nat} {f : Conn → Conn} : (s.modConn c f).ovt = s.ovt := rfl
@[simp] theorem modConn_fabric {c : Nat} {f : Conn → Conn} : (s.modConn c f).fabric = s.fabric := rfl
@[simp] theorem modConn_net {c : Nat} {f : Conn → Conn} : (s.modConn c f).net = s.net := rfl
@[simp] theorem modConn_clock {c : Nat} {f : Conn → Conn} : (s.modConn c f).clock = s.clock := rfl
@[simp] theorem modConn_edges {c : Nat} {f : Conn → Conn} : (s.modConn c f).edges = s.edges := rfl
@[simp] theorem modConn_host {c : Nat} {f : Conn → Conn} : (s.modConn c f).host = s.host := rfl
@[simp] theorem modConn_err {c : Nat} {f : Conn → Conn} : (s.modConn c f).err = s.err := rfl
@[simp] theorem modConn_sec {c : Nat} {f : Conn → Conn} : (s.modConn c f).sec = s.sec := rfl
@[simp] theorem modConn_power {c : Nat} {f : Conn → Conn} : (s.modConn c f).power = s.power := rfl
@[simp] theorem modConn_telem {c : Nat} {f : Conn → Conn} : (s.modConn c f).telem = s.telem := rfl

/-! An Ethernet port. -/

@[simp] theorem modEth_pending {p : Nat} {f : EthPort → EthPort} : (s.modEth p f).pending = s.pending := rfl
@[simp] theorem modEth_out {p : Nat} {f : EthPort → EthPort} : (s.modEth p f).out = s.out := rfl
@[simp] theorem modEth_fresh {p : Nat} {f : EthPort → EthPort} : (s.modEth p f).fresh = s.fresh := rfl
@[simp] theorem modEth_strikes {p : Nat} {f : EthPort → EthPort} : (s.modEth p f).strikes = s.strikes := rfl
@[simp] theorem modEth_boot {p : Nat} {f : EthPort → EthPort} : (s.modEth p f).boot = s.boot := rfl
@[simp] theorem modEth_irq {p : Nat} {f : EthPort → EthPort} : (s.modEth p f).irq = s.irq := rfl
@[simp] theorem modEth_mbx {p : Nat} {f : EthPort → EthPort} : (s.modEth p f).mbx = s.mbx := rfl
@[simp] theorem modEth_cores {p : Nat} {f : EthPort → EthPort} : (s.modEth p f).cores = s.cores := rfl
@[simp] theorem modEth_hbm {p : Nat} {f : EthPort → EthPort} : (s.modEth p f).hbm = s.hbm := rfl
@[simp] theorem modEth_regions {p : Nat} {f : EthPort → EthPort} : (s.modEth p f).regions = s.regions := rfl
@[simp] theorem modEth_stage {p : Nat} {f : EthPort → EthPort} : (s.modEth p f).stage = s.stage := rfl
@[simp] theorem modEth_opt {p : Nat} {f : EthPort → EthPort} : (s.modEth p f).opt = s.opt := rfl
@[simp] theorem modEth_updateCmds {p : Nat} {f : EthPort → EthPort} : (s.modEth p f).updateCmds = s.updateCmds := rfl
@[simp] theorem modEth_tarn {p : Nat} {f : EthPort → EthPort} : (s.modEth p f).tarn = s.tarn := rfl
@[simp] theorem modEth_groups {p : Nat} {f : EthPort → EthPort} : (s.modEth p f).groups = s.groups := rfl
@[simp] theorem modEth_buckets {p : Nat} {f : EthPort → EthPort} : (s.modEth p f).buckets = s.buckets := rfl
@[simp] theorem modEth_ovt {p : Nat} {f : EthPort → EthPort} : (s.modEth p f).ovt = s.ovt := rfl
@[simp] theorem modEth_fabric {p : Nat} {f : EthPort → EthPort} : (s.modEth p f).fabric = s.fabric := rfl
@[simp] theorem modEth_net {p : Nat} {f : EthPort → EthPort} : (s.modEth p f).net = s.net := rfl
@[simp] theorem modEth_clock {p : Nat} {f : EthPort → EthPort} : (s.modEth p f).clock = s.clock := rfl
@[simp] theorem modEth_edges {p : Nat} {f : EthPort → EthPort} : (s.modEth p f).edges = s.edges := rfl
@[simp] theorem modEth_host {p : Nat} {f : EthPort → EthPort} : (s.modEth p f).host = s.host := rfl
@[simp] theorem modEth_err {p : Nat} {f : EthPort → EthPort} : (s.modEth p f).err = s.err := rfl
@[simp] theorem modEth_sec {p : Nat} {f : EthPort → EthPort} : (s.modEth p f).sec = s.sec := rfl
@[simp] theorem modEth_power {p : Nat} {f : EthPort → EthPort} : (s.modEth p f).power = s.power := rfl
@[simp] theorem modEth_telem {p : Nat} {f : EthPort → EthPort} : (s.modEth p f).telem = s.telem := rfl

/-! A mailbox channel. -/

@[simp] theorem modChan_pending {n : Nat} {f : Channel → Channel} : (s.modChan n f).pending = s.pending := rfl
@[simp] theorem modChan_out {n : Nat} {f : Channel → Channel} : (s.modChan n f).out = s.out := rfl
@[simp] theorem modChan_fresh {n : Nat} {f : Channel → Channel} : (s.modChan n f).fresh = s.fresh := rfl
@[simp] theorem modChan_strikes {n : Nat} {f : Channel → Channel} : (s.modChan n f).strikes = s.strikes := rfl
@[simp] theorem modChan_boot {n : Nat} {f : Channel → Channel} : (s.modChan n f).boot = s.boot := rfl
@[simp] theorem modChan_irq {n : Nat} {f : Channel → Channel} : (s.modChan n f).irq = s.irq := rfl
@[simp] theorem modChan_cores {n : Nat} {f : Channel → Channel} : (s.modChan n f).cores = s.cores := rfl
@[simp] theorem modChan_hbm {n : Nat} {f : Channel → Channel} : (s.modChan n f).hbm = s.hbm := rfl
@[simp] theorem modChan_regions {n : Nat} {f : Channel → Channel} : (s.modChan n f).regions = s.regions := rfl
@[simp] theorem modChan_stage {n : Nat} {f : Channel → Channel} : (s.modChan n f).stage = s.stage := rfl
@[simp] theorem modChan_opt {n : Nat} {f : Channel → Channel} : (s.modChan n f).opt = s.opt := rfl
@[simp] theorem modChan_updateCmds {n : Nat} {f : Channel → Channel} : (s.modChan n f).updateCmds = s.updateCmds := rfl
@[simp] theorem modChan_tarn {n : Nat} {f : Channel → Channel} : (s.modChan n f).tarn = s.tarn := rfl
@[simp] theorem modChan_groups {n : Nat} {f : Channel → Channel} : (s.modChan n f).groups = s.groups := rfl
@[simp] theorem modChan_buckets {n : Nat} {f : Channel → Channel} : (s.modChan n f).buckets = s.buckets := rfl
@[simp] theorem modChan_ovt {n : Nat} {f : Channel → Channel} : (s.modChan n f).ovt = s.ovt := rfl
@[simp] theorem modChan_fabric {n : Nat} {f : Channel → Channel} : (s.modChan n f).fabric = s.fabric := rfl
@[simp] theorem modChan_net {n : Nat} {f : Channel → Channel} : (s.modChan n f).net = s.net := rfl
@[simp] theorem modChan_clock {n : Nat} {f : Channel → Channel} : (s.modChan n f).clock = s.clock := rfl
@[simp] theorem modChan_edges {n : Nat} {f : Channel → Channel} : (s.modChan n f).edges = s.edges := rfl
@[simp] theorem modChan_host {n : Nat} {f : Channel → Channel} : (s.modChan n f).host = s.host := rfl
@[simp] theorem modChan_eth {n : Nat} {f : Channel → Channel} : (s.modChan n f).eth = s.eth := rfl
@[simp] theorem modChan_err {n : Nat} {f : Channel → Channel} : (s.modChan n f).err = s.err := rfl
@[simp] theorem modChan_sec {n : Nat} {f : Channel → Channel} : (s.modChan n f).sec = s.sec := rfl
@[simp] theorem modChan_power {n : Nat} {f : Channel → Channel} : (s.modChan n f).power = s.power := rfl
@[simp] theorem modChan_telem {n : Nat} {f : Channel → Channel} : (s.modChan n f).telem = s.telem := rfl

/-! An output. -/

@[simp] theorem emit_pending {o : Out} : (s.emit o).pending = s.pending := rfl
@[simp] theorem emit_fresh {o : Out} : (s.emit o).fresh = s.fresh := rfl
@[simp] theorem emit_strikes {o : Out} : (s.emit o).strikes = s.strikes := rfl
@[simp] theorem emit_boot {o : Out} : (s.emit o).boot = s.boot := rfl
@[simp] theorem emit_irq {o : Out} : (s.emit o).irq = s.irq := rfl
@[simp] theorem emit_mbx {o : Out} : (s.emit o).mbx = s.mbx := rfl
@[simp] theorem emit_cores {o : Out} : (s.emit o).cores = s.cores := rfl
@[simp] theorem emit_hbm {o : Out} : (s.emit o).hbm = s.hbm := rfl
@[simp] theorem emit_regions {o : Out} : (s.emit o).regions = s.regions := rfl
@[simp] theorem emit_stage {o : Out} : (s.emit o).stage = s.stage := rfl
@[simp] theorem emit_opt {o : Out} : (s.emit o).opt = s.opt := rfl
@[simp] theorem emit_updateCmds {o : Out} : (s.emit o).updateCmds = s.updateCmds := rfl
@[simp] theorem emit_tarn {o : Out} : (s.emit o).tarn = s.tarn := rfl
@[simp] theorem emit_groups {o : Out} : (s.emit o).groups = s.groups := rfl
@[simp] theorem emit_buckets {o : Out} : (s.emit o).buckets = s.buckets := rfl
@[simp] theorem emit_ovt {o : Out} : (s.emit o).ovt = s.ovt := rfl
@[simp] theorem emit_fabric {o : Out} : (s.emit o).fabric = s.fabric := rfl
@[simp] theorem emit_net {o : Out} : (s.emit o).net = s.net := rfl
@[simp] theorem emit_clock {o : Out} : (s.emit o).clock = s.clock := rfl
@[simp] theorem emit_edges {o : Out} : (s.emit o).edges = s.edges := rfl
@[simp] theorem emit_host {o : Out} : (s.emit o).host = s.host := rfl
@[simp] theorem emit_eth {o : Out} : (s.emit o).eth = s.eth := rfl
@[simp] theorem emit_err {o : Out} : (s.emit o).err = s.err := rfl
@[simp] theorem emit_sec {o : Out} : (s.emit o).sec = s.sec := rfl
@[simp] theorem emit_power {o : Out} : (s.emit o).power = s.power := rfl
@[simp] theorem emit_telem {o : Out} : (s.emit o).telem = s.telem := rfl

/-! An index. -/

@[simp] theorem modIndex_pending {i : Nat} {f : Index → Index} : (s.modIndex i f).pending = s.pending := rfl
@[simp] theorem modIndex_out {i : Nat} {f : Index → Index} : (s.modIndex i f).out = s.out := rfl
@[simp] theorem modIndex_fresh {i : Nat} {f : Index → Index} : (s.modIndex i f).fresh = s.fresh := rfl
@[simp] theorem modIndex_strikes {i : Nat} {f : Index → Index} : (s.modIndex i f).strikes = s.strikes := rfl
@[simp] theorem modIndex_boot {i : Nat} {f : Index → Index} : (s.modIndex i f).boot = s.boot := rfl
@[simp] theorem modIndex_irq {i : Nat} {f : Index → Index} : (s.modIndex i f).irq = s.irq := rfl
@[simp] theorem modIndex_mbx {i : Nat} {f : Index → Index} : (s.modIndex i f).mbx = s.mbx := rfl
@[simp] theorem modIndex_cores {i : Nat} {f : Index → Index} : (s.modIndex i f).cores = s.cores := rfl
@[simp] theorem modIndex_hbm {i : Nat} {f : Index → Index} : (s.modIndex i f).hbm = s.hbm := rfl
@[simp] theorem modIndex_regions {i : Nat} {f : Index → Index} : (s.modIndex i f).regions = s.regions := rfl
@[simp] theorem modIndex_stage {i : Nat} {f : Index → Index} : (s.modIndex i f).stage = s.stage := rfl
@[simp] theorem modIndex_opt {i : Nat} {f : Index → Index} : (s.modIndex i f).opt = s.opt := rfl
@[simp] theorem modIndex_updateCmds {i : Nat} {f : Index → Index} : (s.modIndex i f).updateCmds = s.updateCmds := rfl
@[simp] theorem modIndex_groups {i : Nat} {f : Index → Index} : (s.modIndex i f).groups = s.groups := rfl
@[simp] theorem modIndex_buckets {i : Nat} {f : Index → Index} : (s.modIndex i f).buckets = s.buckets := rfl
@[simp] theorem modIndex_ovt {i : Nat} {f : Index → Index} : (s.modIndex i f).ovt = s.ovt := rfl
@[simp] theorem modIndex_fabric {i : Nat} {f : Index → Index} : (s.modIndex i f).fabric = s.fabric := rfl
@[simp] theorem modIndex_net {i : Nat} {f : Index → Index} : (s.modIndex i f).net = s.net := rfl
@[simp] theorem modIndex_clock {i : Nat} {f : Index → Index} : (s.modIndex i f).clock = s.clock := rfl
@[simp] theorem modIndex_edges {i : Nat} {f : Index → Index} : (s.modIndex i f).edges = s.edges := rfl
@[simp] theorem modIndex_host {i : Nat} {f : Index → Index} : (s.modIndex i f).host = s.host := rfl
@[simp] theorem modIndex_eth {i : Nat} {f : Index → Index} : (s.modIndex i f).eth = s.eth := rfl
@[simp] theorem modIndex_err {i : Nat} {f : Index → Index} : (s.modIndex i f).err = s.err := rfl
@[simp] theorem modIndex_sec {i : Nat} {f : Index → Index} : (s.modIndex i f).sec = s.sec := rfl
@[simp] theorem modIndex_power {i : Nat} {f : Index → Index} : (s.modIndex i f).power = s.power := rfl
@[simp] theorem modIndex_telem {i : Nat} {f : Index → Index} : (s.modIndex i f).telem = s.telem := rfl

/-! A network operation begins. -/

@[simp] theorem addOp_pending {o : NetOp} : (s.addOp o).pending = s.pending := rfl
@[simp] theorem addOp_out {o : NetOp} : (s.addOp o).out = s.out := rfl
@[simp] theorem addOp_fresh {o : NetOp} : (s.addOp o).fresh = s.fresh := rfl
@[simp] theorem addOp_strikes {o : NetOp} : (s.addOp o).strikes = s.strikes := rfl
@[simp] theorem addOp_boot {o : NetOp} : (s.addOp o).boot = s.boot := rfl
@[simp] theorem addOp_irq {o : NetOp} : (s.addOp o).irq = s.irq := rfl
@[simp] theorem addOp_mbx {o : NetOp} : (s.addOp o).mbx = s.mbx := rfl
@[simp] theorem addOp_cores {o : NetOp} : (s.addOp o).cores = s.cores := rfl
@[simp] theorem addOp_hbm {o : NetOp} : (s.addOp o).hbm = s.hbm := rfl
@[simp] theorem addOp_regions {o : NetOp} : (s.addOp o).regions = s.regions := rfl
@[simp] theorem addOp_stage {o : NetOp} : (s.addOp o).stage = s.stage := rfl
@[simp] theorem addOp_opt {o : NetOp} : (s.addOp o).opt = s.opt := rfl
@[simp] theorem addOp_updateCmds {o : NetOp} : (s.addOp o).updateCmds = s.updateCmds := rfl
@[simp] theorem addOp_tarn {o : NetOp} : (s.addOp o).tarn = s.tarn := rfl
@[simp] theorem addOp_groups {o : NetOp} : (s.addOp o).groups = s.groups := rfl
@[simp] theorem addOp_buckets {o : NetOp} : (s.addOp o).buckets = s.buckets := rfl
@[simp] theorem addOp_ovt {o : NetOp} : (s.addOp o).ovt = s.ovt := rfl
@[simp] theorem addOp_fabric {o : NetOp} : (s.addOp o).fabric = s.fabric := rfl
@[simp] theorem addOp_clock {o : NetOp} : (s.addOp o).clock = s.clock := rfl
@[simp] theorem addOp_edges {o : NetOp} : (s.addOp o).edges = s.edges := rfl
@[simp] theorem addOp_host {o : NetOp} : (s.addOp o).host = s.host := rfl
@[simp] theorem addOp_eth {o : NetOp} : (s.addOp o).eth = s.eth := rfl
@[simp] theorem addOp_err {o : NetOp} : (s.addOp o).err = s.err := rfl
@[simp] theorem addOp_sec {o : NetOp} : (s.addOp o).sec = s.sec := rfl
@[simp] theorem addOp_power {o : NetOp} : (s.addOp o).power = s.power := rfl
@[simp] theorem addOp_telem {o : NetOp} : (s.addOp o).telem = s.telem := rfl

/-! A network operation ends. -/

@[simp] theorem endOp_pending {t : Nat} : (s.endOp t).pending = s.pending := rfl
@[simp] theorem endOp_out {t : Nat} : (s.endOp t).out = s.out := rfl
@[simp] theorem endOp_fresh {t : Nat} : (s.endOp t).fresh = s.fresh := rfl
@[simp] theorem endOp_strikes {t : Nat} : (s.endOp t).strikes = s.strikes := rfl
@[simp] theorem endOp_boot {t : Nat} : (s.endOp t).boot = s.boot := rfl
@[simp] theorem endOp_irq {t : Nat} : (s.endOp t).irq = s.irq := rfl
@[simp] theorem endOp_mbx {t : Nat} : (s.endOp t).mbx = s.mbx := rfl
@[simp] theorem endOp_cores {t : Nat} : (s.endOp t).cores = s.cores := rfl
@[simp] theorem endOp_hbm {t : Nat} : (s.endOp t).hbm = s.hbm := rfl
@[simp] theorem endOp_regions {t : Nat} : (s.endOp t).regions = s.regions := rfl
@[simp] theorem endOp_stage {t : Nat} : (s.endOp t).stage = s.stage := rfl
@[simp] theorem endOp_opt {t : Nat} : (s.endOp t).opt = s.opt := rfl
@[simp] theorem endOp_updateCmds {t : Nat} : (s.endOp t).updateCmds = s.updateCmds := rfl
@[simp] theorem endOp_tarn {t : Nat} : (s.endOp t).tarn = s.tarn := rfl
@[simp] theorem endOp_groups {t : Nat} : (s.endOp t).groups = s.groups := rfl
@[simp] theorem endOp_buckets {t : Nat} : (s.endOp t).buckets = s.buckets := rfl
@[simp] theorem endOp_ovt {t : Nat} : (s.endOp t).ovt = s.ovt := rfl
@[simp] theorem endOp_fabric {t : Nat} : (s.endOp t).fabric = s.fabric := rfl
@[simp] theorem endOp_clock {t : Nat} : (s.endOp t).clock = s.clock := rfl
@[simp] theorem endOp_edges {t : Nat} : (s.endOp t).edges = s.edges := rfl
@[simp] theorem endOp_host {t : Nat} : (s.endOp t).host = s.host := rfl
@[simp] theorem endOp_eth {t : Nat} : (s.endOp t).eth = s.eth := rfl
@[simp] theorem endOp_err {t : Nat} : (s.endOp t).err = s.err := rfl
@[simp] theorem endOp_sec {t : Nat} : (s.endOp t).sec = s.sec := rfl
@[simp] theorem endOp_power {t : Nat} : (s.endOp t).power = s.power := rfl
@[simp] theorem endOp_telem {t : Nat} : (s.endOp t).telem = s.telem := rfl

/-! A held credit. -/

@[simp] theorem holdCredit_pending {h : HeldCredit} : (s.holdCredit h).pending = s.pending := rfl
@[simp] theorem holdCredit_out {h : HeldCredit} : (s.holdCredit h).out = s.out := rfl
@[simp] theorem holdCredit_fresh {h : HeldCredit} : (s.holdCredit h).fresh = s.fresh := rfl
@[simp] theorem holdCredit_strikes {h : HeldCredit} : (s.holdCredit h).strikes = s.strikes := rfl
@[simp] theorem holdCredit_boot {h : HeldCredit} : (s.holdCredit h).boot = s.boot := rfl
@[simp] theorem holdCredit_irq {h : HeldCredit} : (s.holdCredit h).irq = s.irq := rfl
@[simp] theorem holdCredit_mbx {h : HeldCredit} : (s.holdCredit h).mbx = s.mbx := rfl
@[simp] theorem holdCredit_cores {h : HeldCredit} : (s.holdCredit h).cores = s.cores := rfl
@[simp] theorem holdCredit_hbm {h : HeldCredit} : (s.holdCredit h).hbm = s.hbm := rfl
@[simp] theorem holdCredit_regions {h : HeldCredit} : (s.holdCredit h).regions = s.regions := rfl
@[simp] theorem holdCredit_opt {h : HeldCredit} : (s.holdCredit h).opt = s.opt := rfl
@[simp] theorem holdCredit_updateCmds {h : HeldCredit} : (s.holdCredit h).updateCmds = s.updateCmds := rfl
@[simp] theorem holdCredit_tarn {h : HeldCredit} : (s.holdCredit h).tarn = s.tarn := rfl
@[simp] theorem holdCredit_groups {h : HeldCredit} : (s.holdCredit h).groups = s.groups := rfl
@[simp] theorem holdCredit_buckets {h : HeldCredit} : (s.holdCredit h).buckets = s.buckets := rfl
@[simp] theorem holdCredit_ovt {h : HeldCredit} : (s.holdCredit h).ovt = s.ovt := rfl
@[simp] theorem holdCredit_fabric {h : HeldCredit} : (s.holdCredit h).fabric = s.fabric := rfl
@[simp] theorem holdCredit_net {h : HeldCredit} : (s.holdCredit h).net = s.net := rfl
@[simp] theorem holdCredit_clock {h : HeldCredit} : (s.holdCredit h).clock = s.clock := rfl
@[simp] theorem holdCredit_edges {h : HeldCredit} : (s.holdCredit h).edges = s.edges := rfl
@[simp] theorem holdCredit_host {h : HeldCredit} : (s.holdCredit h).host = s.host := rfl
@[simp] theorem holdCredit_eth {h : HeldCredit} : (s.holdCredit h).eth = s.eth := rfl
@[simp] theorem holdCredit_err {h : HeldCredit} : (s.holdCredit h).err = s.err := rfl
@[simp] theorem holdCredit_sec {h : HeldCredit} : (s.holdCredit h).sec = s.sec := rfl
@[simp] theorem holdCredit_power {h : HeldCredit} : (s.holdCredit h).power = s.power := rfl
@[simp] theorem holdCredit_telem {h : HeldCredit} : (s.holdCredit h).telem = s.telem := rfl

/-! Published tags. -/

@[simp] theorem publish_pending {c a n : Nat} : (s.publish c a n).pending = s.pending := rfl
@[simp] theorem publish_out {c a n : Nat} : (s.publish c a n).out = s.out := rfl
@[simp] theorem publish_fresh {c a n : Nat} : (s.publish c a n).fresh = s.fresh := rfl
@[simp] theorem publish_strikes {c a n : Nat} : (s.publish c a n).strikes = s.strikes := rfl
@[simp] theorem publish_boot {c a n : Nat} : (s.publish c a n).boot = s.boot := rfl
@[simp] theorem publish_irq {c a n : Nat} : (s.publish c a n).irq = s.irq := rfl
@[simp] theorem publish_mbx {c a n : Nat} : (s.publish c a n).mbx = s.mbx := rfl
@[simp] theorem publish_hbm {c a n : Nat} : (s.publish c a n).hbm = s.hbm := rfl
@[simp] theorem publish_regions {c a n : Nat} : (s.publish c a n).regions = s.regions := rfl
@[simp] theorem publish_stage {c a n : Nat} : (s.publish c a n).stage = s.stage := rfl
@[simp] theorem publish_opt {c a n : Nat} : (s.publish c a n).opt = s.opt := rfl
@[simp] theorem publish_updateCmds {c a n : Nat} : (s.publish c a n).updateCmds = s.updateCmds := rfl
@[simp] theorem publish_tarn {c a n : Nat} : (s.publish c a n).tarn = s.tarn := rfl
@[simp] theorem publish_groups {c a n : Nat} : (s.publish c a n).groups = s.groups := rfl
@[simp] theorem publish_buckets {c a n : Nat} : (s.publish c a n).buckets = s.buckets := rfl
@[simp] theorem publish_ovt {c a n : Nat} : (s.publish c a n).ovt = s.ovt := rfl
@[simp] theorem publish_fabric {c a n : Nat} : (s.publish c a n).fabric = s.fabric := rfl
@[simp] theorem publish_net {c a n : Nat} : (s.publish c a n).net = s.net := rfl
@[simp] theorem publish_clock {c a n : Nat} : (s.publish c a n).clock = s.clock := rfl
@[simp] theorem publish_edges {c a n : Nat} : (s.publish c a n).edges = s.edges := rfl
@[simp] theorem publish_host {c a n : Nat} : (s.publish c a n).host = s.host := rfl
@[simp] theorem publish_eth {c a n : Nat} : (s.publish c a n).eth = s.eth := rfl
@[simp] theorem publish_err {c a n : Nat} : (s.publish c a n).err = s.err := rfl
@[simp] theorem publish_sec {c a n : Nat} : (s.publish c a n).sec = s.sec := rfl
@[simp] theorem publish_power {c a n : Nat} : (s.publish c a n).power = s.power := rfl
@[simp] theorem publish_telem {c a n : Nat} : (s.publish c a n).telem = s.telem := rfl

/-! An arrival. -/

@[simp] theorem arrive_pending {c i n : Nat} {l : Bool} : (s.arrive c i n l).pending = s.pending := rfl
@[simp] theorem arrive_out {c i n : Nat} {l : Bool} : (s.arrive c i n l).out = s.out := rfl
@[simp] theorem arrive_fresh {c i n : Nat} {l : Bool} : (s.arrive c i n l).fresh = s.fresh := rfl
@[simp] theorem arrive_strikes {c i n : Nat} {l : Bool} : (s.arrive c i n l).strikes = s.strikes := rfl
@[simp] theorem arrive_boot {c i n : Nat} {l : Bool} : (s.arrive c i n l).boot = s.boot := rfl
@[simp] theorem arrive_irq {c i n : Nat} {l : Bool} : (s.arrive c i n l).irq = s.irq := rfl
@[simp] theorem arrive_mbx {c i n : Nat} {l : Bool} : (s.arrive c i n l).mbx = s.mbx := rfl
@[simp] theorem arrive_hbm {c i n : Nat} {l : Bool} : (s.arrive c i n l).hbm = s.hbm := rfl
@[simp] theorem arrive_regions {c i n : Nat} {l : Bool} : (s.arrive c i n l).regions = s.regions := rfl
@[simp] theorem arrive_stage {c i n : Nat} {l : Bool} : (s.arrive c i n l).stage = s.stage := rfl
@[simp] theorem arrive_opt {c i n : Nat} {l : Bool} : (s.arrive c i n l).opt = s.opt := rfl
@[simp] theorem arrive_updateCmds {c i n : Nat} {l : Bool} : (s.arrive c i n l).updateCmds = s.updateCmds := rfl
@[simp] theorem arrive_tarn {c i n : Nat} {l : Bool} : (s.arrive c i n l).tarn = s.tarn := rfl
@[simp] theorem arrive_groups {c i n : Nat} {l : Bool} : (s.arrive c i n l).groups = s.groups := rfl
@[simp] theorem arrive_buckets {c i n : Nat} {l : Bool} : (s.arrive c i n l).buckets = s.buckets := rfl
@[simp] theorem arrive_ovt {c i n : Nat} {l : Bool} : (s.arrive c i n l).ovt = s.ovt := rfl
@[simp] theorem arrive_fabric {c i n : Nat} {l : Bool} : (s.arrive c i n l).fabric = s.fabric := rfl
@[simp] theorem arrive_net {c i n : Nat} {l : Bool} : (s.arrive c i n l).net = s.net := rfl
@[simp] theorem arrive_clock {c i n : Nat} {l : Bool} : (s.arrive c i n l).clock = s.clock := rfl
@[simp] theorem arrive_edges {c i n : Nat} {l : Bool} : (s.arrive c i n l).edges = s.edges := rfl
@[simp] theorem arrive_host {c i n : Nat} {l : Bool} : (s.arrive c i n l).host = s.host := rfl
@[simp] theorem arrive_eth {c i n : Nat} {l : Bool} : (s.arrive c i n l).eth = s.eth := rfl
@[simp] theorem arrive_err {c i n : Nat} {l : Bool} : (s.arrive c i n l).err = s.err := rfl
@[simp] theorem arrive_sec {c i n : Nat} {l : Bool} : (s.arrive c i n l).sec = s.sec := rfl
@[simp] theorem arrive_power {c i n : Nat} {l : Bool} : (s.arrive c i n l).power = s.power := rfl
@[simp] theorem arrive_telem {c i n : Nat} {l : Bool} : (s.arrive c i n l).telem = s.telem := rfl

/-! An MSI-X vector is raised. -/

@[simp] theorem raise_pending {v : Nat} : (s.raise v).pending = s.pending := by unfold State.raise; split <;> rfl
@[simp] theorem raise_fresh {v : Nat} : (s.raise v).fresh = s.fresh := by unfold State.raise; split <;> rfl
@[simp] theorem raise_strikes {v : Nat} : (s.raise v).strikes = s.strikes := by unfold State.raise; split <;> rfl
@[simp] theorem raise_boot {v : Nat} : (s.raise v).boot = s.boot := by unfold State.raise; split <;> rfl
@[simp] theorem raise_mbx {v : Nat} : (s.raise v).mbx = s.mbx := by unfold State.raise; split <;> rfl
@[simp] theorem raise_cores {v : Nat} : (s.raise v).cores = s.cores := by unfold State.raise; split <;> rfl
@[simp] theorem raise_hbm {v : Nat} : (s.raise v).hbm = s.hbm := by unfold State.raise; split <;> rfl
@[simp] theorem raise_regions {v : Nat} : (s.raise v).regions = s.regions := by unfold State.raise; split <;> rfl
@[simp] theorem raise_stage {v : Nat} : (s.raise v).stage = s.stage := by unfold State.raise; split <;> rfl
@[simp] theorem raise_opt {v : Nat} : (s.raise v).opt = s.opt := by unfold State.raise; split <;> rfl
@[simp] theorem raise_updateCmds {v : Nat} : (s.raise v).updateCmds = s.updateCmds := by unfold State.raise; split <;> rfl
@[simp] theorem raise_tarn {v : Nat} : (s.raise v).tarn = s.tarn := by unfold State.raise; split <;> rfl
@[simp] theorem raise_groups {v : Nat} : (s.raise v).groups = s.groups := by unfold State.raise; split <;> rfl
@[simp] theorem raise_buckets {v : Nat} : (s.raise v).buckets = s.buckets := by unfold State.raise; split <;> rfl
@[simp] theorem raise_ovt {v : Nat} : (s.raise v).ovt = s.ovt := by unfold State.raise; split <;> rfl
@[simp] theorem raise_fabric {v : Nat} : (s.raise v).fabric = s.fabric := by unfold State.raise; split <;> rfl
@[simp] theorem raise_net {v : Nat} : (s.raise v).net = s.net := by unfold State.raise; split <;> rfl
@[simp] theorem raise_clock {v : Nat} : (s.raise v).clock = s.clock := by unfold State.raise; split <;> rfl
@[simp] theorem raise_edges {v : Nat} : (s.raise v).edges = s.edges := by unfold State.raise; split <;> rfl
@[simp] theorem raise_host {v : Nat} : (s.raise v).host = s.host := by unfold State.raise; split <;> rfl
@[simp] theorem raise_eth {v : Nat} : (s.raise v).eth = s.eth := by unfold State.raise; split <;> rfl
@[simp] theorem raise_err {v : Nat} : (s.raise v).err = s.err := by unfold State.raise; split <;> rfl
@[simp] theorem raise_sec {v : Nat} : (s.raise v).sec = s.sec := by unfold State.raise; split <;> rfl
@[simp] theorem raise_power {v : Nat} : (s.raise v).power = s.power := by unfold State.raise; split <;> rfl
@[simp] theorem raise_telem {v : Nat} : (s.raise v).telem = s.telem := by unfold State.raise; split <;> rfl

/-! A bit of FW_IRQ_STATUS is set. -/

@[simp] theorem setIrq_pending {i : Nat} : (s.setIrq i).pending = s.pending := by unfold State.setIrq; split <;> (try split) <;> simp
@[simp] theorem setIrq_fresh {i : Nat} : (s.setIrq i).fresh = s.fresh := by unfold State.setIrq; split <;> (try split) <;> simp
@[simp] theorem setIrq_strikes {i : Nat} : (s.setIrq i).strikes = s.strikes := by unfold State.setIrq; split <;> (try split) <;> simp
@[simp] theorem setIrq_boot {i : Nat} : (s.setIrq i).boot = s.boot := by unfold State.setIrq; split <;> (try split) <;> simp
@[simp] theorem setIrq_mbx {i : Nat} : (s.setIrq i).mbx = s.mbx := by unfold State.setIrq; split <;> (try split) <;> simp
@[simp] theorem setIrq_cores {i : Nat} : (s.setIrq i).cores = s.cores := by unfold State.setIrq; split <;> (try split) <;> simp
@[simp] theorem setIrq_hbm {i : Nat} : (s.setIrq i).hbm = s.hbm := by unfold State.setIrq; split <;> (try split) <;> simp
@[simp] theorem setIrq_regions {i : Nat} : (s.setIrq i).regions = s.regions := by unfold State.setIrq; split <;> (try split) <;> simp
@[simp] theorem setIrq_stage {i : Nat} : (s.setIrq i).stage = s.stage := by unfold State.setIrq; split <;> (try split) <;> simp
@[simp] theorem setIrq_opt {i : Nat} : (s.setIrq i).opt = s.opt := by unfold State.setIrq; split <;> (try split) <;> simp
@[simp] theorem setIrq_updateCmds {i : Nat} : (s.setIrq i).updateCmds = s.updateCmds := by unfold State.setIrq; split <;> (try split) <;> simp
@[simp] theorem setIrq_tarn {i : Nat} : (s.setIrq i).tarn = s.tarn := by unfold State.setIrq; split <;> (try split) <;> simp
@[simp] theorem setIrq_groups {i : Nat} : (s.setIrq i).groups = s.groups := by unfold State.setIrq; split <;> (try split) <;> simp
@[simp] theorem setIrq_buckets {i : Nat} : (s.setIrq i).buckets = s.buckets := by unfold State.setIrq; split <;> (try split) <;> simp
@[simp] theorem setIrq_ovt {i : Nat} : (s.setIrq i).ovt = s.ovt := by unfold State.setIrq; split <;> (try split) <;> simp
@[simp] theorem setIrq_fabric {i : Nat} : (s.setIrq i).fabric = s.fabric := by unfold State.setIrq; split <;> (try split) <;> simp
@[simp] theorem setIrq_net {i : Nat} : (s.setIrq i).net = s.net := by unfold State.setIrq; split <;> (try split) <;> simp
@[simp] theorem setIrq_clock {i : Nat} : (s.setIrq i).clock = s.clock := by unfold State.setIrq; split <;> (try split) <;> simp
@[simp] theorem setIrq_edges {i : Nat} : (s.setIrq i).edges = s.edges := by unfold State.setIrq; split <;> (try split) <;> simp
@[simp] theorem setIrq_host {i : Nat} : (s.setIrq i).host = s.host := by unfold State.setIrq; split <;> (try split) <;> simp
@[simp] theorem setIrq_eth {i : Nat} : (s.setIrq i).eth = s.eth := by unfold State.setIrq; split <;> (try split) <;> simp
@[simp] theorem setIrq_err {i : Nat} : (s.setIrq i).err = s.err := by unfold State.setIrq; split <;> (try split) <;> simp
@[simp] theorem setIrq_sec {i : Nat} : (s.setIrq i).sec = s.sec := by unfold State.setIrq; split <;> (try split) <;> simp
@[simp] theorem setIrq_power {i : Nat} : (s.setIrq i).power = s.power := by unfold State.setIrq; split <;> (try split) <;> simp
@[simp] theorem setIrq_telem {i : Nat} : (s.setIrq i).telem = s.telem := by unfold State.setIrq; split <;> (try split) <;> simp

/-! FW_STAGE takes a value. -/

@[simp] theorem setFwStage_pending {v : BitVec 4} : (s.setFwStage v).pending = s.pending := by unfold State.setFwStage; split <;> simp
@[simp] theorem setFwStage_fresh {v : BitVec 4} : (s.setFwStage v).fresh = s.fresh := by unfold State.setFwStage; split <;> simp
@[simp] theorem setFwStage_strikes {v : BitVec 4} : (s.setFwStage v).strikes = s.strikes := by unfold State.setFwStage; split <;> simp
@[simp] theorem setFwStage_mbx {v : BitVec 4} : (s.setFwStage v).mbx = s.mbx := by unfold State.setFwStage; split <;> simp
@[simp] theorem setFwStage_cores {v : BitVec 4} : (s.setFwStage v).cores = s.cores := by unfold State.setFwStage; split <;> simp
@[simp] theorem setFwStage_hbm {v : BitVec 4} : (s.setFwStage v).hbm = s.hbm := by unfold State.setFwStage; split <;> simp
@[simp] theorem setFwStage_regions {v : BitVec 4} : (s.setFwStage v).regions = s.regions := by unfold State.setFwStage; split <;> simp
@[simp] theorem setFwStage_stage {v : BitVec 4} : (s.setFwStage v).stage = s.stage := by unfold State.setFwStage; split <;> simp
@[simp] theorem setFwStage_opt {v : BitVec 4} : (s.setFwStage v).opt = s.opt := by unfold State.setFwStage; split <;> simp
@[simp] theorem setFwStage_updateCmds {v : BitVec 4} : (s.setFwStage v).updateCmds = s.updateCmds := by unfold State.setFwStage; split <;> simp
@[simp] theorem setFwStage_tarn {v : BitVec 4} : (s.setFwStage v).tarn = s.tarn := by unfold State.setFwStage; split <;> simp
@[simp] theorem setFwStage_groups {v : BitVec 4} : (s.setFwStage v).groups = s.groups := by unfold State.setFwStage; split <;> simp
@[simp] theorem setFwStage_buckets {v : BitVec 4} : (s.setFwStage v).buckets = s.buckets := by unfold State.setFwStage; split <;> simp
@[simp] theorem setFwStage_ovt {v : BitVec 4} : (s.setFwStage v).ovt = s.ovt := by unfold State.setFwStage; split <;> simp
@[simp] theorem setFwStage_fabric {v : BitVec 4} : (s.setFwStage v).fabric = s.fabric := by unfold State.setFwStage; split <;> simp
@[simp] theorem setFwStage_net {v : BitVec 4} : (s.setFwStage v).net = s.net := by unfold State.setFwStage; split <;> simp
@[simp] theorem setFwStage_clock {v : BitVec 4} : (s.setFwStage v).clock = s.clock := by unfold State.setFwStage; split <;> simp
@[simp] theorem setFwStage_edges {v : BitVec 4} : (s.setFwStage v).edges = s.edges := by unfold State.setFwStage; split <;> simp
@[simp] theorem setFwStage_host {v : BitVec 4} : (s.setFwStage v).host = s.host := by unfold State.setFwStage; split <;> simp
@[simp] theorem setFwStage_eth {v : BitVec 4} : (s.setFwStage v).eth = s.eth := by unfold State.setFwStage; split <;> simp
@[simp] theorem setFwStage_err {v : BitVec 4} : (s.setFwStage v).err = s.err := by unfold State.setFwStage; split <;> simp
@[simp] theorem setFwStage_sec {v : BitVec 4} : (s.setFwStage v).sec = s.sec := by unfold State.setFwStage; split <;> simp
@[simp] theorem setFwStage_power {v : BitVec 4} : (s.setFwStage v).power = s.power := by unfold State.setFwStage; split <;> simp
@[simp] theorem setFwStage_telem {v : BitVec 4} : (s.setFwStage v).telem = s.telem := by unfold State.setFwStage; split <;> simp

/-! ALERT_N is asserted. -/

@[simp] theorem assertAlert_pending : (s.assertAlert).pending = s.pending := by unfold State.assertAlert; split <;> simp
@[simp] theorem assertAlert_fresh : (s.assertAlert).fresh = s.fresh := by unfold State.assertAlert; split <;> simp
@[simp] theorem assertAlert_strikes : (s.assertAlert).strikes = s.strikes := by unfold State.assertAlert; split <;> simp
@[simp] theorem assertAlert_boot : (s.assertAlert).boot = s.boot := by unfold State.assertAlert; split <;> simp
@[simp] theorem assertAlert_mbx : (s.assertAlert).mbx = s.mbx := by unfold State.assertAlert; split <;> simp
@[simp] theorem assertAlert_cores : (s.assertAlert).cores = s.cores := by unfold State.assertAlert; split <;> simp
@[simp] theorem assertAlert_hbm : (s.assertAlert).hbm = s.hbm := by unfold State.assertAlert; split <;> simp
@[simp] theorem assertAlert_regions : (s.assertAlert).regions = s.regions := by unfold State.assertAlert; split <;> simp
@[simp] theorem assertAlert_stage : (s.assertAlert).stage = s.stage := by unfold State.assertAlert; split <;> simp
@[simp] theorem assertAlert_opt : (s.assertAlert).opt = s.opt := by unfold State.assertAlert; split <;> simp
@[simp] theorem assertAlert_updateCmds : (s.assertAlert).updateCmds = s.updateCmds := by unfold State.assertAlert; split <;> simp
@[simp] theorem assertAlert_tarn : (s.assertAlert).tarn = s.tarn := by unfold State.assertAlert; split <;> simp
@[simp] theorem assertAlert_groups : (s.assertAlert).groups = s.groups := by unfold State.assertAlert; split <;> simp
@[simp] theorem assertAlert_buckets : (s.assertAlert).buckets = s.buckets := by unfold State.assertAlert; split <;> simp
@[simp] theorem assertAlert_ovt : (s.assertAlert).ovt = s.ovt := by unfold State.assertAlert; split <;> simp
@[simp] theorem assertAlert_fabric : (s.assertAlert).fabric = s.fabric := by unfold State.assertAlert; split <;> simp
@[simp] theorem assertAlert_net : (s.assertAlert).net = s.net := by unfold State.assertAlert; split <;> simp
@[simp] theorem assertAlert_clock : (s.assertAlert).clock = s.clock := by unfold State.assertAlert; split <;> simp
@[simp] theorem assertAlert_edges : (s.assertAlert).edges = s.edges := by unfold State.assertAlert; split <;> simp
@[simp] theorem assertAlert_host : (s.assertAlert).host = s.host := by unfold State.assertAlert; split <;> simp
@[simp] theorem assertAlert_eth : (s.assertAlert).eth = s.eth := by unfold State.assertAlert; split <;> simp
@[simp] theorem assertAlert_sec : (s.assertAlert).sec = s.sec := by unfold State.assertAlert; split <;> simp
@[simp] theorem assertAlert_power : (s.assertAlert).power = s.power := by unfold State.assertAlert; split <;> simp
@[simp] theorem assertAlert_telem : (s.assertAlert).telem = s.telem := by unfold State.assertAlert; split <;> simp

/-! An error is posted. -/

@[simp] theorem postErr_pending {r : ErrRec} : (s.postErr r).pending = s.pending := by unfold State.postErr; simp only []; split <;> (try split) <;> simp
@[simp] theorem postErr_fresh {r : ErrRec} : (s.postErr r).fresh = s.fresh := by unfold State.postErr; simp only []; split <;> (try split) <;> simp
@[simp] theorem postErr_strikes {r : ErrRec} : (s.postErr r).strikes = s.strikes := by unfold State.postErr; simp only []; split <;> (try split) <;> simp
@[simp] theorem postErr_boot {r : ErrRec} : (s.postErr r).boot = s.boot := by unfold State.postErr; simp only []; split <;> (try split) <;> simp
@[simp] theorem postErr_mbx {r : ErrRec} : (s.postErr r).mbx = s.mbx := by unfold State.postErr; simp only []; split <;> (try split) <;> simp
@[simp] theorem postErr_cores {r : ErrRec} : (s.postErr r).cores = s.cores := by unfold State.postErr; simp only []; split <;> (try split) <;> simp
@[simp] theorem postErr_hbm {r : ErrRec} : (s.postErr r).hbm = s.hbm := by unfold State.postErr; simp only []; split <;> (try split) <;> simp
@[simp] theorem postErr_regions {r : ErrRec} : (s.postErr r).regions = s.regions := by unfold State.postErr; simp only []; split <;> (try split) <;> simp
@[simp] theorem postErr_stage {r : ErrRec} : (s.postErr r).stage = s.stage := by unfold State.postErr; simp only []; split <;> (try split) <;> simp
@[simp] theorem postErr_opt {r : ErrRec} : (s.postErr r).opt = s.opt := by unfold State.postErr; simp only []; split <;> (try split) <;> simp
@[simp] theorem postErr_updateCmds {r : ErrRec} : (s.postErr r).updateCmds = s.updateCmds := by unfold State.postErr; simp only []; split <;> (try split) <;> simp
@[simp] theorem postErr_tarn {r : ErrRec} : (s.postErr r).tarn = s.tarn := by unfold State.postErr; simp only []; split <;> (try split) <;> simp
@[simp] theorem postErr_groups {r : ErrRec} : (s.postErr r).groups = s.groups := by unfold State.postErr; simp only []; split <;> (try split) <;> simp
@[simp] theorem postErr_buckets {r : ErrRec} : (s.postErr r).buckets = s.buckets := by unfold State.postErr; simp only []; split <;> (try split) <;> simp
@[simp] theorem postErr_ovt {r : ErrRec} : (s.postErr r).ovt = s.ovt := by unfold State.postErr; simp only []; split <;> (try split) <;> simp
@[simp] theorem postErr_fabric {r : ErrRec} : (s.postErr r).fabric = s.fabric := by unfold State.postErr; simp only []; split <;> (try split) <;> simp
@[simp] theorem postErr_net {r : ErrRec} : (s.postErr r).net = s.net := by unfold State.postErr; simp only []; split <;> (try split) <;> simp
@[simp] theorem postErr_clock {r : ErrRec} : (s.postErr r).clock = s.clock := by unfold State.postErr; simp only []; split <;> (try split) <;> simp
@[simp] theorem postErr_edges {r : ErrRec} : (s.postErr r).edges = s.edges := by unfold State.postErr; simp only []; split <;> (try split) <;> simp
@[simp] theorem postErr_host {r : ErrRec} : (s.postErr r).host = s.host := by unfold State.postErr; simp only []; split <;> (try split) <;> simp
@[simp] theorem postErr_eth {r : ErrRec} : (s.postErr r).eth = s.eth := by unfold State.postErr; simp only []; split <;> (try split) <;> simp
@[simp] theorem postErr_sec {r : ErrRec} : (s.postErr r).sec = s.sec := by unfold State.postErr; simp only []; split <;> (try split) <;> simp
@[simp] theorem postErr_power {r : ErrRec} : (s.postErr r).power = s.power := by unfold State.postErr; simp only []; split <;> (try split) <;> simp
@[simp] theorem postErr_telem {r : ErrRec} : (s.postErr r).telem = s.telem := by unfold State.postErr; simp only []; split <;> (try split) <;> simp

/-! What the changed component reads as. -/

theorem core_modCore {c k : Nat} {f : Core → Core} : (s.modCore c f).core k = if k = c then f (s.core c) else s.core k := by
  simp only [State.core, State.modCore, tmod, tget_tset]

theorem queue_modQueue {c q k j : Nat} {f : CmdQueue → CmdQueue} : (s.modQueue c q f).queue k j = if k = c ∧ j = q then f (s.queue c q) else s.queue k j := by
  simp only [State.queue, State.modQueue, core_modCore, Core.queue]
  by_cases h : k = c <;> simp [h, tmod, tget_tset]

theorem port_modPort {p k : Nat} {f : Port → Port} : (s.modPort p f).port k = if k = p then f (s.port p) else s.port k := by
  simp only [State.port, State.modPort, tmod, tget_tset]

theorem chan_modChan {n k : Nat} {f : Channel → Channel} : (s.modChan n f).chan k = if k = n then f (s.chan n) else s.chan k := by
  simp only [State.chan, State.modChan, tmod, tget_tset]

theorem conn_modConn {c k : Nat} {f : Conn → Conn} : (s.modConn c f).conn k = if k = c then (s.conn c).map f else s.conn k := by
  simp only [State.conn, State.modConn, tmod, tget_tset]

theorem ethPort_modEth {p k : Nat} {f : EthPort → EthPort} : (s.modEth p f).ethPort k = if k = p then f (s.ethPort p) else s.ethPort k := by
  simp only [State.ethPort, State.modEth, tmod, tget_tset]

theorem index_modIndex {i k : Nat} {f : Index → Index} : (s.modIndex i f).index k = if k = i then (s.index i).map f else s.index k := by
  simp only [State.index, State.modIndex, tmod, tget_tset]

/-- What depends on a core apart from its queues is the same after a queue changes. -/
theorem modQueue_core {β : Type} {g : Core → β} (h : ∀ k q, g { k with queues := q } = g k) {c q k : Nat} {f : CmdQueue → CmdQueue} :
    g ((s.modQueue c q f).core k) = g (s.core k) := by
  simp only [State.modQueue, core_modCore]
  split
  · rename_i e
    rw [h, e]
  · rfl

/-- What depends on a core apart from its queues is the same after a started command changes. -/
theorem modStarted_core {β : Type} {g : Core → β} (h : ∀ k q, g { k with queues := q } = g k) {c q i k : Nat} {f : Started → Started} :
    g ((s.modStarted c q i f).core k) = g (s.core k) := modQueue_core h

end Sys2Proof.Machine
end

