-- ==== Sys2Proof/Laws/Links.lean ====
section
/-! SUPPORT. What the link layer's operations leave alone: frames out, sessions, credits, endpoints and containment, one lemma for each field and operation. -/

namespace Sys2Proof.Machine

set_option Elab.async false

variable {s : State}

/-! HELLO on a port. -/

@[simp] theorem sendHello_pending {p : Nat} : (s.sendHello p).pending = s.pending := by simp [State.sendHello]
@[simp] theorem sendHello_fresh {p : Nat} : (s.sendHello p).fresh = s.fresh := by simp [State.sendHello]
@[simp] theorem sendHello_strikes {p : Nat} : (s.sendHello p).strikes = s.strikes := by simp [State.sendHello]
@[simp] theorem sendHello_boot {p : Nat} : (s.sendHello p).boot = s.boot := by simp [State.sendHello]
@[simp] theorem sendHello_irq {p : Nat} : (s.sendHello p).irq = s.irq := by simp [State.sendHello]
@[simp] theorem sendHello_mbx {p : Nat} : (s.sendHello p).mbx = s.mbx := by simp [State.sendHello]
@[simp] theorem sendHello_cores {p : Nat} : (s.sendHello p).cores = s.cores := by simp [State.sendHello]
@[simp] theorem sendHello_hbm {p : Nat} : (s.sendHello p).hbm = s.hbm := by simp [State.sendHello]
@[simp] theorem sendHello_regions {p : Nat} : (s.sendHello p).regions = s.regions := by simp [State.sendHello]
@[simp] theorem sendHello_stage {p : Nat} : (s.sendHello p).stage = s.stage := by simp [State.sendHello]
@[simp] theorem sendHello_opt {p : Nat} : (s.sendHello p).opt = s.opt := by simp [State.sendHello]
@[simp] theorem sendHello_updateCmds {p : Nat} : (s.sendHello p).updateCmds = s.updateCmds := by simp [State.sendHello]
@[simp] theorem sendHello_tarn {p : Nat} : (s.sendHello p).tarn = s.tarn := by simp [State.sendHello]
@[simp] theorem sendHello_groups {p : Nat} : (s.sendHello p).groups = s.groups := by simp [State.sendHello]
@[simp] theorem sendHello_buckets {p : Nat} : (s.sendHello p).buckets = s.buckets := by simp [State.sendHello]
@[simp] theorem sendHello_ovt {p : Nat} : (s.sendHello p).ovt = s.ovt := by simp [State.sendHello]
@[simp] theorem sendHello_fabric {p : Nat} : (s.sendHello p).fabric = s.fabric := by simp [State.sendHello]
@[simp] theorem sendHello_net {p : Nat} : (s.sendHello p).net = s.net := by simp [State.sendHello]
@[simp] theorem sendHello_clock {p : Nat} : (s.sendHello p).clock = s.clock := by simp [State.sendHello]
@[simp] theorem sendHello_edges {p : Nat} : (s.sendHello p).edges = s.edges := by simp [State.sendHello]
@[simp] theorem sendHello_host {p : Nat} : (s.sendHello p).host = s.host := by simp [State.sendHello]
@[simp] theorem sendHello_eth {p : Nat} : (s.sendHello p).eth = s.eth := by simp [State.sendHello]
@[simp] theorem sendHello_err {p : Nat} : (s.sendHello p).err = s.err := by simp [State.sendHello]
@[simp] theorem sendHello_sec {p : Nat} : (s.sendHello p).sec = s.sec := by simp [State.sendHello]
@[simp] theorem sendHello_power {p : Nat} : (s.sendHello p).power = s.power := by simp [State.sendHello]
@[simp] theorem sendHello_telem {p : Nat} : (s.sendHello p).telem = s.telem := by simp [State.sendHello]

/-! HELLO on every port. -/

@[simp] theorem helloAll_pending : (s.helloAll).pending = s.pending := foldl_keeps (g := State.pending) (fun _ _ => by split <;> simp) _ _
@[simp] theorem helloAll_fresh : (s.helloAll).fresh = s.fresh := foldl_keeps (g := State.fresh) (fun _ _ => by split <;> simp) _ _
@[simp] theorem helloAll_strikes : (s.helloAll).strikes = s.strikes := foldl_keeps (g := State.strikes) (fun _ _ => by split <;> simp) _ _
@[simp] theorem helloAll_boot : (s.helloAll).boot = s.boot := foldl_keeps (g := State.boot) (fun _ _ => by split <;> simp) _ _
@[simp] theorem helloAll_irq : (s.helloAll).irq = s.irq := foldl_keeps (g := State.irq) (fun _ _ => by split <;> simp) _ _
@[simp] theorem helloAll_mbx : (s.helloAll).mbx = s.mbx := foldl_keeps (g := State.mbx) (fun _ _ => by split <;> simp) _ _
@[simp] theorem helloAll_cores : (s.helloAll).cores = s.cores := foldl_keeps (g := State.cores) (fun _ _ => by split <;> simp) _ _
@[simp] theorem helloAll_hbm : (s.helloAll).hbm = s.hbm := foldl_keeps (g := State.hbm) (fun _ _ => by split <;> simp) _ _
@[simp] theorem helloAll_regions : (s.helloAll).regions = s.regions := foldl_keeps (g := State.regions) (fun _ _ => by split <;> simp) _ _
@[simp] theorem helloAll_stage : (s.helloAll).stage = s.stage := foldl_keeps (g := State.stage) (fun _ _ => by split <;> simp) _ _
@[simp] theorem helloAll_opt : (s.helloAll).opt = s.opt := foldl_keeps (g := State.opt) (fun _ _ => by split <;> simp) _ _
@[simp] theorem helloAll_updateCmds : (s.helloAll).updateCmds = s.updateCmds := foldl_keeps (g := State.updateCmds) (fun _ _ => by split <;> simp) _ _
@[simp] theorem helloAll_tarn : (s.helloAll).tarn = s.tarn := foldl_keeps (g := State.tarn) (fun _ _ => by split <;> simp) _ _
@[simp] theorem helloAll_groups : (s.helloAll).groups = s.groups := foldl_keeps (g := State.groups) (fun _ _ => by split <;> simp) _ _
@[simp] theorem helloAll_buckets : (s.helloAll).buckets = s.buckets := foldl_keeps (g := State.buckets) (fun _ _ => by split <;> simp) _ _
@[simp] theorem helloAll_ovt : (s.helloAll).ovt = s.ovt := foldl_keeps (g := State.ovt) (fun _ _ => by split <;> simp) _ _
@[simp] theorem helloAll_fabric : (s.helloAll).fabric = s.fabric := foldl_keeps (g := State.fabric) (fun _ _ => by split <;> simp) _ _
@[simp] theorem helloAll_net : (s.helloAll).net = s.net := foldl_keeps (g := State.net) (fun _ _ => by split <;> simp) _ _
@[simp] theorem helloAll_clock : (s.helloAll).clock = s.clock := foldl_keeps (g := State.clock) (fun _ _ => by split <;> simp) _ _
@[simp] theorem helloAll_edges : (s.helloAll).edges = s.edges := foldl_keeps (g := State.edges) (fun _ _ => by split <;> simp) _ _
@[simp] theorem helloAll_host : (s.helloAll).host = s.host := foldl_keeps (g := State.host) (fun _ _ => by split <;> simp) _ _
@[simp] theorem helloAll_eth : (s.helloAll).eth = s.eth := foldl_keeps (g := State.eth) (fun _ _ => by split <;> simp) _ _
@[simp] theorem helloAll_err : (s.helloAll).err = s.err := foldl_keeps (g := State.err) (fun _ _ => by split <;> simp) _ _
@[simp] theorem helloAll_sec : (s.helloAll).sec = s.sec := foldl_keeps (g := State.sec) (fun _ _ => by split <;> simp) _ _
@[simp] theorem helloAll_power : (s.helloAll).power = s.power := foldl_keeps (g := State.power) (fun _ _ => by split <;> simp) _ _
@[simp] theorem helloAll_telem : (s.helloAll).telem = s.telem := foldl_keeps (g := State.telem) (fun _ _ => by split <;> simp) _ _

/-! LINK_CTL. -/

@[simp] theorem sendLinkCtl_pending {p v n : Nat} {r : Bool} : (s.sendLinkCtl p v n r).pending = s.pending := by simp [State.sendLinkCtl]
@[simp] theorem sendLinkCtl_fresh {p v n : Nat} {r : Bool} : (s.sendLinkCtl p v n r).fresh = s.fresh := by simp [State.sendLinkCtl]
@[simp] theorem sendLinkCtl_strikes {p v n : Nat} {r : Bool} : (s.sendLinkCtl p v n r).strikes = s.strikes := by simp [State.sendLinkCtl]
@[simp] theorem sendLinkCtl_boot {p v n : Nat} {r : Bool} : (s.sendLinkCtl p v n r).boot = s.boot := by simp [State.sendLinkCtl]
@[simp] theorem sendLinkCtl_irq {p v n : Nat} {r : Bool} : (s.sendLinkCtl p v n r).irq = s.irq := by simp [State.sendLinkCtl]
@[simp] theorem sendLinkCtl_mbx {p v n : Nat} {r : Bool} : (s.sendLinkCtl p v n r).mbx = s.mbx := by simp [State.sendLinkCtl]
@[simp] theorem sendLinkCtl_cores {p v n : Nat} {r : Bool} : (s.sendLinkCtl p v n r).cores = s.cores := by simp [State.sendLinkCtl]
@[simp] theorem sendLinkCtl_hbm {p v n : Nat} {r : Bool} : (s.sendLinkCtl p v n r).hbm = s.hbm := by simp [State.sendLinkCtl]
@[simp] theorem sendLinkCtl_regions {p v n : Nat} {r : Bool} : (s.sendLinkCtl p v n r).regions = s.regions := by simp [State.sendLinkCtl]
@[simp] theorem sendLinkCtl_stage {p v n : Nat} {r : Bool} : (s.sendLinkCtl p v n r).stage = s.stage := by simp [State.sendLinkCtl]
@[simp] theorem sendLinkCtl_opt {p v n : Nat} {r : Bool} : (s.sendLinkCtl p v n r).opt = s.opt := by simp [State.sendLinkCtl]
@[simp] theorem sendLinkCtl_updateCmds {p v n : Nat} {r : Bool} : (s.sendLinkCtl p v n r).updateCmds = s.updateCmds := by simp [State.sendLinkCtl]
@[simp] theorem sendLinkCtl_tarn {p v n : Nat} {r : Bool} : (s.sendLinkCtl p v n r).tarn = s.tarn := by simp [State.sendLinkCtl]
@[simp] theorem sendLinkCtl_groups {p v n : Nat} {r : Bool} : (s.sendLinkCtl p v n r).groups = s.groups := by simp [State.sendLinkCtl]
@[simp] theorem sendLinkCtl_buckets {p v n : Nat} {r : Bool} : (s.sendLinkCtl p v n r).buckets = s.buckets := by simp [State.sendLinkCtl]
@[simp] theorem sendLinkCtl_ovt {p v n : Nat} {r : Bool} : (s.sendLinkCtl p v n r).ovt = s.ovt := by simp [State.sendLinkCtl]
@[simp] theorem sendLinkCtl_fabric {p v n : Nat} {r : Bool} : (s.sendLinkCtl p v n r).fabric = s.fabric := by simp [State.sendLinkCtl]
@[simp] theorem sendLinkCtl_net {p v n : Nat} {r : Bool} : (s.sendLinkCtl p v n r).net = s.net := by simp [State.sendLinkCtl]
@[simp] theorem sendLinkCtl_clock {p v n : Nat} {r : Bool} : (s.sendLinkCtl p v n r).clock = s.clock := by simp [State.sendLinkCtl]
@[simp] theorem sendLinkCtl_edges {p v n : Nat} {r : Bool} : (s.sendLinkCtl p v n r).edges = s.edges := by simp [State.sendLinkCtl]
@[simp] theorem sendLinkCtl_host {p v n : Nat} {r : Bool} : (s.sendLinkCtl p v n r).host = s.host := by simp [State.sendLinkCtl]
@[simp] theorem sendLinkCtl_eth {p v n : Nat} {r : Bool} : (s.sendLinkCtl p v n r).eth = s.eth := by simp [State.sendLinkCtl]
@[simp] theorem sendLinkCtl_err {p v n : Nat} {r : Bool} : (s.sendLinkCtl p v n r).err = s.err := by simp [State.sendLinkCtl]
@[simp] theorem sendLinkCtl_sec {p v n : Nat} {r : Bool} : (s.sendLinkCtl p v n r).sec = s.sec := by simp [State.sendLinkCtl]
@[simp] theorem sendLinkCtl_power {p v n : Nat} {r : Bool} : (s.sendLinkCtl p v n r).power = s.power := by simp [State.sendLinkCtl]
@[simp] theorem sendLinkCtl_telem {p v n : Nat} {r : Bool} : (s.sendLinkCtl p v n r).telem = s.telem := by simp [State.sendLinkCtl]

/-! A port's frames leave. -/

@[simp] theorem drainPort_pending {n p : Nat} : (drainPort n s p).pending = s.pending := by induction n generalizing s with | zero => rfl | succ n ih => unfold drainPort; split <;> simp [ih]
@[simp] theorem drainPort_fresh {n p : Nat} : (drainPort n s p).fresh = s.fresh := by induction n generalizing s with | zero => rfl | succ n ih => unfold drainPort; split <;> simp [ih]
@[simp] theorem drainPort_strikes {n p : Nat} : (drainPort n s p).strikes = s.strikes := by induction n generalizing s with | zero => rfl | succ n ih => unfold drainPort; split <;> simp [ih]
@[simp] theorem drainPort_boot {n p : Nat} : (drainPort n s p).boot = s.boot := by induction n generalizing s with | zero => rfl | succ n ih => unfold drainPort; split <;> simp [ih]
@[simp] theorem drainPort_irq {n p : Nat} : (drainPort n s p).irq = s.irq := by induction n generalizing s with | zero => rfl | succ n ih => unfold drainPort; split <;> simp [ih]
@[simp] theorem drainPort_mbx {n p : Nat} : (drainPort n s p).mbx = s.mbx := by induction n generalizing s with | zero => rfl | succ n ih => unfold drainPort; split <;> simp [ih]
@[simp] theorem drainPort_cores {n p : Nat} : (drainPort n s p).cores = s.cores := by induction n generalizing s with | zero => rfl | succ n ih => unfold drainPort; split <;> simp [ih]
@[simp] theorem drainPort_hbm {n p : Nat} : (drainPort n s p).hbm = s.hbm := by induction n generalizing s with | zero => rfl | succ n ih => unfold drainPort; split <;> simp [ih]
@[simp] theorem drainPort_regions {n p : Nat} : (drainPort n s p).regions = s.regions := by induction n generalizing s with | zero => rfl | succ n ih => unfold drainPort; split <;> simp [ih]
@[simp] theorem drainPort_stage {n p : Nat} : (drainPort n s p).stage = s.stage := by induction n generalizing s with | zero => rfl | succ n ih => unfold drainPort; split <;> simp [ih]
@[simp] theorem drainPort_opt {n p : Nat} : (drainPort n s p).opt = s.opt := by induction n generalizing s with | zero => rfl | succ n ih => unfold drainPort; split <;> simp [ih]
@[simp] theorem drainPort_updateCmds {n p : Nat} : (drainPort n s p).updateCmds = s.updateCmds := by induction n generalizing s with | zero => rfl | succ n ih => unfold drainPort; split <;> simp [ih]
@[simp] theorem drainPort_tarn {n p : Nat} : (drainPort n s p).tarn = s.tarn := by induction n generalizing s with | zero => rfl | succ n ih => unfold drainPort; split <;> simp [ih]
@[simp] theorem drainPort_groups {n p : Nat} : (drainPort n s p).groups = s.groups := by induction n generalizing s with | zero => rfl | succ n ih => unfold drainPort; split <;> simp [ih]
@[simp] theorem drainPort_buckets {n p : Nat} : (drainPort n s p).buckets = s.buckets := by induction n generalizing s with | zero => rfl | succ n ih => unfold drainPort; split <;> simp [ih]
@[simp] theorem drainPort_ovt {n p : Nat} : (drainPort n s p).ovt = s.ovt := by induction n generalizing s with | zero => rfl | succ n ih => unfold drainPort; split <;> simp [ih]
@[simp] theorem drainPort_clock {n p : Nat} : (drainPort n s p).clock = s.clock := by induction n generalizing s with | zero => rfl | succ n ih => unfold drainPort; split <;> simp [ih]
@[simp] theorem drainPort_edges {n p : Nat} : (drainPort n s p).edges = s.edges := by induction n generalizing s with | zero => rfl | succ n ih => unfold drainPort; split <;> simp [ih]
@[simp] theorem drainPort_host {n p : Nat} : (drainPort n s p).host = s.host := by induction n generalizing s with | zero => rfl | succ n ih => unfold drainPort; split <;> simp [ih]
@[simp] theorem drainPort_eth {n p : Nat} : (drainPort n s p).eth = s.eth := by induction n generalizing s with | zero => rfl | succ n ih => unfold drainPort; split <;> simp [ih]
@[simp] theorem drainPort_err {n p : Nat} : (drainPort n s p).err = s.err := by induction n generalizing s with | zero => rfl | succ n ih => unfold drainPort; split <;> simp [ih]
@[simp] theorem drainPort_sec {n p : Nat} : (drainPort n s p).sec = s.sec := by induction n generalizing s with | zero => rfl | succ n ih => unfold drainPort; split <;> simp [ih]
@[simp] theorem drainPort_power {n p : Nat} : (drainPort n s p).power = s.power := by induction n generalizing s with | zero => rfl | succ n ih => unfold drainPort; split <;> simp [ih]
@[simp] theorem drainPort_telem {n p : Nat} : (drainPort n s p).telem = s.telem := by induction n generalizing s with | zero => rfl | succ n ih => unfold drainPort; split <;> simp [ih]

/-! A port's frames leave. -/

@[simp] theorem drain_pending {p : Nat} : (s.drain p).pending = s.pending := drainPort_pending
@[simp] theorem drain_fresh {p : Nat} : (s.drain p).fresh = s.fresh := drainPort_fresh
@[simp] theorem drain_strikes {p : Nat} : (s.drain p).strikes = s.strikes := drainPort_strikes
@[simp] theorem drain_boot {p : Nat} : (s.drain p).boot = s.boot := drainPort_boot
@[simp] theorem drain_irq {p : Nat} : (s.drain p).irq = s.irq := drainPort_irq
@[simp] theorem drain_mbx {p : Nat} : (s.drain p).mbx = s.mbx := drainPort_mbx
@[simp] theorem drain_cores {p : Nat} : (s.drain p).cores = s.cores := drainPort_cores
@[simp] theorem drain_hbm {p : Nat} : (s.drain p).hbm = s.hbm := drainPort_hbm
@[simp] theorem drain_regions {p : Nat} : (s.drain p).regions = s.regions := drainPort_regions
@[simp] theorem drain_stage {p : Nat} : (s.drain p).stage = s.stage := drainPort_stage
@[simp] theorem drain_opt {p : Nat} : (s.drain p).opt = s.opt := drainPort_opt
@[simp] theorem drain_updateCmds {p : Nat} : (s.drain p).updateCmds = s.updateCmds := drainPort_updateCmds
@[simp] theorem drain_tarn {p : Nat} : (s.drain p).tarn = s.tarn := drainPort_tarn
@[simp] theorem drain_groups {p : Nat} : (s.drain p).groups = s.groups := drainPort_groups
@[simp] theorem drain_buckets {p : Nat} : (s.drain p).buckets = s.buckets := drainPort_buckets
@[simp] theorem drain_ovt {p : Nat} : (s.drain p).ovt = s.ovt := drainPort_ovt
@[simp] theorem drain_clock {p : Nat} : (s.drain p).clock = s.clock := drainPort_clock
@[simp] theorem drain_edges {p : Nat} : (s.drain p).edges = s.edges := drainPort_edges
@[simp] theorem drain_host {p : Nat} : (s.drain p).host = s.host := drainPort_host
@[simp] theorem drain_eth {p : Nat} : (s.drain p).eth = s.eth := drainPort_eth
@[simp] theorem drain_err {p : Nat} : (s.drain p).err = s.err := drainPort_err
@[simp] theorem drain_sec {p : Nat} : (s.drain p).sec = s.sec := drainPort_sec
@[simp] theorem drain_power {p : Nat} : (s.drain p).power = s.power := drainPort_power
@[simp] theorem drain_telem {p : Nat} : (s.drain p).telem = s.telem := drainPort_telem

/-! Packets leave on a connection. -/

@[simp] theorem packets_pending {c n : Nat} {b : Bool} : (s.packets c b n).pending = s.pending := by unfold State.packets; split <;> simp
@[simp] theorem packets_fresh {c n : Nat} {b : Bool} : (s.packets c b n).fresh = s.fresh := by unfold State.packets; split <;> simp
@[simp] theorem packets_strikes {c n : Nat} {b : Bool} : (s.packets c b n).strikes = s.strikes := by unfold State.packets; split <;> simp
@[simp] theorem packets_boot {c n : Nat} {b : Bool} : (s.packets c b n).boot = s.boot := by unfold State.packets; split <;> simp
@[simp] theorem packets_irq {c n : Nat} {b : Bool} : (s.packets c b n).irq = s.irq := by unfold State.packets; split <;> simp
@[simp] theorem packets_mbx {c n : Nat} {b : Bool} : (s.packets c b n).mbx = s.mbx := by unfold State.packets; split <;> simp
@[simp] theorem packets_cores {c n : Nat} {b : Bool} : (s.packets c b n).cores = s.cores := by unfold State.packets; split <;> simp
@[simp] theorem packets_hbm {c n : Nat} {b : Bool} : (s.packets c b n).hbm = s.hbm := by unfold State.packets; split <;> simp
@[simp] theorem packets_regions {c n : Nat} {b : Bool} : (s.packets c b n).regions = s.regions := by unfold State.packets; split <;> simp
@[simp] theorem packets_stage {c n : Nat} {b : Bool} : (s.packets c b n).stage = s.stage := by unfold State.packets; split <;> simp
@[simp] theorem packets_opt {c n : Nat} {b : Bool} : (s.packets c b n).opt = s.opt := by unfold State.packets; split <;> simp
@[simp] theorem packets_updateCmds {c n : Nat} {b : Bool} : (s.packets c b n).updateCmds = s.updateCmds := by unfold State.packets; split <;> simp
@[simp] theorem packets_tarn {c n : Nat} {b : Bool} : (s.packets c b n).tarn = s.tarn := by unfold State.packets; split <;> simp
@[simp] theorem packets_groups {c n : Nat} {b : Bool} : (s.packets c b n).groups = s.groups := by unfold State.packets; split <;> simp
@[simp] theorem packets_buckets {c n : Nat} {b : Bool} : (s.packets c b n).buckets = s.buckets := by unfold State.packets; split <;> simp
@[simp] theorem packets_ovt {c n : Nat} {b : Bool} : (s.packets c b n).ovt = s.ovt := by unfold State.packets; split <;> simp
@[simp] theorem packets_fabric {c n : Nat} {b : Bool} : (s.packets c b n).fabric = s.fabric := by unfold State.packets; split <;> simp
@[simp] theorem packets_net {c n : Nat} {b : Bool} : (s.packets c b n).net = s.net := by unfold State.packets; split <;> simp
@[simp] theorem packets_clock {c n : Nat} {b : Bool} : (s.packets c b n).clock = s.clock := by unfold State.packets; split <;> simp
@[simp] theorem packets_edges {c n : Nat} {b : Bool} : (s.packets c b n).edges = s.edges := by unfold State.packets; split <;> simp
@[simp] theorem packets_host {c n : Nat} {b : Bool} : (s.packets c b n).host = s.host := by unfold State.packets; split <;> simp
@[simp] theorem packets_err {c n : Nat} {b : Bool} : (s.packets c b n).err = s.err := by unfold State.packets; split <;> simp
@[simp] theorem packets_sec {c n : Nat} {b : Bool} : (s.packets c b n).sec = s.sec := by unfold State.packets; split <;> simp
@[simp] theorem packets_power {c n : Nat} {b : Bool} : (s.packets c b n).power = s.power := by unfold State.packets; split <;> simp
@[simp] theorem packets_telem {c n : Nat} {b : Bool} : (s.packets c b n).telem = s.telem := by unfold State.packets; split <;> simp

/-! A connection's frames leave. -/

@[simp] theorem drainConn_pending {vc n c : Nat} : (drainConn vc n s c).pending = s.pending := by induction n generalizing s with | zero => rfl | succ n ih => unfold drainConn; (repeat' split) <;> simp [ih]
@[simp] theorem drainConn_fresh {vc n c : Nat} : (drainConn vc n s c).fresh = s.fresh := by induction n generalizing s with | zero => rfl | succ n ih => unfold drainConn; (repeat' split) <;> simp [ih]
@[simp] theorem drainConn_strikes {vc n c : Nat} : (drainConn vc n s c).strikes = s.strikes := by induction n generalizing s with | zero => rfl | succ n ih => unfold drainConn; (repeat' split) <;> simp [ih]
@[simp] theorem drainConn_boot {vc n c : Nat} : (drainConn vc n s c).boot = s.boot := by induction n generalizing s with | zero => rfl | succ n ih => unfold drainConn; (repeat' split) <;> simp [ih]
@[simp] theorem drainConn_irq {vc n c : Nat} : (drainConn vc n s c).irq = s.irq := by induction n generalizing s with | zero => rfl | succ n ih => unfold drainConn; (repeat' split) <;> simp [ih]
@[simp] theorem drainConn_mbx {vc n c : Nat} : (drainConn vc n s c).mbx = s.mbx := by induction n generalizing s with | zero => rfl | succ n ih => unfold drainConn; (repeat' split) <;> simp [ih]
@[simp] theorem drainConn_cores {vc n c : Nat} : (drainConn vc n s c).cores = s.cores := by induction n generalizing s with | zero => rfl | succ n ih => unfold drainConn; (repeat' split) <;> simp [ih]
@[simp] theorem drainConn_hbm {vc n c : Nat} : (drainConn vc n s c).hbm = s.hbm := by induction n generalizing s with | zero => rfl | succ n ih => unfold drainConn; (repeat' split) <;> simp [ih]
@[simp] theorem drainConn_regions {vc n c : Nat} : (drainConn vc n s c).regions = s.regions := by induction n generalizing s with | zero => rfl | succ n ih => unfold drainConn; (repeat' split) <;> simp [ih]
@[simp] theorem drainConn_stage {vc n c : Nat} : (drainConn vc n s c).stage = s.stage := by induction n generalizing s with | zero => rfl | succ n ih => unfold drainConn; (repeat' split) <;> simp [ih]
@[simp] theorem drainConn_opt {vc n c : Nat} : (drainConn vc n s c).opt = s.opt := by induction n generalizing s with | zero => rfl | succ n ih => unfold drainConn; (repeat' split) <;> simp [ih]
@[simp] theorem drainConn_updateCmds {vc n c : Nat} : (drainConn vc n s c).updateCmds = s.updateCmds := by induction n generalizing s with | zero => rfl | succ n ih => unfold drainConn; (repeat' split) <;> simp [ih]
@[simp] theorem drainConn_tarn {vc n c : Nat} : (drainConn vc n s c).tarn = s.tarn := by induction n generalizing s with | zero => rfl | succ n ih => unfold drainConn; (repeat' split) <;> simp [ih]
@[simp] theorem drainConn_groups {vc n c : Nat} : (drainConn vc n s c).groups = s.groups := by induction n generalizing s with | zero => rfl | succ n ih => unfold drainConn; (repeat' split) <;> simp [ih]
@[simp] theorem drainConn_buckets {vc n c : Nat} : (drainConn vc n s c).buckets = s.buckets := by induction n generalizing s with | zero => rfl | succ n ih => unfold drainConn; (repeat' split) <;> simp [ih]
@[simp] theorem drainConn_ovt {vc n c : Nat} : (drainConn vc n s c).ovt = s.ovt := by induction n generalizing s with | zero => rfl | succ n ih => unfold drainConn; (repeat' split) <;> simp [ih]
@[simp] theorem drainConn_fabric {vc n c : Nat} : (drainConn vc n s c).fabric = s.fabric := by induction n generalizing s with | zero => rfl | succ n ih => unfold drainConn; (repeat' split) <;> simp [ih]
@[simp] theorem drainConn_clock {vc n c : Nat} : (drainConn vc n s c).clock = s.clock := by induction n generalizing s with | zero => rfl | succ n ih => unfold drainConn; (repeat' split) <;> simp [ih]
@[simp] theorem drainConn_edges {vc n c : Nat} : (drainConn vc n s c).edges = s.edges := by induction n generalizing s with | zero => rfl | succ n ih => unfold drainConn; (repeat' split) <;> simp [ih]
@[simp] theorem drainConn_host {vc n c : Nat} : (drainConn vc n s c).host = s.host := by induction n generalizing s with | zero => rfl | succ n ih => unfold drainConn; (repeat' split) <;> simp [ih]
@[simp] theorem drainConn_err {vc n c : Nat} : (drainConn vc n s c).err = s.err := by induction n generalizing s with | zero => rfl | succ n ih => unfold drainConn; (repeat' split) <;> simp [ih]
@[simp] theorem drainConn_sec {vc n c : Nat} : (drainConn vc n s c).sec = s.sec := by induction n generalizing s with | zero => rfl | succ n ih => unfold drainConn; (repeat' split) <;> simp [ih]
@[simp] theorem drainConn_power {vc n c : Nat} : (drainConn vc n s c).power = s.power := by induction n generalizing s with | zero => rfl | succ n ih => unfold drainConn; (repeat' split) <;> simp [ih]
@[simp] theorem drainConn_telem {vc n c : Nat} : (drainConn vc n s c).telem = s.telem := by induction n generalizing s with | zero => rfl | succ n ih => unfold drainConn; (repeat' split) <;> simp [ih]

/-! Connections' frames leave. -/

@[simp] theorem drainConns_pending {cs : List Nat} : (s.drainConns cs).pending = s.pending := foldl_keeps (g := State.pending) (fun _ _ => foldl_keeps (g := State.pending) (fun _ _ => drainConn_pending) _ _) _ _
@[simp] theorem drainConns_fresh {cs : List Nat} : (s.drainConns cs).fresh = s.fresh := foldl_keeps (g := State.fresh) (fun _ _ => foldl_keeps (g := State.fresh) (fun _ _ => drainConn_fresh) _ _) _ _
@[simp] theorem drainConns_strikes {cs : List Nat} : (s.drainConns cs).strikes = s.strikes := foldl_keeps (g := State.strikes) (fun _ _ => foldl_keeps (g := State.strikes) (fun _ _ => drainConn_strikes) _ _) _ _
@[simp] theorem drainConns_boot {cs : List Nat} : (s.drainConns cs).boot = s.boot := foldl_keeps (g := State.boot) (fun _ _ => foldl_keeps (g := State.boot) (fun _ _ => drainConn_boot) _ _) _ _
@[simp] theorem drainConns_irq {cs : List Nat} : (s.drainConns cs).irq = s.irq := foldl_keeps (g := State.irq) (fun _ _ => foldl_keeps (g := State.irq) (fun _ _ => drainConn_irq) _ _) _ _
@[simp] theorem drainConns_mbx {cs : List Nat} : (s.drainConns cs).mbx = s.mbx := foldl_keeps (g := State.mbx) (fun _ _ => foldl_keeps (g := State.mbx) (fun _ _ => drainConn_mbx) _ _) _ _
@[simp] theorem drainConns_cores {cs : List Nat} : (s.drainConns cs).cores = s.cores := foldl_keeps (g := State.cores) (fun _ _ => foldl_keeps (g := State.cores) (fun _ _ => drainConn_cores) _ _) _ _
@[simp] theorem drainConns_hbm {cs : List Nat} : (s.drainConns cs).hbm = s.hbm := foldl_keeps (g := State.hbm) (fun _ _ => foldl_keeps (g := State.hbm) (fun _ _ => drainConn_hbm) _ _) _ _
@[simp] theorem drainConns_regions {cs : List Nat} : (s.drainConns cs).regions = s.regions := foldl_keeps (g := State.regions) (fun _ _ => foldl_keeps (g := State.regions) (fun _ _ => drainConn_regions) _ _) _ _
@[simp] theorem drainConns_stage {cs : List Nat} : (s.drainConns cs).stage = s.stage := foldl_keeps (g := State.stage) (fun _ _ => foldl_keeps (g := State.stage) (fun _ _ => drainConn_stage) _ _) _ _
@[simp] theorem drainConns_opt {cs : List Nat} : (s.drainConns cs).opt = s.opt := foldl_keeps (g := State.opt) (fun _ _ => foldl_keeps (g := State.opt) (fun _ _ => drainConn_opt) _ _) _ _
@[simp] theorem drainConns_updateCmds {cs : List Nat} : (s.drainConns cs).updateCmds = s.updateCmds := foldl_keeps (g := State.updateCmds) (fun _ _ => foldl_keeps (g := State.updateCmds) (fun _ _ => drainConn_updateCmds) _ _) _ _
@[simp] theorem drainConns_tarn {cs : List Nat} : (s.drainConns cs).tarn = s.tarn := foldl_keeps (g := State.tarn) (fun _ _ => foldl_keeps (g := State.tarn) (fun _ _ => drainConn_tarn) _ _) _ _
@[simp] theorem drainConns_groups {cs : List Nat} : (s.drainConns cs).groups = s.groups := foldl_keeps (g := State.groups) (fun _ _ => foldl_keeps (g := State.groups) (fun _ _ => drainConn_groups) _ _) _ _
@[simp] theorem drainConns_buckets {cs : List Nat} : (s.drainConns cs).buckets = s.buckets := foldl_keeps (g := State.buckets) (fun _ _ => foldl_keeps (g := State.buckets) (fun _ _ => drainConn_buckets) _ _) _ _
@[simp] theorem drainConns_ovt {cs : List Nat} : (s.drainConns cs).ovt = s.ovt := foldl_keeps (g := State.ovt) (fun _ _ => foldl_keeps (g := State.ovt) (fun _ _ => drainConn_ovt) _ _) _ _
@[simp] theorem drainConns_fabric {cs : List Nat} : (s.drainConns cs).fabric = s.fabric := foldl_keeps (g := State.fabric) (fun _ _ => foldl_keeps (g := State.fabric) (fun _ _ => drainConn_fabric) _ _) _ _
@[simp] theorem drainConns_clock {cs : List Nat} : (s.drainConns cs).clock = s.clock := foldl_keeps (g := State.clock) (fun _ _ => foldl_keeps (g := State.clock) (fun _ _ => drainConn_clock) _ _) _ _
@[simp] theorem drainConns_edges {cs : List Nat} : (s.drainConns cs).edges = s.edges := foldl_keeps (g := State.edges) (fun _ _ => foldl_keeps (g := State.edges) (fun _ _ => drainConn_edges) _ _) _ _
@[simp] theorem drainConns_host {cs : List Nat} : (s.drainConns cs).host = s.host := foldl_keeps (g := State.host) (fun _ _ => foldl_keeps (g := State.host) (fun _ _ => drainConn_host) _ _) _ _
@[simp] theorem drainConns_err {cs : List Nat} : (s.drainConns cs).err = s.err := foldl_keeps (g := State.err) (fun _ _ => foldl_keeps (g := State.err) (fun _ _ => drainConn_err) _ _) _ _
@[simp] theorem drainConns_sec {cs : List Nat} : (s.drainConns cs).sec = s.sec := foldl_keeps (g := State.sec) (fun _ _ => foldl_keeps (g := State.sec) (fun _ _ => drainConn_sec) _ _) _ _
@[simp] theorem drainConns_power {cs : List Nat} : (s.drainConns cs).power = s.power := foldl_keeps (g := State.power) (fun _ _ => foldl_keeps (g := State.power) (fun _ _ => drainConn_power) _ _) _ _
@[simp] theorem drainConns_telem {cs : List Nat} : (s.drainConns cs).telem = s.telem := foldl_keeps (g := State.telem) (fun _ _ => foldl_keeps (g := State.telem) (fun _ _ => drainConn_telem) _ _) _ _

/-! One connection's frames leave. -/

@[simp] theorem drainC_pending {c : Nat} : (s.drainC c).pending = s.pending := drainConns_pending
@[simp] theorem drainC_fresh {c : Nat} : (s.drainC c).fresh = s.fresh := drainConns_fresh
@[simp] theorem drainC_strikes {c : Nat} : (s.drainC c).strikes = s.strikes := drainConns_strikes
@[simp] theorem drainC_boot {c : Nat} : (s.drainC c).boot = s.boot := drainConns_boot
@[simp] theorem drainC_irq {c : Nat} : (s.drainC c).irq = s.irq := drainConns_irq
@[simp] theorem drainC_mbx {c : Nat} : (s.drainC c).mbx = s.mbx := drainConns_mbx
@[simp] theorem drainC_cores {c : Nat} : (s.drainC c).cores = s.cores := drainConns_cores
@[simp] theorem drainC_hbm {c : Nat} : (s.drainC c).hbm = s.hbm := drainConns_hbm
@[simp] theorem drainC_regions {c : Nat} : (s.drainC c).regions = s.regions := drainConns_regions
@[simp] theorem drainC_stage {c : Nat} : (s.drainC c).stage = s.stage := drainConns_stage
@[simp] theorem drainC_opt {c : Nat} : (s.drainC c).opt = s.opt := drainConns_opt
@[simp] theorem drainC_updateCmds {c : Nat} : (s.drainC c).updateCmds = s.updateCmds := drainConns_updateCmds
@[simp] theorem drainC_tarn {c : Nat} : (s.drainC c).tarn = s.tarn := drainConns_tarn
@[simp] theorem drainC_groups {c : Nat} : (s.drainC c).groups = s.groups := drainConns_groups
@[simp] theorem drainC_buckets {c : Nat} : (s.drainC c).buckets = s.buckets := drainConns_buckets
@[simp] theorem drainC_ovt {c : Nat} : (s.drainC c).ovt = s.ovt := drainConns_ovt
@[simp] theorem drainC_fabric {c : Nat} : (s.drainC c).fabric = s.fabric := drainConns_fabric
@[simp] theorem drainC_clock {c : Nat} : (s.drainC c).clock = s.clock := drainConns_clock
@[simp] theorem drainC_edges {c : Nat} : (s.drainC c).edges = s.edges := drainConns_edges
@[simp] theorem drainC_host {c : Nat} : (s.drainC c).host = s.host := drainConns_host
@[simp] theorem drainC_err {c : Nat} : (s.drainC c).err = s.err := drainConns_err
@[simp] theorem drainC_sec {c : Nat} : (s.drainC c).sec = s.sec := drainConns_sec
@[simp] theorem drainC_power {c : Nat} : (s.drainC c).power = s.power := drainConns_power
@[simp] theorem drainC_telem {c : Nat} : (s.drainC c).telem = s.telem := drainConns_telem

/-! A frame is handed over. -/

@[simp] theorem sendFrame_pending {v : Via} {ty : Nat} {f : Frame} : (s.sendFrame v ty f).pending = s.pending := by unfold State.sendFrame; split <;> simp
@[simp] theorem sendFrame_fresh {v : Via} {ty : Nat} {f : Frame} : (s.sendFrame v ty f).fresh = s.fresh := by unfold State.sendFrame; split <;> simp
@[simp] theorem sendFrame_strikes {v : Via} {ty : Nat} {f : Frame} : (s.sendFrame v ty f).strikes = s.strikes := by unfold State.sendFrame; split <;> simp
@[simp] theorem sendFrame_boot {v : Via} {ty : Nat} {f : Frame} : (s.sendFrame v ty f).boot = s.boot := by unfold State.sendFrame; split <;> simp
@[simp] theorem sendFrame_irq {v : Via} {ty : Nat} {f : Frame} : (s.sendFrame v ty f).irq = s.irq := by unfold State.sendFrame; split <;> simp
@[simp] theorem sendFrame_mbx {v : Via} {ty : Nat} {f : Frame} : (s.sendFrame v ty f).mbx = s.mbx := by unfold State.sendFrame; split <;> simp
@[simp] theorem sendFrame_cores {v : Via} {ty : Nat} {f : Frame} : (s.sendFrame v ty f).cores = s.cores := by unfold State.sendFrame; split <;> simp
@[simp] theorem sendFrame_hbm {v : Via} {ty : Nat} {f : Frame} : (s.sendFrame v ty f).hbm = s.hbm := by unfold State.sendFrame; split <;> simp
@[simp] theorem sendFrame_regions {v : Via} {ty : Nat} {f : Frame} : (s.sendFrame v ty f).regions = s.regions := by unfold State.sendFrame; split <;> simp
@[simp] theorem sendFrame_stage {v : Via} {ty : Nat} {f : Frame} : (s.sendFrame v ty f).stage = s.stage := by unfold State.sendFrame; split <;> simp
@[simp] theorem sendFrame_opt {v : Via} {ty : Nat} {f : Frame} : (s.sendFrame v ty f).opt = s.opt := by unfold State.sendFrame; split <;> simp
@[simp] theorem sendFrame_updateCmds {v : Via} {ty : Nat} {f : Frame} : (s.sendFrame v ty f).updateCmds = s.updateCmds := by unfold State.sendFrame; split <;> simp
@[simp] theorem sendFrame_tarn {v : Via} {ty : Nat} {f : Frame} : (s.sendFrame v ty f).tarn = s.tarn := by unfold State.sendFrame; split <;> simp
@[simp] theorem sendFrame_groups {v : Via} {ty : Nat} {f : Frame} : (s.sendFrame v ty f).groups = s.groups := by unfold State.sendFrame; split <;> simp
@[simp] theorem sendFrame_buckets {v : Via} {ty : Nat} {f : Frame} : (s.sendFrame v ty f).buckets = s.buckets := by unfold State.sendFrame; split <;> simp
@[simp] theorem sendFrame_ovt {v : Via} {ty : Nat} {f : Frame} : (s.sendFrame v ty f).ovt = s.ovt := by unfold State.sendFrame; split <;> simp
@[simp] theorem sendFrame_clock {v : Via} {ty : Nat} {f : Frame} : (s.sendFrame v ty f).clock = s.clock := by unfold State.sendFrame; split <;> simp
@[simp] theorem sendFrame_edges {v : Via} {ty : Nat} {f : Frame} : (s.sendFrame v ty f).edges = s.edges := by unfold State.sendFrame; split <;> simp
@[simp] theorem sendFrame_host {v : Via} {ty : Nat} {f : Frame} : (s.sendFrame v ty f).host = s.host := by unfold State.sendFrame; split <;> simp
@[simp] theorem sendFrame_err {v : Via} {ty : Nat} {f : Frame} : (s.sendFrame v ty f).err = s.err := by unfold State.sendFrame; split <;> simp
@[simp] theorem sendFrame_sec {v : Via} {ty : Nat} {f : Frame} : (s.sendFrame v ty f).sec = s.sec := by unfold State.sendFrame; split <;> simp
@[simp] theorem sendFrame_power {v : Via} {ty : Nat} {f : Frame} : (s.sendFrame v ty f).power = s.power := by unfold State.sendFrame; split <;> simp
@[simp] theorem sendFrame_telem {v : Via} {ty : Nat} {f : Frame} : (s.sendFrame v ty f).telem = s.telem := by unfold State.sendFrame; split <;> simp

/-! Frames are handed over. -/

@[simp] theorem sendFrames_pending {v : Via} {fs : List (Nat × Frame)} : (s.sendFrames v fs).pending = s.pending := by unfold State.sendFrames; split <;> simp
@[simp] theorem sendFrames_fresh {v : Via} {fs : List (Nat × Frame)} : (s.sendFrames v fs).fresh = s.fresh := by unfold State.sendFrames; split <;> simp
@[simp] theorem sendFrames_strikes {v : Via} {fs : List (Nat × Frame)} : (s.sendFrames v fs).strikes = s.strikes := by unfold State.sendFrames; split <;> simp
@[simp] theorem sendFrames_boot {v : Via} {fs : List (Nat × Frame)} : (s.sendFrames v fs).boot = s.boot := by unfold State.sendFrames; split <;> simp
@[simp] theorem sendFrames_irq {v : Via} {fs : List (Nat × Frame)} : (s.sendFrames v fs).irq = s.irq := by unfold State.sendFrames; split <;> simp
@[simp] theorem sendFrames_mbx {v : Via} {fs : List (Nat × Frame)} : (s.sendFrames v fs).mbx = s.mbx := by unfold State.sendFrames; split <;> simp
@[simp] theorem sendFrames_cores {v : Via} {fs : List (Nat × Frame)} : (s.sendFrames v fs).cores = s.cores := by unfold State.sendFrames; split <;> simp
@[simp] theorem sendFrames_hbm {v : Via} {fs : List (Nat × Frame)} : (s.sendFrames v fs).hbm = s.hbm := by unfold State.sendFrames; split <;> simp
@[simp] theorem sendFrames_regions {v : Via} {fs : List (Nat × Frame)} : (s.sendFrames v fs).regions = s.regions := by unfold State.sendFrames; split <;> simp
@[simp] theorem sendFrames_stage {v : Via} {fs : List (Nat × Frame)} : (s.sendFrames v fs).stage = s.stage := by unfold State.sendFrames; split <;> simp
@[simp] theorem sendFrames_opt {v : Via} {fs : List (Nat × Frame)} : (s.sendFrames v fs).opt = s.opt := by unfold State.sendFrames; split <;> simp
@[simp] theorem sendFrames_updateCmds {v : Via} {fs : List (Nat × Frame)} : (s.sendFrames v fs).updateCmds = s.updateCmds := by unfold State.sendFrames; split <;> simp
@[simp] theorem sendFrames_tarn {v : Via} {fs : List (Nat × Frame)} : (s.sendFrames v fs).tarn = s.tarn := by unfold State.sendFrames; split <;> simp
@[simp] theorem sendFrames_groups {v : Via} {fs : List (Nat × Frame)} : (s.sendFrames v fs).groups = s.groups := by unfold State.sendFrames; split <;> simp
@[simp] theorem sendFrames_buckets {v : Via} {fs : List (Nat × Frame)} : (s.sendFrames v fs).buckets = s.buckets := by unfold State.sendFrames; split <;> simp
@[simp] theorem sendFrames_ovt {v : Via} {fs : List (Nat × Frame)} : (s.sendFrames v fs).ovt = s.ovt := by unfold State.sendFrames; split <;> simp
@[simp] theorem sendFrames_clock {v : Via} {fs : List (Nat × Frame)} : (s.sendFrames v fs).clock = s.clock := by unfold State.sendFrames; split <;> simp
@[simp] theorem sendFrames_edges {v : Via} {fs : List (Nat × Frame)} : (s.sendFrames v fs).edges = s.edges := by unfold State.sendFrames; split <;> simp
@[simp] theorem sendFrames_host {v : Via} {fs : List (Nat × Frame)} : (s.sendFrames v fs).host = s.host := by unfold State.sendFrames; split <;> simp
@[simp] theorem sendFrames_err {v : Via} {fs : List (Nat × Frame)} : (s.sendFrames v fs).err = s.err := by unfold State.sendFrames; split <;> simp
@[simp] theorem sendFrames_sec {v : Via} {fs : List (Nat × Frame)} : (s.sendFrames v fs).sec = s.sec := by unfold State.sendFrames; split <;> simp
@[simp] theorem sendFrames_power {v : Via} {fs : List (Nat × Frame)} : (s.sendFrames v fs).power = s.power := by unfold State.sendFrames; split <;> simp
@[simp] theorem sendFrames_telem {v : Via} {fs : List (Nat × Frame)} : (s.sendFrames v fs).telem = s.telem := by unfold State.sendFrames; split <;> simp

/-! An operation fails with its path. -/

@[simp] theorem loseOp_pending {o : NetOp} : (s.loseOp o).pending = s.pending := by unfold State.loseOp; simp only []; split <;> simp
@[simp] theorem loseOp_out {o : NetOp} : (s.loseOp o).out = s.out := by unfold State.loseOp; simp only []; split <;> simp
@[simp] theorem loseOp_fresh {o : NetOp} : (s.loseOp o).fresh = s.fresh := by unfold State.loseOp; simp only []; split <;> simp
@[simp] theorem loseOp_strikes {o : NetOp} : (s.loseOp o).strikes = s.strikes := by unfold State.loseOp; simp only []; split <;> simp
@[simp] theorem loseOp_boot {o : NetOp} : (s.loseOp o).boot = s.boot := by unfold State.loseOp; simp only []; split <;> simp
@[simp] theorem loseOp_irq {o : NetOp} : (s.loseOp o).irq = s.irq := by unfold State.loseOp; simp only []; split <;> simp
@[simp] theorem loseOp_mbx {o : NetOp} : (s.loseOp o).mbx = s.mbx := by unfold State.loseOp; simp only []; split <;> simp
@[simp] theorem loseOp_hbm {o : NetOp} : (s.loseOp o).hbm = s.hbm := by unfold State.loseOp; simp only []; split <;> simp
@[simp] theorem loseOp_regions {o : NetOp} : (s.loseOp o).regions = s.regions := by unfold State.loseOp; simp only []; split <;> simp
@[simp] theorem loseOp_stage {o : NetOp} : (s.loseOp o).stage = s.stage := by unfold State.loseOp; simp only []; split <;> simp
@[simp] theorem loseOp_opt {o : NetOp} : (s.loseOp o).opt = s.opt := by unfold State.loseOp; simp only []; split <;> simp
@[simp] theorem loseOp_updateCmds {o : NetOp} : (s.loseOp o).updateCmds = s.updateCmds := by unfold State.loseOp; simp only []; split <;> simp
@[simp] theorem loseOp_tarn {o : NetOp} : (s.loseOp o).tarn = s.tarn := by unfold State.loseOp; simp only []; split <;> simp
@[simp] theorem loseOp_groups {o : NetOp} : (s.loseOp o).groups = s.groups := by unfold State.loseOp; simp only []; split <;> simp
@[simp] theorem loseOp_buckets {o : NetOp} : (s.loseOp o).buckets = s.buckets := by unfold State.loseOp; simp only []; split <;> simp
@[simp] theorem loseOp_ovt {o : NetOp} : (s.loseOp o).ovt = s.ovt := by unfold State.loseOp; simp only []; split <;> simp
@[simp] theorem loseOp_fabric {o : NetOp} : (s.loseOp o).fabric = s.fabric := by unfold State.loseOp; simp only []; split <;> simp
@[simp] theorem loseOp_clock {o : NetOp} : (s.loseOp o).clock = s.clock := by unfold State.loseOp; simp only []; split <;> simp
@[simp] theorem loseOp_edges {o : NetOp} : (s.loseOp o).edges = s.edges := by unfold State.loseOp; simp only []; split <;> simp
@[simp] theorem loseOp_host {o : NetOp} : (s.loseOp o).host = s.host := by unfold State.loseOp; simp only []; split <;> simp
@[simp] theorem loseOp_eth {o : NetOp} : (s.loseOp o).eth = s.eth := by unfold State.loseOp; simp only []; split <;> simp
@[simp] theorem loseOp_err {o : NetOp} : (s.loseOp o).err = s.err := by unfold State.loseOp; simp only []; split <;> simp
@[simp] theorem loseOp_sec {o : NetOp} : (s.loseOp o).sec = s.sec := by unfold State.loseOp; simp only []; split <;> simp
@[simp] theorem loseOp_power {o : NetOp} : (s.loseOp o).power = s.power := by unfold State.loseOp; simp only []; split <;> simp
@[simp] theorem loseOp_telem {o : NetOp} : (s.loseOp o).telem = s.telem := by unfold State.loseOp; simp only []; split <;> simp

/-! Unsent frames are withdrawn. -/

@[simp] theorem withdraw_pending {ts : List Nat} : (s.withdraw ts).pending = s.pending := by unfold State.withdraw; simp only []; refine foldl_keeps (g := State.pending) (fun _ _ => ?_) _ _; split <;> simp
@[simp] theorem withdraw_out {ts : List Nat} : (s.withdraw ts).out = s.out := by unfold State.withdraw; simp only []; refine foldl_keeps (g := State.out) (fun _ _ => ?_) _ _; split <;> simp
@[simp] theorem withdraw_fresh {ts : List Nat} : (s.withdraw ts).fresh = s.fresh := by unfold State.withdraw; simp only []; refine foldl_keeps (g := State.fresh) (fun _ _ => ?_) _ _; split <;> simp
@[simp] theorem withdraw_strikes {ts : List Nat} : (s.withdraw ts).strikes = s.strikes := by unfold State.withdraw; simp only []; refine foldl_keeps (g := State.strikes) (fun _ _ => ?_) _ _; split <;> simp
@[simp] theorem withdraw_boot {ts : List Nat} : (s.withdraw ts).boot = s.boot := by unfold State.withdraw; simp only []; refine foldl_keeps (g := State.boot) (fun _ _ => ?_) _ _; split <;> simp
@[simp] theorem withdraw_irq {ts : List Nat} : (s.withdraw ts).irq = s.irq := by unfold State.withdraw; simp only []; refine foldl_keeps (g := State.irq) (fun _ _ => ?_) _ _; split <;> simp
@[simp] theorem withdraw_mbx {ts : List Nat} : (s.withdraw ts).mbx = s.mbx := by unfold State.withdraw; simp only []; refine foldl_keeps (g := State.mbx) (fun _ _ => ?_) _ _; split <;> simp
@[simp] theorem withdraw_cores {ts : List Nat} : (s.withdraw ts).cores = s.cores := by unfold State.withdraw; simp only []; refine foldl_keeps (g := State.cores) (fun _ _ => ?_) _ _; split <;> simp
@[simp] theorem withdraw_hbm {ts : List Nat} : (s.withdraw ts).hbm = s.hbm := by unfold State.withdraw; simp only []; refine foldl_keeps (g := State.hbm) (fun _ _ => ?_) _ _; split <;> simp
@[simp] theorem withdraw_regions {ts : List Nat} : (s.withdraw ts).regions = s.regions := by unfold State.withdraw; simp only []; refine foldl_keeps (g := State.regions) (fun _ _ => ?_) _ _; split <;> simp
@[simp] theorem withdraw_stage {ts : List Nat} : (s.withdraw ts).stage = s.stage := by unfold State.withdraw; simp only []; refine foldl_keeps (g := State.stage) (fun _ _ => ?_) _ _; split <;> simp
@[simp] theorem withdraw_opt {ts : List Nat} : (s.withdraw ts).opt = s.opt := by unfold State.withdraw; simp only []; refine foldl_keeps (g := State.opt) (fun _ _ => ?_) _ _; split <;> simp
@[simp] theorem withdraw_updateCmds {ts : List Nat} : (s.withdraw ts).updateCmds = s.updateCmds := by unfold State.withdraw; simp only []; refine foldl_keeps (g := State.updateCmds) (fun _ _ => ?_) _ _; split <;> simp
@[simp] theorem withdraw_tarn {ts : List Nat} : (s.withdraw ts).tarn = s.tarn := by unfold State.withdraw; simp only []; refine foldl_keeps (g := State.tarn) (fun _ _ => ?_) _ _; split <;> simp
@[simp] theorem withdraw_groups {ts : List Nat} : (s.withdraw ts).groups = s.groups := by unfold State.withdraw; simp only []; refine foldl_keeps (g := State.groups) (fun _ _ => ?_) _ _; split <;> simp
@[simp] theorem withdraw_buckets {ts : List Nat} : (s.withdraw ts).buckets = s.buckets := by unfold State.withdraw; simp only []; refine foldl_keeps (g := State.buckets) (fun _ _ => ?_) _ _; split <;> simp
@[simp] theorem withdraw_ovt {ts : List Nat} : (s.withdraw ts).ovt = s.ovt := by unfold State.withdraw; simp only []; refine foldl_keeps (g := State.ovt) (fun _ _ => ?_) _ _; split <;> simp
@[simp] theorem withdraw_net {ts : List Nat} : (s.withdraw ts).net = s.net := by unfold State.withdraw; simp only []; refine foldl_keeps (g := State.net) (fun _ _ => ?_) _ _; split <;> simp
@[simp] theorem withdraw_clock {ts : List Nat} : (s.withdraw ts).clock = s.clock := by unfold State.withdraw; simp only []; refine foldl_keeps (g := State.clock) (fun _ _ => ?_) _ _; split <;> simp
@[simp] theorem withdraw_edges {ts : List Nat} : (s.withdraw ts).edges = s.edges := by unfold State.withdraw; simp only []; refine foldl_keeps (g := State.edges) (fun _ _ => ?_) _ _; split <;> simp
@[simp] theorem withdraw_host {ts : List Nat} : (s.withdraw ts).host = s.host := by unfold State.withdraw; simp only []; refine foldl_keeps (g := State.host) (fun _ _ => ?_) _ _; split <;> simp
@[simp] theorem withdraw_err {ts : List Nat} : (s.withdraw ts).err = s.err := by unfold State.withdraw; simp only []; refine foldl_keeps (g := State.err) (fun _ _ => ?_) _ _; split <;> simp
@[simp] theorem withdraw_sec {ts : List Nat} : (s.withdraw ts).sec = s.sec := by unfold State.withdraw; simp only []; refine foldl_keeps (g := State.sec) (fun _ _ => ?_) _ _; split <;> simp
@[simp] theorem withdraw_power {ts : List Nat} : (s.withdraw ts).power = s.power := by unfold State.withdraw; simp only []; refine foldl_keeps (g := State.power) (fun _ _ => ?_) _ _; split <;> simp
@[simp] theorem withdraw_telem {ts : List Nat} : (s.withdraw ts).telem = s.telem := by unfold State.withdraw; simp only []; refine foldl_keeps (g := State.telem) (fun _ _ => ?_) _ _; split <;> simp

/-! A command's operations are given up. -/

@[simp] theorem dropCmdOps_pending {c q i : Nat} : (s.dropCmdOps c q i).pending = s.pending := by unfold State.dropCmdOps; simp only [withdraw_pending]; exact foldl_keeps (g := State.pending) (fun _ _ => endOp_pending) _ _
@[simp] theorem dropCmdOps_out {c q i : Nat} : (s.dropCmdOps c q i).out = s.out := by unfold State.dropCmdOps; simp only [withdraw_out]; exact foldl_keeps (g := State.out) (fun _ _ => endOp_out) _ _
@[simp] theorem dropCmdOps_fresh {c q i : Nat} : (s.dropCmdOps c q i).fresh = s.fresh := by unfold State.dropCmdOps; simp only [withdraw_fresh]; exact foldl_keeps (g := State.fresh) (fun _ _ => endOp_fresh) _ _
@[simp] theorem dropCmdOps_strikes {c q i : Nat} : (s.dropCmdOps c q i).strikes = s.strikes := by unfold State.dropCmdOps; simp only [withdraw_strikes]; exact foldl_keeps (g := State.strikes) (fun _ _ => endOp_strikes) _ _
@[simp] theorem dropCmdOps_boot {c q i : Nat} : (s.dropCmdOps c q i).boot = s.boot := by unfold State.dropCmdOps; simp only [withdraw_boot]; exact foldl_keeps (g := State.boot) (fun _ _ => endOp_boot) _ _
@[simp] theorem dropCmdOps_irq {c q i : Nat} : (s.dropCmdOps c q i).irq = s.irq := by unfold State.dropCmdOps; simp only [withdraw_irq]; exact foldl_keeps (g := State.irq) (fun _ _ => endOp_irq) _ _
@[simp] theorem dropCmdOps_mbx {c q i : Nat} : (s.dropCmdOps c q i).mbx = s.mbx := by unfold State.dropCmdOps; simp only [withdraw_mbx]; exact foldl_keeps (g := State.mbx) (fun _ _ => endOp_mbx) _ _
@[simp] theorem dropCmdOps_cores {c q i : Nat} : (s.dropCmdOps c q i).cores = s.cores := by unfold State.dropCmdOps; simp only [withdraw_cores]; exact foldl_keeps (g := State.cores) (fun _ _ => endOp_cores) _ _
@[simp] theorem dropCmdOps_hbm {c q i : Nat} : (s.dropCmdOps c q i).hbm = s.hbm := by unfold State.dropCmdOps; simp only [withdraw_hbm]; exact foldl_keeps (g := State.hbm) (fun _ _ => endOp_hbm) _ _
@[simp] theorem dropCmdOps_regions {c q i : Nat} : (s.dropCmdOps c q i).regions = s.regions := by unfold State.dropCmdOps; simp only [withdraw_regions]; exact foldl_keeps (g := State.regions) (fun _ _ => endOp_regions) _ _
@[simp] theorem dropCmdOps_stage {c q i : Nat} : (s.dropCmdOps c q i).stage = s.stage := by unfold State.dropCmdOps; simp only [withdraw_stage]; exact foldl_keeps (g := State.stage) (fun _ _ => endOp_stage) _ _
@[simp] theorem dropCmdOps_opt {c q i : Nat} : (s.dropCmdOps c q i).opt = s.opt := by unfold State.dropCmdOps; simp only [withdraw_opt]; exact foldl_keeps (g := State.opt) (fun _ _ => endOp_opt) _ _
@[simp] theorem dropCmdOps_updateCmds {c q i : Nat} : (s.dropCmdOps c q i).updateCmds = s.updateCmds := by unfold State.dropCmdOps; simp only [withdraw_updateCmds]; exact foldl_keeps (g := State.updateCmds) (fun _ _ => endOp_updateCmds) _ _
@[simp] theorem dropCmdOps_tarn {c q i : Nat} : (s.dropCmdOps c q i).tarn = s.tarn := by unfold State.dropCmdOps; simp only [withdraw_tarn]; exact foldl_keeps (g := State.tarn) (fun _ _ => endOp_tarn) _ _
@[simp] theorem dropCmdOps_groups {c q i : Nat} : (s.dropCmdOps c q i).groups = s.groups := by unfold State.dropCmdOps; simp only [withdraw_groups]; exact foldl_keeps (g := State.groups) (fun _ _ => endOp_groups) _ _
@[simp] theorem dropCmdOps_buckets {c q i : Nat} : (s.dropCmdOps c q i).buckets = s.buckets := by unfold State.dropCmdOps; simp only [withdraw_buckets]; exact foldl_keeps (g := State.buckets) (fun _ _ => endOp_buckets) _ _
@[simp] theorem dropCmdOps_ovt {c q i : Nat} : (s.dropCmdOps c q i).ovt = s.ovt := by unfold State.dropCmdOps; simp only [withdraw_ovt]; exact foldl_keeps (g := State.ovt) (fun _ _ => endOp_ovt) _ _
@[simp] theorem dropCmdOps_clock {c q i : Nat} : (s.dropCmdOps c q i).clock = s.clock := by unfold State.dropCmdOps; simp only [withdraw_clock]; exact foldl_keeps (g := State.clock) (fun _ _ => endOp_clock) _ _
@[simp] theorem dropCmdOps_edges {c q i : Nat} : (s.dropCmdOps c q i).edges = s.edges := by unfold State.dropCmdOps; simp only [withdraw_edges]; exact foldl_keeps (g := State.edges) (fun _ _ => endOp_edges) _ _
@[simp] theorem dropCmdOps_host {c q i : Nat} : (s.dropCmdOps c q i).host = s.host := by unfold State.dropCmdOps; simp only [withdraw_host]; exact foldl_keeps (g := State.host) (fun _ _ => endOp_host) _ _
@[simp] theorem dropCmdOps_err {c q i : Nat} : (s.dropCmdOps c q i).err = s.err := by unfold State.dropCmdOps; simp only [withdraw_err]; exact foldl_keeps (g := State.err) (fun _ _ => endOp_err) _ _
@[simp] theorem dropCmdOps_sec {c q i : Nat} : (s.dropCmdOps c q i).sec = s.sec := by unfold State.dropCmdOps; simp only [withdraw_sec]; exact foldl_keeps (g := State.sec) (fun _ _ => endOp_sec) _ _
@[simp] theorem dropCmdOps_power {c q i : Nat} : (s.dropCmdOps c q i).power = s.power := by unfold State.dropCmdOps; simp only [withdraw_power]; exact foldl_keeps (g := State.power) (fun _ _ => endOp_power) _ _
@[simp] theorem dropCmdOps_telem {c q i : Nat} : (s.dropCmdOps c q i).telem = s.telem := by unfold State.dropCmdOps; simp only [withdraw_telem]; exact foldl_keeps (g := State.telem) (fun _ _ => endOp_telem) _ _

/-! Lost credits are held. -/

@[simp] theorem holdLost_pending {fs : List TxFrame} : (s.holdLost fs).pending = s.pending := by unfold State.holdLost; exact foldl_keeps (g := State.pending) (fun _ _ => holdCredit_pending) _ _
@[simp] theorem holdLost_out {fs : List TxFrame} : (s.holdLost fs).out = s.out := by unfold State.holdLost; exact foldl_keeps (g := State.out) (fun _ _ => holdCredit_out) _ _
@[simp] theorem holdLost_fresh {fs : List TxFrame} : (s.holdLost fs).fresh = s.fresh := by unfold State.holdLost; exact foldl_keeps (g := State.fresh) (fun _ _ => holdCredit_fresh) _ _
@[simp] theorem holdLost_strikes {fs : List TxFrame} : (s.holdLost fs).strikes = s.strikes := by unfold State.holdLost; exact foldl_keeps (g := State.strikes) (fun _ _ => holdCredit_strikes) _ _
@[simp] theorem holdLost_boot {fs : List TxFrame} : (s.holdLost fs).boot = s.boot := by unfold State.holdLost; exact foldl_keeps (g := State.boot) (fun _ _ => holdCredit_boot) _ _
@[simp] theorem holdLost_irq {fs : List TxFrame} : (s.holdLost fs).irq = s.irq := by unfold State.holdLost; exact foldl_keeps (g := State.irq) (fun _ _ => holdCredit_irq) _ _
@[simp] theorem holdLost_mbx {fs : List TxFrame} : (s.holdLost fs).mbx = s.mbx := by unfold State.holdLost; exact foldl_keeps (g := State.mbx) (fun _ _ => holdCredit_mbx) _ _
@[simp] theorem holdLost_cores {fs : List TxFrame} : (s.holdLost fs).cores = s.cores := by unfold State.holdLost; exact foldl_keeps (g := State.cores) (fun _ _ => holdCredit_cores) _ _
@[simp] theorem holdLost_hbm {fs : List TxFrame} : (s.holdLost fs).hbm = s.hbm := by unfold State.holdLost; exact foldl_keeps (g := State.hbm) (fun _ _ => holdCredit_hbm) _ _
@[simp] theorem holdLost_regions {fs : List TxFrame} : (s.holdLost fs).regions = s.regions := by unfold State.holdLost; exact foldl_keeps (g := State.regions) (fun _ _ => holdCredit_regions) _ _
@[simp] theorem holdLost_opt {fs : List TxFrame} : (s.holdLost fs).opt = s.opt := by unfold State.holdLost; exact foldl_keeps (g := State.opt) (fun _ _ => holdCredit_opt) _ _
@[simp] theorem holdLost_updateCmds {fs : List TxFrame} : (s.holdLost fs).updateCmds = s.updateCmds := by unfold State.holdLost; exact foldl_keeps (g := State.updateCmds) (fun _ _ => holdCredit_updateCmds) _ _
@[simp] theorem holdLost_tarn {fs : List TxFrame} : (s.holdLost fs).tarn = s.tarn := by unfold State.holdLost; exact foldl_keeps (g := State.tarn) (fun _ _ => holdCredit_tarn) _ _
@[simp] theorem holdLost_groups {fs : List TxFrame} : (s.holdLost fs).groups = s.groups := by unfold State.holdLost; exact foldl_keeps (g := State.groups) (fun _ _ => holdCredit_groups) _ _
@[simp] theorem holdLost_buckets {fs : List TxFrame} : (s.holdLost fs).buckets = s.buckets := by unfold State.holdLost; exact foldl_keeps (g := State.buckets) (fun _ _ => holdCredit_buckets) _ _
@[simp] theorem holdLost_ovt {fs : List TxFrame} : (s.holdLost fs).ovt = s.ovt := by unfold State.holdLost; exact foldl_keeps (g := State.ovt) (fun _ _ => holdCredit_ovt) _ _
@[simp] theorem holdLost_fabric {fs : List TxFrame} : (s.holdLost fs).fabric = s.fabric := by unfold State.holdLost; exact foldl_keeps (g := State.fabric) (fun _ _ => holdCredit_fabric) _ _
@[simp] theorem holdLost_net {fs : List TxFrame} : (s.holdLost fs).net = s.net := by unfold State.holdLost; exact foldl_keeps (g := State.net) (fun _ _ => holdCredit_net) _ _
@[simp] theorem holdLost_clock {fs : List TxFrame} : (s.holdLost fs).clock = s.clock := by unfold State.holdLost; exact foldl_keeps (g := State.clock) (fun _ _ => holdCredit_clock) _ _
@[simp] theorem holdLost_edges {fs : List TxFrame} : (s.holdLost fs).edges = s.edges := by unfold State.holdLost; exact foldl_keeps (g := State.edges) (fun _ _ => holdCredit_edges) _ _
@[simp] theorem holdLost_host {fs : List TxFrame} : (s.holdLost fs).host = s.host := by unfold State.holdLost; exact foldl_keeps (g := State.host) (fun _ _ => holdCredit_host) _ _
@[simp] theorem holdLost_eth {fs : List TxFrame} : (s.holdLost fs).eth = s.eth := by unfold State.holdLost; exact foldl_keeps (g := State.eth) (fun _ _ => holdCredit_eth) _ _
@[simp] theorem holdLost_err {fs : List TxFrame} : (s.holdLost fs).err = s.err := by unfold State.holdLost; exact foldl_keeps (g := State.err) (fun _ _ => holdCredit_err) _ _
@[simp] theorem holdLost_sec {fs : List TxFrame} : (s.holdLost fs).sec = s.sec := by unfold State.holdLost; exact foldl_keeps (g := State.sec) (fun _ _ => holdCredit_sec) _ _
@[simp] theorem holdLost_power {fs : List TxFrame} : (s.holdLost fs).power = s.power := by unfold State.holdLost; exact foldl_keeps (g := State.power) (fun _ _ => holdCredit_power) _ _
@[simp] theorem holdLost_telem {fs : List TxFrame} : (s.holdLost fs).telem = s.telem := by unfold State.holdLost; exact foldl_keeps (g := State.telem) (fun _ _ => holdCredit_telem) _ _

/-! Failed operations are counted at their path. -/

@[simp] theorem countFailed_pending {v : Via} {n : Nat} : (s.countFailed v n).pending = s.pending := by unfold State.countFailed; split <;> simp
@[simp] theorem countFailed_out {v : Via} {n : Nat} : (s.countFailed v n).out = s.out := by unfold State.countFailed; split <;> simp
@[simp] theorem countFailed_fresh {v : Via} {n : Nat} : (s.countFailed v n).fresh = s.fresh := by unfold State.countFailed; split <;> simp
@[simp] theorem countFailed_strikes {v : Via} {n : Nat} : (s.countFailed v n).strikes = s.strikes := by unfold State.countFailed; split <;> simp
@[simp] theorem countFailed_boot {v : Via} {n : Nat} : (s.countFailed v n).boot = s.boot := by unfold State.countFailed; split <;> simp
@[simp] theorem countFailed_irq {v : Via} {n : Nat} : (s.countFailed v n).irq = s.irq := by unfold State.countFailed; split <;> simp
@[simp] theorem countFailed_mbx {v : Via} {n : Nat} : (s.countFailed v n).mbx = s.mbx := by unfold State.countFailed; split <;> simp
@[simp] theorem countFailed_cores {v : Via} {n : Nat} : (s.countFailed v n).cores = s.cores := by unfold State.countFailed; split <;> simp
@[simp] theorem countFailed_hbm {v : Via} {n : Nat} : (s.countFailed v n).hbm = s.hbm := by unfold State.countFailed; split <;> simp
@[simp] theorem countFailed_regions {v : Via} {n : Nat} : (s.countFailed v n).regions = s.regions := by unfold State.countFailed; split <;> simp
@[simp] theorem countFailed_stage {v : Via} {n : Nat} : (s.countFailed v n).stage = s.stage := by unfold State.countFailed; split <;> simp
@[simp] theorem countFailed_opt {v : Via} {n : Nat} : (s.countFailed v n).opt = s.opt := by unfold State.countFailed; split <;> simp
@[simp] theorem countFailed_updateCmds {v : Via} {n : Nat} : (s.countFailed v n).updateCmds = s.updateCmds := by unfold State.countFailed; split <;> simp
@[simp] theorem countFailed_tarn {v : Via} {n : Nat} : (s.countFailed v n).tarn = s.tarn := by unfold State.countFailed; split <;> simp
@[simp] theorem countFailed_groups {v : Via} {n : Nat} : (s.countFailed v n).groups = s.groups := by unfold State.countFailed; split <;> simp
@[simp] theorem countFailed_buckets {v : Via} {n : Nat} : (s.countFailed v n).buckets = s.buckets := by unfold State.countFailed; split <;> simp
@[simp] theorem countFailed_ovt {v : Via} {n : Nat} : (s.countFailed v n).ovt = s.ovt := by unfold State.countFailed; split <;> simp
@[simp] theorem countFailed_clock {v : Via} {n : Nat} : (s.countFailed v n).clock = s.clock := by unfold State.countFailed; split <;> simp
@[simp] theorem countFailed_edges {v : Via} {n : Nat} : (s.countFailed v n).edges = s.edges := by unfold State.countFailed; split <;> simp
@[simp] theorem countFailed_host {v : Via} {n : Nat} : (s.countFailed v n).host = s.host := by unfold State.countFailed; split <;> simp
@[simp] theorem countFailed_err {v : Via} {n : Nat} : (s.countFailed v n).err = s.err := by unfold State.countFailed; split <;> simp
@[simp] theorem countFailed_sec {v : Via} {n : Nat} : (s.countFailed v n).sec = s.sec := by unfold State.countFailed; split <;> simp
@[simp] theorem countFailed_power {v : Via} {n : Nat} : (s.countFailed v n).power = s.power := by unfold State.countFailed; split <;> simp
@[simp] theorem countFailed_telem {v : Via} {n : Nat} : (s.countFailed v n).telem = s.telem := by unfold State.countFailed; split <;> simp

@[simp] theorem countFailed_port_eth {p : Fin 18} {n : Nat} : (s.countFailed (.port p) n).eth = s.eth := modPort_eth
@[simp] theorem countFailed_conn_fabric {c : BitVec 12} {n : Nat} : (s.countFailed (.conn c) n).fabric = s.fabric := modConn_fabric

/-! A path's operations end. -/

@[simp] theorem losePath_pending {v : Via} : (s.losePath v).pending = s.pending := by unfold State.losePath; simp only [countFailed_pending]; exact (foldl_keeps (g := State.pending) (fun _ _ => modStarted_pending) _ _).trans (foldl_keeps (g := State.pending) (fun _ _ => loseOp_pending) _ _)
@[simp] theorem losePath_out {v : Via} : (s.losePath v).out = s.out := by unfold State.losePath; simp only [countFailed_out]; exact (foldl_keeps (g := State.out) (fun _ _ => modStarted_out) _ _).trans (foldl_keeps (g := State.out) (fun _ _ => loseOp_out) _ _)
@[simp] theorem losePath_fresh {v : Via} : (s.losePath v).fresh = s.fresh := by unfold State.losePath; simp only [countFailed_fresh]; exact (foldl_keeps (g := State.fresh) (fun _ _ => modStarted_fresh) _ _).trans (foldl_keeps (g := State.fresh) (fun _ _ => loseOp_fresh) _ _)
@[simp] theorem losePath_strikes {v : Via} : (s.losePath v).strikes = s.strikes := by unfold State.losePath; simp only [countFailed_strikes]; exact (foldl_keeps (g := State.strikes) (fun _ _ => modStarted_strikes) _ _).trans (foldl_keeps (g := State.strikes) (fun _ _ => loseOp_strikes) _ _)
@[simp] theorem losePath_boot {v : Via} : (s.losePath v).boot = s.boot := by unfold State.losePath; simp only [countFailed_boot]; exact (foldl_keeps (g := State.boot) (fun _ _ => modStarted_boot) _ _).trans (foldl_keeps (g := State.boot) (fun _ _ => loseOp_boot) _ _)
@[simp] theorem losePath_irq {v : Via} : (s.losePath v).irq = s.irq := by unfold State.losePath; simp only [countFailed_irq]; exact (foldl_keeps (g := State.irq) (fun _ _ => modStarted_irq) _ _).trans (foldl_keeps (g := State.irq) (fun _ _ => loseOp_irq) _ _)
@[simp] theorem losePath_mbx {v : Via} : (s.losePath v).mbx = s.mbx := by unfold State.losePath; simp only [countFailed_mbx]; exact (foldl_keeps (g := State.mbx) (fun _ _ => modStarted_mbx) _ _).trans (foldl_keeps (g := State.mbx) (fun _ _ => loseOp_mbx) _ _)
@[simp] theorem losePath_hbm {v : Via} : (s.losePath v).hbm = s.hbm := by unfold State.losePath; simp only [countFailed_hbm]; exact (foldl_keeps (g := State.hbm) (fun _ _ => modStarted_hbm) _ _).trans (foldl_keeps (g := State.hbm) (fun _ _ => loseOp_hbm) _ _)
@[simp] theorem losePath_regions {v : Via} : (s.losePath v).regions = s.regions := by unfold State.losePath; simp only [countFailed_regions]; exact (foldl_keeps (g := State.regions) (fun _ _ => modStarted_regions) _ _).trans (foldl_keeps (g := State.regions) (fun _ _ => loseOp_regions) _ _)
@[simp] theorem losePath_stage {v : Via} : (s.losePath v).stage = s.stage := by unfold State.losePath; simp only [countFailed_stage]; exact (foldl_keeps (g := State.stage) (fun _ _ => modStarted_stage) _ _).trans (foldl_keeps (g := State.stage) (fun _ _ => loseOp_stage) _ _)
@[simp] theorem losePath_opt {v : Via} : (s.losePath v).opt = s.opt := by unfold State.losePath; simp only [countFailed_opt]; exact (foldl_keeps (g := State.opt) (fun _ _ => modStarted_opt) _ _).trans (foldl_keeps (g := State.opt) (fun _ _ => loseOp_opt) _ _)
@[simp] theorem losePath_updateCmds {v : Via} : (s.losePath v).updateCmds = s.updateCmds := by unfold State.losePath; simp only [countFailed_updateCmds]; exact (foldl_keeps (g := State.updateCmds) (fun _ _ => modStarted_updateCmds) _ _).trans (foldl_keeps (g := State.updateCmds) (fun _ _ => loseOp_updateCmds) _ _)
@[simp] theorem losePath_tarn {v : Via} : (s.losePath v).tarn = s.tarn := by unfold State.losePath; simp only [countFailed_tarn]; exact (foldl_keeps (g := State.tarn) (fun _ _ => modStarted_tarn) _ _).trans (foldl_keeps (g := State.tarn) (fun _ _ => loseOp_tarn) _ _)
@[simp] theorem losePath_groups {v : Via} : (s.losePath v).groups = s.groups := by unfold State.losePath; simp only [countFailed_groups]; exact (foldl_keeps (g := State.groups) (fun _ _ => modStarted_groups) _ _).trans (foldl_keeps (g := State.groups) (fun _ _ => loseOp_groups) _ _)
@[simp] theorem losePath_buckets {v : Via} : (s.losePath v).buckets = s.buckets := by unfold State.losePath; simp only [countFailed_buckets]; exact (foldl_keeps (g := State.buckets) (fun _ _ => modStarted_buckets) _ _).trans (foldl_keeps (g := State.buckets) (fun _ _ => loseOp_buckets) _ _)
@[simp] theorem losePath_ovt {v : Via} : (s.losePath v).ovt = s.ovt := by unfold State.losePath; simp only [countFailed_ovt]; exact (foldl_keeps (g := State.ovt) (fun _ _ => modStarted_ovt) _ _).trans (foldl_keeps (g := State.ovt) (fun _ _ => loseOp_ovt) _ _)
@[simp] theorem losePath_clock {v : Via} : (s.losePath v).clock = s.clock := by unfold State.losePath; simp only [countFailed_clock]; exact (foldl_keeps (g := State.clock) (fun _ _ => modStarted_clock) _ _).trans (foldl_keeps (g := State.clock) (fun _ _ => loseOp_clock) _ _)
@[simp] theorem losePath_edges {v : Via} : (s.losePath v).edges = s.edges := by unfold State.losePath; simp only [countFailed_edges]; exact (foldl_keeps (g := State.edges) (fun _ _ => modStarted_edges) _ _).trans (foldl_keeps (g := State.edges) (fun _ _ => loseOp_edges) _ _)
@[simp] theorem losePath_host {v : Via} : (s.losePath v).host = s.host := by unfold State.losePath; simp only [countFailed_host]; exact (foldl_keeps (g := State.host) (fun _ _ => modStarted_host) _ _).trans (foldl_keeps (g := State.host) (fun _ _ => loseOp_host) _ _)
@[simp] theorem losePath_err {v : Via} : (s.losePath v).err = s.err := by unfold State.losePath; simp only [countFailed_err]; exact (foldl_keeps (g := State.err) (fun _ _ => modStarted_err) _ _).trans (foldl_keeps (g := State.err) (fun _ _ => loseOp_err) _ _)
@[simp] theorem losePath_sec {v : Via} : (s.losePath v).sec = s.sec := by unfold State.losePath; simp only [countFailed_sec]; exact (foldl_keeps (g := State.sec) (fun _ _ => modStarted_sec) _ _).trans (foldl_keeps (g := State.sec) (fun _ _ => loseOp_sec) _ _)
@[simp] theorem losePath_power {v : Via} : (s.losePath v).power = s.power := by unfold State.losePath; simp only [countFailed_power]; exact (foldl_keeps (g := State.power) (fun _ _ => modStarted_power) _ _).trans (foldl_keeps (g := State.power) (fun _ _ => loseOp_power) _ _)
@[simp] theorem losePath_telem {v : Via} : (s.losePath v).telem = s.telem := by unfold State.losePath; simp only [countFailed_telem]; exact (foldl_keeps (g := State.telem) (fun _ _ => modStarted_telem) _ _).trans (foldl_keeps (g := State.telem) (fun _ _ => loseOp_telem) _ _)

theorem losePath_port_eth {p : Fin 18} : (s.losePath (.port p)).eth = s.eth := by unfold State.losePath; simp only [countFailed_port_eth]; exact (foldl_keeps (g := State.eth) (fun _ _ => modStarted_eth) _ _).trans (foldl_keeps (g := State.eth) (fun _ _ => loseOp_eth) _ _)
theorem losePath_conn_fabric {c : BitVec 12} : (s.losePath (.conn c)).fabric = s.fabric := by unfold State.losePath; simp only [countFailed_conn_fabric]; exact (foldl_keeps (g := State.fabric) (fun _ _ => modStarted_fabric) _ _).trans (foldl_keeps (g := State.fabric) (fun _ _ => loseOp_fabric) _ _)

/-! A port's operations end. -/

@[simp] theorem losePort_pending {p : Nat} {k : Bool} : (s.losePort p k).pending = s.pending := by unfold State.losePort; simp only [holdLost_pending, modPort_pending, losePath_pending]
@[simp] theorem losePort_out {p : Nat} {k : Bool} : (s.losePort p k).out = s.out := by unfold State.losePort; simp only [holdLost_out, modPort_out, losePath_out]
@[simp] theorem losePort_fresh {p : Nat} {k : Bool} : (s.losePort p k).fresh = s.fresh := by unfold State.losePort; simp only [holdLost_fresh, modPort_fresh, losePath_fresh]
@[simp] theorem losePort_strikes {p : Nat} {k : Bool} : (s.losePort p k).strikes = s.strikes := by unfold State.losePort; simp only [holdLost_strikes, modPort_strikes, losePath_strikes]
@[simp] theorem losePort_boot {p : Nat} {k : Bool} : (s.losePort p k).boot = s.boot := by unfold State.losePort; simp only [holdLost_boot, modPort_boot, losePath_boot]
@[simp] theorem losePort_irq {p : Nat} {k : Bool} : (s.losePort p k).irq = s.irq := by unfold State.losePort; simp only [holdLost_irq, modPort_irq, losePath_irq]
@[simp] theorem losePort_mbx {p : Nat} {k : Bool} : (s.losePort p k).mbx = s.mbx := by unfold State.losePort; simp only [holdLost_mbx, modPort_mbx, losePath_mbx]
@[simp] theorem losePort_hbm {p : Nat} {k : Bool} : (s.losePort p k).hbm = s.hbm := by unfold State.losePort; simp only [holdLost_hbm, modPort_hbm, losePath_hbm]
@[simp] theorem losePort_regions {p : Nat} {k : Bool} : (s.losePort p k).regions = s.regions := by unfold State.losePort; simp only [holdLost_regions, modPort_regions, losePath_regions]
@[simp] theorem losePort_opt {p : Nat} {k : Bool} : (s.losePort p k).opt = s.opt := by unfold State.losePort; simp only [holdLost_opt, modPort_opt, losePath_opt]
@[simp] theorem losePort_updateCmds {p : Nat} {k : Bool} : (s.losePort p k).updateCmds = s.updateCmds := by unfold State.losePort; simp only [holdLost_updateCmds, modPort_updateCmds, losePath_updateCmds]
@[simp] theorem losePort_tarn {p : Nat} {k : Bool} : (s.losePort p k).tarn = s.tarn := by unfold State.losePort; simp only [holdLost_tarn, modPort_tarn, losePath_tarn]
@[simp] theorem losePort_groups {p : Nat} {k : Bool} : (s.losePort p k).groups = s.groups := by unfold State.losePort; simp only [holdLost_groups, modPort_groups, losePath_groups]
@[simp] theorem losePort_buckets {p : Nat} {k : Bool} : (s.losePort p k).buckets = s.buckets := by unfold State.losePort; simp only [holdLost_buckets, modPort_buckets, losePath_buckets]
@[simp] theorem losePort_ovt {p : Nat} {k : Bool} : (s.losePort p k).ovt = s.ovt := by unfold State.losePort; simp only [holdLost_ovt, modPort_ovt, losePath_ovt]
@[simp] theorem losePort_clock {p : Nat} {k : Bool} : (s.losePort p k).clock = s.clock := by unfold State.losePort; simp only [holdLost_clock, modPort_clock, losePath_clock]
@[simp] theorem losePort_edges {p : Nat} {k : Bool} : (s.losePort p k).edges = s.edges := by unfold State.losePort; simp only [holdLost_edges, modPort_edges, losePath_edges]
@[simp] theorem losePort_host {p : Nat} {k : Bool} : (s.losePort p k).host = s.host := by unfold State.losePort; simp only [holdLost_host, modPort_host, losePath_host]
@[simp] theorem losePort_eth {p : Nat} {k : Bool} : (s.losePort p k).eth = s.eth := by unfold State.losePort; simp only [holdLost_eth, modPort_eth, losePath_port_eth]
@[simp] theorem losePort_err {p : Nat} {k : Bool} : (s.losePort p k).err = s.err := by unfold State.losePort; simp only [holdLost_err, modPort_err, losePath_err]
@[simp] theorem losePort_sec {p : Nat} {k : Bool} : (s.losePort p k).sec = s.sec := by unfold State.losePort; simp only [holdLost_sec, modPort_sec, losePath_sec]
@[simp] theorem losePort_power {p : Nat} {k : Bool} : (s.losePort p k).power = s.power := by unfold State.losePort; simp only [holdLost_power, modPort_power, losePath_power]
@[simp] theorem losePort_telem {p : Nat} {k : Bool} : (s.losePort p k).telem = s.telem := by unfold State.losePort; simp only [holdLost_telem, modPort_telem, losePath_telem]

/-! A session ends. -/

@[simp] theorem endSession_pending {p : Nat} : (s.endSession p).pending = s.pending := by unfold State.endSession; split <;> simp
@[simp] theorem endSession_fresh {p : Nat} : (s.endSession p).fresh = s.fresh := by unfold State.endSession; split <;> simp
@[simp] theorem endSession_strikes {p : Nat} : (s.endSession p).strikes = s.strikes := by unfold State.endSession; split <;> simp
@[simp] theorem endSession_boot {p : Nat} : (s.endSession p).boot = s.boot := by unfold State.endSession; split <;> simp
@[simp] theorem endSession_mbx {p : Nat} : (s.endSession p).mbx = s.mbx := by unfold State.endSession; split <;> simp
@[simp] theorem endSession_hbm {p : Nat} : (s.endSession p).hbm = s.hbm := by unfold State.endSession; split <;> simp
@[simp] theorem endSession_regions {p : Nat} : (s.endSession p).regions = s.regions := by unfold State.endSession; split <;> simp
@[simp] theorem endSession_opt {p : Nat} : (s.endSession p).opt = s.opt := by unfold State.endSession; split <;> simp
@[simp] theorem endSession_updateCmds {p : Nat} : (s.endSession p).updateCmds = s.updateCmds := by unfold State.endSession; split <;> simp
@[simp] theorem endSession_tarn {p : Nat} : (s.endSession p).tarn = s.tarn := by unfold State.endSession; split <;> simp
@[simp] theorem endSession_groups {p : Nat} : (s.endSession p).groups = s.groups := by unfold State.endSession; split <;> simp
@[simp] theorem endSession_buckets {p : Nat} : (s.endSession p).buckets = s.buckets := by unfold State.endSession; split <;> simp
@[simp] theorem endSession_ovt {p : Nat} : (s.endSession p).ovt = s.ovt := by unfold State.endSession; split <;> simp
@[simp] theorem endSession_clock {p : Nat} : (s.endSession p).clock = s.clock := by unfold State.endSession; split <;> simp
@[simp] theorem endSession_edges {p : Nat} : (s.endSession p).edges = s.edges := by unfold State.endSession; split <;> simp
@[simp] theorem endSession_host {p : Nat} : (s.endSession p).host = s.host := by unfold State.endSession; split <;> simp
@[simp] theorem endSession_eth {p : Nat} : (s.endSession p).eth = s.eth := by unfold State.endSession; split <;> simp
@[simp] theorem endSession_sec {p : Nat} : (s.endSession p).sec = s.sec := by unfold State.endSession; split <;> simp
@[simp] theorem endSession_power {p : Nat} : (s.endSession p).power = s.power := by unfold State.endSession; split <;> simp
@[simp] theorem endSession_telem {p : Nat} : (s.endSession p).telem = s.telem := by unfold State.endSession; split <;> simp

/-! A port enters TRAINING. -/

@[simp] theorem enterTraining_pending {p : Nat} : (s.enterTraining p).pending = s.pending := modPort_pending
@[simp] theorem enterTraining_out {p : Nat} : (s.enterTraining p).out = s.out := modPort_out
@[simp] theorem enterTraining_fresh {p : Nat} : (s.enterTraining p).fresh = s.fresh := modPort_fresh
@[simp] theorem enterTraining_strikes {p : Nat} : (s.enterTraining p).strikes = s.strikes := modPort_strikes
@[simp] theorem enterTraining_boot {p : Nat} : (s.enterTraining p).boot = s.boot := modPort_boot
@[simp] theorem enterTraining_irq {p : Nat} : (s.enterTraining p).irq = s.irq := modPort_irq
@[simp] theorem enterTraining_mbx {p : Nat} : (s.enterTraining p).mbx = s.mbx := modPort_mbx
@[simp] theorem enterTraining_cores {p : Nat} : (s.enterTraining p).cores = s.cores := modPort_cores
@[simp] theorem enterTraining_hbm {p : Nat} : (s.enterTraining p).hbm = s.hbm := modPort_hbm
@[simp] theorem enterTraining_regions {p : Nat} : (s.enterTraining p).regions = s.regions := modPort_regions
@[simp] theorem enterTraining_stage {p : Nat} : (s.enterTraining p).stage = s.stage := modPort_stage
@[simp] theorem enterTraining_opt {p : Nat} : (s.enterTraining p).opt = s.opt := modPort_opt
@[simp] theorem enterTraining_updateCmds {p : Nat} : (s.enterTraining p).updateCmds = s.updateCmds := modPort_updateCmds
@[simp] theorem enterTraining_tarn {p : Nat} : (s.enterTraining p).tarn = s.tarn := modPort_tarn
@[simp] theorem enterTraining_groups {p : Nat} : (s.enterTraining p).groups = s.groups := modPort_groups
@[simp] theorem enterTraining_buckets {p : Nat} : (s.enterTraining p).buckets = s.buckets := modPort_buckets
@[simp] theorem enterTraining_ovt {p : Nat} : (s.enterTraining p).ovt = s.ovt := modPort_ovt
@[simp] theorem enterTraining_net {p : Nat} : (s.enterTraining p).net = s.net := modPort_net
@[simp] theorem enterTraining_clock {p : Nat} : (s.enterTraining p).clock = s.clock := modPort_clock
@[simp] theorem enterTraining_edges {p : Nat} : (s.enterTraining p).edges = s.edges := modPort_edges
@[simp] theorem enterTraining_host {p : Nat} : (s.enterTraining p).host = s.host := modPort_host
@[simp] theorem enterTraining_eth {p : Nat} : (s.enterTraining p).eth = s.eth := modPort_eth
@[simp] theorem enterTraining_err {p : Nat} : (s.enterTraining p).err = s.err := modPort_err
@[simp] theorem enterTraining_sec {p : Nat} : (s.enterTraining p).sec = s.sec := modPort_sec
@[simp] theorem enterTraining_power {p : Nat} : (s.enterTraining p).power = s.power := modPort_power
@[simp] theorem enterTraining_telem {p : Nat} : (s.enterTraining p).telem = s.telem := modPort_telem

/-! A credit goes out. -/

@[simp] theorem sendCredit_pending {q i : Nat} {g : BitVec 16} : (s.sendCredit q i g).pending = s.pending := by unfold State.sendCredit; simp only []; (repeat' split) <;> simp
@[simp] theorem sendCredit_fresh {q i : Nat} {g : BitVec 16} : (s.sendCredit q i g).fresh = s.fresh := by unfold State.sendCredit; simp only []; (repeat' split) <;> simp
@[simp] theorem sendCredit_strikes {q i : Nat} {g : BitVec 16} : (s.sendCredit q i g).strikes = s.strikes := by unfold State.sendCredit; simp only []; (repeat' split) <;> simp
@[simp] theorem sendCredit_boot {q i : Nat} {g : BitVec 16} : (s.sendCredit q i g).boot = s.boot := by unfold State.sendCredit; simp only []; (repeat' split) <;> simp
@[simp] theorem sendCredit_irq {q i : Nat} {g : BitVec 16} : (s.sendCredit q i g).irq = s.irq := by unfold State.sendCredit; simp only []; (repeat' split) <;> simp
@[simp] theorem sendCredit_mbx {q i : Nat} {g : BitVec 16} : (s.sendCredit q i g).mbx = s.mbx := by unfold State.sendCredit; simp only []; (repeat' split) <;> simp
@[simp] theorem sendCredit_cores {q i : Nat} {g : BitVec 16} : (s.sendCredit q i g).cores = s.cores := by unfold State.sendCredit; simp only []; (repeat' split) <;> simp
@[simp] theorem sendCredit_hbm {q i : Nat} {g : BitVec 16} : (s.sendCredit q i g).hbm = s.hbm := by unfold State.sendCredit; simp only []; (repeat' split) <;> simp
@[simp] theorem sendCredit_regions {q i : Nat} {g : BitVec 16} : (s.sendCredit q i g).regions = s.regions := by unfold State.sendCredit; simp only []; (repeat' split) <;> simp
@[simp] theorem sendCredit_opt {q i : Nat} {g : BitVec 16} : (s.sendCredit q i g).opt = s.opt := by unfold State.sendCredit; simp only []; (repeat' split) <;> simp
@[simp] theorem sendCredit_updateCmds {q i : Nat} {g : BitVec 16} : (s.sendCredit q i g).updateCmds = s.updateCmds := by unfold State.sendCredit; simp only []; (repeat' split) <;> simp
@[simp] theorem sendCredit_tarn {q i : Nat} {g : BitVec 16} : (s.sendCredit q i g).tarn = s.tarn := by unfold State.sendCredit; simp only []; (repeat' split) <;> simp
@[simp] theorem sendCredit_groups {q i : Nat} {g : BitVec 16} : (s.sendCredit q i g).groups = s.groups := by unfold State.sendCredit; simp only []; (repeat' split) <;> simp
@[simp] theorem sendCredit_buckets {q i : Nat} {g : BitVec 16} : (s.sendCredit q i g).buckets = s.buckets := by unfold State.sendCredit; simp only []; (repeat' split) <;> simp
@[simp] theorem sendCredit_ovt {q i : Nat} {g : BitVec 16} : (s.sendCredit q i g).ovt = s.ovt := by unfold State.sendCredit; simp only []; (repeat' split) <;> simp
@[simp] theorem sendCredit_clock {q i : Nat} {g : BitVec 16} : (s.sendCredit q i g).clock = s.clock := by unfold State.sendCredit; simp only []; (repeat' split) <;> simp
@[simp] theorem sendCredit_edges {q i : Nat} {g : BitVec 16} : (s.sendCredit q i g).edges = s.edges := by unfold State.sendCredit; simp only []; (repeat' split) <;> simp
@[simp] theorem sendCredit_host {q i : Nat} {g : BitVec 16} : (s.sendCredit q i g).host = s.host := by unfold State.sendCredit; simp only []; (repeat' split) <;> simp
@[simp] theorem sendCredit_err {q i : Nat} {g : BitVec 16} : (s.sendCredit q i g).err = s.err := by unfold State.sendCredit; simp only []; (repeat' split) <;> simp
@[simp] theorem sendCredit_sec {q i : Nat} {g : BitVec 16} : (s.sendCredit q i g).sec = s.sec := by unfold State.sendCredit; simp only []; (repeat' split) <;> simp
@[simp] theorem sendCredit_power {q i : Nat} {g : BitVec 16} : (s.sendCredit q i g).power = s.power := by unfold State.sendCredit; simp only []; (repeat' split) <;> simp
@[simp] theorem sendCredit_telem {q i : Nat} {g : BitVec 16} : (s.sendCredit q i g).telem = s.telem := by unfold State.sendCredit; simp only []; (repeat' split) <;> simp

/-! Waits for an endpoint end. -/

@[simp] theorem wakeEndpoint_pending {p : Nat → Bool} : (s.wakeEndpoint p).pending = s.pending := by unfold State.wakeEndpoint; exact foldl_keeps (g := State.pending) (fun _ _ => modStarted_pending) _ _
@[simp] theorem wakeEndpoint_out {p : Nat → Bool} : (s.wakeEndpoint p).out = s.out := by unfold State.wakeEndpoint; exact foldl_keeps (g := State.out) (fun _ _ => modStarted_out) _ _
@[simp] theorem wakeEndpoint_fresh {p : Nat → Bool} : (s.wakeEndpoint p).fresh = s.fresh := by unfold State.wakeEndpoint; exact foldl_keeps (g := State.fresh) (fun _ _ => modStarted_fresh) _ _
@[simp] theorem wakeEndpoint_strikes {p : Nat → Bool} : (s.wakeEndpoint p).strikes = s.strikes := by unfold State.wakeEndpoint; exact foldl_keeps (g := State.strikes) (fun _ _ => modStarted_strikes) _ _
@[simp] theorem wakeEndpoint_boot {p : Nat → Bool} : (s.wakeEndpoint p).boot = s.boot := by unfold State.wakeEndpoint; exact foldl_keeps (g := State.boot) (fun _ _ => modStarted_boot) _ _
@[simp] theorem wakeEndpoint_irq {p : Nat → Bool} : (s.wakeEndpoint p).irq = s.irq := by unfold State.wakeEndpoint; exact foldl_keeps (g := State.irq) (fun _ _ => modStarted_irq) _ _
@[simp] theorem wakeEndpoint_mbx {p : Nat → Bool} : (s.wakeEndpoint p).mbx = s.mbx := by unfold State.wakeEndpoint; exact foldl_keeps (g := State.mbx) (fun _ _ => modStarted_mbx) _ _
@[simp] theorem wakeEndpoint_hbm {p : Nat → Bool} : (s.wakeEndpoint p).hbm = s.hbm := by unfold State.wakeEndpoint; exact foldl_keeps (g := State.hbm) (fun _ _ => modStarted_hbm) _ _
@[simp] theorem wakeEndpoint_regions {p : Nat → Bool} : (s.wakeEndpoint p).regions = s.regions := by unfold State.wakeEndpoint; exact foldl_keeps (g := State.regions) (fun _ _ => modStarted_regions) _ _
@[simp] theorem wakeEndpoint_stage {p : Nat → Bool} : (s.wakeEndpoint p).stage = s.stage := by unfold State.wakeEndpoint; exact foldl_keeps (g := State.stage) (fun _ _ => modStarted_stage) _ _
@[simp] theorem wakeEndpoint_opt {p : Nat → Bool} : (s.wakeEndpoint p).opt = s.opt := by unfold State.wakeEndpoint; exact foldl_keeps (g := State.opt) (fun _ _ => modStarted_opt) _ _
@[simp] theorem wakeEndpoint_updateCmds {p : Nat → Bool} : (s.wakeEndpoint p).updateCmds = s.updateCmds := by unfold State.wakeEndpoint; exact foldl_keeps (g := State.updateCmds) (fun _ _ => modStarted_updateCmds) _ _
@[simp] theorem wakeEndpoint_tarn {p : Nat → Bool} : (s.wakeEndpoint p).tarn = s.tarn := by unfold State.wakeEndpoint; exact foldl_keeps (g := State.tarn) (fun _ _ => modStarted_tarn) _ _
@[simp] theorem wakeEndpoint_groups {p : Nat → Bool} : (s.wakeEndpoint p).groups = s.groups := by unfold State.wakeEndpoint; exact foldl_keeps (g := State.groups) (fun _ _ => modStarted_groups) _ _
@[simp] theorem wakeEndpoint_buckets {p : Nat → Bool} : (s.wakeEndpoint p).buckets = s.buckets := by unfold State.wakeEndpoint; exact foldl_keeps (g := State.buckets) (fun _ _ => modStarted_buckets) _ _
@[simp] theorem wakeEndpoint_ovt {p : Nat → Bool} : (s.wakeEndpoint p).ovt = s.ovt := by unfold State.wakeEndpoint; exact foldl_keeps (g := State.ovt) (fun _ _ => modStarted_ovt) _ _
@[simp] theorem wakeEndpoint_fabric {p : Nat → Bool} : (s.wakeEndpoint p).fabric = s.fabric := by unfold State.wakeEndpoint; exact foldl_keeps (g := State.fabric) (fun _ _ => modStarted_fabric) _ _
@[simp] theorem wakeEndpoint_net {p : Nat → Bool} : (s.wakeEndpoint p).net = s.net := by unfold State.wakeEndpoint; exact foldl_keeps (g := State.net) (fun _ _ => modStarted_net) _ _
@[simp] theorem wakeEndpoint_clock {p : Nat → Bool} : (s.wakeEndpoint p).clock = s.clock := by unfold State.wakeEndpoint; exact foldl_keeps (g := State.clock) (fun _ _ => modStarted_clock) _ _
@[simp] theorem wakeEndpoint_edges {p : Nat → Bool} : (s.wakeEndpoint p).edges = s.edges := by unfold State.wakeEndpoint; exact foldl_keeps (g := State.edges) (fun _ _ => modStarted_edges) _ _
@[simp] theorem wakeEndpoint_host {p : Nat → Bool} : (s.wakeEndpoint p).host = s.host := by unfold State.wakeEndpoint; exact foldl_keeps (g := State.host) (fun _ _ => modStarted_host) _ _
@[simp] theorem wakeEndpoint_eth {p : Nat → Bool} : (s.wakeEndpoint p).eth = s.eth := by unfold State.wakeEndpoint; exact foldl_keeps (g := State.eth) (fun _ _ => modStarted_eth) _ _
@[simp] theorem wakeEndpoint_err {p : Nat → Bool} : (s.wakeEndpoint p).err = s.err := by unfold State.wakeEndpoint; exact foldl_keeps (g := State.err) (fun _ _ => modStarted_err) _ _
@[simp] theorem wakeEndpoint_sec {p : Nat → Bool} : (s.wakeEndpoint p).sec = s.sec := by unfold State.wakeEndpoint; exact foldl_keeps (g := State.sec) (fun _ _ => modStarted_sec) _ _
@[simp] theorem wakeEndpoint_power {p : Nat → Bool} : (s.wakeEndpoint p).power = s.power := by unfold State.wakeEndpoint; exact foldl_keeps (g := State.power) (fun _ _ => modStarted_power) _ _
@[simp] theorem wakeEndpoint_telem {p : Nat → Bool} : (s.wakeEndpoint p).telem = s.telem := by unfold State.wakeEndpoint; exact foldl_keeps (g := State.telem) (fun _ _ => modStarted_telem) _ _

/-! The held credits go out. -/

@[simp] theorem flushCredits_pending : (s.flushCredits).pending = s.pending := by unfold State.flushCredits; simp only [wakeEndpoint_pending]; exact foldl_keeps (g := State.pending) (fun _ _ => sendCredit_pending) _ _
@[simp] theorem flushCredits_fresh : (s.flushCredits).fresh = s.fresh := by unfold State.flushCredits; simp only [wakeEndpoint_fresh]; exact foldl_keeps (g := State.fresh) (fun _ _ => sendCredit_fresh) _ _
@[simp] theorem flushCredits_strikes : (s.flushCredits).strikes = s.strikes := by unfold State.flushCredits; simp only [wakeEndpoint_strikes]; exact foldl_keeps (g := State.strikes) (fun _ _ => sendCredit_strikes) _ _
@[simp] theorem flushCredits_boot : (s.flushCredits).boot = s.boot := by unfold State.flushCredits; simp only [wakeEndpoint_boot]; exact foldl_keeps (g := State.boot) (fun _ _ => sendCredit_boot) _ _
@[simp] theorem flushCredits_irq : (s.flushCredits).irq = s.irq := by unfold State.flushCredits; simp only [wakeEndpoint_irq]; exact foldl_keeps (g := State.irq) (fun _ _ => sendCredit_irq) _ _
@[simp] theorem flushCredits_mbx : (s.flushCredits).mbx = s.mbx := by unfold State.flushCredits; simp only [wakeEndpoint_mbx]; exact foldl_keeps (g := State.mbx) (fun _ _ => sendCredit_mbx) _ _
@[simp] theorem flushCredits_hbm : (s.flushCredits).hbm = s.hbm := by unfold State.flushCredits; simp only [wakeEndpoint_hbm]; exact foldl_keeps (g := State.hbm) (fun _ _ => sendCredit_hbm) _ _
@[simp] theorem flushCredits_regions : (s.flushCredits).regions = s.regions := by unfold State.flushCredits; simp only [wakeEndpoint_regions]; exact foldl_keeps (g := State.regions) (fun _ _ => sendCredit_regions) _ _
@[simp] theorem flushCredits_opt : (s.flushCredits).opt = s.opt := by unfold State.flushCredits; simp only [wakeEndpoint_opt]; exact foldl_keeps (g := State.opt) (fun _ _ => sendCredit_opt) _ _
@[simp] theorem flushCredits_updateCmds : (s.flushCredits).updateCmds = s.updateCmds := by unfold State.flushCredits; simp only [wakeEndpoint_updateCmds]; exact foldl_keeps (g := State.updateCmds) (fun _ _ => sendCredit_updateCmds) _ _
@[simp] theorem flushCredits_tarn : (s.flushCredits).tarn = s.tarn := by unfold State.flushCredits; simp only [wakeEndpoint_tarn]; exact foldl_keeps (g := State.tarn) (fun _ _ => sendCredit_tarn) _ _
@[simp] theorem flushCredits_groups : (s.flushCredits).groups = s.groups := by unfold State.flushCredits; simp only [wakeEndpoint_groups]; exact foldl_keeps (g := State.groups) (fun _ _ => sendCredit_groups) _ _
@[simp] theorem flushCredits_buckets : (s.flushCredits).buckets = s.buckets := by unfold State.flushCredits; simp only [wakeEndpoint_buckets]; exact foldl_keeps (g := State.buckets) (fun _ _ => sendCredit_buckets) _ _
@[simp] theorem flushCredits_ovt : (s.flushCredits).ovt = s.ovt := by unfold State.flushCredits; simp only [wakeEndpoint_ovt]; exact foldl_keeps (g := State.ovt) (fun _ _ => sendCredit_ovt) _ _
@[simp] theorem flushCredits_clock : (s.flushCredits).clock = s.clock := by unfold State.flushCredits; simp only [wakeEndpoint_clock]; exact foldl_keeps (g := State.clock) (fun _ _ => sendCredit_clock) _ _
@[simp] theorem flushCredits_edges : (s.flushCredits).edges = s.edges := by unfold State.flushCredits; simp only [wakeEndpoint_edges]; exact foldl_keeps (g := State.edges) (fun _ _ => sendCredit_edges) _ _
@[simp] theorem flushCredits_host : (s.flushCredits).host = s.host := by unfold State.flushCredits; simp only [wakeEndpoint_host]; exact foldl_keeps (g := State.host) (fun _ _ => sendCredit_host) _ _
@[simp] theorem flushCredits_err : (s.flushCredits).err = s.err := by unfold State.flushCredits; simp only [wakeEndpoint_err]; exact foldl_keeps (g := State.err) (fun _ _ => sendCredit_err) _ _
@[simp] theorem flushCredits_sec : (s.flushCredits).sec = s.sec := by unfold State.flushCredits; simp only [wakeEndpoint_sec]; exact foldl_keeps (g := State.sec) (fun _ _ => sendCredit_sec) _ _
@[simp] theorem flushCredits_power : (s.flushCredits).power = s.power := by unfold State.flushCredits; simp only [wakeEndpoint_power]; exact foldl_keeps (g := State.power) (fun _ _ => sendCredit_power) _ _
@[simp] theorem flushCredits_telem : (s.flushCredits).telem = s.telem := by unfold State.flushCredits; simp only [wakeEndpoint_telem]; exact foldl_keeps (g := State.telem) (fun _ _ => sendCredit_telem) _ _

/-! A connection's operations end. -/

@[simp] theorem loseConn_pending {c : Nat} : (s.loseConn c).pending = s.pending := by unfold State.loseConn; simp only [holdLost_pending, modConn_pending, losePath_pending]
@[simp] theorem loseConn_out {c : Nat} : (s.loseConn c).out = s.out := by unfold State.loseConn; simp only [holdLost_out, modConn_out, losePath_out]
@[simp] theorem loseConn_fresh {c : Nat} : (s.loseConn c).fresh = s.fresh := by unfold State.loseConn; simp only [holdLost_fresh, modConn_fresh, losePath_fresh]
@[simp] theorem loseConn_strikes {c : Nat} : (s.loseConn c).strikes = s.strikes := by unfold State.loseConn; simp only [holdLost_strikes, modConn_strikes, losePath_strikes]
@[simp] theorem loseConn_boot {c : Nat} : (s.loseConn c).boot = s.boot := by unfold State.loseConn; simp only [holdLost_boot, modConn_boot, losePath_boot]
@[simp] theorem loseConn_irq {c : Nat} : (s.loseConn c).irq = s.irq := by unfold State.loseConn; simp only [holdLost_irq, modConn_irq, losePath_irq]
@[simp] theorem loseConn_mbx {c : Nat} : (s.loseConn c).mbx = s.mbx := by unfold State.loseConn; simp only [holdLost_mbx, modConn_mbx, losePath_mbx]
@[simp] theorem loseConn_hbm {c : Nat} : (s.loseConn c).hbm = s.hbm := by unfold State.loseConn; simp only [holdLost_hbm, modConn_hbm, losePath_hbm]
@[simp] theorem loseConn_regions {c : Nat} : (s.loseConn c).regions = s.regions := by unfold State.loseConn; simp only [holdLost_regions, modConn_regions, losePath_regions]
@[simp] theorem loseConn_opt {c : Nat} : (s.loseConn c).opt = s.opt := by unfold State.loseConn; simp only [holdLost_opt, modConn_opt, losePath_opt]
@[simp] theorem loseConn_updateCmds {c : Nat} : (s.loseConn c).updateCmds = s.updateCmds := by unfold State.loseConn; simp only [holdLost_updateCmds, modConn_updateCmds, losePath_updateCmds]
@[simp] theorem loseConn_tarn {c : Nat} : (s.loseConn c).tarn = s.tarn := by unfold State.loseConn; simp only [holdLost_tarn, modConn_tarn, losePath_tarn]
@[simp] theorem loseConn_groups {c : Nat} : (s.loseConn c).groups = s.groups := by unfold State.loseConn; simp only [holdLost_groups, modConn_groups, losePath_groups]
@[simp] theorem loseConn_buckets {c : Nat} : (s.loseConn c).buckets = s.buckets := by unfold State.loseConn; simp only [holdLost_buckets, modConn_buckets, losePath_buckets]
@[simp] theorem loseConn_ovt {c : Nat} : (s.loseConn c).ovt = s.ovt := by unfold State.loseConn; simp only [holdLost_ovt, modConn_ovt, losePath_ovt]
@[simp] theorem loseConn_fabric {c : Nat} : (s.loseConn c).fabric = s.fabric := by unfold State.loseConn; simp only [holdLost_fabric, modConn_fabric, losePath_conn_fabric]
@[simp] theorem loseConn_clock {c : Nat} : (s.loseConn c).clock = s.clock := by unfold State.loseConn; simp only [holdLost_clock, modConn_clock, losePath_clock]
@[simp] theorem loseConn_edges {c : Nat} : (s.loseConn c).edges = s.edges := by unfold State.loseConn; simp only [holdLost_edges, modConn_edges, losePath_edges]
@[simp] theorem loseConn_host {c : Nat} : (s.loseConn c).host = s.host := by unfold State.loseConn; simp only [holdLost_host, modConn_host, losePath_host]
@[simp] theorem loseConn_err {c : Nat} : (s.loseConn c).err = s.err := by unfold State.loseConn; simp only [holdLost_err, modConn_err, losePath_err]
@[simp] theorem loseConn_sec {c : Nat} : (s.loseConn c).sec = s.sec := by unfold State.loseConn; simp only [holdLost_sec, modConn_sec, losePath_sec]
@[simp] theorem loseConn_power {c : Nat} : (s.loseConn c).power = s.power := by unfold State.loseConn; simp only [holdLost_power, modConn_power, losePath_power]
@[simp] theorem loseConn_telem {c : Nat} : (s.loseConn c).telem = s.telem := by unfold State.loseConn; simp only [holdLost_telem, modConn_telem, losePath_telem]

/-! An endpoint is cut off. -/

@[simp] theorem cutEndpoint_pending {i : Nat} {st : BitVec 16} : (s.cutEndpoint i st).pending = s.pending := by unfold State.cutEndpoint; simp only [wakeEndpoint_pending]; rw [foldl_keeps (g := State.pending) (fun _ _ => by split <;> simp)]; simp only [withdraw_pending]; exact foldl_keeps (g := State.pending) (fun _ _ => by split <;> simp) _ _
@[simp] theorem cutEndpoint_out {i : Nat} {st : BitVec 16} : (s.cutEndpoint i st).out = s.out := by unfold State.cutEndpoint; simp only [wakeEndpoint_out]; rw [foldl_keeps (g := State.out) (fun _ _ => by split <;> simp)]; simp only [withdraw_out]; exact foldl_keeps (g := State.out) (fun _ _ => by split <;> simp) _ _
@[simp] theorem cutEndpoint_fresh {i : Nat} {st : BitVec 16} : (s.cutEndpoint i st).fresh = s.fresh := by unfold State.cutEndpoint; simp only [wakeEndpoint_fresh]; rw [foldl_keeps (g := State.fresh) (fun _ _ => by split <;> simp)]; simp only [withdraw_fresh]; exact foldl_keeps (g := State.fresh) (fun _ _ => by split <;> simp) _ _
@[simp] theorem cutEndpoint_strikes {i : Nat} {st : BitVec 16} : (s.cutEndpoint i st).strikes = s.strikes := by unfold State.cutEndpoint; simp only [wakeEndpoint_strikes]; rw [foldl_keeps (g := State.strikes) (fun _ _ => by split <;> simp)]; simp only [withdraw_strikes]; exact foldl_keeps (g := State.strikes) (fun _ _ => by split <;> simp) _ _
@[simp] theorem cutEndpoint_boot {i : Nat} {st : BitVec 16} : (s.cutEndpoint i st).boot = s.boot := by unfold State.cutEndpoint; simp only [wakeEndpoint_boot]; rw [foldl_keeps (g := State.boot) (fun _ _ => by split <;> simp)]; simp only [withdraw_boot]; exact foldl_keeps (g := State.boot) (fun _ _ => by split <;> simp) _ _
@[simp] theorem cutEndpoint_irq {i : Nat} {st : BitVec 16} : (s.cutEndpoint i st).irq = s.irq := by unfold State.cutEndpoint; simp only [wakeEndpoint_irq]; rw [foldl_keeps (g := State.irq) (fun _ _ => by split <;> simp)]; simp only [withdraw_irq]; exact foldl_keeps (g := State.irq) (fun _ _ => by split <;> simp) _ _
@[simp] theorem cutEndpoint_mbx {i : Nat} {st : BitVec 16} : (s.cutEndpoint i st).mbx = s.mbx := by unfold State.cutEndpoint; simp only [wakeEndpoint_mbx]; rw [foldl_keeps (g := State.mbx) (fun _ _ => by split <;> simp)]; simp only [withdraw_mbx]; exact foldl_keeps (g := State.mbx) (fun _ _ => by split <;> simp) _ _
@[simp] theorem cutEndpoint_hbm {i : Nat} {st : BitVec 16} : (s.cutEndpoint i st).hbm = s.hbm := by unfold State.cutEndpoint; simp only [wakeEndpoint_hbm]; rw [foldl_keeps (g := State.hbm) (fun _ _ => by split <;> simp)]; simp only [withdraw_hbm]; exact foldl_keeps (g := State.hbm) (fun _ _ => by split <;> simp) _ _
@[simp] theorem cutEndpoint_regions {i : Nat} {st : BitVec 16} : (s.cutEndpoint i st).regions = s.regions := by unfold State.cutEndpoint; simp only [wakeEndpoint_regions]; rw [foldl_keeps (g := State.regions) (fun _ _ => by split <;> simp)]; simp only [withdraw_regions]; exact foldl_keeps (g := State.regions) (fun _ _ => by split <;> simp) _ _
@[simp] theorem cutEndpoint_stage {i : Nat} {st : BitVec 16} : (s.cutEndpoint i st).stage = s.stage := by unfold State.cutEndpoint; simp only [wakeEndpoint_stage]; rw [foldl_keeps (g := State.stage) (fun _ _ => by split <;> simp)]; simp only [withdraw_stage]; exact foldl_keeps (g := State.stage) (fun _ _ => by split <;> simp) _ _
@[simp] theorem cutEndpoint_opt {i : Nat} {st : BitVec 16} : (s.cutEndpoint i st).opt = s.opt := by unfold State.cutEndpoint; simp only [wakeEndpoint_opt]; rw [foldl_keeps (g := State.opt) (fun _ _ => by split <;> simp)]; simp only [withdraw_opt]; exact foldl_keeps (g := State.opt) (fun _ _ => by split <;> simp) _ _
@[simp] theorem cutEndpoint_updateCmds {i : Nat} {st : BitVec 16} : (s.cutEndpoint i st).updateCmds = s.updateCmds := by unfold State.cutEndpoint; simp only [wakeEndpoint_updateCmds]; rw [foldl_keeps (g := State.updateCmds) (fun _ _ => by split <;> simp)]; simp only [withdraw_updateCmds]; exact foldl_keeps (g := State.updateCmds) (fun _ _ => by split <;> simp) _ _
@[simp] theorem cutEndpoint_tarn {i : Nat} {st : BitVec 16} : (s.cutEndpoint i st).tarn = s.tarn := by unfold State.cutEndpoint; simp only [wakeEndpoint_tarn]; rw [foldl_keeps (g := State.tarn) (fun _ _ => by split <;> simp)]; simp only [withdraw_tarn]; exact foldl_keeps (g := State.tarn) (fun _ _ => by split <;> simp) _ _
@[simp] theorem cutEndpoint_groups {i : Nat} {st : BitVec 16} : (s.cutEndpoint i st).groups = s.groups := by unfold State.cutEndpoint; simp only [wakeEndpoint_groups]; rw [foldl_keeps (g := State.groups) (fun _ _ => by split <;> simp)]; simp only [withdraw_groups]; exact foldl_keeps (g := State.groups) (fun _ _ => by split <;> simp) _ _
@[simp] theorem cutEndpoint_buckets {i : Nat} {st : BitVec 16} : (s.cutEndpoint i st).buckets = s.buckets := by unfold State.cutEndpoint; simp only [wakeEndpoint_buckets]; rw [foldl_keeps (g := State.buckets) (fun _ _ => by split <;> simp)]; simp only [withdraw_buckets]; exact foldl_keeps (g := State.buckets) (fun _ _ => by split <;> simp) _ _
@[simp] theorem cutEndpoint_ovt {i : Nat} {st : BitVec 16} : (s.cutEndpoint i st).ovt = s.ovt := by unfold State.cutEndpoint; simp only [wakeEndpoint_ovt]; rw [foldl_keeps (g := State.ovt) (fun _ _ => by split <;> simp)]; simp only [withdraw_ovt]; exact foldl_keeps (g := State.ovt) (fun _ _ => by split <;> simp) _ _
@[simp] theorem cutEndpoint_clock {i : Nat} {st : BitVec 16} : (s.cutEndpoint i st).clock = s.clock := by unfold State.cutEndpoint; simp only [wakeEndpoint_clock]; rw [foldl_keeps (g := State.clock) (fun _ _ => by split <;> simp)]; simp only [withdraw_clock]; exact foldl_keeps (g := State.clock) (fun _ _ => by split <;> simp) _ _
@[simp] theorem cutEndpoint_edges {i : Nat} {st : BitVec 16} : (s.cutEndpoint i st).edges = s.edges := by unfold State.cutEndpoint; simp only [wakeEndpoint_edges]; rw [foldl_keeps (g := State.edges) (fun _ _ => by split <;> simp)]; simp only [withdraw_edges]; exact foldl_keeps (g := State.edges) (fun _ _ => by split <;> simp) _ _
@[simp] theorem cutEndpoint_host {i : Nat} {st : BitVec 16} : (s.cutEndpoint i st).host = s.host := by unfold State.cutEndpoint; simp only [wakeEndpoint_host]; rw [foldl_keeps (g := State.host) (fun _ _ => by split <;> simp)]; simp only [withdraw_host]; exact foldl_keeps (g := State.host) (fun _ _ => by split <;> simp) _ _
@[simp] theorem cutEndpoint_err {i : Nat} {st : BitVec 16} : (s.cutEndpoint i st).err = s.err := by unfold State.cutEndpoint; simp only [wakeEndpoint_err]; rw [foldl_keeps (g := State.err) (fun _ _ => by split <;> simp)]; simp only [withdraw_err]; exact foldl_keeps (g := State.err) (fun _ _ => by split <;> simp) _ _
@[simp] theorem cutEndpoint_sec {i : Nat} {st : BitVec 16} : (s.cutEndpoint i st).sec = s.sec := by unfold State.cutEndpoint; simp only [wakeEndpoint_sec]; rw [foldl_keeps (g := State.sec) (fun _ _ => by split <;> simp)]; simp only [withdraw_sec]; exact foldl_keeps (g := State.sec) (fun _ _ => by split <;> simp) _ _
@[simp] theorem cutEndpoint_power {i : Nat} {st : BitVec 16} : (s.cutEndpoint i st).power = s.power := by unfold State.cutEndpoint; simp only [wakeEndpoint_power]; rw [foldl_keeps (g := State.power) (fun _ _ => by split <;> simp)]; simp only [withdraw_power]; exact foldl_keeps (g := State.power) (fun _ _ => by split <;> simp) _ _
@[simp] theorem cutEndpoint_telem {i : Nat} {st : BitVec 16} : (s.cutEndpoint i st).telem = s.telem := by unfold State.cutEndpoint; simp only [wakeEndpoint_telem]; rw [foldl_keeps (g := State.telem) (fun _ _ => by split <;> simp)]; simp only [withdraw_telem]; exact foldl_keeps (g := State.telem) (fun _ _ => by split <;> simp) _ _

/-! An endpoint is judged. -/

@[simp] theorem judgeEndpoint_pending {i : Nat} : (s.judgeEndpoint i).pending = s.pending := by unfold State.judgeEndpoint; simp only []; (repeat' split) <;> simp
@[simp] theorem judgeEndpoint_fresh {i : Nat} : (s.judgeEndpoint i).fresh = s.fresh := by unfold State.judgeEndpoint; simp only []; (repeat' split) <;> simp
@[simp] theorem judgeEndpoint_strikes {i : Nat} : (s.judgeEndpoint i).strikes = s.strikes := by unfold State.judgeEndpoint; simp only []; (repeat' split) <;> simp
@[simp] theorem judgeEndpoint_boot {i : Nat} : (s.judgeEndpoint i).boot = s.boot := by unfold State.judgeEndpoint; simp only []; (repeat' split) <;> simp
@[simp] theorem judgeEndpoint_mbx {i : Nat} : (s.judgeEndpoint i).mbx = s.mbx := by unfold State.judgeEndpoint; simp only []; (repeat' split) <;> simp
@[simp] theorem judgeEndpoint_hbm {i : Nat} : (s.judgeEndpoint i).hbm = s.hbm := by unfold State.judgeEndpoint; simp only []; (repeat' split) <;> simp
@[simp] theorem judgeEndpoint_regions {i : Nat} : (s.judgeEndpoint i).regions = s.regions := by unfold State.judgeEndpoint; simp only []; (repeat' split) <;> simp
@[simp] theorem judgeEndpoint_stage {i : Nat} : (s.judgeEndpoint i).stage = s.stage := by unfold State.judgeEndpoint; simp only []; (repeat' split) <;> simp
@[simp] theorem judgeEndpoint_opt {i : Nat} : (s.judgeEndpoint i).opt = s.opt := by unfold State.judgeEndpoint; simp only []; (repeat' split) <;> simp
@[simp] theorem judgeEndpoint_updateCmds {i : Nat} : (s.judgeEndpoint i).updateCmds = s.updateCmds := by unfold State.judgeEndpoint; simp only []; (repeat' split) <;> simp
@[simp] theorem judgeEndpoint_tarn {i : Nat} : (s.judgeEndpoint i).tarn = s.tarn := by unfold State.judgeEndpoint; simp only []; (repeat' split) <;> simp
@[simp] theorem judgeEndpoint_groups {i : Nat} : (s.judgeEndpoint i).groups = s.groups := by unfold State.judgeEndpoint; simp only []; (repeat' split) <;> simp
@[simp] theorem judgeEndpoint_buckets {i : Nat} : (s.judgeEndpoint i).buckets = s.buckets := by unfold State.judgeEndpoint; simp only []; (repeat' split) <;> simp
@[simp] theorem judgeEndpoint_ovt {i : Nat} : (s.judgeEndpoint i).ovt = s.ovt := by unfold State.judgeEndpoint; simp only []; (repeat' split) <;> simp
@[simp] theorem judgeEndpoint_clock {i : Nat} : (s.judgeEndpoint i).clock = s.clock := by unfold State.judgeEndpoint; simp only []; (repeat' split) <;> simp
@[simp] theorem judgeEndpoint_edges {i : Nat} : (s.judgeEndpoint i).edges = s.edges := by unfold State.judgeEndpoint; simp only []; (repeat' split) <;> simp
@[simp] theorem judgeEndpoint_host {i : Nat} : (s.judgeEndpoint i).host = s.host := by unfold State.judgeEndpoint; simp only []; (repeat' split) <;> simp
@[simp] theorem judgeEndpoint_sec {i : Nat} : (s.judgeEndpoint i).sec = s.sec := by unfold State.judgeEndpoint; simp only []; (repeat' split) <;> simp
@[simp] theorem judgeEndpoint_power {i : Nat} : (s.judgeEndpoint i).power = s.power := by unfold State.judgeEndpoint; simp only []; (repeat' split) <;> simp
@[simp] theorem judgeEndpoint_telem {i : Nat} : (s.judgeEndpoint i).telem = s.telem := by unfold State.judgeEndpoint; simp only []; (repeat' split) <;> simp

/-! Every endpoint is judged. -/

@[simp] theorem judgeAll_pending : (s.judgeAll).pending = s.pending := foldl_keeps (g := State.pending) (fun _ _ => judgeEndpoint_pending) _ _
@[simp] theorem judgeAll_fresh : (s.judgeAll).fresh = s.fresh := foldl_keeps (g := State.fresh) (fun _ _ => judgeEndpoint_fresh) _ _
@[simp] theorem judgeAll_strikes : (s.judgeAll).strikes = s.strikes := foldl_keeps (g := State.strikes) (fun _ _ => judgeEndpoint_strikes) _ _
@[simp] theorem judgeAll_boot : (s.judgeAll).boot = s.boot := foldl_keeps (g := State.boot) (fun _ _ => judgeEndpoint_boot) _ _
@[simp] theorem judgeAll_mbx : (s.judgeAll).mbx = s.mbx := foldl_keeps (g := State.mbx) (fun _ _ => judgeEndpoint_mbx) _ _
@[simp] theorem judgeAll_hbm : (s.judgeAll).hbm = s.hbm := foldl_keeps (g := State.hbm) (fun _ _ => judgeEndpoint_hbm) _ _
@[simp] theorem judgeAll_regions : (s.judgeAll).regions = s.regions := foldl_keeps (g := State.regions) (fun _ _ => judgeEndpoint_regions) _ _
@[simp] theorem judgeAll_stage : (s.judgeAll).stage = s.stage := foldl_keeps (g := State.stage) (fun _ _ => judgeEndpoint_stage) _ _
@[simp] theorem judgeAll_opt : (s.judgeAll).opt = s.opt := foldl_keeps (g := State.opt) (fun _ _ => judgeEndpoint_opt) _ _
@[simp] theorem judgeAll_updateCmds : (s.judgeAll).updateCmds = s.updateCmds := foldl_keeps (g := State.updateCmds) (fun _ _ => judgeEndpoint_updateCmds) _ _
@[simp] theorem judgeAll_tarn : (s.judgeAll).tarn = s.tarn := foldl_keeps (g := State.tarn) (fun _ _ => judgeEndpoint_tarn) _ _
@[simp] theorem judgeAll_groups : (s.judgeAll).groups = s.groups := foldl_keeps (g := State.groups) (fun _ _ => judgeEndpoint_groups) _ _
@[simp] theorem judgeAll_buckets : (s.judgeAll).buckets = s.buckets := foldl_keeps (g := State.buckets) (fun _ _ => judgeEndpoint_buckets) _ _
@[simp] theorem judgeAll_ovt : (s.judgeAll).ovt = s.ovt := foldl_keeps (g := State.ovt) (fun _ _ => judgeEndpoint_ovt) _ _
@[simp] theorem judgeAll_clock : (s.judgeAll).clock = s.clock := foldl_keeps (g := State.clock) (fun _ _ => judgeEndpoint_clock) _ _
@[simp] theorem judgeAll_edges : (s.judgeAll).edges = s.edges := foldl_keeps (g := State.edges) (fun _ _ => judgeEndpoint_edges) _ _
@[simp] theorem judgeAll_host : (s.judgeAll).host = s.host := foldl_keeps (g := State.host) (fun _ _ => judgeEndpoint_host) _ _
@[simp] theorem judgeAll_sec : (s.judgeAll).sec = s.sec := foldl_keeps (g := State.sec) (fun _ _ => judgeEndpoint_sec) _ _
@[simp] theorem judgeAll_power : (s.judgeAll).power = s.power := foldl_keeps (g := State.power) (fun _ _ => judgeEndpoint_power) _ _
@[simp] theorem judgeAll_telem : (s.judgeAll).telem = s.telem := foldl_keeps (g := State.telem) (fun _ _ => judgeEndpoint_telem) _ _

/-! An adoption is noted. -/

@[simp] theorem noteAdoption_pending {p : Nat} : (s.noteAdoption p).pending = s.pending := by unfold State.noteAdoption; simp only []; split <;> simp
@[simp] theorem noteAdoption_fresh {p : Nat} : (s.noteAdoption p).fresh = s.fresh := by unfold State.noteAdoption; simp only []; split <;> simp
@[simp] theorem noteAdoption_strikes {p : Nat} : (s.noteAdoption p).strikes = s.strikes := by unfold State.noteAdoption; simp only []; split <;> simp
@[simp] theorem noteAdoption_boot {p : Nat} : (s.noteAdoption p).boot = s.boot := by unfold State.noteAdoption; simp only []; split <;> simp
@[simp] theorem noteAdoption_mbx {p : Nat} : (s.noteAdoption p).mbx = s.mbx := by unfold State.noteAdoption; simp only []; split <;> simp
@[simp] theorem noteAdoption_cores {p : Nat} : (s.noteAdoption p).cores = s.cores := by unfold State.noteAdoption; simp only []; split <;> simp
@[simp] theorem noteAdoption_hbm {p : Nat} : (s.noteAdoption p).hbm = s.hbm := by unfold State.noteAdoption; simp only []; split <;> simp
@[simp] theorem noteAdoption_regions {p : Nat} : (s.noteAdoption p).regions = s.regions := by unfold State.noteAdoption; simp only []; split <;> simp
@[simp] theorem noteAdoption_stage {p : Nat} : (s.noteAdoption p).stage = s.stage := by unfold State.noteAdoption; simp only []; split <;> simp
@[simp] theorem noteAdoption_opt {p : Nat} : (s.noteAdoption p).opt = s.opt := by unfold State.noteAdoption; simp only []; split <;> simp
@[simp] theorem noteAdoption_updateCmds {p : Nat} : (s.noteAdoption p).updateCmds = s.updateCmds := by unfold State.noteAdoption; simp only []; split <;> simp
@[simp] theorem noteAdoption_tarn {p : Nat} : (s.noteAdoption p).tarn = s.tarn := by unfold State.noteAdoption; simp only []; split <;> simp
@[simp] theorem noteAdoption_groups {p : Nat} : (s.noteAdoption p).groups = s.groups := by unfold State.noteAdoption; simp only []; split <;> simp
@[simp] theorem noteAdoption_buckets {p : Nat} : (s.noteAdoption p).buckets = s.buckets := by unfold State.noteAdoption; simp only []; split <;> simp
@[simp] theorem noteAdoption_ovt {p : Nat} : (s.noteAdoption p).ovt = s.ovt := by unfold State.noteAdoption; simp only []; split <;> simp
@[simp] theorem noteAdoption_net {p : Nat} : (s.noteAdoption p).net = s.net := by unfold State.noteAdoption; simp only []; split <;> simp
@[simp] theorem noteAdoption_clock {p : Nat} : (s.noteAdoption p).clock = s.clock := by unfold State.noteAdoption; simp only []; split <;> simp
@[simp] theorem noteAdoption_edges {p : Nat} : (s.noteAdoption p).edges = s.edges := by unfold State.noteAdoption; simp only []; split <;> simp
@[simp] theorem noteAdoption_host {p : Nat} : (s.noteAdoption p).host = s.host := by unfold State.noteAdoption; simp only []; split <;> simp
@[simp] theorem noteAdoption_eth {p : Nat} : (s.noteAdoption p).eth = s.eth := by unfold State.noteAdoption; simp only []; split <;> simp
@[simp] theorem noteAdoption_sec {p : Nat} : (s.noteAdoption p).sec = s.sec := by unfold State.noteAdoption; simp only []; split <;> simp
@[simp] theorem noteAdoption_power {p : Nat} : (s.noteAdoption p).power = s.power := by unfold State.noteAdoption; simp only []; split <;> simp
@[simp] theorem noteAdoption_telem {p : Nat} : (s.noteAdoption p).telem = s.telem := by unfold State.noteAdoption; simp only []; split <;> simp

/-! Different roots are noted. -/

@[simp] theorem noteRoots_boot {l : List (BitVec 48)} : (noteRoots l s).boot = s.boot := by unfold noteRoots; simp only []; split <;> simp
@[simp] theorem noteRoots_pending {l : List (BitVec 48)} : (noteRoots l s).pending = s.pending := by unfold noteRoots; simp only []; split <;> simp
@[simp] theorem noteRoots_fresh {l : List (BitVec 48)} : (noteRoots l s).fresh = s.fresh := by unfold noteRoots; simp only []; split <;> simp
@[simp] theorem noteRoots_strikes {l : List (BitVec 48)} : (noteRoots l s).strikes = s.strikes := by unfold noteRoots; simp only []; split <;> simp
@[simp] theorem noteRoots_mbx {l : List (BitVec 48)} : (noteRoots l s).mbx = s.mbx := by unfold noteRoots; simp only []; split <;> simp
@[simp] theorem noteRoots_cores {l : List (BitVec 48)} : (noteRoots l s).cores = s.cores := by unfold noteRoots; simp only []; split <;> simp
@[simp] theorem noteRoots_hbm {l : List (BitVec 48)} : (noteRoots l s).hbm = s.hbm := by unfold noteRoots; simp only []; split <;> simp
@[simp] theorem noteRoots_regions {l : List (BitVec 48)} : (noteRoots l s).regions = s.regions := by unfold noteRoots; simp only []; split <;> simp
@[simp] theorem noteRoots_stage {l : List (BitVec 48)} : (noteRoots l s).stage = s.stage := by unfold noteRoots; simp only []; split <;> simp
@[simp] theorem noteRoots_opt {l : List (BitVec 48)} : (noteRoots l s).opt = s.opt := by unfold noteRoots; simp only []; split <;> simp
@[simp] theorem noteRoots_updateCmds {l : List (BitVec 48)} : (noteRoots l s).updateCmds = s.updateCmds := by unfold noteRoots; simp only []; split <;> simp
@[simp] theorem noteRoots_tarn {l : List (BitVec 48)} : (noteRoots l s).tarn = s.tarn := by unfold noteRoots; simp only []; split <;> simp
@[simp] theorem noteRoots_groups {l : List (BitVec 48)} : (noteRoots l s).groups = s.groups := by unfold noteRoots; simp only []; split <;> simp
@[simp] theorem noteRoots_buckets {l : List (BitVec 48)} : (noteRoots l s).buckets = s.buckets := by unfold noteRoots; simp only []; split <;> simp
@[simp] theorem noteRoots_ovt {l : List (BitVec 48)} : (noteRoots l s).ovt = s.ovt := by unfold noteRoots; simp only []; split <;> simp
@[simp] theorem noteRoots_fabric {l : List (BitVec 48)} : (noteRoots l s).fabric = s.fabric := by unfold noteRoots; simp only []; split <;> simp
@[simp] theorem noteRoots_net {l : List (BitVec 48)} : (noteRoots l s).net = s.net := by unfold noteRoots; simp only []; split <;> simp
@[simp] theorem noteRoots_clock {l : List (BitVec 48)} : (noteRoots l s).clock = s.clock := by unfold noteRoots; simp only []; split <;> simp
@[simp] theorem noteRoots_edges {l : List (BitVec 48)} : (noteRoots l s).edges = s.edges := by unfold noteRoots; simp only []; split <;> simp
@[simp] theorem noteRoots_host {l : List (BitVec 48)} : (noteRoots l s).host = s.host := by unfold noteRoots; simp only []; split <;> simp
@[simp] theorem noteRoots_eth {l : List (BitVec 48)} : (noteRoots l s).eth = s.eth := by unfold noteRoots; simp only []; split <;> simp
@[simp] theorem noteRoots_sec {l : List (BitVec 48)} : (noteRoots l s).sec = s.sec := by unfold noteRoots; simp only []; split <;> simp
@[simp] theorem noteRoots_power {l : List (BitVec 48)} : (noteRoots l s).power = s.power := by unfold noteRoots; simp only []; split <;> simp
@[simp] theorem noteRoots_telem {l : List (BitVec 48)} : (noteRoots l s).telem = s.telem := by unfold noteRoots; simp only []; split <;> simp

/-! Frames are sent again. -/

@[simp] theorem replayFrames_pending {p : Nat} : (replayFrames s p).pending = s.pending := by unfold replayFrames; simp only []; (repeat' split) <;> first | (simp; done) | (rw [foldl_keeps (g := State.pending) (fun _ _ => emit_pending)]; simp)
@[simp] theorem replayFrames_fresh {p : Nat} : (replayFrames s p).fresh = s.fresh := by unfold replayFrames; simp only []; (repeat' split) <;> first | (simp; done) | (rw [foldl_keeps (g := State.fresh) (fun _ _ => emit_fresh)]; simp)
@[simp] theorem replayFrames_strikes {p : Nat} : (replayFrames s p).strikes = s.strikes := by unfold replayFrames; simp only []; (repeat' split) <;> first | (simp; done) | (rw [foldl_keeps (g := State.strikes) (fun _ _ => emit_strikes)]; simp)
@[simp] theorem replayFrames_boot {p : Nat} : (replayFrames s p).boot = s.boot := by unfold replayFrames; simp only []; (repeat' split) <;> first | (simp; done) | (rw [foldl_keeps (g := State.boot) (fun _ _ => emit_boot)]; simp)
@[simp] theorem replayFrames_irq {p : Nat} : (replayFrames s p).irq = s.irq := by unfold replayFrames; simp only []; (repeat' split) <;> first | (simp; done) | (rw [foldl_keeps (g := State.irq) (fun _ _ => emit_irq)]; simp)
@[simp] theorem replayFrames_mbx {p : Nat} : (replayFrames s p).mbx = s.mbx := by unfold replayFrames; simp only []; (repeat' split) <;> first | (simp; done) | (rw [foldl_keeps (g := State.mbx) (fun _ _ => emit_mbx)]; simp)
@[simp] theorem replayFrames_cores {p : Nat} : (replayFrames s p).cores = s.cores := by unfold replayFrames; simp only []; (repeat' split) <;> first | (simp; done) | (rw [foldl_keeps (g := State.cores) (fun _ _ => emit_cores)]; simp)
@[simp] theorem replayFrames_hbm {p : Nat} : (replayFrames s p).hbm = s.hbm := by unfold replayFrames; simp only []; (repeat' split) <;> first | (simp; done) | (rw [foldl_keeps (g := State.hbm) (fun _ _ => emit_hbm)]; simp)
@[simp] theorem replayFrames_regions {p : Nat} : (replayFrames s p).regions = s.regions := by unfold replayFrames; simp only []; (repeat' split) <;> first | (simp; done) | (rw [foldl_keeps (g := State.regions) (fun _ _ => emit_regions)]; simp)
@[simp] theorem replayFrames_stage {p : Nat} : (replayFrames s p).stage = s.stage := by unfold replayFrames; simp only []; (repeat' split) <;> first | (simp; done) | (rw [foldl_keeps (g := State.stage) (fun _ _ => emit_stage)]; simp)
@[simp] theorem replayFrames_opt {p : Nat} : (replayFrames s p).opt = s.opt := by unfold replayFrames; simp only []; (repeat' split) <;> first | (simp; done) | (rw [foldl_keeps (g := State.opt) (fun _ _ => emit_opt)]; simp)
@[simp] theorem replayFrames_updateCmds {p : Nat} : (replayFrames s p).updateCmds = s.updateCmds := by unfold replayFrames; simp only []; (repeat' split) <;> first | (simp; done) | (rw [foldl_keeps (g := State.updateCmds) (fun _ _ => emit_updateCmds)]; simp)
@[simp] theorem replayFrames_tarn {p : Nat} : (replayFrames s p).tarn = s.tarn := by unfold replayFrames; simp only []; (repeat' split) <;> first | (simp; done) | (rw [foldl_keeps (g := State.tarn) (fun _ _ => emit_tarn)]; simp)
@[simp] theorem replayFrames_groups {p : Nat} : (replayFrames s p).groups = s.groups := by unfold replayFrames; simp only []; (repeat' split) <;> first | (simp; done) | (rw [foldl_keeps (g := State.groups) (fun _ _ => emit_groups)]; simp)
@[simp] theorem replayFrames_buckets {p : Nat} : (replayFrames s p).buckets = s.buckets := by unfold replayFrames; simp only []; (repeat' split) <;> first | (simp; done) | (rw [foldl_keeps (g := State.buckets) (fun _ _ => emit_buckets)]; simp)
@[simp] theorem replayFrames_ovt {p : Nat} : (replayFrames s p).ovt = s.ovt := by unfold replayFrames; simp only []; (repeat' split) <;> first | (simp; done) | (rw [foldl_keeps (g := State.ovt) (fun _ _ => emit_ovt)]; simp)
@[simp] theorem replayFrames_clock {p : Nat} : (replayFrames s p).clock = s.clock := by unfold replayFrames; simp only []; (repeat' split) <;> first | (simp; done) | (rw [foldl_keeps (g := State.clock) (fun _ _ => emit_clock)]; simp)
@[simp] theorem replayFrames_edges {p : Nat} : (replayFrames s p).edges = s.edges := by unfold replayFrames; simp only []; (repeat' split) <;> first | (simp; done) | (rw [foldl_keeps (g := State.edges) (fun _ _ => emit_edges)]; simp)
@[simp] theorem replayFrames_host {p : Nat} : (replayFrames s p).host = s.host := by unfold replayFrames; simp only []; (repeat' split) <;> first | (simp; done) | (rw [foldl_keeps (g := State.host) (fun _ _ => emit_host)]; simp)
@[simp] theorem replayFrames_eth {p : Nat} : (replayFrames s p).eth = s.eth := by unfold replayFrames; simp only []; (repeat' split) <;> first | (simp; done) | (rw [foldl_keeps (g := State.eth) (fun _ _ => emit_eth)]; simp)
@[simp] theorem replayFrames_err {p : Nat} : (replayFrames s p).err = s.err := by unfold replayFrames; simp only []; (repeat' split) <;> first | (simp; done) | (rw [foldl_keeps (g := State.err) (fun _ _ => emit_err)]; simp)
@[simp] theorem replayFrames_sec {p : Nat} : (replayFrames s p).sec = s.sec := by unfold replayFrames; simp only []; (repeat' split) <;> first | (simp; done) | (rw [foldl_keeps (g := State.sec) (fun _ _ => emit_sec)]; simp)
@[simp] theorem replayFrames_power {p : Nat} : (replayFrames s p).power = s.power := by unfold replayFrames; simp only []; (repeat' split) <;> first | (simp; done) | (rw [foldl_keeps (g := State.power) (fun _ _ => emit_power)]; simp)
@[simp] theorem replayFrames_telem {p : Nat} : (replayFrames s p).telem = s.telem := by unfold replayFrames; simp only []; (repeat' split) <;> first | (simp; done) | (rw [foldl_keeps (g := State.telem) (fun _ _ => emit_telem)]; simp)

/-! A port enters its target state. -/

@[simp] theorem enterTarget_pending {p : Nat} : (s.enterTarget p).pending = s.pending := by unfold State.enterTarget; simp only []; (repeat' split) <;> simp
@[simp] theorem enterTarget_fresh {p : Nat} : (s.enterTarget p).fresh = s.fresh := by unfold State.enterTarget; simp only []; (repeat' split) <;> simp
@[simp] theorem enterTarget_strikes {p : Nat} : (s.enterTarget p).strikes = s.strikes := by unfold State.enterTarget; simp only []; (repeat' split) <;> simp
@[simp] theorem enterTarget_boot {p : Nat} : (s.enterTarget p).boot = s.boot := by unfold State.enterTarget; simp only []; (repeat' split) <;> simp
@[simp] theorem enterTarget_mbx {p : Nat} : (s.enterTarget p).mbx = s.mbx := by unfold State.enterTarget; simp only []; (repeat' split) <;> simp
@[simp] theorem enterTarget_cores {p : Nat} : (s.enterTarget p).cores = s.cores := by unfold State.enterTarget; simp only []; (repeat' split) <;> simp
@[simp] theorem enterTarget_hbm {p : Nat} : (s.enterTarget p).hbm = s.hbm := by unfold State.enterTarget; simp only []; (repeat' split) <;> simp
@[simp] theorem enterTarget_regions {p : Nat} : (s.enterTarget p).regions = s.regions := by unfold State.enterTarget; simp only []; (repeat' split) <;> simp
@[simp] theorem enterTarget_stage {p : Nat} : (s.enterTarget p).stage = s.stage := by unfold State.enterTarget; simp only []; (repeat' split) <;> simp
@[simp] theorem enterTarget_opt {p : Nat} : (s.enterTarget p).opt = s.opt := by unfold State.enterTarget; simp only []; (repeat' split) <;> simp
@[simp] theorem enterTarget_updateCmds {p : Nat} : (s.enterTarget p).updateCmds = s.updateCmds := by unfold State.enterTarget; simp only []; (repeat' split) <;> simp
@[simp] theorem enterTarget_tarn {p : Nat} : (s.enterTarget p).tarn = s.tarn := by unfold State.enterTarget; simp only []; (repeat' split) <;> simp
@[simp] theorem enterTarget_groups {p : Nat} : (s.enterTarget p).groups = s.groups := by unfold State.enterTarget; simp only []; (repeat' split) <;> simp
@[simp] theorem enterTarget_buckets {p : Nat} : (s.enterTarget p).buckets = s.buckets := by unfold State.enterTarget; simp only []; (repeat' split) <;> simp
@[simp] theorem enterTarget_ovt {p : Nat} : (s.enterTarget p).ovt = s.ovt := by unfold State.enterTarget; simp only []; (repeat' split) <;> simp
@[simp] theorem enterTarget_clock {p : Nat} : (s.enterTarget p).clock = s.clock := by unfold State.enterTarget; simp only []; (repeat' split) <;> simp
@[simp] theorem enterTarget_edges {p : Nat} : (s.enterTarget p).edges = s.edges := by unfold State.enterTarget; simp only []; (repeat' split) <;> simp
@[simp] theorem enterTarget_host {p : Nat} : (s.enterTarget p).host = s.host := by unfold State.enterTarget; simp only []; (repeat' split) <;> simp
@[simp] theorem enterTarget_eth {p : Nat} : (s.enterTarget p).eth = s.eth := by unfold State.enterTarget; simp only []; (repeat' split) <;> simp
@[simp] theorem enterTarget_sec {p : Nat} : (s.enterTarget p).sec = s.sec := by unfold State.enterTarget; simp only []; (repeat' split) <;> simp
@[simp] theorem enterTarget_power {p : Nat} : (s.enterTarget p).power = s.power := by unfold State.enterTarget; simp only []; (repeat' split) <;> simp
@[simp] theorem enterTarget_telem {p : Nat} : (s.enterTarget p).telem = s.telem := by unfold State.enterTarget; simp only []; (repeat' split) <;> simp

/-! A port is settled. -/

@[simp] theorem settlePort_pending {p : Nat} : (s.settlePort p).pending = s.pending := by unfold State.settlePort; simp only []; (repeat' split) <;> simp
@[simp] theorem settlePort_fresh {p : Nat} : (s.settlePort p).fresh = s.fresh := by unfold State.settlePort; simp only []; (repeat' split) <;> simp
@[simp] theorem settlePort_strikes {p : Nat} : (s.settlePort p).strikes = s.strikes := by unfold State.settlePort; simp only []; (repeat' split) <;> simp
@[simp] theorem settlePort_boot {p : Nat} : (s.settlePort p).boot = s.boot := by unfold State.settlePort; simp only []; (repeat' split) <;> simp
@[simp] theorem settlePort_mbx {p : Nat} : (s.settlePort p).mbx = s.mbx := by unfold State.settlePort; simp only []; (repeat' split) <;> simp
@[simp] theorem settlePort_hbm {p : Nat} : (s.settlePort p).hbm = s.hbm := by unfold State.settlePort; simp only []; (repeat' split) <;> simp
@[simp] theorem settlePort_regions {p : Nat} : (s.settlePort p).regions = s.regions := by unfold State.settlePort; simp only []; (repeat' split) <;> simp
@[simp] theorem settlePort_opt {p : Nat} : (s.settlePort p).opt = s.opt := by unfold State.settlePort; simp only []; (repeat' split) <;> simp
@[simp] theorem settlePort_updateCmds {p : Nat} : (s.settlePort p).updateCmds = s.updateCmds := by unfold State.settlePort; simp only []; (repeat' split) <;> simp
@[simp] theorem settlePort_tarn {p : Nat} : (s.settlePort p).tarn = s.tarn := by unfold State.settlePort; simp only []; (repeat' split) <;> simp
@[simp] theorem settlePort_groups {p : Nat} : (s.settlePort p).groups = s.groups := by unfold State.settlePort; simp only []; (repeat' split) <;> simp
@[simp] theorem settlePort_buckets {p : Nat} : (s.settlePort p).buckets = s.buckets := by unfold State.settlePort; simp only []; (repeat' split) <;> simp
@[simp] theorem settlePort_ovt {p : Nat} : (s.settlePort p).ovt = s.ovt := by unfold State.settlePort; simp only []; (repeat' split) <;> simp
@[simp] theorem settlePort_clock {p : Nat} : (s.settlePort p).clock = s.clock := by unfold State.settlePort; simp only []; (repeat' split) <;> simp
@[simp] theorem settlePort_edges {p : Nat} : (s.settlePort p).edges = s.edges := by unfold State.settlePort; simp only []; (repeat' split) <;> simp
@[simp] theorem settlePort_host {p : Nat} : (s.settlePort p).host = s.host := by unfold State.settlePort; simp only []; (repeat' split) <;> simp
@[simp] theorem settlePort_eth {p : Nat} : (s.settlePort p).eth = s.eth := by unfold State.settlePort; simp only []; (repeat' split) <;> simp
@[simp] theorem settlePort_sec {p : Nat} : (s.settlePort p).sec = s.sec := by unfold State.settlePort; simp only []; (repeat' split) <;> simp
@[simp] theorem settlePort_power {p : Nat} : (s.settlePort p).power = s.power := by unfold State.settlePort; simp only []; (repeat' split) <;> simp
@[simp] theorem settlePort_telem {p : Nat} : (s.settlePort p).telem = s.telem := by unfold State.settlePort; simp only []; (repeat' split) <;> simp

/-! Every port is settled. -/

@[simp] theorem settlePorts_pending : (s.settlePorts).pending = s.pending := by unfold State.settlePorts; simp only [flushCredits_pending]; exact foldl_keeps (g := State.pending) (fun _ _ => settlePort_pending) _ _
@[simp] theorem settlePorts_fresh : (s.settlePorts).fresh = s.fresh := by unfold State.settlePorts; simp only [flushCredits_fresh]; exact foldl_keeps (g := State.fresh) (fun _ _ => settlePort_fresh) _ _
@[simp] theorem settlePorts_strikes : (s.settlePorts).strikes = s.strikes := by unfold State.settlePorts; simp only [flushCredits_strikes]; exact foldl_keeps (g := State.strikes) (fun _ _ => settlePort_strikes) _ _
@[simp] theorem settlePorts_boot : (s.settlePorts).boot = s.boot := by unfold State.settlePorts; simp only [flushCredits_boot]; exact foldl_keeps (g := State.boot) (fun _ _ => settlePort_boot) _ _
@[simp] theorem settlePorts_mbx : (s.settlePorts).mbx = s.mbx := by unfold State.settlePorts; simp only [flushCredits_mbx]; exact foldl_keeps (g := State.mbx) (fun _ _ => settlePort_mbx) _ _
@[simp] theorem settlePorts_hbm : (s.settlePorts).hbm = s.hbm := by unfold State.settlePorts; simp only [flushCredits_hbm]; exact foldl_keeps (g := State.hbm) (fun _ _ => settlePort_hbm) _ _
@[simp] theorem settlePorts_regions : (s.settlePorts).regions = s.regions := by unfold State.settlePorts; simp only [flushCredits_regions]; exact foldl_keeps (g := State.regions) (fun _ _ => settlePort_regions) _ _
@[simp] theorem settlePorts_opt : (s.settlePorts).opt = s.opt := by unfold State.settlePorts; simp only [flushCredits_opt]; exact foldl_keeps (g := State.opt) (fun _ _ => settlePort_opt) _ _
@[simp] theorem settlePorts_updateCmds : (s.settlePorts).updateCmds = s.updateCmds := by unfold State.settlePorts; simp only [flushCredits_updateCmds]; exact foldl_keeps (g := State.updateCmds) (fun _ _ => settlePort_updateCmds) _ _
@[simp] theorem settlePorts_tarn : (s.settlePorts).tarn = s.tarn := by unfold State.settlePorts; simp only [flushCredits_tarn]; exact foldl_keeps (g := State.tarn) (fun _ _ => settlePort_tarn) _ _
@[simp] theorem settlePorts_groups : (s.settlePorts).groups = s.groups := by unfold State.settlePorts; simp only [flushCredits_groups]; exact foldl_keeps (g := State.groups) (fun _ _ => settlePort_groups) _ _
@[simp] theorem settlePorts_buckets : (s.settlePorts).buckets = s.buckets := by unfold State.settlePorts; simp only [flushCredits_buckets]; exact foldl_keeps (g := State.buckets) (fun _ _ => settlePort_buckets) _ _
@[simp] theorem settlePorts_ovt : (s.settlePorts).ovt = s.ovt := by unfold State.settlePorts; simp only [flushCredits_ovt]; exact foldl_keeps (g := State.ovt) (fun _ _ => settlePort_ovt) _ _
@[simp] theorem settlePorts_clock : (s.settlePorts).clock = s.clock := by unfold State.settlePorts; simp only [flushCredits_clock]; exact foldl_keeps (g := State.clock) (fun _ _ => settlePort_clock) _ _
@[simp] theorem settlePorts_edges : (s.settlePorts).edges = s.edges := by unfold State.settlePorts; simp only [flushCredits_edges]; exact foldl_keeps (g := State.edges) (fun _ _ => settlePort_edges) _ _
@[simp] theorem settlePorts_host : (s.settlePorts).host = s.host := by unfold State.settlePorts; simp only [flushCredits_host]; exact foldl_keeps (g := State.host) (fun _ _ => settlePort_host) _ _
@[simp] theorem settlePorts_sec : (s.settlePorts).sec = s.sec := by unfold State.settlePorts; simp only [flushCredits_sec]; exact foldl_keeps (g := State.sec) (fun _ _ => settlePort_sec) _ _
@[simp] theorem settlePorts_power : (s.settlePorts).power = s.power := by unfold State.settlePorts; simp only [flushCredits_power]; exact foldl_keeps (g := State.power) (fun _ _ => settlePort_power) _ _
@[simp] theorem settlePorts_telem : (s.settlePorts).telem = s.telem := by unfold State.settlePorts; simp only [flushCredits_telem]; exact foldl_keeps (g := State.telem) (fun _ _ => settlePort_telem) _ _

/-! Profiles and ports follow a change. -/

@[simp] theorem rejudge_pending : (s.rejudge).pending = s.pending := by unfold State.rejudge; simp
@[simp] theorem rejudge_fresh : (s.rejudge).fresh = s.fresh := by unfold State.rejudge; simp
@[simp] theorem rejudge_strikes : (s.rejudge).strikes = s.strikes := by unfold State.rejudge; simp
@[simp] theorem rejudge_boot : (s.rejudge).boot = s.boot := by unfold State.rejudge; simp
@[simp] theorem rejudge_mbx : (s.rejudge).mbx = s.mbx := by unfold State.rejudge; simp
@[simp] theorem rejudge_hbm : (s.rejudge).hbm = s.hbm := by unfold State.rejudge; simp
@[simp] theorem rejudge_regions : (s.rejudge).regions = s.regions := by unfold State.rejudge; simp
@[simp] theorem rejudge_opt : (s.rejudge).opt = s.opt := by unfold State.rejudge; simp
@[simp] theorem rejudge_updateCmds : (s.rejudge).updateCmds = s.updateCmds := by unfold State.rejudge; simp
@[simp] theorem rejudge_tarn : (s.rejudge).tarn = s.tarn := by unfold State.rejudge; simp
@[simp] theorem rejudge_groups : (s.rejudge).groups = s.groups := by unfold State.rejudge; simp
@[simp] theorem rejudge_buckets : (s.rejudge).buckets = s.buckets := by unfold State.rejudge; simp
@[simp] theorem rejudge_ovt : (s.rejudge).ovt = s.ovt := by unfold State.rejudge; simp
@[simp] theorem rejudge_clock : (s.rejudge).clock = s.clock := by unfold State.rejudge; simp
@[simp] theorem rejudge_edges : (s.rejudge).edges = s.edges := by unfold State.rejudge; simp
@[simp] theorem rejudge_host : (s.rejudge).host = s.host := by unfold State.rejudge; simp
@[simp] theorem rejudge_sec : (s.rejudge).sec = s.sec := by unfold State.rejudge; simp
@[simp] theorem rejudge_power : (s.rejudge).power = s.power := by unfold State.rejudge; simp
@[simp] theorem rejudge_telem : (s.rejudge).telem = s.telem := by unfold State.rejudge; simp

/-! Containment. -/

@[simp] theorem contain_pending : (s.contain).pending = s.pending := by unfold State.contain; split <;> [simp; (simp only [assertAlert_pending, helloAll_pending]; rw [foldl_keeps (g := State.pending) (fun _ _ => by split <;> simp)]; simp)]
@[simp] theorem contain_fresh : (s.contain).fresh = s.fresh := by unfold State.contain; split <;> [simp; (simp only [assertAlert_fresh, helloAll_fresh]; rw [foldl_keeps (g := State.fresh) (fun _ _ => by split <;> simp)]; simp)]
@[simp] theorem contain_strikes : (s.contain).strikes = s.strikes := by unfold State.contain; split <;> [simp; (simp only [assertAlert_strikes, helloAll_strikes]; rw [foldl_keeps (g := State.strikes) (fun _ _ => by split <;> simp)]; simp)]
@[simp] theorem contain_mbx : (s.contain).mbx = s.mbx := by unfold State.contain; split <;> [simp; (simp only [assertAlert_mbx, helloAll_mbx]; rw [foldl_keeps (g := State.mbx) (fun _ _ => by split <;> simp)]; simp)]
@[simp] theorem contain_hbm : (s.contain).hbm = s.hbm := by unfold State.contain; split <;> [simp; (simp only [assertAlert_hbm, helloAll_hbm]; rw [foldl_keeps (g := State.hbm) (fun _ _ => by split <;> simp)]; simp)]
@[simp] theorem contain_regions : (s.contain).regions = s.regions := by unfold State.contain; split <;> [simp; (simp only [assertAlert_regions, helloAll_regions]; rw [foldl_keeps (g := State.regions) (fun _ _ => by split <;> simp)]; simp)]
@[simp] theorem contain_stage : (s.contain).stage = s.stage := by unfold State.contain; split <;> [simp; (simp only [assertAlert_stage, helloAll_stage]; rw [foldl_keeps (g := State.stage) (fun _ _ => by split <;> simp)]; simp)]
@[simp] theorem contain_opt : (s.contain).opt = s.opt := by unfold State.contain; split <;> [simp; (simp only [assertAlert_opt, helloAll_opt]; rw [foldl_keeps (g := State.opt) (fun _ _ => by split <;> simp)]; simp)]
@[simp] theorem contain_updateCmds : (s.contain).updateCmds = s.updateCmds := by unfold State.contain; split <;> [simp; (simp only [assertAlert_updateCmds, helloAll_updateCmds]; rw [foldl_keeps (g := State.updateCmds) (fun _ _ => by split <;> simp)]; simp)]
@[simp] theorem contain_tarn : (s.contain).tarn = s.tarn := by unfold State.contain; split <;> [simp; (simp only [assertAlert_tarn, helloAll_tarn]; rw [foldl_keeps (g := State.tarn) (fun _ _ => by split <;> simp)]; simp)]
@[simp] theorem contain_groups : (s.contain).groups = s.groups := by unfold State.contain; split <;> [simp; (simp only [assertAlert_groups, helloAll_groups]; rw [foldl_keeps (g := State.groups) (fun _ _ => by split <;> simp)]; simp)]
@[simp] theorem contain_buckets : (s.contain).buckets = s.buckets := by unfold State.contain; split <;> [simp; (simp only [assertAlert_buckets, helloAll_buckets]; rw [foldl_keeps (g := State.buckets) (fun _ _ => by split <;> simp)]; simp)]
@[simp] theorem contain_ovt : (s.contain).ovt = s.ovt := by unfold State.contain; split <;> [simp; (simp only [assertAlert_ovt, helloAll_ovt]; rw [foldl_keeps (g := State.ovt) (fun _ _ => by split <;> simp)]; simp)]
@[simp] theorem contain_fabric : (s.contain).fabric = s.fabric := by unfold State.contain; split <;> [simp; (simp only [assertAlert_fabric, helloAll_fabric]; rw [foldl_keeps (g := State.fabric) (fun _ _ => by split <;> simp)]; simp)]
@[simp] theorem contain_net : (s.contain).net = s.net := by unfold State.contain; split <;> [simp; (simp only [assertAlert_net, helloAll_net]; rw [foldl_keeps (g := State.net) (fun _ _ => by split <;> simp)]; simp)]
@[simp] theorem contain_clock : (s.contain).clock = s.clock := by unfold State.contain; split <;> [simp; (simp only [assertAlert_clock, helloAll_clock]; rw [foldl_keeps (g := State.clock) (fun _ _ => by split <;> simp)]; simp)]
@[simp] theorem contain_edges : (s.contain).edges = s.edges := by unfold State.contain; split <;> [simp; (simp only [assertAlert_edges, helloAll_edges]; rw [foldl_keeps (g := State.edges) (fun _ _ => by split <;> simp)]; simp)]
@[simp] theorem contain_host : (s.contain).host = s.host := by unfold State.contain; split <;> [simp; (simp only [assertAlert_host, helloAll_host]; rw [foldl_keeps (g := State.host) (fun _ _ => by split <;> simp)]; simp)]
@[simp] theorem contain_eth : (s.contain).eth = s.eth := by unfold State.contain; split <;> [simp; (simp only [assertAlert_eth, helloAll_eth]; rw [foldl_keeps (g := State.eth) (fun _ _ => by split <;> simp)]; simp)]
@[simp] theorem contain_sec : (s.contain).sec = s.sec := by unfold State.contain; split <;> [simp; (simp only [assertAlert_sec, helloAll_sec]; rw [foldl_keeps (g := State.sec) (fun _ _ => by split <;> simp)]; simp)]
@[simp] theorem contain_power : (s.contain).power = s.power := by unfold State.contain; split <;> [simp; (simp only [assertAlert_power, helloAll_power]; rw [foldl_keeps (g := State.power) (fun _ _ => by split <;> simp)]; simp)]
@[simp] theorem contain_telem : (s.contain).telem = s.telem := by unfold State.contain; split <;> [simp; (simp only [assertAlert_telem, helloAll_telem]; rw [foldl_keeps (g := State.telem) (fun _ _ => by split <;> simp)]; simp)]

/-! A DEVICE error. -/

@[simp] theorem deviceErr_pending {r : ErrRec} : (s.deviceErr r).pending = s.pending := by unfold State.deviceErr; simp
@[simp] theorem deviceErr_fresh {r : ErrRec} : (s.deviceErr r).fresh = s.fresh := by unfold State.deviceErr; simp
@[simp] theorem deviceErr_strikes {r : ErrRec} : (s.deviceErr r).strikes = s.strikes := by unfold State.deviceErr; simp
@[simp] theorem deviceErr_mbx {r : ErrRec} : (s.deviceErr r).mbx = s.mbx := by unfold State.deviceErr; simp
@[simp] theorem deviceErr_hbm {r : ErrRec} : (s.deviceErr r).hbm = s.hbm := by unfold State.deviceErr; simp
@[simp] theorem deviceErr_regions {r : ErrRec} : (s.deviceErr r).regions = s.regions := by unfold State.deviceErr; simp
@[simp] theorem deviceErr_stage {r : ErrRec} : (s.deviceErr r).stage = s.stage := by unfold State.deviceErr; simp
@[simp] theorem deviceErr_opt {r : ErrRec} : (s.deviceErr r).opt = s.opt := by unfold State.deviceErr; simp
@[simp] theorem deviceErr_updateCmds {r : ErrRec} : (s.deviceErr r).updateCmds = s.updateCmds := by unfold State.deviceErr; simp
@[simp] theorem deviceErr_tarn {r : ErrRec} : (s.deviceErr r).tarn = s.tarn := by unfold State.deviceErr; simp
@[simp] theorem deviceErr_groups {r : ErrRec} : (s.deviceErr r).groups = s.groups := by unfold State.deviceErr; simp
@[simp] theorem deviceErr_buckets {r : ErrRec} : (s.deviceErr r).buckets = s.buckets := by unfold State.deviceErr; simp
@[simp] theorem deviceErr_ovt {r : ErrRec} : (s.deviceErr r).ovt = s.ovt := by unfold State.deviceErr; simp
@[simp] theorem deviceErr_fabric {r : ErrRec} : (s.deviceErr r).fabric = s.fabric := by unfold State.deviceErr; simp
@[simp] theorem deviceErr_net {r : ErrRec} : (s.deviceErr r).net = s.net := by unfold State.deviceErr; simp
@[simp] theorem deviceErr_clock {r : ErrRec} : (s.deviceErr r).clock = s.clock := by unfold State.deviceErr; simp
@[simp] theorem deviceErr_edges {r : ErrRec} : (s.deviceErr r).edges = s.edges := by unfold State.deviceErr; simp
@[simp] theorem deviceErr_host {r : ErrRec} : (s.deviceErr r).host = s.host := by unfold State.deviceErr; simp
@[simp] theorem deviceErr_eth {r : ErrRec} : (s.deviceErr r).eth = s.eth := by unfold State.deviceErr; simp
@[simp] theorem deviceErr_sec {r : ErrRec} : (s.deviceErr r).sec = s.sec := by unfold State.deviceErr; simp
@[simp] theorem deviceErr_power {r : ErrRec} : (s.deviceErr r).power = s.power := by unfold State.deviceErr; simp
@[simp] theorem deviceErr_telem {r : ErrRec} : (s.deviceErr r).telem = s.telem := by unfold State.deviceErr; simp

end Sys2Proof.Machine
end

