-- ==== Sys2Proof/Laws/Service.lean ====
section
/-! SUPPORT. What the mailbox's, the clock's and the memories' operations leave alone, one lemma for each field and operation. -/

namespace Sys2Proof.Machine

set_option Elab.async false

variable {s : State}

/-! A completion is moderated. -/

@[simp] theorem moderate_pending {n : Nat} : (moderate s n).pending = s.pending := by unfold moderate; simp only []; split <;> simp
@[simp] theorem moderate_fresh {n : Nat} : (moderate s n).fresh = s.fresh := by unfold moderate; simp only []; split <;> simp
@[simp] theorem moderate_strikes {n : Nat} : (moderate s n).strikes = s.strikes := by unfold moderate; simp only []; split <;> simp
@[simp] theorem moderate_boot {n : Nat} : (moderate s n).boot = s.boot := by unfold moderate; simp only []; split <;> simp
@[simp] theorem moderate_cores {n : Nat} : (moderate s n).cores = s.cores := by unfold moderate; simp only []; split <;> simp
@[simp] theorem moderate_hbm {n : Nat} : (moderate s n).hbm = s.hbm := by unfold moderate; simp only []; split <;> simp
@[simp] theorem moderate_regions {n : Nat} : (moderate s n).regions = s.regions := by unfold moderate; simp only []; split <;> simp
@[simp] theorem moderate_stage {n : Nat} : (moderate s n).stage = s.stage := by unfold moderate; simp only []; split <;> simp
@[simp] theorem moderate_opt {n : Nat} : (moderate s n).opt = s.opt := by unfold moderate; simp only []; split <;> simp
@[simp] theorem moderate_updateCmds {n : Nat} : (moderate s n).updateCmds = s.updateCmds := by unfold moderate; simp only []; split <;> simp
@[simp] theorem moderate_tarn {n : Nat} : (moderate s n).tarn = s.tarn := by unfold moderate; simp only []; split <;> simp
@[simp] theorem moderate_groups {n : Nat} : (moderate s n).groups = s.groups := by unfold moderate; simp only []; split <;> simp
@[simp] theorem moderate_buckets {n : Nat} : (moderate s n).buckets = s.buckets := by unfold moderate; simp only []; split <;> simp
@[simp] theorem moderate_ovt {n : Nat} : (moderate s n).ovt = s.ovt := by unfold moderate; simp only []; split <;> simp
@[simp] theorem moderate_fabric {n : Nat} : (moderate s n).fabric = s.fabric := by unfold moderate; simp only []; split <;> simp
@[simp] theorem moderate_net {n : Nat} : (moderate s n).net = s.net := by unfold moderate; simp only []; split <;> simp
@[simp] theorem moderate_clock {n : Nat} : (moderate s n).clock = s.clock := by unfold moderate; simp only []; split <;> simp
@[simp] theorem moderate_edges {n : Nat} : (moderate s n).edges = s.edges := by unfold moderate; simp only []; split <;> simp
@[simp] theorem moderate_host {n : Nat} : (moderate s n).host = s.host := by unfold moderate; simp only []; split <;> simp
@[simp] theorem moderate_eth {n : Nat} : (moderate s n).eth = s.eth := by unfold moderate; simp only []; split <;> simp
@[simp] theorem moderate_err {n : Nat} : (moderate s n).err = s.err := by unfold moderate; simp only []; split <;> simp
@[simp] theorem moderate_sec {n : Nat} : (moderate s n).sec = s.sec := by unfold moderate; simp only []; split <;> simp
@[simp] theorem moderate_power {n : Nat} : (moderate s n).power = s.power := by unfold moderate; simp only []; split <;> simp
@[simp] theorem moderate_telem {n : Nat} : (moderate s n).telem = s.telem := by unfold moderate; simp only []; split <;> simp

/-! A request leaves its ring. -/

@[simp] theorem dequeue_pending {c : MsgSrc} : (dequeue s c).pending = s.pending := by unfold dequeue; split <;> simp
@[simp] theorem dequeue_fresh {c : MsgSrc} : (dequeue s c).fresh = s.fresh := by unfold dequeue; split <;> simp
@[simp] theorem dequeue_strikes {c : MsgSrc} : (dequeue s c).strikes = s.strikes := by unfold dequeue; split <;> simp
@[simp] theorem dequeue_boot {c : MsgSrc} : (dequeue s c).boot = s.boot := by unfold dequeue; split <;> simp
@[simp] theorem dequeue_irq {c : MsgSrc} : (dequeue s c).irq = s.irq := by unfold dequeue; split <;> simp
@[simp] theorem dequeue_cores {c : MsgSrc} : (dequeue s c).cores = s.cores := by unfold dequeue; split <;> simp
@[simp] theorem dequeue_hbm {c : MsgSrc} : (dequeue s c).hbm = s.hbm := by unfold dequeue; split <;> simp
@[simp] theorem dequeue_regions {c : MsgSrc} : (dequeue s c).regions = s.regions := by unfold dequeue; split <;> simp
@[simp] theorem dequeue_stage {c : MsgSrc} : (dequeue s c).stage = s.stage := by unfold dequeue; split <;> simp
@[simp] theorem dequeue_opt {c : MsgSrc} : (dequeue s c).opt = s.opt := by unfold dequeue; split <;> simp
@[simp] theorem dequeue_updateCmds {c : MsgSrc} : (dequeue s c).updateCmds = s.updateCmds := by unfold dequeue; split <;> simp
@[simp] theorem dequeue_tarn {c : MsgSrc} : (dequeue s c).tarn = s.tarn := by unfold dequeue; split <;> simp
@[simp] theorem dequeue_groups {c : MsgSrc} : (dequeue s c).groups = s.groups := by unfold dequeue; split <;> simp
@[simp] theorem dequeue_buckets {c : MsgSrc} : (dequeue s c).buckets = s.buckets := by unfold dequeue; split <;> simp
@[simp] theorem dequeue_ovt {c : MsgSrc} : (dequeue s c).ovt = s.ovt := by unfold dequeue; split <;> simp
@[simp] theorem dequeue_fabric {c : MsgSrc} : (dequeue s c).fabric = s.fabric := by unfold dequeue; split <;> simp
@[simp] theorem dequeue_net {c : MsgSrc} : (dequeue s c).net = s.net := by unfold dequeue; split <;> simp
@[simp] theorem dequeue_clock {c : MsgSrc} : (dequeue s c).clock = s.clock := by unfold dequeue; split <;> simp
@[simp] theorem dequeue_edges {c : MsgSrc} : (dequeue s c).edges = s.edges := by unfold dequeue; split <;> simp
@[simp] theorem dequeue_host {c : MsgSrc} : (dequeue s c).host = s.host := by unfold dequeue; split <;> simp
@[simp] theorem dequeue_eth {c : MsgSrc} : (dequeue s c).eth = s.eth := by unfold dequeue; split <;> simp
@[simp] theorem dequeue_err {c : MsgSrc} : (dequeue s c).err = s.err := by unfold dequeue; split <;> simp
@[simp] theorem dequeue_sec {c : MsgSrc} : (dequeue s c).sec = s.sec := by unfold dequeue; split <;> simp
@[simp] theorem dequeue_power {c : MsgSrc} : (dequeue s c).power = s.power := by unfold dequeue; split <;> simp
@[simp] theorem dequeue_telem {c : MsgSrc} : (dequeue s c).telem = s.telem := by unfold dequeue; split <;> simp

/-! A channel loses its session. -/

@[simp] theorem detachChan_pending {n : Nat} : (detachChan s n).pending = s.pending := modChan_pending
@[simp] theorem detachChan_out {n : Nat} : (detachChan s n).out = s.out := modChan_out
@[simp] theorem detachChan_fresh {n : Nat} : (detachChan s n).fresh = s.fresh := modChan_fresh
@[simp] theorem detachChan_strikes {n : Nat} : (detachChan s n).strikes = s.strikes := modChan_strikes
@[simp] theorem detachChan_boot {n : Nat} : (detachChan s n).boot = s.boot := modChan_boot
@[simp] theorem detachChan_irq {n : Nat} : (detachChan s n).irq = s.irq := modChan_irq
@[simp] theorem detachChan_cores {n : Nat} : (detachChan s n).cores = s.cores := modChan_cores
@[simp] theorem detachChan_hbm {n : Nat} : (detachChan s n).hbm = s.hbm := modChan_hbm
@[simp] theorem detachChan_regions {n : Nat} : (detachChan s n).regions = s.regions := modChan_regions
@[simp] theorem detachChan_stage {n : Nat} : (detachChan s n).stage = s.stage := modChan_stage
@[simp] theorem detachChan_opt {n : Nat} : (detachChan s n).opt = s.opt := modChan_opt
@[simp] theorem detachChan_updateCmds {n : Nat} : (detachChan s n).updateCmds = s.updateCmds := modChan_updateCmds
@[simp] theorem detachChan_tarn {n : Nat} : (detachChan s n).tarn = s.tarn := modChan_tarn
@[simp] theorem detachChan_groups {n : Nat} : (detachChan s n).groups = s.groups := modChan_groups
@[simp] theorem detachChan_buckets {n : Nat} : (detachChan s n).buckets = s.buckets := modChan_buckets
@[simp] theorem detachChan_ovt {n : Nat} : (detachChan s n).ovt = s.ovt := modChan_ovt
@[simp] theorem detachChan_fabric {n : Nat} : (detachChan s n).fabric = s.fabric := modChan_fabric
@[simp] theorem detachChan_net {n : Nat} : (detachChan s n).net = s.net := modChan_net
@[simp] theorem detachChan_clock {n : Nat} : (detachChan s n).clock = s.clock := modChan_clock
@[simp] theorem detachChan_edges {n : Nat} : (detachChan s n).edges = s.edges := modChan_edges
@[simp] theorem detachChan_host {n : Nat} : (detachChan s n).host = s.host := modChan_host
@[simp] theorem detachChan_eth {n : Nat} : (detachChan s n).eth = s.eth := modChan_eth
@[simp] theorem detachChan_err {n : Nat} : (detachChan s n).err = s.err := modChan_err
@[simp] theorem detachChan_sec {n : Nat} : (detachChan s n).sec = s.sec := modChan_sec
@[simp] theorem detachChan_power {n : Nat} : (detachChan s n).power = s.power := modChan_power
@[simp] theorem detachChan_telem {n : Nat} : (detachChan s n).telem = s.telem := modChan_telem

/-! A session closes. -/

@[simp] theorem closeSession_pending {h : BitVec 32} : (closeSession s h).pending = s.pending := by unfold closeSession; simp only []; exact foldl_keeps (g := State.pending) (fun _ _ => by split <;> simp) _ _
@[simp] theorem closeSession_out {h : BitVec 32} : (closeSession s h).out = s.out := by unfold closeSession; simp only []; exact foldl_keeps (g := State.out) (fun _ _ => by split <;> simp) _ _
@[simp] theorem closeSession_fresh {h : BitVec 32} : (closeSession s h).fresh = s.fresh := by unfold closeSession; simp only []; exact foldl_keeps (g := State.fresh) (fun _ _ => by split <;> simp) _ _
@[simp] theorem closeSession_strikes {h : BitVec 32} : (closeSession s h).strikes = s.strikes := by unfold closeSession; simp only []; exact foldl_keeps (g := State.strikes) (fun _ _ => by split <;> simp) _ _
@[simp] theorem closeSession_boot {h : BitVec 32} : (closeSession s h).boot = s.boot := by unfold closeSession; simp only []; exact foldl_keeps (g := State.boot) (fun _ _ => by split <;> simp) _ _
@[simp] theorem closeSession_irq {h : BitVec 32} : (closeSession s h).irq = s.irq := by unfold closeSession; simp only []; exact foldl_keeps (g := State.irq) (fun _ _ => by split <;> simp) _ _
@[simp] theorem closeSession_cores {h : BitVec 32} : (closeSession s h).cores = s.cores := by unfold closeSession; simp only []; exact foldl_keeps (g := State.cores) (fun _ _ => by split <;> simp) _ _
@[simp] theorem closeSession_hbm {h : BitVec 32} : (closeSession s h).hbm = s.hbm := by unfold closeSession; simp only []; exact foldl_keeps (g := State.hbm) (fun _ _ => by split <;> simp) _ _
@[simp] theorem closeSession_regions {h : BitVec 32} : (closeSession s h).regions = s.regions := by unfold closeSession; simp only []; exact foldl_keeps (g := State.regions) (fun _ _ => by split <;> simp) _ _
@[simp] theorem closeSession_stage {h : BitVec 32} : (closeSession s h).stage = s.stage := by unfold closeSession; simp only []; exact foldl_keeps (g := State.stage) (fun _ _ => by split <;> simp) _ _
@[simp] theorem closeSession_opt {h : BitVec 32} : (closeSession s h).opt = s.opt := by unfold closeSession; simp only []; exact foldl_keeps (g := State.opt) (fun _ _ => by split <;> simp) _ _
@[simp] theorem closeSession_updateCmds {h : BitVec 32} : (closeSession s h).updateCmds = s.updateCmds := by unfold closeSession; simp only []; exact foldl_keeps (g := State.updateCmds) (fun _ _ => by split <;> simp) _ _
@[simp] theorem closeSession_tarn {h : BitVec 32} : (closeSession s h).tarn = s.tarn := by unfold closeSession; simp only []; exact foldl_keeps (g := State.tarn) (fun _ _ => by split <;> simp) _ _
@[simp] theorem closeSession_groups {h : BitVec 32} : (closeSession s h).groups = s.groups := by unfold closeSession; simp only []; exact foldl_keeps (g := State.groups) (fun _ _ => by split <;> simp) _ _
@[simp] theorem closeSession_buckets {h : BitVec 32} : (closeSession s h).buckets = s.buckets := by unfold closeSession; simp only []; exact foldl_keeps (g := State.buckets) (fun _ _ => by split <;> simp) _ _
@[simp] theorem closeSession_ovt {h : BitVec 32} : (closeSession s h).ovt = s.ovt := by unfold closeSession; simp only []; exact foldl_keeps (g := State.ovt) (fun _ _ => by split <;> simp) _ _
@[simp] theorem closeSession_fabric {h : BitVec 32} : (closeSession s h).fabric = s.fabric := by unfold closeSession; simp only []; exact foldl_keeps (g := State.fabric) (fun _ _ => by split <;> simp) _ _
@[simp] theorem closeSession_net {h : BitVec 32} : (closeSession s h).net = s.net := by unfold closeSession; simp only []; exact foldl_keeps (g := State.net) (fun _ _ => by split <;> simp) _ _
@[simp] theorem closeSession_clock {h : BitVec 32} : (closeSession s h).clock = s.clock := by unfold closeSession; simp only []; exact foldl_keeps (g := State.clock) (fun _ _ => by split <;> simp) _ _
@[simp] theorem closeSession_edges {h : BitVec 32} : (closeSession s h).edges = s.edges := by unfold closeSession; simp only []; exact foldl_keeps (g := State.edges) (fun _ _ => by split <;> simp) _ _
@[simp] theorem closeSession_host {h : BitVec 32} : (closeSession s h).host = s.host := by unfold closeSession; simp only []; exact foldl_keeps (g := State.host) (fun _ _ => by split <;> simp) _ _
@[simp] theorem closeSession_eth {h : BitVec 32} : (closeSession s h).eth = s.eth := by unfold closeSession; simp only []; exact foldl_keeps (g := State.eth) (fun _ _ => by split <;> simp) _ _
@[simp] theorem closeSession_err {h : BitVec 32} : (closeSession s h).err = s.err := by unfold closeSession; simp only []; exact foldl_keeps (g := State.err) (fun _ _ => by split <;> simp) _ _
@[simp] theorem closeSession_sec {h : BitVec 32} : (closeSession s h).sec = s.sec := by unfold closeSession; simp only []; exact foldl_keeps (g := State.sec) (fun _ _ => by split <;> simp) _ _
@[simp] theorem closeSession_power {h : BitVec 32} : (closeSession s h).power = s.power := by unfold closeSession; simp only []; exact foldl_keeps (g := State.power) (fun _ _ => by split <;> simp) _ _
@[simp] theorem closeSession_telem {h : BitVec 32} : (closeSession s h).telem = s.telem := by unfold closeSession; simp only []; exact foldl_keeps (g := State.telem) (fun _ _ => by split <;> simp) _ _

/-! A completion is written, a message ends, and the CLOSE_SESSION messages that waited for it end: only the mailbox, what is sent and the interrupt registers change. -/

theorem only_refl : onlyReplies s s := rfl

theorem only_trans {t u : State} (h : onlyReplies s t) (k : onlyReplies t u) : onlyReplies s u := by
  unfold onlyReplies at *; rw [k, h]

theorem only_chan {n : Nat} {f : Channel → Channel} : onlyReplies s (s.modChan n f) := rfl

theorem only_emit {o : Out} : onlyReplies s (s.emit o) := rfl

theorem only_mbx {b : Mailbox} : onlyReplies s { s with mbx := b } := rfl

theorem only_raise {n : Nat} : onlyReplies s (s.raise n) := by unfold State.raise; split <;> rfl

theorem only_moderate {n : Nat} : onlyReplies s (moderate s n) := by
  unfold moderate; simp only []; split
  · exact only_trans only_chan only_raise
  · rfl

theorem completeChan_only {n : Nat} {m : Msg} {op : Nat} {h : BitVec 32} {r : Reply} : onlyReplies s (completeChan s n m op h r) := by
  unfold completeChan; simp only []
  split
  · exact only_chan
  · refine only_trans ?_ only_moderate
    refine only_trans ?_ only_chan
    refine only_trans ?_ only_emit
    refine only_trans ?_ only_emit
    split
    · exact only_emit
    · exact only_refl

theorem finishOne_only {m : Msg} {op : Nat} {h : BitVec 32} {r : Reply} : onlyReplies s (finishOne s m op h r) := by
  unfold finishOne; simp only []
  split
  · split
    · exact only_trans only_mbx only_chan
    · exact only_trans (only_trans only_mbx only_chan) completeChan_only
  · exact only_emit

theorem detachAll_only {l : List Nat} {h : BitVec 32} : onlyReplies s (l.foldl (fun s n => if (s.chan n).session = h then detachChan s n else s) s) := by
  induction l generalizing s with
  | nil => exact only_refl
  | cons a l ih =>
    rw [List.foldl_cons]
    refine only_trans ?_ ih
    split
    · exact only_chan
    · exact only_refl

theorem closeSession_only {h : BitVec 32} : onlyReplies s (closeSession s h) := by
  unfold closeSession
  generalize List.range 64 = l
  exact only_trans detachAll_only only_mbx

theorem settleCloses_only {k : Nat} : onlyReplies s (settleCloses k s) := by
  induction k generalizing s with
  | zero => exact only_refl
  | succ k ih =>
    unfold settleCloses
    split
    · exact only_refl
    · exact only_trans (only_trans (only_trans only_mbx closeSession_only) finishOne_only) ih

theorem finishMsg_only {m : Msg} {op : Nat} {h : BitVec 32} {r : Reply} : onlyReplies s (finishMsg s m op h r) := only_trans finishOne_only settleCloses_only

theorem endHeld_only {h : Held} {r : Reply} : onlyReplies s (endHeld s h r) := only_trans only_mbx finishMsg_only

@[simp] theorem finishMsg_pending {m : Msg} {op : Nat} {h : BitVec 32} {r : Reply} : (finishMsg s m op h r).pending = s.pending := by rw [finishMsg_only]
@[simp] theorem finishMsg_fresh {m : Msg} {op : Nat} {h : BitVec 32} {r : Reply} : (finishMsg s m op h r).fresh = s.fresh := by rw [finishMsg_only]
@[simp] theorem finishMsg_strikes {m : Msg} {op : Nat} {h : BitVec 32} {r : Reply} : (finishMsg s m op h r).strikes = s.strikes := by rw [finishMsg_only]
@[simp] theorem finishMsg_boot {m : Msg} {op : Nat} {h : BitVec 32} {r : Reply} : (finishMsg s m op h r).boot = s.boot := by rw [finishMsg_only]
@[simp] theorem finishMsg_cores {m : Msg} {op : Nat} {h : BitVec 32} {r : Reply} : (finishMsg s m op h r).cores = s.cores := by rw [finishMsg_only]
@[simp] theorem finishMsg_hbm {m : Msg} {op : Nat} {h : BitVec 32} {r : Reply} : (finishMsg s m op h r).hbm = s.hbm := by rw [finishMsg_only]
@[simp] theorem finishMsg_regions {m : Msg} {op : Nat} {h : BitVec 32} {r : Reply} : (finishMsg s m op h r).regions = s.regions := by rw [finishMsg_only]
@[simp] theorem finishMsg_stage {m : Msg} {op : Nat} {h : BitVec 32} {r : Reply} : (finishMsg s m op h r).stage = s.stage := by rw [finishMsg_only]
@[simp] theorem finishMsg_opt {m : Msg} {op : Nat} {h : BitVec 32} {r : Reply} : (finishMsg s m op h r).opt = s.opt := by rw [finishMsg_only]
@[simp] theorem finishMsg_updateCmds {m : Msg} {op : Nat} {h : BitVec 32} {r : Reply} : (finishMsg s m op h r).updateCmds = s.updateCmds := by rw [finishMsg_only]
@[simp] theorem finishMsg_tarn {m : Msg} {op : Nat} {h : BitVec 32} {r : Reply} : (finishMsg s m op h r).tarn = s.tarn := by rw [finishMsg_only]
@[simp] theorem finishMsg_groups {m : Msg} {op : Nat} {h : BitVec 32} {r : Reply} : (finishMsg s m op h r).groups = s.groups := by rw [finishMsg_only]
@[simp] theorem finishMsg_buckets {m : Msg} {op : Nat} {h : BitVec 32} {r : Reply} : (finishMsg s m op h r).buckets = s.buckets := by rw [finishMsg_only]
@[simp] theorem finishMsg_ovt {m : Msg} {op : Nat} {h : BitVec 32} {r : Reply} : (finishMsg s m op h r).ovt = s.ovt := by rw [finishMsg_only]
@[simp] theorem finishMsg_fabric {m : Msg} {op : Nat} {h : BitVec 32} {r : Reply} : (finishMsg s m op h r).fabric = s.fabric := by rw [finishMsg_only]
@[simp] theorem finishMsg_net {m : Msg} {op : Nat} {h : BitVec 32} {r : Reply} : (finishMsg s m op h r).net = s.net := by rw [finishMsg_only]
@[simp] theorem finishMsg_clock {m : Msg} {op : Nat} {h : BitVec 32} {r : Reply} : (finishMsg s m op h r).clock = s.clock := by rw [finishMsg_only]
@[simp] theorem finishMsg_edges {m : Msg} {op : Nat} {h : BitVec 32} {r : Reply} : (finishMsg s m op h r).edges = s.edges := by rw [finishMsg_only]
@[simp] theorem finishMsg_host {m : Msg} {op : Nat} {h : BitVec 32} {r : Reply} : (finishMsg s m op h r).host = s.host := by rw [finishMsg_only]
@[simp] theorem finishMsg_eth {m : Msg} {op : Nat} {h : BitVec 32} {r : Reply} : (finishMsg s m op h r).eth = s.eth := by rw [finishMsg_only]
@[simp] theorem finishMsg_err {m : Msg} {op : Nat} {h : BitVec 32} {r : Reply} : (finishMsg s m op h r).err = s.err := by rw [finishMsg_only]
@[simp] theorem finishMsg_sec {m : Msg} {op : Nat} {h : BitVec 32} {r : Reply} : (finishMsg s m op h r).sec = s.sec := by rw [finishMsg_only]
@[simp] theorem finishMsg_power {m : Msg} {op : Nat} {h : BitVec 32} {r : Reply} : (finishMsg s m op h r).power = s.power := by rw [finishMsg_only]
@[simp] theorem finishMsg_telem {m : Msg} {op : Nat} {h : BitVec 32} {r : Reply} : (finishMsg s m op h r).telem = s.telem := by rw [finishMsg_only]

@[simp] theorem endHeld_pending {h : Held} {r : Reply} : (endHeld s h r).pending = s.pending := by rw [endHeld_only]
@[simp] theorem endHeld_fresh {h : Held} {r : Reply} : (endHeld s h r).fresh = s.fresh := by rw [endHeld_only]
@[simp] theorem endHeld_strikes {h : Held} {r : Reply} : (endHeld s h r).strikes = s.strikes := by rw [endHeld_only]
@[simp] theorem endHeld_boot {h : Held} {r : Reply} : (endHeld s h r).boot = s.boot := by rw [endHeld_only]
@[simp] theorem endHeld_cores {h : Held} {r : Reply} : (endHeld s h r).cores = s.cores := by rw [endHeld_only]
@[simp] theorem endHeld_hbm {h : Held} {r : Reply} : (endHeld s h r).hbm = s.hbm := by rw [endHeld_only]
@[simp] theorem endHeld_regions {h : Held} {r : Reply} : (endHeld s h r).regions = s.regions := by rw [endHeld_only]
@[simp] theorem endHeld_stage {h : Held} {r : Reply} : (endHeld s h r).stage = s.stage := by rw [endHeld_only]
@[simp] theorem endHeld_opt {h : Held} {r : Reply} : (endHeld s h r).opt = s.opt := by rw [endHeld_only]
@[simp] theorem endHeld_updateCmds {h : Held} {r : Reply} : (endHeld s h r).updateCmds = s.updateCmds := by rw [endHeld_only]
@[simp] theorem endHeld_tarn {h : Held} {r : Reply} : (endHeld s h r).tarn = s.tarn := by rw [endHeld_only]
@[simp] theorem endHeld_groups {h : Held} {r : Reply} : (endHeld s h r).groups = s.groups := by rw [endHeld_only]
@[simp] theorem endHeld_buckets {h : Held} {r : Reply} : (endHeld s h r).buckets = s.buckets := by rw [endHeld_only]
@[simp] theorem endHeld_ovt {h : Held} {r : Reply} : (endHeld s h r).ovt = s.ovt := by rw [endHeld_only]
@[simp] theorem endHeld_fabric {h : Held} {r : Reply} : (endHeld s h r).fabric = s.fabric := by rw [endHeld_only]
@[simp] theorem endHeld_net {h : Held} {r : Reply} : (endHeld s h r).net = s.net := by rw [endHeld_only]
@[simp] theorem endHeld_clock {h : Held} {r : Reply} : (endHeld s h r).clock = s.clock := by rw [endHeld_only]
@[simp] theorem endHeld_edges {h : Held} {r : Reply} : (endHeld s h r).edges = s.edges := by rw [endHeld_only]
@[simp] theorem endHeld_host {h : Held} {r : Reply} : (endHeld s h r).host = s.host := by rw [endHeld_only]
@[simp] theorem endHeld_eth {h : Held} {r : Reply} : (endHeld s h r).eth = s.eth := by rw [endHeld_only]
@[simp] theorem endHeld_err {h : Held} {r : Reply} : (endHeld s h r).err = s.err := by rw [endHeld_only]
@[simp] theorem endHeld_sec {h : Held} {r : Reply} : (endHeld s h r).sec = s.sec := by rw [endHeld_only]
@[simp] theorem endHeld_power {h : Held} {r : Reply} : (endHeld s h r).power = s.power := by rw [endHeld_only]
@[simp] theorem endHeld_telem {h : Held} {r : Reply} : (endHeld s h r).telem = s.telem := by rw [endHeld_only]

/-! A channel is reset. -/

@[simp] theorem resetChan_pending {n : Nat} : (resetChan s n).pending = s.pending := modChan_pending
@[simp] theorem resetChan_out {n : Nat} : (resetChan s n).out = s.out := modChan_out
@[simp] theorem resetChan_fresh {n : Nat} : (resetChan s n).fresh = s.fresh := modChan_fresh
@[simp] theorem resetChan_strikes {n : Nat} : (resetChan s n).strikes = s.strikes := modChan_strikes
@[simp] theorem resetChan_boot {n : Nat} : (resetChan s n).boot = s.boot := modChan_boot
@[simp] theorem resetChan_irq {n : Nat} : (resetChan s n).irq = s.irq := modChan_irq
@[simp] theorem resetChan_cores {n : Nat} : (resetChan s n).cores = s.cores := modChan_cores
@[simp] theorem resetChan_hbm {n : Nat} : (resetChan s n).hbm = s.hbm := modChan_hbm
@[simp] theorem resetChan_regions {n : Nat} : (resetChan s n).regions = s.regions := modChan_regions
@[simp] theorem resetChan_stage {n : Nat} : (resetChan s n).stage = s.stage := modChan_stage
@[simp] theorem resetChan_opt {n : Nat} : (resetChan s n).opt = s.opt := modChan_opt
@[simp] theorem resetChan_updateCmds {n : Nat} : (resetChan s n).updateCmds = s.updateCmds := modChan_updateCmds
@[simp] theorem resetChan_tarn {n : Nat} : (resetChan s n).tarn = s.tarn := modChan_tarn
@[simp] theorem resetChan_groups {n : Nat} : (resetChan s n).groups = s.groups := modChan_groups
@[simp] theorem resetChan_buckets {n : Nat} : (resetChan s n).buckets = s.buckets := modChan_buckets
@[simp] theorem resetChan_ovt {n : Nat} : (resetChan s n).ovt = s.ovt := modChan_ovt
@[simp] theorem resetChan_fabric {n : Nat} : (resetChan s n).fabric = s.fabric := modChan_fabric
@[simp] theorem resetChan_net {n : Nat} : (resetChan s n).net = s.net := modChan_net
@[simp] theorem resetChan_clock {n : Nat} : (resetChan s n).clock = s.clock := modChan_clock
@[simp] theorem resetChan_edges {n : Nat} : (resetChan s n).edges = s.edges := modChan_edges
@[simp] theorem resetChan_host {n : Nat} : (resetChan s n).host = s.host := modChan_host
@[simp] theorem resetChan_eth {n : Nat} : (resetChan s n).eth = s.eth := modChan_eth
@[simp] theorem resetChan_err {n : Nat} : (resetChan s n).err = s.err := modChan_err
@[simp] theorem resetChan_sec {n : Nat} : (resetChan s n).sec = s.sec := modChan_sec
@[simp] theorem resetChan_power {n : Nat} : (resetChan s n).power = s.power := modChan_power
@[simp] theorem resetChan_telem {n : Nat} : (resetChan s n).telem = s.telem := modChan_telem

/-! A doorbell is evaluated. -/

@[simp] theorem evalDoorbell_pending {n : Nat} : (evalDoorbell s n).pending = s.pending := by unfold evalDoorbell; simp only []; (repeat' split) <;> simp
@[simp] theorem evalDoorbell_out {n : Nat} : (evalDoorbell s n).out = s.out := by unfold evalDoorbell; simp only []; (repeat' split) <;> simp
@[simp] theorem evalDoorbell_fresh {n : Nat} : (evalDoorbell s n).fresh = s.fresh := by unfold evalDoorbell; simp only []; (repeat' split) <;> simp
@[simp] theorem evalDoorbell_strikes {n : Nat} : (evalDoorbell s n).strikes = s.strikes := by unfold evalDoorbell; simp only []; (repeat' split) <;> simp
@[simp] theorem evalDoorbell_boot {n : Nat} : (evalDoorbell s n).boot = s.boot := by unfold evalDoorbell; simp only []; (repeat' split) <;> simp
@[simp] theorem evalDoorbell_irq {n : Nat} : (evalDoorbell s n).irq = s.irq := by unfold evalDoorbell; simp only []; (repeat' split) <;> simp
@[simp] theorem evalDoorbell_cores {n : Nat} : (evalDoorbell s n).cores = s.cores := by unfold evalDoorbell; simp only []; (repeat' split) <;> simp
@[simp] theorem evalDoorbell_hbm {n : Nat} : (evalDoorbell s n).hbm = s.hbm := by unfold evalDoorbell; simp only []; (repeat' split) <;> simp
@[simp] theorem evalDoorbell_regions {n : Nat} : (evalDoorbell s n).regions = s.regions := by unfold evalDoorbell; simp only []; (repeat' split) <;> simp
@[simp] theorem evalDoorbell_stage {n : Nat} : (evalDoorbell s n).stage = s.stage := by unfold evalDoorbell; simp only []; (repeat' split) <;> simp
@[simp] theorem evalDoorbell_opt {n : Nat} : (evalDoorbell s n).opt = s.opt := by unfold evalDoorbell; simp only []; (repeat' split) <;> simp
@[simp] theorem evalDoorbell_updateCmds {n : Nat} : (evalDoorbell s n).updateCmds = s.updateCmds := by unfold evalDoorbell; simp only []; (repeat' split) <;> simp
@[simp] theorem evalDoorbell_tarn {n : Nat} : (evalDoorbell s n).tarn = s.tarn := by unfold evalDoorbell; simp only []; (repeat' split) <;> simp
@[simp] theorem evalDoorbell_groups {n : Nat} : (evalDoorbell s n).groups = s.groups := by unfold evalDoorbell; simp only []; (repeat' split) <;> simp
@[simp] theorem evalDoorbell_buckets {n : Nat} : (evalDoorbell s n).buckets = s.buckets := by unfold evalDoorbell; simp only []; (repeat' split) <;> simp
@[simp] theorem evalDoorbell_ovt {n : Nat} : (evalDoorbell s n).ovt = s.ovt := by unfold evalDoorbell; simp only []; (repeat' split) <;> simp
@[simp] theorem evalDoorbell_fabric {n : Nat} : (evalDoorbell s n).fabric = s.fabric := by unfold evalDoorbell; simp only []; (repeat' split) <;> simp
@[simp] theorem evalDoorbell_net {n : Nat} : (evalDoorbell s n).net = s.net := by unfold evalDoorbell; simp only []; (repeat' split) <;> simp
@[simp] theorem evalDoorbell_clock {n : Nat} : (evalDoorbell s n).clock = s.clock := by unfold evalDoorbell; simp only []; (repeat' split) <;> simp
@[simp] theorem evalDoorbell_edges {n : Nat} : (evalDoorbell s n).edges = s.edges := by unfold evalDoorbell; simp only []; (repeat' split) <;> simp
@[simp] theorem evalDoorbell_host {n : Nat} : (evalDoorbell s n).host = s.host := by unfold evalDoorbell; simp only []; (repeat' split) <;> simp
@[simp] theorem evalDoorbell_eth {n : Nat} : (evalDoorbell s n).eth = s.eth := by unfold evalDoorbell; simp only []; (repeat' split) <;> simp
@[simp] theorem evalDoorbell_err {n : Nat} : (evalDoorbell s n).err = s.err := by unfold evalDoorbell; simp only []; (repeat' split) <;> simp
@[simp] theorem evalDoorbell_sec {n : Nat} : (evalDoorbell s n).sec = s.sec := by unfold evalDoorbell; simp only []; (repeat' split) <;> simp
@[simp] theorem evalDoorbell_power {n : Nat} : (evalDoorbell s n).power = s.power := by unfold evalDoorbell; simp only []; (repeat' split) <;> simp
@[simp] theorem evalDoorbell_telem {n : Nat} : (evalDoorbell s n).telem = s.telem := by unfold evalDoorbell; simp only []; (repeat' split) <;> simp

/-! An event counter takes an addition. -/

@[simp] theorem addEvent_pending {c i n : Nat} : ((addEvent s c i n).1).pending = s.pending := rfl
@[simp] theorem addEvent_out {c i n : Nat} : ((addEvent s c i n).1).out = s.out := rfl
@[simp] theorem addEvent_fresh {c i n : Nat} : ((addEvent s c i n).1).fresh = s.fresh := rfl
@[simp] theorem addEvent_strikes {c i n : Nat} : ((addEvent s c i n).1).strikes = s.strikes := rfl
@[simp] theorem addEvent_boot {c i n : Nat} : ((addEvent s c i n).1).boot = s.boot := rfl
@[simp] theorem addEvent_irq {c i n : Nat} : ((addEvent s c i n).1).irq = s.irq := rfl
@[simp] theorem addEvent_mbx {c i n : Nat} : ((addEvent s c i n).1).mbx = s.mbx := rfl
@[simp] theorem addEvent_hbm {c i n : Nat} : ((addEvent s c i n).1).hbm = s.hbm := rfl
@[simp] theorem addEvent_regions {c i n : Nat} : ((addEvent s c i n).1).regions = s.regions := rfl
@[simp] theorem addEvent_stage {c i n : Nat} : ((addEvent s c i n).1).stage = s.stage := rfl
@[simp] theorem addEvent_opt {c i n : Nat} : ((addEvent s c i n).1).opt = s.opt := rfl
@[simp] theorem addEvent_updateCmds {c i n : Nat} : ((addEvent s c i n).1).updateCmds = s.updateCmds := rfl
@[simp] theorem addEvent_tarn {c i n : Nat} : ((addEvent s c i n).1).tarn = s.tarn := rfl
@[simp] theorem addEvent_groups {c i n : Nat} : ((addEvent s c i n).1).groups = s.groups := rfl
@[simp] theorem addEvent_buckets {c i n : Nat} : ((addEvent s c i n).1).buckets = s.buckets := rfl
@[simp] theorem addEvent_ovt {c i n : Nat} : ((addEvent s c i n).1).ovt = s.ovt := rfl
@[simp] theorem addEvent_fabric {c i n : Nat} : ((addEvent s c i n).1).fabric = s.fabric := rfl
@[simp] theorem addEvent_net {c i n : Nat} : ((addEvent s c i n).1).net = s.net := rfl
@[simp] theorem addEvent_clock {c i n : Nat} : ((addEvent s c i n).1).clock = s.clock := rfl
@[simp] theorem addEvent_edges {c i n : Nat} : ((addEvent s c i n).1).edges = s.edges := rfl
@[simp] theorem addEvent_host {c i n : Nat} : ((addEvent s c i n).1).host = s.host := rfl
@[simp] theorem addEvent_eth {c i n : Nat} : ((addEvent s c i n).1).eth = s.eth := rfl
@[simp] theorem addEvent_err {c i n : Nat} : ((addEvent s c i n).1).err = s.err := rfl
@[simp] theorem addEvent_sec {c i n : Nat} : ((addEvent s c i n).1).sec = s.sec := rfl
@[simp] theorem addEvent_power {c i n : Nat} : ((addEvent s c i n).1).power = s.power := rfl
@[simp] theorem addEvent_telem {c i n : Nat} : ((addEvent s c i n).1).telem = s.telem := rfl

/-! An edge fires. -/

@[simp] theorem fireEdge_pending {i : Nat} {l : Bool} : (fireEdge s i l).pending = s.pending := by unfold fireEdge; simp only []; (repeat' split) <;> simp
@[simp] theorem fireEdge_fresh {i : Nat} {l : Bool} : (fireEdge s i l).fresh = s.fresh := by unfold fireEdge; simp only []; (repeat' split) <;> simp
@[simp] theorem fireEdge_strikes {i : Nat} {l : Bool} : (fireEdge s i l).strikes = s.strikes := by unfold fireEdge; simp only []; (repeat' split) <;> simp
@[simp] theorem fireEdge_boot {i : Nat} {l : Bool} : (fireEdge s i l).boot = s.boot := by unfold fireEdge; simp only []; (repeat' split) <;> simp
@[simp] theorem fireEdge_mbx {i : Nat} {l : Bool} : (fireEdge s i l).mbx = s.mbx := by unfold fireEdge; simp only []; (repeat' split) <;> simp
@[simp] theorem fireEdge_hbm {i : Nat} {l : Bool} : (fireEdge s i l).hbm = s.hbm := by unfold fireEdge; simp only []; (repeat' split) <;> simp
@[simp] theorem fireEdge_regions {i : Nat} {l : Bool} : (fireEdge s i l).regions = s.regions := by unfold fireEdge; simp only []; (repeat' split) <;> simp
@[simp] theorem fireEdge_stage {i : Nat} {l : Bool} : (fireEdge s i l).stage = s.stage := by unfold fireEdge; simp only []; (repeat' split) <;> simp
@[simp] theorem fireEdge_opt {i : Nat} {l : Bool} : (fireEdge s i l).opt = s.opt := by unfold fireEdge; simp only []; (repeat' split) <;> simp
@[simp] theorem fireEdge_updateCmds {i : Nat} {l : Bool} : (fireEdge s i l).updateCmds = s.updateCmds := by unfold fireEdge; simp only []; (repeat' split) <;> simp
@[simp] theorem fireEdge_tarn {i : Nat} {l : Bool} : (fireEdge s i l).tarn = s.tarn := by unfold fireEdge; simp only []; (repeat' split) <;> simp
@[simp] theorem fireEdge_groups {i : Nat} {l : Bool} : (fireEdge s i l).groups = s.groups := by unfold fireEdge; simp only []; (repeat' split) <;> simp
@[simp] theorem fireEdge_buckets {i : Nat} {l : Bool} : (fireEdge s i l).buckets = s.buckets := by unfold fireEdge; simp only []; (repeat' split) <;> simp
@[simp] theorem fireEdge_ovt {i : Nat} {l : Bool} : (fireEdge s i l).ovt = s.ovt := by unfold fireEdge; simp only []; (repeat' split) <;> simp
@[simp] theorem fireEdge_fabric {i : Nat} {l : Bool} : (fireEdge s i l).fabric = s.fabric := by unfold fireEdge; simp only []; (repeat' split) <;> simp
@[simp] theorem fireEdge_net {i : Nat} {l : Bool} : (fireEdge s i l).net = s.net := by unfold fireEdge; simp only []; (repeat' split) <;> simp
@[simp] theorem fireEdge_host {i : Nat} {l : Bool} : (fireEdge s i l).host = s.host := by unfold fireEdge; simp only []; (repeat' split) <;> simp
@[simp] theorem fireEdge_eth {i : Nat} {l : Bool} : (fireEdge s i l).eth = s.eth := by unfold fireEdge; simp only []; (repeat' split) <;> simp
@[simp] theorem fireEdge_sec {i : Nat} {l : Bool} : (fireEdge s i l).sec = s.sec := by unfold fireEdge; simp only []; (repeat' split) <;> simp
@[simp] theorem fireEdge_power {i : Nat} {l : Bool} : (fireEdge s i l).power = s.power := by unfold fireEdge; simp only []; (repeat' split) <;> simp
@[simp] theorem fireEdge_telem {i : Nat} {l : Bool} : (fireEdge s i l).telem = s.telem := by unfold fireEdge; simp only []; (repeat' split) <;> simp

/-! The GTC steps forward. -/

@[simp] theorem stepGtc_pending {v : BitVec 64} : (stepGtc s v).pending = s.pending := by unfold stepGtc; split <;> [rfl; (simp only []; rw [foldl_keeps (g := State.pending) (fun _ _ => fireEdge_pending)])]
@[simp] theorem stepGtc_fresh {v : BitVec 64} : (stepGtc s v).fresh = s.fresh := by unfold stepGtc; split <;> [rfl; (simp only []; rw [foldl_keeps (g := State.fresh) (fun _ _ => fireEdge_fresh)])]
@[simp] theorem stepGtc_strikes {v : BitVec 64} : (stepGtc s v).strikes = s.strikes := by unfold stepGtc; split <;> [rfl; (simp only []; rw [foldl_keeps (g := State.strikes) (fun _ _ => fireEdge_strikes)])]
@[simp] theorem stepGtc_boot {v : BitVec 64} : (stepGtc s v).boot = s.boot := by unfold stepGtc; split <;> [rfl; (simp only []; rw [foldl_keeps (g := State.boot) (fun _ _ => fireEdge_boot)])]
@[simp] theorem stepGtc_mbx {v : BitVec 64} : (stepGtc s v).mbx = s.mbx := by unfold stepGtc; split <;> [rfl; (simp only []; rw [foldl_keeps (g := State.mbx) (fun _ _ => fireEdge_mbx)])]
@[simp] theorem stepGtc_hbm {v : BitVec 64} : (stepGtc s v).hbm = s.hbm := by unfold stepGtc; split <;> [rfl; (simp only []; rw [foldl_keeps (g := State.hbm) (fun _ _ => fireEdge_hbm)])]
@[simp] theorem stepGtc_regions {v : BitVec 64} : (stepGtc s v).regions = s.regions := by unfold stepGtc; split <;> [rfl; (simp only []; rw [foldl_keeps (g := State.regions) (fun _ _ => fireEdge_regions)])]
@[simp] theorem stepGtc_stage {v : BitVec 64} : (stepGtc s v).stage = s.stage := by unfold stepGtc; split <;> [rfl; (simp only []; rw [foldl_keeps (g := State.stage) (fun _ _ => fireEdge_stage)])]
@[simp] theorem stepGtc_opt {v : BitVec 64} : (stepGtc s v).opt = s.opt := by unfold stepGtc; split <;> [rfl; (simp only []; rw [foldl_keeps (g := State.opt) (fun _ _ => fireEdge_opt)])]
@[simp] theorem stepGtc_updateCmds {v : BitVec 64} : (stepGtc s v).updateCmds = s.updateCmds := by unfold stepGtc; split <;> [rfl; (simp only []; rw [foldl_keeps (g := State.updateCmds) (fun _ _ => fireEdge_updateCmds)])]
@[simp] theorem stepGtc_tarn {v : BitVec 64} : (stepGtc s v).tarn = s.tarn := by unfold stepGtc; split <;> [rfl; (simp only []; rw [foldl_keeps (g := State.tarn) (fun _ _ => fireEdge_tarn)])]
@[simp] theorem stepGtc_groups {v : BitVec 64} : (stepGtc s v).groups = s.groups := by unfold stepGtc; split <;> [rfl; (simp only []; rw [foldl_keeps (g := State.groups) (fun _ _ => fireEdge_groups)])]
@[simp] theorem stepGtc_buckets {v : BitVec 64} : (stepGtc s v).buckets = s.buckets := by unfold stepGtc; split <;> [rfl; (simp only []; rw [foldl_keeps (g := State.buckets) (fun _ _ => fireEdge_buckets)])]
@[simp] theorem stepGtc_ovt {v : BitVec 64} : (stepGtc s v).ovt = s.ovt := by unfold stepGtc; split <;> [rfl; (simp only []; rw [foldl_keeps (g := State.ovt) (fun _ _ => fireEdge_ovt)])]
@[simp] theorem stepGtc_fabric {v : BitVec 64} : (stepGtc s v).fabric = s.fabric := by unfold stepGtc; split <;> [rfl; (simp only []; rw [foldl_keeps (g := State.fabric) (fun _ _ => fireEdge_fabric)])]
@[simp] theorem stepGtc_net {v : BitVec 64} : (stepGtc s v).net = s.net := by unfold stepGtc; split <;> [rfl; (simp only []; rw [foldl_keeps (g := State.net) (fun _ _ => fireEdge_net)])]
@[simp] theorem stepGtc_host {v : BitVec 64} : (stepGtc s v).host = s.host := by unfold stepGtc; split <;> [rfl; (simp only []; rw [foldl_keeps (g := State.host) (fun _ _ => fireEdge_host)])]
@[simp] theorem stepGtc_eth {v : BitVec 64} : (stepGtc s v).eth = s.eth := by unfold stepGtc; split <;> [rfl; (simp only []; rw [foldl_keeps (g := State.eth) (fun _ _ => fireEdge_eth)])]
@[simp] theorem stepGtc_sec {v : BitVec 64} : (stepGtc s v).sec = s.sec := by unfold stepGtc; split <;> [rfl; (simp only []; rw [foldl_keeps (g := State.sec) (fun _ _ => fireEdge_sec)])]
@[simp] theorem stepGtc_power {v : BitVec 64} : (stepGtc s v).power = s.power := by unfold stepGtc; split <;> [rfl; (simp only []; rw [foldl_keeps (g := State.power) (fun _ _ => fireEdge_power)])]
@[simp] theorem stepGtc_telem {v : BitVec 64} : (stepGtc s v).telem = s.telem := by unfold stepGtc; split <;> [rfl; (simp only []; rw [foldl_keeps (g := State.telem) (fun _ _ => fireEdge_telem)])]

/-! The GTC slews. -/

@[simp] theorem slewGtc_pending {o : Int} : (slewGtc s o).pending = s.pending := rfl
@[simp] theorem slewGtc_out {o : Int} : (slewGtc s o).out = s.out := rfl
@[simp] theorem slewGtc_fresh {o : Int} : (slewGtc s o).fresh = s.fresh := rfl
@[simp] theorem slewGtc_strikes {o : Int} : (slewGtc s o).strikes = s.strikes := rfl
@[simp] theorem slewGtc_boot {o : Int} : (slewGtc s o).boot = s.boot := rfl
@[simp] theorem slewGtc_irq {o : Int} : (slewGtc s o).irq = s.irq := rfl
@[simp] theorem slewGtc_mbx {o : Int} : (slewGtc s o).mbx = s.mbx := rfl
@[simp] theorem slewGtc_cores {o : Int} : (slewGtc s o).cores = s.cores := rfl
@[simp] theorem slewGtc_hbm {o : Int} : (slewGtc s o).hbm = s.hbm := rfl
@[simp] theorem slewGtc_regions {o : Int} : (slewGtc s o).regions = s.regions := rfl
@[simp] theorem slewGtc_stage {o : Int} : (slewGtc s o).stage = s.stage := rfl
@[simp] theorem slewGtc_opt {o : Int} : (slewGtc s o).opt = s.opt := rfl
@[simp] theorem slewGtc_updateCmds {o : Int} : (slewGtc s o).updateCmds = s.updateCmds := rfl
@[simp] theorem slewGtc_tarn {o : Int} : (slewGtc s o).tarn = s.tarn := rfl
@[simp] theorem slewGtc_groups {o : Int} : (slewGtc s o).groups = s.groups := rfl
@[simp] theorem slewGtc_buckets {o : Int} : (slewGtc s o).buckets = s.buckets := rfl
@[simp] theorem slewGtc_ovt {o : Int} : (slewGtc s o).ovt = s.ovt := rfl
@[simp] theorem slewGtc_fabric {o : Int} : (slewGtc s o).fabric = s.fabric := rfl
@[simp] theorem slewGtc_net {o : Int} : (slewGtc s o).net = s.net := rfl
@[simp] theorem slewGtc_edges {o : Int} : (slewGtc s o).edges = s.edges := rfl
@[simp] theorem slewGtc_host {o : Int} : (slewGtc s o).host = s.host := rfl
@[simp] theorem slewGtc_eth {o : Int} : (slewGtc s o).eth = s.eth := rfl
@[simp] theorem slewGtc_err {o : Int} : (slewGtc s o).err = s.err := rfl
@[simp] theorem slewGtc_sec {o : Int} : (slewGtc s o).sec = s.sec := rfl
@[simp] theorem slewGtc_power {o : Int} : (slewGtc s o).power = s.power := rfl
@[simp] theorem slewGtc_telem {o : Int} : (slewGtc s o).telem = s.telem := rfl

/-! The time mode changes. -/

@[simp] theorem setMode_pending {f : TimeState → TimeState} : (setMode s f).pending = s.pending := by unfold setMode; simp only [rejudge_pending]; split <;> simp
@[simp] theorem setMode_fresh {f : TimeState → TimeState} : (setMode s f).fresh = s.fresh := by unfold setMode; simp only [rejudge_fresh]; split <;> simp
@[simp] theorem setMode_strikes {f : TimeState → TimeState} : (setMode s f).strikes = s.strikes := by unfold setMode; simp only [rejudge_strikes]; split <;> simp
@[simp] theorem setMode_boot {f : TimeState → TimeState} : (setMode s f).boot = s.boot := by unfold setMode; simp only [rejudge_boot]; split <;> simp
@[simp] theorem setMode_mbx {f : TimeState → TimeState} : (setMode s f).mbx = s.mbx := by unfold setMode; simp only [rejudge_mbx]; split <;> simp
@[simp] theorem setMode_hbm {f : TimeState → TimeState} : (setMode s f).hbm = s.hbm := by unfold setMode; simp only [rejudge_hbm]; split <;> simp
@[simp] theorem setMode_regions {f : TimeState → TimeState} : (setMode s f).regions = s.regions := by unfold setMode; simp only [rejudge_regions]; split <;> simp
@[simp] theorem setMode_opt {f : TimeState → TimeState} : (setMode s f).opt = s.opt := by unfold setMode; simp only [rejudge_opt]; split <;> simp
@[simp] theorem setMode_updateCmds {f : TimeState → TimeState} : (setMode s f).updateCmds = s.updateCmds := by unfold setMode; simp only [rejudge_updateCmds]; split <;> simp
@[simp] theorem setMode_tarn {f : TimeState → TimeState} : (setMode s f).tarn = s.tarn := by unfold setMode; simp only [rejudge_tarn]; split <;> simp
@[simp] theorem setMode_groups {f : TimeState → TimeState} : (setMode s f).groups = s.groups := by unfold setMode; simp only [rejudge_groups]; split <;> simp
@[simp] theorem setMode_buckets {f : TimeState → TimeState} : (setMode s f).buckets = s.buckets := by unfold setMode; simp only [rejudge_buckets]; split <;> simp
@[simp] theorem setMode_ovt {f : TimeState → TimeState} : (setMode s f).ovt = s.ovt := by unfold setMode; simp only [rejudge_ovt]; split <;> simp
@[simp] theorem setMode_edges {f : TimeState → TimeState} : (setMode s f).edges = s.edges := by unfold setMode; simp only [rejudge_edges]; split <;> simp
@[simp] theorem setMode_host {f : TimeState → TimeState} : (setMode s f).host = s.host := by unfold setMode; simp only [rejudge_host]; split <;> simp
@[simp] theorem setMode_sec {f : TimeState → TimeState} : (setMode s f).sec = s.sec := by unfold setMode; simp only [rejudge_sec]; split <;> simp
@[simp] theorem setMode_power {f : TimeState → TimeState} : (setMode s f).power = s.power := by unfold setMode; simp only [rejudge_power]; split <;> simp
@[simp] theorem setMode_telem {f : TimeState → TimeState} : (setMode s f).telem = s.telem := by unfold setMode; simp only [rejudge_telem]; split <;> simp

/-! Single-bit errors are corrected. -/

@[simp] theorem correctWeak_pending {a n : Nat} : (correctWeak s a n).pending = s.pending := by unfold correctWeak; simp only []; exact foldl_keeps (g := State.pending) (fun _ _ => by simp) _ _
@[simp] theorem correctWeak_fresh {a n : Nat} : (correctWeak s a n).fresh = s.fresh := by unfold correctWeak; simp only []; exact foldl_keeps (g := State.fresh) (fun _ _ => by simp) _ _
@[simp] theorem correctWeak_strikes {a n : Nat} : (correctWeak s a n).strikes = s.strikes := by unfold correctWeak; simp only []; exact foldl_keeps (g := State.strikes) (fun _ _ => by simp) _ _
@[simp] theorem correctWeak_boot {a n : Nat} : (correctWeak s a n).boot = s.boot := by unfold correctWeak; simp only []; exact foldl_keeps (g := State.boot) (fun _ _ => by simp) _ _
@[simp] theorem correctWeak_mbx {a n : Nat} : (correctWeak s a n).mbx = s.mbx := by unfold correctWeak; simp only []; exact foldl_keeps (g := State.mbx) (fun _ _ => by simp) _ _
@[simp] theorem correctWeak_cores {a n : Nat} : (correctWeak s a n).cores = s.cores := by unfold correctWeak; simp only []; exact foldl_keeps (g := State.cores) (fun _ _ => by simp) _ _
@[simp] theorem correctWeak_regions {a n : Nat} : (correctWeak s a n).regions = s.regions := by unfold correctWeak; simp only []; exact foldl_keeps (g := State.regions) (fun _ _ => by simp) _ _
@[simp] theorem correctWeak_stage {a n : Nat} : (correctWeak s a n).stage = s.stage := by unfold correctWeak; simp only []; exact foldl_keeps (g := State.stage) (fun _ _ => by simp) _ _
@[simp] theorem correctWeak_opt {a n : Nat} : (correctWeak s a n).opt = s.opt := by unfold correctWeak; simp only []; exact foldl_keeps (g := State.opt) (fun _ _ => by simp) _ _
@[simp] theorem correctWeak_updateCmds {a n : Nat} : (correctWeak s a n).updateCmds = s.updateCmds := by unfold correctWeak; simp only []; exact foldl_keeps (g := State.updateCmds) (fun _ _ => by simp) _ _
@[simp] theorem correctWeak_tarn {a n : Nat} : (correctWeak s a n).tarn = s.tarn := by unfold correctWeak; simp only []; exact foldl_keeps (g := State.tarn) (fun _ _ => by simp) _ _
@[simp] theorem correctWeak_groups {a n : Nat} : (correctWeak s a n).groups = s.groups := by unfold correctWeak; simp only []; exact foldl_keeps (g := State.groups) (fun _ _ => by simp) _ _
@[simp] theorem correctWeak_buckets {a n : Nat} : (correctWeak s a n).buckets = s.buckets := by unfold correctWeak; simp only []; exact foldl_keeps (g := State.buckets) (fun _ _ => by simp) _ _
@[simp] theorem correctWeak_ovt {a n : Nat} : (correctWeak s a n).ovt = s.ovt := by unfold correctWeak; simp only []; exact foldl_keeps (g := State.ovt) (fun _ _ => by simp) _ _
@[simp] theorem correctWeak_fabric {a n : Nat} : (correctWeak s a n).fabric = s.fabric := by unfold correctWeak; simp only []; exact foldl_keeps (g := State.fabric) (fun _ _ => by simp) _ _
@[simp] theorem correctWeak_net {a n : Nat} : (correctWeak s a n).net = s.net := by unfold correctWeak; simp only []; exact foldl_keeps (g := State.net) (fun _ _ => by simp) _ _
@[simp] theorem correctWeak_clock {a n : Nat} : (correctWeak s a n).clock = s.clock := by unfold correctWeak; simp only []; exact foldl_keeps (g := State.clock) (fun _ _ => by simp) _ _
@[simp] theorem correctWeak_edges {a n : Nat} : (correctWeak s a n).edges = s.edges := by unfold correctWeak; simp only []; exact foldl_keeps (g := State.edges) (fun _ _ => by simp) _ _
@[simp] theorem correctWeak_host {a n : Nat} : (correctWeak s a n).host = s.host := by unfold correctWeak; simp only []; exact foldl_keeps (g := State.host) (fun _ _ => by simp) _ _
@[simp] theorem correctWeak_eth {a n : Nat} : (correctWeak s a n).eth = s.eth := by unfold correctWeak; simp only []; exact foldl_keeps (g := State.eth) (fun _ _ => by simp) _ _
@[simp] theorem correctWeak_sec {a n : Nat} : (correctWeak s a n).sec = s.sec := by unfold correctWeak; simp only []; exact foldl_keeps (g := State.sec) (fun _ _ => by simp) _ _
@[simp] theorem correctWeak_power {a n : Nat} : (correctWeak s a n).power = s.power := by unfold correctWeak; simp only []; exact foldl_keeps (g := State.power) (fun _ _ => by simp) _ _
@[simp] theorem correctWeak_telem {a n : Nat} : (correctWeak s a n).telem = s.telem := by unfold correctWeak; simp only []; exact foldl_keeps (g := State.telem) (fun _ _ => by simp) _ _

/-! An HBM read. -/

@[simp] theorem hbmRead_pending {a n : Nat} : ((hbmRead s a n).2.2).pending = s.pending := by simp only [hbmRead]; split <;> simp
@[simp] theorem hbmRead_boot {a n : Nat} : ((hbmRead s a n).2.2).boot = s.boot := by simp only [hbmRead]; split <;> simp
@[simp] theorem hbmRead_mbx {a n : Nat} : ((hbmRead s a n).2.2).mbx = s.mbx := by simp only [hbmRead]; split <;> simp
@[simp] theorem hbmRead_cores {a n : Nat} : ((hbmRead s a n).2.2).cores = s.cores := by simp only [hbmRead]; split <;> simp
@[simp] theorem hbmRead_regions {a n : Nat} : ((hbmRead s a n).2.2).regions = s.regions := by simp only [hbmRead]; split <;> simp
@[simp] theorem hbmRead_stage {a n : Nat} : ((hbmRead s a n).2.2).stage = s.stage := by simp only [hbmRead]; split <;> simp
@[simp] theorem hbmRead_opt {a n : Nat} : ((hbmRead s a n).2.2).opt = s.opt := by simp only [hbmRead]; split <;> simp
@[simp] theorem hbmRead_updateCmds {a n : Nat} : ((hbmRead s a n).2.2).updateCmds = s.updateCmds := by simp only [hbmRead]; split <;> simp
@[simp] theorem hbmRead_tarn {a n : Nat} : ((hbmRead s a n).2.2).tarn = s.tarn := by simp only [hbmRead]; split <;> simp
@[simp] theorem hbmRead_groups {a n : Nat} : ((hbmRead s a n).2.2).groups = s.groups := by simp only [hbmRead]; split <;> simp
@[simp] theorem hbmRead_buckets {a n : Nat} : ((hbmRead s a n).2.2).buckets = s.buckets := by simp only [hbmRead]; split <;> simp
@[simp] theorem hbmRead_ovt {a n : Nat} : ((hbmRead s a n).2.2).ovt = s.ovt := by simp only [hbmRead]; split <;> simp
@[simp] theorem hbmRead_fabric {a n : Nat} : ((hbmRead s a n).2.2).fabric = s.fabric := by simp only [hbmRead]; split <;> simp
@[simp] theorem hbmRead_net {a n : Nat} : ((hbmRead s a n).2.2).net = s.net := by simp only [hbmRead]; split <;> simp
@[simp] theorem hbmRead_clock {a n : Nat} : ((hbmRead s a n).2.2).clock = s.clock := by simp only [hbmRead]; split <;> simp
@[simp] theorem hbmRead_edges {a n : Nat} : ((hbmRead s a n).2.2).edges = s.edges := by simp only [hbmRead]; split <;> simp
@[simp] theorem hbmRead_host {a n : Nat} : ((hbmRead s a n).2.2).host = s.host := by simp only [hbmRead]; split <;> simp
@[simp] theorem hbmRead_eth {a n : Nat} : ((hbmRead s a n).2.2).eth = s.eth := by simp only [hbmRead]; split <;> simp
@[simp] theorem hbmRead_sec {a n : Nat} : ((hbmRead s a n).2.2).sec = s.sec := by simp only [hbmRead]; split <;> simp
@[simp] theorem hbmRead_power {a n : Nat} : ((hbmRead s a n).2.2).power = s.power := by simp only [hbmRead]; split <;> simp
@[simp] theorem hbmRead_telem {a n : Nat} : ((hbmRead s a n).2.2).telem = s.telem := by simp only [hbmRead]; split <;> simp

/-! A word is read before its rest is written. -/

@[simp] theorem readWord_pending {i : Nat} : (readWord s i).pending = s.pending := by simp [readWord]
@[simp] theorem readWord_fresh {i : Nat} : (readWord s i).fresh = s.fresh := by simp [readWord]
@[simp] theorem readWord_strikes {i : Nat} : (readWord s i).strikes = s.strikes := by simp [readWord]
@[simp] theorem readWord_boot {i : Nat} : (readWord s i).boot = s.boot := by simp [readWord]
@[simp] theorem readWord_mbx {i : Nat} : (readWord s i).mbx = s.mbx := by simp [readWord]
@[simp] theorem readWord_cores {i : Nat} : (readWord s i).cores = s.cores := by simp [readWord]
@[simp] theorem readWord_regions {i : Nat} : (readWord s i).regions = s.regions := by simp [readWord]
@[simp] theorem readWord_stage {i : Nat} : (readWord s i).stage = s.stage := by simp [readWord]
@[simp] theorem readWord_opt {i : Nat} : (readWord s i).opt = s.opt := by simp [readWord]
@[simp] theorem readWord_updateCmds {i : Nat} : (readWord s i).updateCmds = s.updateCmds := by simp [readWord]
@[simp] theorem readWord_tarn {i : Nat} : (readWord s i).tarn = s.tarn := by simp [readWord]
@[simp] theorem readWord_groups {i : Nat} : (readWord s i).groups = s.groups := by simp [readWord]
@[simp] theorem readWord_buckets {i : Nat} : (readWord s i).buckets = s.buckets := by simp [readWord]
@[simp] theorem readWord_ovt {i : Nat} : (readWord s i).ovt = s.ovt := by simp [readWord]
@[simp] theorem readWord_fabric {i : Nat} : (readWord s i).fabric = s.fabric := by simp [readWord]
@[simp] theorem readWord_net {i : Nat} : (readWord s i).net = s.net := by simp [readWord]
@[simp] theorem readWord_clock {i : Nat} : (readWord s i).clock = s.clock := by simp [readWord]
@[simp] theorem readWord_edges {i : Nat} : (readWord s i).edges = s.edges := by simp [readWord]
@[simp] theorem readWord_host {i : Nat} : (readWord s i).host = s.host := by simp [readWord]
@[simp] theorem readWord_eth {i : Nat} : (readWord s i).eth = s.eth := by simp [readWord]
@[simp] theorem readWord_sec {i : Nat} : (readWord s i).sec = s.sec := by simp [readWord]
@[simp] theorem readWord_power {i : Nat} : (readWord s i).power = s.power := by simp [readWord]
@[simp] theorem readWord_telem {i : Nat} : (readWord s i).telem = s.telem := by simp [readWord]

/-! A word of an HBM write. -/

@[simp] theorem hbmWriteWord_pending {d : Nat → Nat → Bool} {w : Wr} {p : Nat × List Bt} : ((hbmWriteWord d w p).s).pending = w.s.pending := by unfold hbmWriteWord; simp only []; (repeat' split) <;> simp
@[simp] theorem hbmWriteWord_fresh {d : Nat → Nat → Bool} {w : Wr} {p : Nat × List Bt} : ((hbmWriteWord d w p).s).fresh = w.s.fresh := by unfold hbmWriteWord; simp only []; (repeat' split) <;> simp
@[simp] theorem hbmWriteWord_strikes {d : Nat → Nat → Bool} {w : Wr} {p : Nat × List Bt} : ((hbmWriteWord d w p).s).strikes = w.s.strikes := by unfold hbmWriteWord; simp only []; (repeat' split) <;> simp
@[simp] theorem hbmWriteWord_boot {d : Nat → Nat → Bool} {w : Wr} {p : Nat × List Bt} : ((hbmWriteWord d w p).s).boot = w.s.boot := by unfold hbmWriteWord; simp only []; (repeat' split) <;> simp
@[simp] theorem hbmWriteWord_mbx {d : Nat → Nat → Bool} {w : Wr} {p : Nat × List Bt} : ((hbmWriteWord d w p).s).mbx = w.s.mbx := by unfold hbmWriteWord; simp only []; (repeat' split) <;> simp
@[simp] theorem hbmWriteWord_cores {d : Nat → Nat → Bool} {w : Wr} {p : Nat × List Bt} : ((hbmWriteWord d w p).s).cores = w.s.cores := by unfold hbmWriteWord; simp only []; (repeat' split) <;> simp
@[simp] theorem hbmWriteWord_regions {d : Nat → Nat → Bool} {w : Wr} {p : Nat × List Bt} : ((hbmWriteWord d w p).s).regions = w.s.regions := by unfold hbmWriteWord; simp only []; (repeat' split) <;> simp
@[simp] theorem hbmWriteWord_stage {d : Nat → Nat → Bool} {w : Wr} {p : Nat × List Bt} : ((hbmWriteWord d w p).s).stage = w.s.stage := by unfold hbmWriteWord; simp only []; (repeat' split) <;> simp
@[simp] theorem hbmWriteWord_opt {d : Nat → Nat → Bool} {w : Wr} {p : Nat × List Bt} : ((hbmWriteWord d w p).s).opt = w.s.opt := by unfold hbmWriteWord; simp only []; (repeat' split) <;> simp
@[simp] theorem hbmWriteWord_updateCmds {d : Nat → Nat → Bool} {w : Wr} {p : Nat × List Bt} : ((hbmWriteWord d w p).s).updateCmds = w.s.updateCmds := by unfold hbmWriteWord; simp only []; (repeat' split) <;> simp
@[simp] theorem hbmWriteWord_tarn {d : Nat → Nat → Bool} {w : Wr} {p : Nat × List Bt} : ((hbmWriteWord d w p).s).tarn = w.s.tarn := by unfold hbmWriteWord; simp only []; (repeat' split) <;> simp
@[simp] theorem hbmWriteWord_groups {d : Nat → Nat → Bool} {w : Wr} {p : Nat × List Bt} : ((hbmWriteWord d w p).s).groups = w.s.groups := by unfold hbmWriteWord; simp only []; (repeat' split) <;> simp
@[simp] theorem hbmWriteWord_buckets {d : Nat → Nat → Bool} {w : Wr} {p : Nat × List Bt} : ((hbmWriteWord d w p).s).buckets = w.s.buckets := by unfold hbmWriteWord; simp only []; (repeat' split) <;> simp
@[simp] theorem hbmWriteWord_ovt {d : Nat → Nat → Bool} {w : Wr} {p : Nat × List Bt} : ((hbmWriteWord d w p).s).ovt = w.s.ovt := by unfold hbmWriteWord; simp only []; (repeat' split) <;> simp
@[simp] theorem hbmWriteWord_fabric {d : Nat → Nat → Bool} {w : Wr} {p : Nat × List Bt} : ((hbmWriteWord d w p).s).fabric = w.s.fabric := by unfold hbmWriteWord; simp only []; (repeat' split) <;> simp
@[simp] theorem hbmWriteWord_net {d : Nat → Nat → Bool} {w : Wr} {p : Nat × List Bt} : ((hbmWriteWord d w p).s).net = w.s.net := by unfold hbmWriteWord; simp only []; (repeat' split) <;> simp
@[simp] theorem hbmWriteWord_clock {d : Nat → Nat → Bool} {w : Wr} {p : Nat × List Bt} : ((hbmWriteWord d w p).s).clock = w.s.clock := by unfold hbmWriteWord; simp only []; (repeat' split) <;> simp
@[simp] theorem hbmWriteWord_edges {d : Nat → Nat → Bool} {w : Wr} {p : Nat × List Bt} : ((hbmWriteWord d w p).s).edges = w.s.edges := by unfold hbmWriteWord; simp only []; (repeat' split) <;> simp
@[simp] theorem hbmWriteWord_host {d : Nat → Nat → Bool} {w : Wr} {p : Nat × List Bt} : ((hbmWriteWord d w p).s).host = w.s.host := by unfold hbmWriteWord; simp only []; (repeat' split) <;> simp
@[simp] theorem hbmWriteWord_eth {d : Nat → Nat → Bool} {w : Wr} {p : Nat × List Bt} : ((hbmWriteWord d w p).s).eth = w.s.eth := by unfold hbmWriteWord; simp only []; (repeat' split) <;> simp
@[simp] theorem hbmWriteWord_sec {d : Nat → Nat → Bool} {w : Wr} {p : Nat × List Bt} : ((hbmWriteWord d w p).s).sec = w.s.sec := by unfold hbmWriteWord; simp only []; (repeat' split) <;> simp
@[simp] theorem hbmWriteWord_power {d : Nat → Nat → Bool} {w : Wr} {p : Nat × List Bt} : ((hbmWriteWord d w p).s).power = w.s.power := by unfold hbmWriteWord; simp only []; (repeat' split) <;> simp
@[simp] theorem hbmWriteWord_telem {d : Nat → Nat → Bool} {w : Wr} {p : Nat × List Bt} : ((hbmWriteWord d w p).s).telem = w.s.telem := by unfold hbmWriteWord; simp only []; (repeat' split) <;> simp

/-! An HBM write. -/

@[simp] theorem hbmWrite_pending {a : Nat} {bs : List Bt} : ((hbmWrite s a bs).s).pending = s.pending := by unfold hbmWrite; simp only []; split <;> [skip; simp only [postErr_pending]] <;> (rw [foldl_keeps (g := fun w : Wr => w.s.pending) (fun _ _ => hbmWriteWord_pending)])
@[simp] theorem hbmWrite_fresh {a : Nat} {bs : List Bt} : ((hbmWrite s a bs).s).fresh = s.fresh := by unfold hbmWrite; simp only []; split <;> [skip; simp only [postErr_fresh]] <;> (rw [foldl_keeps (g := fun w : Wr => w.s.fresh) (fun _ _ => hbmWriteWord_fresh)])
@[simp] theorem hbmWrite_strikes {a : Nat} {bs : List Bt} : ((hbmWrite s a bs).s).strikes = s.strikes := by unfold hbmWrite; simp only []; split <;> [skip; simp only [postErr_strikes]] <;> (rw [foldl_keeps (g := fun w : Wr => w.s.strikes) (fun _ _ => hbmWriteWord_strikes)])
@[simp] theorem hbmWrite_boot {a : Nat} {bs : List Bt} : ((hbmWrite s a bs).s).boot = s.boot := by unfold hbmWrite; simp only []; split <;> [skip; simp only [postErr_boot]] <;> (rw [foldl_keeps (g := fun w : Wr => w.s.boot) (fun _ _ => hbmWriteWord_boot)])
@[simp] theorem hbmWrite_mbx {a : Nat} {bs : List Bt} : ((hbmWrite s a bs).s).mbx = s.mbx := by unfold hbmWrite; simp only []; split <;> [skip; simp only [postErr_mbx]] <;> (rw [foldl_keeps (g := fun w : Wr => w.s.mbx) (fun _ _ => hbmWriteWord_mbx)])
@[simp] theorem hbmWrite_cores {a : Nat} {bs : List Bt} : ((hbmWrite s a bs).s).cores = s.cores := by unfold hbmWrite; simp only []; split <;> [skip; simp only [postErr_cores]] <;> (rw [foldl_keeps (g := fun w : Wr => w.s.cores) (fun _ _ => hbmWriteWord_cores)])
@[simp] theorem hbmWrite_regions {a : Nat} {bs : List Bt} : ((hbmWrite s a bs).s).regions = s.regions := by unfold hbmWrite; simp only []; split <;> [skip; simp only [postErr_regions]] <;> (rw [foldl_keeps (g := fun w : Wr => w.s.regions) (fun _ _ => hbmWriteWord_regions)])
@[simp] theorem hbmWrite_stage {a : Nat} {bs : List Bt} : ((hbmWrite s a bs).s).stage = s.stage := by unfold hbmWrite; simp only []; split <;> [skip; simp only [postErr_stage]] <;> (rw [foldl_keeps (g := fun w : Wr => w.s.stage) (fun _ _ => hbmWriteWord_stage)])
@[simp] theorem hbmWrite_opt {a : Nat} {bs : List Bt} : ((hbmWrite s a bs).s).opt = s.opt := by unfold hbmWrite; simp only []; split <;> [skip; simp only [postErr_opt]] <;> (rw [foldl_keeps (g := fun w : Wr => w.s.opt) (fun _ _ => hbmWriteWord_opt)])
@[simp] theorem hbmWrite_updateCmds {a : Nat} {bs : List Bt} : ((hbmWrite s a bs).s).updateCmds = s.updateCmds := by unfold hbmWrite; simp only []; split <;> [skip; simp only [postErr_updateCmds]] <;> (rw [foldl_keeps (g := fun w : Wr => w.s.updateCmds) (fun _ _ => hbmWriteWord_updateCmds)])
@[simp] theorem hbmWrite_tarn {a : Nat} {bs : List Bt} : ((hbmWrite s a bs).s).tarn = s.tarn := by unfold hbmWrite; simp only []; split <;> [skip; simp only [postErr_tarn]] <;> (rw [foldl_keeps (g := fun w : Wr => w.s.tarn) (fun _ _ => hbmWriteWord_tarn)])
@[simp] theorem hbmWrite_groups {a : Nat} {bs : List Bt} : ((hbmWrite s a bs).s).groups = s.groups := by unfold hbmWrite; simp only []; split <;> [skip; simp only [postErr_groups]] <;> (rw [foldl_keeps (g := fun w : Wr => w.s.groups) (fun _ _ => hbmWriteWord_groups)])
@[simp] theorem hbmWrite_buckets {a : Nat} {bs : List Bt} : ((hbmWrite s a bs).s).buckets = s.buckets := by unfold hbmWrite; simp only []; split <;> [skip; simp only [postErr_buckets]] <;> (rw [foldl_keeps (g := fun w : Wr => w.s.buckets) (fun _ _ => hbmWriteWord_buckets)])
@[simp] theorem hbmWrite_ovt {a : Nat} {bs : List Bt} : ((hbmWrite s a bs).s).ovt = s.ovt := by unfold hbmWrite; simp only []; split <;> [skip; simp only [postErr_ovt]] <;> (rw [foldl_keeps (g := fun w : Wr => w.s.ovt) (fun _ _ => hbmWriteWord_ovt)])
@[simp] theorem hbmWrite_fabric {a : Nat} {bs : List Bt} : ((hbmWrite s a bs).s).fabric = s.fabric := by unfold hbmWrite; simp only []; split <;> [skip; simp only [postErr_fabric]] <;> (rw [foldl_keeps (g := fun w : Wr => w.s.fabric) (fun _ _ => hbmWriteWord_fabric)])
@[simp] theorem hbmWrite_net {a : Nat} {bs : List Bt} : ((hbmWrite s a bs).s).net = s.net := by unfold hbmWrite; simp only []; split <;> [skip; simp only [postErr_net]] <;> (rw [foldl_keeps (g := fun w : Wr => w.s.net) (fun _ _ => hbmWriteWord_net)])
@[simp] theorem hbmWrite_clock {a : Nat} {bs : List Bt} : ((hbmWrite s a bs).s).clock = s.clock := by unfold hbmWrite; simp only []; split <;> [skip; simp only [postErr_clock]] <;> (rw [foldl_keeps (g := fun w : Wr => w.s.clock) (fun _ _ => hbmWriteWord_clock)])
@[simp] theorem hbmWrite_edges {a : Nat} {bs : List Bt} : ((hbmWrite s a bs).s).edges = s.edges := by unfold hbmWrite; simp only []; split <;> [skip; simp only [postErr_edges]] <;> (rw [foldl_keeps (g := fun w : Wr => w.s.edges) (fun _ _ => hbmWriteWord_edges)])
@[simp] theorem hbmWrite_host {a : Nat} {bs : List Bt} : ((hbmWrite s a bs).s).host = s.host := by unfold hbmWrite; simp only []; split <;> [skip; simp only [postErr_host]] <;> (rw [foldl_keeps (g := fun w : Wr => w.s.host) (fun _ _ => hbmWriteWord_host)])
@[simp] theorem hbmWrite_eth {a : Nat} {bs : List Bt} : ((hbmWrite s a bs).s).eth = s.eth := by unfold hbmWrite; simp only []; split <;> [skip; simp only [postErr_eth]] <;> (rw [foldl_keeps (g := fun w : Wr => w.s.eth) (fun _ _ => hbmWriteWord_eth)])
@[simp] theorem hbmWrite_sec {a : Nat} {bs : List Bt} : ((hbmWrite s a bs).s).sec = s.sec := by unfold hbmWrite; simp only []; split <;> [skip; simp only [postErr_sec]] <;> (rw [foldl_keeps (g := fun w : Wr => w.s.sec) (fun _ _ => hbmWriteWord_sec)])
@[simp] theorem hbmWrite_power {a : Nat} {bs : List Bt} : ((hbmWrite s a bs).s).power = s.power := by unfold hbmWrite; simp only []; split <;> [skip; simp only [postErr_power]] <;> (rw [foldl_keeps (g := fun w : Wr => w.s.power) (fun _ _ => hbmWriteWord_power)])
@[simp] theorem hbmWrite_telem {a : Nat} {bs : List Bt} : ((hbmWrite s a bs).s).telem = s.telem := by unfold hbmWrite; simp only []; split <;> [skip; simp only [postErr_telem]] <;> (rw [foldl_keeps (g := fun w : Wr => w.s.telem) (fun _ _ => hbmWriteWord_telem)])

/-! A scratchpad write. -/

@[simp] theorem spadWrite_pending {c a : Nat} {bs : List Bt} : ((spadWrite s c a bs).1).pending = s.pending := rfl
@[simp] theorem spadWrite_out {c a : Nat} {bs : List Bt} : ((spadWrite s c a bs).1).out = s.out := rfl
@[simp] theorem spadWrite_fresh {c a : Nat} {bs : List Bt} : ((spadWrite s c a bs).1).fresh = s.fresh := rfl
@[simp] theorem spadWrite_strikes {c a : Nat} {bs : List Bt} : ((spadWrite s c a bs).1).strikes = s.strikes := rfl
@[simp] theorem spadWrite_boot {c a : Nat} {bs : List Bt} : ((spadWrite s c a bs).1).boot = s.boot := rfl
@[simp] theorem spadWrite_irq {c a : Nat} {bs : List Bt} : ((spadWrite s c a bs).1).irq = s.irq := rfl
@[simp] theorem spadWrite_mbx {c a : Nat} {bs : List Bt} : ((spadWrite s c a bs).1).mbx = s.mbx := rfl
@[simp] theorem spadWrite_hbm {c a : Nat} {bs : List Bt} : ((spadWrite s c a bs).1).hbm = s.hbm := rfl
@[simp] theorem spadWrite_regions {c a : Nat} {bs : List Bt} : ((spadWrite s c a bs).1).regions = s.regions := rfl
@[simp] theorem spadWrite_stage {c a : Nat} {bs : List Bt} : ((spadWrite s c a bs).1).stage = s.stage := rfl
@[simp] theorem spadWrite_opt {c a : Nat} {bs : List Bt} : ((spadWrite s c a bs).1).opt = s.opt := rfl
@[simp] theorem spadWrite_updateCmds {c a : Nat} {bs : List Bt} : ((spadWrite s c a bs).1).updateCmds = s.updateCmds := rfl
@[simp] theorem spadWrite_tarn {c a : Nat} {bs : List Bt} : ((spadWrite s c a bs).1).tarn = s.tarn := rfl
@[simp] theorem spadWrite_groups {c a : Nat} {bs : List Bt} : ((spadWrite s c a bs).1).groups = s.groups := rfl
@[simp] theorem spadWrite_buckets {c a : Nat} {bs : List Bt} : ((spadWrite s c a bs).1).buckets = s.buckets := rfl
@[simp] theorem spadWrite_ovt {c a : Nat} {bs : List Bt} : ((spadWrite s c a bs).1).ovt = s.ovt := rfl
@[simp] theorem spadWrite_fabric {c a : Nat} {bs : List Bt} : ((spadWrite s c a bs).1).fabric = s.fabric := rfl
@[simp] theorem spadWrite_net {c a : Nat} {bs : List Bt} : ((spadWrite s c a bs).1).net = s.net := rfl
@[simp] theorem spadWrite_clock {c a : Nat} {bs : List Bt} : ((spadWrite s c a bs).1).clock = s.clock := rfl
@[simp] theorem spadWrite_edges {c a : Nat} {bs : List Bt} : ((spadWrite s c a bs).1).edges = s.edges := rfl
@[simp] theorem spadWrite_host {c a : Nat} {bs : List Bt} : ((spadWrite s c a bs).1).host = s.host := rfl
@[simp] theorem spadWrite_eth {c a : Nat} {bs : List Bt} : ((spadWrite s c a bs).1).eth = s.eth := rfl
@[simp] theorem spadWrite_err {c a : Nat} {bs : List Bt} : ((spadWrite s c a bs).1).err = s.err := rfl
@[simp] theorem spadWrite_sec {c a : Nat} {bs : List Bt} : ((spadWrite s c a bs).1).sec = s.sec := rfl
@[simp] theorem spadWrite_power {c a : Nat} {bs : List Bt} : ((spadWrite s c a bs).1).power = s.power := rfl
@[simp] theorem spadWrite_telem {c a : Nat} {bs : List Bt} : ((spadWrite s c a bs).1).telem = s.telem := rfl

/-! A device write. -/

@[simp] theorem devWrite_pending {a : Nat} {bs : List Bt} : ((devWrite s a bs).1).pending = s.pending := by unfold devWrite; split <;> simp
@[simp] theorem devWrite_fresh {a : Nat} {bs : List Bt} : ((devWrite s a bs).1).fresh = s.fresh := by unfold devWrite; split <;> simp
@[simp] theorem devWrite_strikes {a : Nat} {bs : List Bt} : ((devWrite s a bs).1).strikes = s.strikes := by unfold devWrite; split <;> simp
@[simp] theorem devWrite_boot {a : Nat} {bs : List Bt} : ((devWrite s a bs).1).boot = s.boot := by unfold devWrite; split <;> simp
@[simp] theorem devWrite_mbx {a : Nat} {bs : List Bt} : ((devWrite s a bs).1).mbx = s.mbx := by unfold devWrite; split <;> simp
@[simp] theorem devWrite_regions {a : Nat} {bs : List Bt} : ((devWrite s a bs).1).regions = s.regions := by unfold devWrite; split <;> simp
@[simp] theorem devWrite_stage {a : Nat} {bs : List Bt} : ((devWrite s a bs).1).stage = s.stage := by unfold devWrite; split <;> simp
@[simp] theorem devWrite_opt {a : Nat} {bs : List Bt} : ((devWrite s a bs).1).opt = s.opt := by unfold devWrite; split <;> simp
@[simp] theorem devWrite_updateCmds {a : Nat} {bs : List Bt} : ((devWrite s a bs).1).updateCmds = s.updateCmds := by unfold devWrite; split <;> simp
@[simp] theorem devWrite_tarn {a : Nat} {bs : List Bt} : ((devWrite s a bs).1).tarn = s.tarn := by unfold devWrite; split <;> simp
@[simp] theorem devWrite_groups {a : Nat} {bs : List Bt} : ((devWrite s a bs).1).groups = s.groups := by unfold devWrite; split <;> simp
@[simp] theorem devWrite_buckets {a : Nat} {bs : List Bt} : ((devWrite s a bs).1).buckets = s.buckets := by unfold devWrite; split <;> simp
@[simp] theorem devWrite_ovt {a : Nat} {bs : List Bt} : ((devWrite s a bs).1).ovt = s.ovt := by unfold devWrite; split <;> simp
@[simp] theorem devWrite_fabric {a : Nat} {bs : List Bt} : ((devWrite s a bs).1).fabric = s.fabric := by unfold devWrite; split <;> simp
@[simp] theorem devWrite_net {a : Nat} {bs : List Bt} : ((devWrite s a bs).1).net = s.net := by unfold devWrite; split <;> simp
@[simp] theorem devWrite_clock {a : Nat} {bs : List Bt} : ((devWrite s a bs).1).clock = s.clock := by unfold devWrite; split <;> simp
@[simp] theorem devWrite_edges {a : Nat} {bs : List Bt} : ((devWrite s a bs).1).edges = s.edges := by unfold devWrite; split <;> simp
@[simp] theorem devWrite_host {a : Nat} {bs : List Bt} : ((devWrite s a bs).1).host = s.host := by unfold devWrite; split <;> simp
@[simp] theorem devWrite_eth {a : Nat} {bs : List Bt} : ((devWrite s a bs).1).eth = s.eth := by unfold devWrite; split <;> simp
@[simp] theorem devWrite_sec {a : Nat} {bs : List Bt} : ((devWrite s a bs).1).sec = s.sec := by unfold devWrite; split <;> simp
@[simp] theorem devWrite_power {a : Nat} {bs : List Bt} : ((devWrite s a bs).1).power = s.power := by unfold devWrite; split <;> simp
@[simp] theorem devWrite_telem {a : Nat} {bs : List Bt} : ((devWrite s a bs).1).telem = s.telem := by unfold devWrite; split <;> simp

/-! A device read. -/

@[simp] theorem devRead_pending {a n : Nat} : ((devRead s a n).2.2).pending = s.pending := by unfold devRead; split <;> [simp; (simp only []; split <;> rfl); rfl]
@[simp] theorem devRead_boot {a n : Nat} : ((devRead s a n).2.2).boot = s.boot := by unfold devRead; split <;> [simp; (simp only []; split <;> rfl); rfl]
@[simp] theorem devRead_mbx {a n : Nat} : ((devRead s a n).2.2).mbx = s.mbx := by unfold devRead; split <;> [simp; (simp only []; split <;> rfl); rfl]
@[simp] theorem devRead_cores {a n : Nat} : ((devRead s a n).2.2).cores = s.cores := by unfold devRead; split <;> [simp; (simp only []; split <;> rfl); rfl]
@[simp] theorem devRead_regions {a n : Nat} : ((devRead s a n).2.2).regions = s.regions := by unfold devRead; split <;> [simp; (simp only []; split <;> rfl); rfl]
@[simp] theorem devRead_stage {a n : Nat} : ((devRead s a n).2.2).stage = s.stage := by unfold devRead; split <;> [simp; (simp only []; split <;> rfl); rfl]
@[simp] theorem devRead_opt {a n : Nat} : ((devRead s a n).2.2).opt = s.opt := by unfold devRead; split <;> [simp; (simp only []; split <;> rfl); rfl]
@[simp] theorem devRead_updateCmds {a n : Nat} : ((devRead s a n).2.2).updateCmds = s.updateCmds := by unfold devRead; split <;> [simp; (simp only []; split <;> rfl); rfl]
@[simp] theorem devRead_tarn {a n : Nat} : ((devRead s a n).2.2).tarn = s.tarn := by unfold devRead; split <;> [simp; (simp only []; split <;> rfl); rfl]
@[simp] theorem devRead_groups {a n : Nat} : ((devRead s a n).2.2).groups = s.groups := by unfold devRead; split <;> [simp; (simp only []; split <;> rfl); rfl]
@[simp] theorem devRead_buckets {a n : Nat} : ((devRead s a n).2.2).buckets = s.buckets := by unfold devRead; split <;> [simp; (simp only []; split <;> rfl); rfl]
@[simp] theorem devRead_ovt {a n : Nat} : ((devRead s a n).2.2).ovt = s.ovt := by unfold devRead; split <;> [simp; (simp only []; split <;> rfl); rfl]
@[simp] theorem devRead_fabric {a n : Nat} : ((devRead s a n).2.2).fabric = s.fabric := by unfold devRead; split <;> [simp; (simp only []; split <;> rfl); rfl]
@[simp] theorem devRead_net {a n : Nat} : ((devRead s a n).2.2).net = s.net := by unfold devRead; split <;> [simp; (simp only []; split <;> rfl); rfl]
@[simp] theorem devRead_clock {a n : Nat} : ((devRead s a n).2.2).clock = s.clock := by unfold devRead; split <;> [simp; (simp only []; split <;> rfl); rfl]
@[simp] theorem devRead_edges {a n : Nat} : ((devRead s a n).2.2).edges = s.edges := by unfold devRead; split <;> [simp; (simp only []; split <;> rfl); rfl]
@[simp] theorem devRead_host {a n : Nat} : ((devRead s a n).2.2).host = s.host := by unfold devRead; split <;> [simp; (simp only []; split <;> rfl); rfl]
@[simp] theorem devRead_eth {a n : Nat} : ((devRead s a n).2.2).eth = s.eth := by unfold devRead; split <;> [simp; (simp only []; split <;> rfl); rfl]
@[simp] theorem devRead_sec {a n : Nat} : ((devRead s a n).2.2).sec = s.sec := by unfold devRead; split <;> [simp; (simp only []; split <;> rfl); rfl]
@[simp] theorem devRead_power {a n : Nat} : ((devRead s a n).2.2).power = s.power := by unfold devRead; split <;> [simp; (simp only []; split <;> rfl); rfl]
@[simp] theorem devRead_telem {a n : Nat} : ((devRead s a n).2.2).telem = s.telem := by unfold devRead; split <;> [simp; (simp only []; split <;> rfl); rfl]

/-! Snoops go out. -/

@[simp] theorem sendSnoops_pending {l : List Nat} {i : Bool} : (sendSnoops s l i).pending = s.pending := foldl_keeps (g := State.pending) (fun _ _ => by split <;> simp) _ _
@[simp] theorem sendSnoops_fresh {l : List Nat} {i : Bool} : (sendSnoops s l i).fresh = s.fresh := foldl_keeps (g := State.fresh) (fun _ _ => by split <;> simp) _ _
@[simp] theorem sendSnoops_strikes {l : List Nat} {i : Bool} : (sendSnoops s l i).strikes = s.strikes := foldl_keeps (g := State.strikes) (fun _ _ => by split <;> simp) _ _
@[simp] theorem sendSnoops_boot {l : List Nat} {i : Bool} : (sendSnoops s l i).boot = s.boot := foldl_keeps (g := State.boot) (fun _ _ => by split <;> simp) _ _
@[simp] theorem sendSnoops_irq {l : List Nat} {i : Bool} : (sendSnoops s l i).irq = s.irq := foldl_keeps (g := State.irq) (fun _ _ => by split <;> simp) _ _
@[simp] theorem sendSnoops_mbx {l : List Nat} {i : Bool} : (sendSnoops s l i).mbx = s.mbx := foldl_keeps (g := State.mbx) (fun _ _ => by split <;> simp) _ _
@[simp] theorem sendSnoops_cores {l : List Nat} {i : Bool} : (sendSnoops s l i).cores = s.cores := foldl_keeps (g := State.cores) (fun _ _ => by split <;> simp) _ _
@[simp] theorem sendSnoops_hbm {l : List Nat} {i : Bool} : (sendSnoops s l i).hbm = s.hbm := foldl_keeps (g := State.hbm) (fun _ _ => by split <;> simp) _ _
@[simp] theorem sendSnoops_regions {l : List Nat} {i : Bool} : (sendSnoops s l i).regions = s.regions := foldl_keeps (g := State.regions) (fun _ _ => by split <;> simp) _ _
@[simp] theorem sendSnoops_stage {l : List Nat} {i : Bool} : (sendSnoops s l i).stage = s.stage := foldl_keeps (g := State.stage) (fun _ _ => by split <;> simp) _ _
@[simp] theorem sendSnoops_opt {l : List Nat} {i : Bool} : (sendSnoops s l i).opt = s.opt := foldl_keeps (g := State.opt) (fun _ _ => by split <;> simp) _ _
@[simp] theorem sendSnoops_updateCmds {l : List Nat} {i : Bool} : (sendSnoops s l i).updateCmds = s.updateCmds := foldl_keeps (g := State.updateCmds) (fun _ _ => by split <;> simp) _ _
@[simp] theorem sendSnoops_tarn {l : List Nat} {i : Bool} : (sendSnoops s l i).tarn = s.tarn := foldl_keeps (g := State.tarn) (fun _ _ => by split <;> simp) _ _
@[simp] theorem sendSnoops_groups {l : List Nat} {i : Bool} : (sendSnoops s l i).groups = s.groups := foldl_keeps (g := State.groups) (fun _ _ => by split <;> simp) _ _
@[simp] theorem sendSnoops_buckets {l : List Nat} {i : Bool} : (sendSnoops s l i).buckets = s.buckets := foldl_keeps (g := State.buckets) (fun _ _ => by split <;> simp) _ _
@[simp] theorem sendSnoops_ovt {l : List Nat} {i : Bool} : (sendSnoops s l i).ovt = s.ovt := foldl_keeps (g := State.ovt) (fun _ _ => by split <;> simp) _ _
@[simp] theorem sendSnoops_fabric {l : List Nat} {i : Bool} : (sendSnoops s l i).fabric = s.fabric := foldl_keeps (g := State.fabric) (fun _ _ => by split <;> simp) _ _
@[simp] theorem sendSnoops_net {l : List Nat} {i : Bool} : (sendSnoops s l i).net = s.net := foldl_keeps (g := State.net) (fun _ _ => by split <;> simp) _ _
@[simp] theorem sendSnoops_clock {l : List Nat} {i : Bool} : (sendSnoops s l i).clock = s.clock := foldl_keeps (g := State.clock) (fun _ _ => by split <;> simp) _ _
@[simp] theorem sendSnoops_edges {l : List Nat} {i : Bool} : (sendSnoops s l i).edges = s.edges := foldl_keeps (g := State.edges) (fun _ _ => by split <;> simp) _ _
@[simp] theorem sendSnoops_eth {l : List Nat} {i : Bool} : (sendSnoops s l i).eth = s.eth := foldl_keeps (g := State.eth) (fun _ _ => by split <;> simp) _ _
@[simp] theorem sendSnoops_err {l : List Nat} {i : Bool} : (sendSnoops s l i).err = s.err := foldl_keeps (g := State.err) (fun _ _ => by split <;> simp) _ _
@[simp] theorem sendSnoops_sec {l : List Nat} {i : Bool} : (sendSnoops s l i).sec = s.sec := foldl_keeps (g := State.sec) (fun _ _ => by split <;> simp) _ _
@[simp] theorem sendSnoops_power {l : List Nat} {i : Bool} : (sendSnoops s l i).power = s.power := foldl_keeps (g := State.power) (fun _ _ => by split <;> simp) _ _
@[simp] theorem sendSnoops_telem {l : List Nat} {i : Bool} : (sendSnoops s l i).telem = s.telem := foldl_keeps (g := State.telem) (fun _ _ => by split <;> simp) _ _

end Sys2Proof.Machine
end

