-- ==== Sys2Proof/Laws/Bytes.lean ====
section
/-! SUPPORT. The operations that store no byte: after each, every byte of external memory and of every scratchpad reads as before. The scratchpad of core `c` is written out as its table, so that record updates fall away. -/

namespace Sys2Proof.Machine

set_option Elab.async false

variable {s : State}

/-- A core's scratchpad, by the table of cores. -/
def spadOf (t : Tbl Core) (c : Nat) : Tbl Byte := (tget Core.init t c).spad

/-- A core's scratchpad is the one of the table. -/
theorem core_spad {c : Nat} : (s.core c).spad = spadOf s.cores c := rfl

/-- A changed core keeps the bytes of every scratchpad where the change keeps them. -/
theorem spadOf_tmod {t : Tbl Core} {c k : Nat} {f : Core → Core} (h : ∀ x, (f x).spad = x.spad) : spadOf (tmod Core.init t c f) k = spadOf t k := by
  simp only [spadOf, tmod, tget_tset]
  split
  · rename_i e
    rw [h, e]
  · rfl

/-- A change of a core that keeps its bytes keeps every scratchpad. -/
theorem modCore_spad {c k : Nat} {f : Core → Core} (h : ∀ x, (f x).spad = x.spad) : spadOf (s.modCore c f).cores k = spadOf s.cores k := by
  simp only [State.modCore]
  exact spadOf_tmod h

@[simp] theorem modQueue_spad {c q k : Nat} {f : CmdQueue → CmdQueue} : spadOf (s.modQueue c q f).cores k = spadOf s.cores k := modCore_spad fun _ => rfl
@[simp] theorem modStarted_spad {c q i k : Nat} {f : Started → Started} : spadOf (s.modStarted c q i f).cores k = spadOf s.cores k := modCore_spad fun _ => rfl
@[simp] theorem modCfg_spad {c k : Nat} {f : CoreCfg → CoreCfg} : spadOf (s.modCfg c f).cores k = spadOf s.cores k := modCore_spad fun _ => rfl
@[simp] theorem setTags_spad {x : Core} {l : List Nat} {v : Bool} : (x.setTags l v).spad = x.spad := by
  unfold Core.setTags
  split <;> rfl
@[simp] theorem publish_spad {c a n k : Nat} : spadOf (s.publish c a n).cores k = spadOf s.cores k := modCore_spad fun _ => setTags_spad
@[simp] theorem arrive_spad {c i n k : Nat} {l : Bool} : spadOf (s.arrive c i n l).cores k = spadOf s.cores k := modCore_spad fun _ => rfl
@[simp] theorem addEvent_spad {c i n k : Nat} : spadOf (addEvent s c i n).1.cores k = spadOf s.cores k := modCore_spad fun _ => rfl

@[simp] theorem loseOp_spad {o : NetOp} {k : Nat} : spadOf (s.loseOp o).cores k = spadOf s.cores k := by
  unfold State.loseOp
  simp only []
  split <;> simp

@[simp] theorem losePath_spad {v : Via} {k : Nat} : spadOf (s.losePath v).cores k = spadOf s.cores k := by
  unfold State.losePath
  simp only [countFailed_cores]
  exact (foldl_keeps (g := fun s : State => spadOf s.cores k) (fun _ _ => modStarted_spad) _ _).trans
    (foldl_keeps (g := fun s : State => spadOf s.cores k) (fun _ _ => loseOp_spad) _ _)

@[simp] theorem losePort_spad {p k : Nat} {b : Bool} : spadOf (s.losePort p b).cores k = spadOf s.cores k := by
  simp only [State.losePort, holdLost_cores, modPort_cores, losePath_spad]

@[simp] theorem wakeEndpoint_spad {p : Nat → Bool} {k : Nat} : spadOf (s.wakeEndpoint p).cores k = spadOf s.cores k := by
  unfold State.wakeEndpoint
  exact foldl_keeps (g := fun s : State => spadOf s.cores k) (fun _ _ => modStarted_spad) _ _

@[simp] theorem flushCredits_spad {k : Nat} : spadOf s.flushCredits.cores k = spadOf s.cores k := by
  unfold State.flushCredits
  simp only [wakeEndpoint_spad]
  rw [foldl_keeps (g := State.cores) (fun _ _ => sendCredit_cores)]

@[simp] theorem cutEndpoint_spad {i k : Nat} {st : BitVec 16} : spadOf (s.cutEndpoint i st).cores k = spadOf s.cores k := by
  unfold State.cutEndpoint
  simp only [wakeEndpoint_spad]
  rw [foldl_keeps (g := State.cores) (fun _ _ => by split <;> simp)]
  simp only [withdraw_cores]
  exact foldl_keeps (g := fun s : State => spadOf s.cores k) (fun _ _ => by split <;> simp) _ _

@[simp] theorem judgeEndpoint_spad {i k : Nat} : spadOf (s.judgeEndpoint i).cores k = spadOf s.cores k := by
  unfold State.judgeEndpoint
  simp only []
  (repeat' split) <;> simp

@[simp] theorem judgeAll_spad {k : Nat} : spadOf s.judgeAll.cores k = spadOf s.cores k := foldl_keeps (g := fun s : State => spadOf s.cores k) (fun _ _ => judgeEndpoint_spad) _ _

@[simp] theorem loseConn_spad {c k : Nat} : spadOf (s.loseConn c).cores k = spadOf s.cores k := by
  simp only [State.loseConn, holdLost_cores, modConn_cores, losePath_spad]

@[simp] theorem endSession_spad {p k : Nat} : spadOf (s.endSession p).cores k = spadOf s.cores k := by
  unfold State.endSession
  split <;> simp

@[simp] theorem settlePort_spad {p k : Nat} : spadOf (s.settlePort p).cores k = spadOf s.cores k := by
  unfold State.settlePort
  simp only []
  (repeat' split) <;> simp

@[simp] theorem settlePorts_spad {k : Nat} : spadOf s.settlePorts.cores k = spadOf s.cores k := by
  unfold State.settlePorts
  simp only [flushCredits_spad]
  exact foldl_keeps (g := fun s : State => spadOf s.cores k) (fun _ _ => settlePort_spad) _ _

@[simp] theorem rejudge_spad {k : Nat} : spadOf s.rejudge.cores k = spadOf s.cores k := by simp [State.rejudge]

@[simp] theorem contain_spad {k : Nat} : spadOf s.contain.cores k = spadOf s.cores k := by
  unfold State.contain
  split
  · simp
  · simp only [assertAlert_cores, helloAll_cores]
    rw [foldl_keeps (g := fun s : State => spadOf s.cores k) (fun _ _ => by split <;> simp)]
    simp

@[simp] theorem deviceErr_spad {r : ErrRec} {k : Nat} : spadOf (s.deviceErr r).cores k = spadOf s.cores k := by simp [State.deviceErr]

@[simp] theorem setMode_spad {f : TimeState → TimeState} {k : Nat} : spadOf (setMode s f).cores k = spadOf s.cores k := by
  unfold setMode
  simp only [rejudge_spad]
  split <;> simp

@[simp] theorem fireEdge_spad {i k : Nat} {l : Bool} : spadOf (fireEdge s i l).cores k = spadOf s.cores k := by
  unfold fireEdge
  simp only []
  (repeat' split) <;> simp

@[simp] theorem stepGtc_spad {v : BitVec 64} {k : Nat} : spadOf (stepGtc s v).cores k = spadOf s.cores k := by
  unfold stepGtc
  split
  · rfl
  · simp only []
    rw [foldl_keeps (g := fun s : State => spadOf s.cores k) (fun _ _ => fireEdge_spad)]


@[simp] theorem correctWeak_mem {a n : Nat} : (correctWeak s a n).hbm.mem = s.hbm.mem := by
  unfold correctWeak
  simp only []
  exact foldl_keeps (g := fun s : State => s.hbm.mem) (fun _ _ => by simp) _ _

@[simp] theorem countBroken_mem {h : Hbm} {lo hi : Nat} : (h.countBroken lo hi).mem = h.mem := by
  unfold Hbm.countBroken
  simp only []
  split <;> rfl

@[simp] theorem hbmRead_mem {a n : Nat} : (hbmRead s a n).2.2.hbm.mem = s.hbm.mem := by
  simp only [hbmRead]
  split <;> simp

@[simp] theorem devRead_mem {a n : Nat} : (devRead s a n).2.2.hbm.mem = s.hbm.mem := by
  unfold devRead
  split
  · simp
  · simp only []
    split <;> rfl
  · rfl

end Sys2Proof.Machine
end

