-- ==== Sys2Proof/Laws/Message.lean ====
section
/-! SUPPORT. The laws of message service: what `serve` answers when a message is accepted, refused, or cannot begin, and what completing a message leaves alone. -/

namespace Sys2Proof.Machine

set_option Elab.async false

variable {m : Msg} {s : State}

/-- An accepted message runs its handler on the state that the request has left. -/
theorem serve_accepted {o : OpSpec} {act : State → Ctx → Answer} (h : accepts o m s = true) :
    serve o m s act = .next (settleMsg m o.code m.session (act (begun m s) (view m s))) := by
  simp only [accepts, Bool.and_eq_true, Option.isNone_iff_eq_none] at h
  simp only [begun] at h
  simp [serve, h.1, h.2, begun, view]

/-- A message that the firmware cannot take yet does not begin. -/
theorem serve_waits {o : OpSpec} {act : State → Ctx → Answer} (h : canDequeue s m.src = false) : serve o m s act = .next s := by
  simp [serve, h]

/-- A refused message completes with its refusal and takes no effect. -/
theorem serve_refused {o : OpSpec} {act : State → Ctx → Answer} {st : Nat} (h : canDequeue s m.src = true) (hr : refusal (begun m s) o true m = some st) :
    serve o m s act = replied m o.code (begun m s) (.st st) := by
  simp only [begun] at hr
  simp [serve, h, hr, replied, begun]

/-- A handler that finishes completes its message. -/
@[simp] theorem settleMsg_done {op : Nat} {ses : BitVec 32} {r : Reply} : settleMsg m op ses (.done s r) = finishMsg s m op ses r := rfl

/-- The payload that a handler sees is the message's. -/
@[simp] theorem view_p : (view m s).p = effPayload m := by
  unfold view ctxOf
  split
  · rfl
  · split <;> rfl

/-- The message that a handler sees is the message. -/
@[simp] theorem view_m : (view m s).m = m := by
  unfold view ctxOf
  split
  · rfl
  · split <;> rfl

end Sys2Proof.Machine
end

