-- ==== Sys2Proof/WellFormed.lean ====
section
/-! DEFINITION. Well-formed commands: the operands that the spec's own formats admit. -/

namespace Sys2Proof

/-- A request: PAYLOAD_LEN fits its 16-bit field, the request buffer holds what the pointer block says at most, and only the management path carries bytes above 48 (spec 02, Request header; R64, R85). -/
def wfMsg (m : Msg) : Bool :=
  decide (m.payloadLen < 65536) && decide (m.extra.length ≤ 976)
    && (match m.src with
        | .chan _ => m.extra.isEmpty
        | .mctp _ _ => m.req.isEmpty && !m.ptr)
    && (m.req.isEmpty || m.req.length == (m.payload.toNat >>> 64) % 2 ^ 32)

/-- A frame that carries no payload (R444). -/
def wfBare (f : Frame) : Bool := f.payload.isEmpty

/-- A frame that carries LEN_M1 plus one bytes, at most 4,096 (spec 12, Frame header). -/
def wfData (f : Frame) : Bool := f.payload.length == f.lenM1.toNat + 1

/-- A 64-byte line (R560). -/
def wfLine (data : List Byte) : Bool := data.length == 64

/-- A register write: 32 or 64 bits, naturally aligned (R723, R724). -/
def wfReg (offset size : Nat) : Bool := (size == 4 || size == 8) && offset % size == 0

/-- The operands of a command lie in the ranges that the spec's formats give them. -/
def wellFormed : Instr → Bool
  | .openSession m h => wfMsg m && h != 0
  | .closeSession m => wfMsg m
  | .attachChannel m => wfMsg m
  | .detachChannel m => wfMsg m
  | .getDeviceInfo m => wfMsg m
  | .getCapabilities m => wfMsg m
  | .echo m => wfMsg m
  | .unknownOpcode m _ => wfMsg m
  | .resetRequestStage m => wfMsg m
  | .resetRequestDevice m => wfMsg m
  | .setRegion m => wfMsg m
  | .setCircular m => wfMsg m
  | .openWindow m => wfMsg m
  | .closeWindow m => wfMsg m
  | .setCounter m => wfMsg m
  | .setConflictPolicy m => wfMsg m
  | .setSegmentPower m => wfMsg m
  | .segmentZeroed _ _ => true
  | .reserveStore m => wfMsg m
  | .setSaveMode m => wfMsg m
  | .getHbmState m => wfMsg m
  | .setHostWindow m => wfMsg m
  | .setStageIdentity m => wfMsg m
  | .setStageAddress m => wfMsg m
  | .configureQueue m => wfMsg m
  | .configureSlot m => wfMsg m
  | .resetSlots m => wfMsg m
  | .getQueueState m => wfMsg m
  | .createRing m => wfMsg m
  | .submitBlock m => wfMsg m
  | .abortQueue m _ => wfMsg m
  | .setCompletionRing m => wfMsg m
  | .getRingState m => wfMsg m
  | .loadMicroprogram m => wfMsg m
  | .loadTable m => wfMsg m
  | .heldMessageApply _ => true
  | .longRunningLimit _ => true
  | .createIndex m => wfMsg m
  | .destroyIndex m => wfMsg m
  | .setReaderFloor m => wfMsg m
  | .startRewrite m => wfMsg m
  | .getIndexState m => wfMsg m
  | .configureOptimizer m => wfMsg m
  | .setHyperparameters m => wfMsg m
  | .createBucket m => wfMsg m
  | .setGroup m => wfMsg m
  | .setCoordinates m => wfMsg m
  | .setWiringMap m => wfMsg m
  | .setWiringPolicy m => wfMsg m
  | .setProfilePolicy m => wfMsg m
  | .setEndpoint m => wfMsg m
  | .removeEndpoint m => wfMsg m
  | .trainPortTrain m => wfMsg m
  | .trainPortDisable m => wfMsg m
  | .trainPortRetrain m => wfMsg m
  | .getPortState m => wfMsg m
  | .setPort m => wfMsg m
  | .connect m => wfMsg m
  | .disconnect m => wfMsg m
  | .setPtp m => wfMsg m
  | .getStatus m => wfMsg m
  | .setTimeMode m => wfMsg m
  | .getTime m => wfMsg m
  | .scheduleEdge m => wfMsg m
  | .cancelEdge m => wfMsg m
  | .readErrorLog m => wfMsg m
  | .clearError m => wfMsg m
  | .getLastGasp m => wfMsg m
  | .readTelemetry m => wfMsg m
  | .setTelemetryRate m => wfMsg m
  | .getSecurityState m => wfMsg m
  | .debugChallenge m _ => wfMsg m
  | .debugUnlock m => wfMsg m
  | .firmwareUpdate m => wfMsg m
  | .advanceRollback m => wfMsg m
  | .setReplayLog m => wfMsg m
  | .replayStep m => wfMsg m
  | .checkpointOut m => wfMsg m
  | .checkpointIn m => wfMsg m
  | .adoptStage m => wfMsg m
  | .setPowerState m => wfMsg m
  | .setClockLimits m => wfMsg m
  | .setRipple m => wfMsg m
  | .getPower m => wfMsg m
  | .getVersion _ => true
  | .spdmGetCapabilities _ => true
  | .negotiateAlgorithms _ => true
  | .getDigests _ => true
  | .getCertificate _ => true
  | .challenge _ => true
  | .getMeasurements _ => true
  | .nop _ _ => true
  | .wait _ _ => true
  | .signal _ _ => true
  | .waitSlot _ _ => true
  | .releaseSlot _ _ => true
  | .sendSlot _ _ _ => true
  | .matmul _ _ _ _ => true
  | .conv _ _ _ _ => true
  | .eltwise _ _ _ _ => true
  | .vecElem _ _ => true
  | .vecFunc _ _ => true
  | .vecRowstat _ _ => true
  | .vecSoftmax _ _ => true
  | .vecNorm _ _ => true
  | .copy _ _ _ => true
  | .remoteWrite _ _ _ => true
  | .remoteRead _ _ _ => true
  | .tag _ _ => true
  | .saveOpen _ _ => true
  | .saveCopy _ _ => true
  | .saveClose _ _ => true
  | .restore _ _ => true
  | .tarnQuery _ _ => true
  | .tarnInsert _ _ => true
  | .tarnDelete _ _ f => f.all fun i => decide (i < 67108864)
  | .epochPublish _ _ => true
  | .bucketAdd _ _ f => f.all fun i => decide (i < 2 ^ 27 + 1)
  | .bucketFlush _ _ _ => true
  | .update _ _ f => f.all fun i => decide (i < 2 ^ 27)
  | .commandComplete _ _ _ _ => true
  | .waitTimeout _ _ _ => true
  | .consumerHeadUpdate _ _ _ => true
  | .rampDown _ _ _ => true
  | .rampGrant => true
  | .rendezvousTimeout _ => true
  | .batchRun _ _ => true
  | .mbxDoorbell _ _ => true
  | .channelReset _ => true
  | .enable _ _ => true
  | .mbxCplHead _ _ => true
  | .moderationTimer _ => true
  | .sessionLeaseExpiry _ => true
  | .bootGo _ => true
  | .resetCtl _ => true
  | .fwIrqStatus _ => true
  | .spadConflictClr _ _ => true
  | .registerWrite _ o n _ _ => wfReg o n
  | .bar2Read _ n => decide (0 < n)
  | .bar2Write _ d _ => !d.isEmpty
  | .memRd _ _ => true
  | .memRdData _ _ => true
  | .memInv _ => true
  | .memClnEvct _ => true
  | .memWr _ _ d _ => wfLine d
  | .memWrPtl _ _ d be _ => wfLine d && be.length == 64
  | .biRsp _ _ => true
  | .biConflict _ => true
  | .snoopTimeout _ => true
  | .hostLinkReset _ => true
  | .linkCtl _ f => wfBare f
  | .hello _ _ _ => true
  | .write _ f => wfData f
  | .read _ f => wfBare f
  | .slotWrite _ f => wfData f
  | .readData _ f => wfData f || (wfBare f && f.lenM1 == 0)
  | .writeAck _ f => wfBare f
  | .slotCredit _ f => wfBare f
  | .time _ _ _ => true
  | .retrainSync _ _ _ => true
  | .frameDrop _ => true
  | .laneLock _ _ => true
  | .laneUnlock _ _ => true
  | .trainingAttemptTimeout _ => true
  | .reequalizationTimeout _ => true
  | .replayRequestRepeat _ => true
  | .linkLostTimer _ => true
  | .responseTimer _ => true
  | .endpointWaitTimeout _ _ _ => true
  | .timeFrameTx _ => true
  | .v1CreditHold _ => true
  | .cnp _ _ => true
  | .rateRecovery _ _ => true
  | .pfcPause _ _ _ => true
  | .rdmaInbound _ => true
  | .ethernetOtherFrame _ => true
  | .rcRetransmit _ => true
  | .connectionError _ => true
  | .ptpMessage _ _ => true
  | .ppsEdge => true
  | .referenceValid => true
  | .referenceLost => true
  | .edgeFire _ => true
  | .patrolScrub => true
  | .hbmChannelFailure _ => true
  | .errorEventHandle _ => true
  | .watchdogTrip _ _ _ _ => true
  | .itkanStart => true
  | .imageCheck i => match i with
    | none => true
    | some b => decide (b.length ≤ 1048576)
  | .fuseSense => true
  | .hbmTrainingDone _ => true
  | .hbmZeroingDone => true
  | .powerOn => true
  | .pwrgoodFall => true
  | .deviceReset => true
  | .powerManagerTick p _ _ => p.length == 24
  | .avsRetry _ => true
  | .telemetrySample _ _ _ t l => t.length == 41 && l.length == 236
  | .telemetrySnapshot => true
  | .thermalThrottle _ _ => true
  | .thermalCritical _ _ => true
  | .thermalTrip _ _ => true
  | .nonceExpiry => true
  | .jtagAccess _ => true
  | .ethernetLinkUp _ => true
  | .ethernetLinkDown _ => true
  | .pcieLinkTrained _ _ => true
  | .hdmDecoderCommit _ _ _ => true
  | .fetchError _ => true
  | .roceAck _ _ => true
  | .rdmaReadResponse _ _ => true
  | .refreshThreshold _ _ => true
  | .rewriteComplete _ _ => true
  | .digestWritten => true
  | .fuseBlown _ => true

end Sys2Proof
end

