-- ==== Sys2Proof/Tests/Slice0.lean ====
section
/-! SUPPORT. Tests: ill-formed terms, values from the spec's own examples, and for every statement with hypotheses a state and operands that meet all of them (`wit_<statement>_<clause>`). Each concerns one operation or one step on a small state. -/

namespace Sys2Proof.Tests

open Sys2Proof.Machine

set_option Elab.async false

/-- A number from bit fields: lowest bit and value of each. -/
def bits (fs : List (Nat × Nat)) : Nat := (fs.map fun f => f.2 * 2 ^ f.1).sum

/-- A message of channel 0 in session 7 with an inline payload. -/
def req (fs : List (Nat × Nat)) : Msg :=
  { src := .chan 0, requestId := 1, session := 7, ptr := false, payloadLen := 48, hdrReserved := 0, payload := BitVec.ofNat 384 (bits fs), extra := [], req := [], reqError := false, rspError := false, cplError := false }

/-- A message with a pointer block: `fs` are the fields of its payload's last 128 bits, `bs` the request buffer, at address 4096. -/
def ptrReq (fs : List (Nat × Nat)) (bs : List Byte) : Msg :=
  { req [] with ptr := true, payload := BitVec.ofNat 384 ((if bs.isEmpty then 0 else 4096) + bs.length * 2 ^ 64 + 8192 * 2 ^ 128 + 4096 * 2 ^ 192 + bits fs * 2 ^ 256), req := bs }

/-- A device that serves requests: firmware READY, the host link up, channel 0 in the ADMIN session 7 with one request waiting. -/
def dev : State :=
  { State.reset with
    boot := { Boot.init with fwStage := 6, needTrain := false }
    host := { HostIf.init with linkUp := true, cxl := true }
    power := { Power.init with perst := false }
    mbx := { Mailbox.init with
      chans := [(0, { Channel.init with enabled := true, state := 1, session := 7, reqBase := 4096, cplBase := 8192, reqTail := 1 })]
      sessions := [{ handle := 7, privilege := 2, rev := 0x0302, clientId := 1, leaseMs := 0 }]
      issued := [7] } }

/-- The same before any session is open. -/
def fresh : State := { dev with mbx := { dev.mbx with chans := [(0, { Channel.init with enabled := true, state := 1, reqTail := 1 })], sessions := [], issued := [] } }

/-- A descriptor of an operation with the given body fields. -/
def cmd (op : Nat) (fs : List (Nat × Nat)) : BitVec 512 := BitVec.ofNat 512 (op + bits fs * 2 ^ 128)

/-- A block of one command. -/
def blockOf (d : BitVec 512) : Block := { seq := 0, start := 0, cmds := [d], absent := [], nStarted := 0, nDone := 0, seed := 0, step := 0, client := 1 }

/-- Queue 0 of core 0 with its rings and one armed command. -/
def withCmd (d : BitVec 512) (s : State) : State :=
  s.modQueue 0 0 fun u => { u with
    ring := some { base := 0x10000, log2 := 12, waitLimit := 24, quota := 1024 }
    cpl := some { base := 0x80000, log2 := 8, vector := 127, headAddr := 0x90000, written := 0, head := 0 }
    armed := [blockOf d] }

/-- The entry of a started command. -/
def entryOf (d : BitVec 512) : Started := startedOf CmdQueue.init (blockOf d) d

/-- Queue 0 of core 0 with one started command. -/
def withStarted (e : Started) (s : State) : State :=
  (withCmd e.desc s).modQueue 0 0 fun u => { u with armed := [{ blockOf e.desc with nStarted := 1 }], started := [e], nextId := 1 }

/-- A message in progress on channel 0. -/
def holding (h : Held) (s : State) : State :=
  { s with mbx := { s.mbx with held := [h], chans := [(0, { Channel.init with enabled := true, state := 1, session := 7, reqTail := 1, reqHead := 1, busy := true })] } }

/-- The octets of the P-384 public key whose private key is 1: 4, x and y of the base point. -/
def keyOne : List Byte := 4#8 :: (beBytes 48 ecG.1 ++ beBytes 48 ecG.2)

/-- A firmware image of one body byte, format 1, FW_VERSION 0x00010203 and SVN 2, signed with private key 1 (spec 18, Image; the digest and the signature were computed by hand outside Lean). -/
def image : List Byte :=
  leBytes 4 0x4E544B49 ++ leBytes 4 1 ++ leBytes 4 0x00010203 ++ leBytes 4 2 ++ leBytes 4 1 ++ leBytes 4 0
    ++ beBytes 48 0xbec021b4f368e3069134e012c2b4307083d3a9bdd206e24e5f0d86e13d6636655933ec2b413465966817a9c208a11717
    ++ keyOne ++ List.replicate 97 0 ++ beBytes 48 ecG.1
    ++ beBytes 48 0x2b5f33c7dfff71382502c4d024fb46efd2dcb04038a4650e4218d7c166ddea9ffb26cca797b8e01e5903ed4f0dd1432b
    ++ List.replicate 150 0 ++ [0]

/-- A requester's SPDM 1.3 request. -/
def spdm : SpdmReq := { version := 0x13, slot := 0, nonce := 5, measOp := 1, signed := false, offset := 0, length := 16, hashAlgos := 2, asymAlgos := 0x80 }

/-- The device after SPDM negotiation. -/
def negotiated : State := { dev with sec := { dev.sec with spdmVersion := 0x13, spdmReady := true } }

/-- The device with a host window of 256 MiB at 0. -/
def windowed : State := { dev with host := { dev.host with window := some (0, 0x10000000) } }

/-- The same with its decoder committed: CXL.mem requests reach the window. -/
def coherent : State := { dev with host := { dev.host with window := some (0, 0x10000000), committed := true } }

/-- The same with a snoop of line 3 under way. -/
def snooping : State := { coherent with host := { coherent.host with snoops := [{ line := 3, inv := false, crossed := false }] } }

/-- Bytes as memory cells from an address on. -/
def cells (a : Nat) (bs : List Byte) : Tbl Byte := bs.zipIdx.filterMap fun x => if x.1 = 0 then none else some (a + x.2, x.1)

/-- The header of a closed step record whose sections but the snapshot are empty. -/
def recHead : RecHeader := { magic := 0x4F565254, step := 2, seed := 1, pipelineId := 0, stageId := 0, count := 0, flags := 1, offsets := [4096, 8192, 8192, 8192, 8192, 8192], size := 0x20000, digest := 0, ranges := [] }

/-- A device with a closed step record at 0x10000. -/
def recorded : State := { dev with hbm := { dev.hbm with mem := cells 0x10000 (headerCode.put recHead) ++ cells 0x11000 (snapCode.put { cores := [], queues := [], expected := [], opt := [], regions := [], epochs := [], queueFmt := [], profileMask := 0, wiringPolicy := 0, digests := [], profiles := [none, none] }) } }

/-- A checkpoint image without ranges. -/
def checkpoint : CkptImage := { magic := 0x434B5054, format := 1, pipelineId := 6, stageId := 5, seed := 1, step := 2, opt := List.replicate 16 optInit, ranges := [], digest := 0 }

/-- A connection of kind FRAME. -/
def conn1 : Conn := { remoteIp := 1, nextHopMac := 2, qpnReq := 3, qpnSpill := 4, txPsn := 0, rxPsn := 0, sentReq := 0, sentSpill := 0, remoteVa := 0x1000, rKey := 0, lostMs := 50, port := 0, memory := false, loader := false, error := false, rateReq := 50, rateSpill := 50, queued := [], unackedPkts := 0, unacked := [], opsFailed := 0, retransmits := 0, cnps := 0, dropped := 0 }

/-- An index of one list whose directory lies at 0x1000. -/
def index15 : Index := { width := 0, lists := 1, dir := 0x1000, centroid := 0x2000, rdvWait := 10, rdvMax := 2, published := 5, pendingEpoch := 6, floor := 3, collecting := [], closed := none, running := [], rewrites := [] }

/-- A bucket of 2,048 bytes of FP32 in group 15. -/
def bucket15 : Bucket := { addr := 0x200000, length := 2048, bf16 := false, group := 15 }

/-- A group of two ranks whose landing windows are 1 and 2 of core 0. -/
def group15 : Group := { ranks := [1, 2], selfRank := 0, core := 0, queue := 0, coreA := 0, winA := 1, coreB := 0, winB := 2, flushCount := 0, broken := false, landed := [] }

/-- A connection of kind MEMORY, numbered 4095, on Ethernet port 0, which is up. -/
def memConn : State := { dev with eth := { ports := [(0, { EthPort.init with configured := true, enabled := true, up := true })], conns := [(4095, some { conn1 with memory := true })] } }

/-- Core 0 with its whole scratchpad mapped for queue 0. -/
def mapped (s : State) : State := s.modCfg 0 fun g => { g with pairs := [(0, some { logical := 0, size := 0x1000000, base := 0, rd := true, wr := true })] }

/-- A micro-batch queue of four slots of 256 bytes in HBM. -/
def mbq : MbQueue := { expected := 256, base := 0x100000, stride := 256, slots := 4, inSpad := false, core := 0, messages := false }

/-- The device with an input queue 0 and an output queue 2 whose slot 0 is given. -/
def staged (x : Slot) : State :=
  { dev with stage := { dev.stage with queues := [(0, some mbq), (2, some mbq)], slots := [(0, [(0, x)]), (2, [(0, x)])] } }

/-- Port 0 UP under BPL-3 in a session, with credit on every channel; endpoint 1 is SELF and endpoint 2 lies beyond port 0 with profile 3. -/
def linked (s : State) : State :=
  { s with fabric := { s.fabric with
      coord := 5, coordEver := true
      endpoints := [(1, some { coord := 5, conn := 0, portMask := 0, rprofile := 0, self := true, roce := false, profile := none, quarantine := none }),
                    (2, some { coord := 6, conn := 0, portMask := 1, rprofile := 0, self := false, roce := false, profile := some 3, quarantine := none })]
      ports := [(0, { Port.init with state := 2, version := 3, lanes := 0xFF, agreed := 3, inSession := true, peerSessionId := some 9, credits := [64, 64, 64] })] } }

/-- The linked device with group 15 and its bucket 4095. -/
def grouped : State := linked (State.modCfg { (mapped dev) with groups := [(15, some group15)], buckets := [(4095, some bucket15)] } 0 (fun g => { g with windows := [(1, some { base := 0, size := 0x10000, srcMask := 0, srcEp := 0, counter := 1, ctrEn := true, publish := false, wr := true, rd := false }), (2, some { base := 65536, size := 0x10000, srcMask := 0, srcEp := 0, counter := 2, ctrEn := true, publish := false, wr := true, rd := false })] }))

/-- The linked device with an input queue 0 and an output queue 2 whose neighbours are endpoint 2. -/
def paired : State := { (linked dev) with stage := { dev.stage with queues := [(0, some mbq), (2, some mbq)], addr := [(0, some { peerInSlots := 4, peerStageId := 0, endpoint := 2 }), (1, some { peerInSlots := 4, peerStageId := 0, endpoint := 2 })] } }

/-- A frame from endpoint 2 to endpoint 1 in sequence. -/
def frame : Frame := { Frame.zero with srcEp := 2, dstEp := 1 }

/-- The linked device with window 5 of core 23 open for reads and writes of 64 KiB at 0. -/
def open5 : State := (linked dev).modCfg 23 fun g => { g with windows := [(5, some { base := 0, size := 0x10000, srcMask := 0, srcEp := 0, counter := 1, ctrEn := true, publish := false, wr := true, rd := true })] }

/-- A WRITE frame of 128 bytes that ends at the window's last byte. -/
def write5 : Frame := { frame with core := 23, window := 5, offset := 0xFF80, lenM1 := 127, last := true, payload := List.replicate 128 3 }

/-- The quarantined device. -/
def shut : State := { open5 with boot := { open5.boot with quarantined := true } }

/-- The device with an outstanding operation under network tag 9. -/
def busyNet (kind : OpKind) : State :=
  { linked dev with net := { Net.init with ops := [{ tag := 9, gen := 0, via := .port 0, endpoint := 2, owner := .cmd 0 0 0, kind := kind, frames := 1, acked := 0, sent := 1, bytes := 64 }] } }

/-- Port 0 in a state. -/
def portIs (st : BitVec 4) (inS : Bool) : State := dev.modPort 0 fun p => { p with state := st, inSession := inS, lanes := 0xFE, peerSessionId := some 9 }

/-- The device with Ethernet port 0 up and connection 4095 of kind FRAME on it. -/
def wired : State := { dev with eth := { ports := [(0, { EthPort.init with configured := true, enabled := true, up := true, ptpEn := true })], conns := [(4095, some conn1)] } }

/-- The result is a next state. -/
def isNext : Res → Bool | .next _ => true | _ => false

/-- The device with one command waiting, a record in each error store, bytes in its memories, and its frame bookkeeping under way. -/
def busy (c : Instr) : State :=
  { dev with
    pending := [c]
    hbm := { dev.hbm with mem := [(5, 1), (0x5FFFFFFFFF, 255)] }
    cores := [(23, { Core.init with spad := [(0, 9), (0xFFFFFF, 7)] })]
    err := { dev.err with queues := [(1, List.replicate 64 ErrRec.init)], ring := List.replicate 256 ErrRec.init } }

theorem wit_EveryStepKeepsMemoriesCanonical :
    (Memory.wf (busy (.echo (req []))) && isNext (step (busy (.echo (req []))))) = true := by decide +kernel

theorem wit_EveryStepKeepsErrorStoresBounded :
    (let s := busy (.errorEventHandle []); stageOk s && eventQueuesOk s && ringOk s && isNext (step s)) = true := by decide +kernel

theorem wit_FusesOnceBlownStayBlown_pulse :
    (let s := { busy (.fuseBlown true) with sec := { dev.sec with rollback := 1 } }; s.sec.rollback.getLsbD 0 && isNext (step s)) = true := by decide +kernel

theorem wit_FusesOnceBlownStayBlown_other :
    (let s := { busy .nonceExpiry with sec := { dev.sec with rollback := BitVec.ofNat 64 (2 ^ 63) } }; s.sec.rollback.getLsbD 63 && (match s.pending.head? with | some (.fuseBlown _) => false | _ => true) && isNext (step s)) = true := by decide +kernel

theorem wit_QuarantineEndsOnlyByReset :
    (let s := { busy .itkanStart with boot := { dev.boot with quarantined := true } }; s.boot.quarantined && s.pending.head?.all (fun c => releases c == false) && isNext (step s)) = true := by decide +kernel

theorem wit_AtMostOneAdminSession :
    (let s := { busy (.openSession { req [(0, 0x0300), (16, 0xFFFF), (32, 2)] with session := 0 } 9) with mbx := fresh.mbx }
     decide ((s.mbx.sessions.filter fun x => x.privilege == 2).length ≤ 1) && isNext (step s)) = true := by decide +kernel

theorem wit_AtMostOneAdminSession_held :
    (let s := busy (.closeSession (req [])); decide ((s.mbx.sessions.filter fun x => x.privilege == 2).length ≤ 1) && isNext (step s)) = true := by decide +kernel

theorem wit_QueriesChangeNothingElse :
    (let m := req []
     [Instr.getDeviceInfo m, .getCapabilities m, .echo m, .getHbmState m, .getQueueState m, .getRingState m, .getIndexState m, .getPortState m, .getStatus m, .readTelemetry m, .getSecurityState m, .getPower m,
       .attachChannel m, .detachChannel m, .closeSession m, .unknownOpcode m 0x0999].all fun i => isNext (exec i dev)) = true := by decide +kernel

theorem wit_QueriesChangeNothingElse_open :
    isNext (exec (.openSession { req [] with session := 0 } 5) fresh) = true := by decide +kernel

theorem wit_ConfigurationMessagesKeepTheRest :
    (let m := req []
     [Instr.setCircular m, .openWindow m, .closeWindow m, .setCounter m, .setConflictPolicy m, .setSaveMode m, .setRegion m, .setRipple m, .setCompletionRing m, .createRing m, .reserveStore m, .setHostWindow m,
       .setStageIdentity m, .configureSlot m, .configureOptimizer m, .setHyperparameters m, .createBucket m, .setTelemetryRate m, .setClockLimits m, .clearError m, .cancelEdge m, .getTime m, .setPort m, .setPtp m].all
      fun i => isNext (exec i dev)) = true := by decide +kernel

theorem wit_CommandsThatStoreNothingKeepMemory :
    ([Instr.setCounter (req []), .tag 23 3, .tarnQuery 23 3, .bar2Read 0 64, .read (.port 17) frame, .patrolScrub, .mbxDoorbell 63 0].all
      fun i => storesNothing i && isNext (exec i (busy i))) = true := by decide +kernel

theorem wit_CommandsThatStoreNothingKeepMemory_segments :
    (isNext (exec (.setSegmentPower (req [])) dev) && isNext (exec (.segmentZeroed 23 3) dev)) = true := by decide +kernel

/-- Addresses that a matrix command with one vector of output at 0x2000 may not store to. -/
def matmulDesc : BitVec 512 := cmd 0x10 [(160, 0x2000)]

theorem wit_ArithmeticStoresOnlyItsOutputs_matrix :
    (let s := withCmd matmulDesc (mapped dev)
     let m := matArgs matmulDesc
     let c := epiCfg m.epi
     decide (nextCmd (s.queue 0 0) = some (blockOf matmulDesc, matmulDesc)) && isNext (exec (.matmul 0 0 [] []) s) && !c.tap
       && (List.range m.tokens).all (fun i => (List.range m.vectors).all fun j => spareOf (s.core 0).cfg 0 m.out (m.out + layoutOff m.vectors c.fmt i j) (fmtBytes c.fmt) 0xFFFFFF)) = true := by decide +kernel

theorem wit_ArithmeticStoresOnlyItsOutputs_conv :
    (let d := cmd 0x11 [(208, 0x2000)]
     let s := withCmd d (mapped dev)
     decide (nextCmd (s.queue 0 0) = some (blockOf d, d)) && isNext (exec (.conv 0 0 [] []) s) && !(epiCfg (matArgs d).epi).tap) = true := by decide +kernel

theorem wit_ArithmeticStoresOnlyItsOutputs_eltwise :
    (let d := cmd 0x12 [(160, 0x1000)]
     let e := epiCfg (fb (cmdBody d) 320 64)
     let s := withCmd d (mapped dev)
     decide (nextCmd (s.queue 0 0) = some (blockOf d, d)) && isNext (exec (.eltwise 0 0 [] []) s) && !e.tap
       && (List.range (eltCount (cmdBody d))).all fun i => spareOf (s.core 0).cfg 0 (fld (cmdBody d) 183 160) (fld (cmdBody d) 183 160 + i * fmtBytes e.fmt) (fmtBytes e.fmt) 0) = true := by decide +kernel

/-- A one-row vector command of an operation, whose output lies at 0x8000. -/
def rowCmd (op : Nat) : BitVec 512 := cmd op [(8, 1), (16, 1), (232, 0x8000), (328, 0x9000)]

theorem wit_ArithmeticStoresOnlyItsOutputs_vector :
    (([(0x20, Instr.vecElem 0 0), (0x21, .vecFunc 0 0), (0x22, .vecRowstat 0 0), (0x23, .vecSoftmax 0 0), (0x24, .vecNorm 0 0)] : List (Nat × Instr)).all fun x =>
      let d := rowCmd x.1
      let s := withCmd d (mapped dev)
      let v := vecArgs d
      decide (nextCmd (s.queue 0 0) = some (blockOf d, d)) && isNext (exec x.2 s)
        && (!(v.outFmt == 5 || v.outFmt == 6) || v.len % 32 == 0)
        && (List.range v.rows).all fun row =>
            if v.op == 0x22 then spareOf (s.core 0).cfg 0 v.out (v.out + 16 * row) 16 0xFFFFFF else spareOf (s.core 0).cfg 0 v.out (v.out + row * v.stride v.outFmt) (rowBytes v.outFmt v.len) 0xFFFFFF) = true := by decide +kernel

theorem wit_ArithmeticStoresOnlyItsOutputs_online :
    (let d := cmd 0x23 [(24, 1), (8, 1), (16, 1), (232, 0x8000), (328, 0x9000)]
     let s := withCmd d (mapped dev)
     let v := vecArgs d
     decide (v.op = 0x23) && decide (v.func = 1) && isNext (exec (.vecSoftmax 0 0) s) && spareOf (s.core 0).cfg 0 v.aux (v.aux + 8 * 0) 8 0xFFFFFF && spareOf (s.core 0).cfg 0 v.c (v.c + 4 * 0) 4 0xFFFFFF) = true := by decide +kernel

theorem wit_TransfersStoreOnlyIntoTheirTargets_copy :
    (let d : BitVec 512 := cmd 0x30 [(256, 0x1000), (320, 64)]; let s := withCmd d (mapped dev); let r := entered 0 0 s (blockOf d) d; let n := dmaLen d; let side := (dmaSides r.s 0 d).2; let u := (r.reserve n).getD r
     decide (nextCmd (s.queue 0 0) = some (blockOf d, d)) && isNext (exec (.copy 0 0 0) s) && [Place.spad 0 0x1040, .spad 0 0xFFF, .spad 1 0x1000, .hbm 0x1000].all fun x => (List.range n).all fun pos =>
       (sideRange side pos n).all (fun p => apart x p.1 p.2) && (u.phys side true pos (n - pos)).all fun p => apartOwn x p.1 p.2.1 p.2.2) = true := by decide +kernel

theorem wit_TransfersStoreOnlyIntoTheirTargets_remote :
    (let d (op : Nat) := cmd op [(44, 2), (33, 5), (256, 0x80), (320, 64)]; let s (op : Nat) := withCmd (d op) (linked (mapped dev))
     [0x31, 0x32].all (fun op => decide (nextCmd ((s op).queue 0 0) = some (blockOf (d op), d op))) && isNext (exec (.remoteWrite 0 0 0) (s 0x31)) && isNext (exec (.remoteRead 0 0 0) (s 0x32))) = true := by decide +kernel

theorem wit_TransfersStoreOnlyIntoTheirTargets_restore :
    (let d := cmd 0x43 [(12, 15), (32, 64), (16, 2), (160, 0x1000)]; let s := withCmd d { (mapped dev) with regions := [(15, (0x100000, 0x100000))] }
     let p := xlatPart (entered 0 0 s (blockOf d) d).k.cfg 0 0x1000 0x1000 64 true
     decide (nextCmd (s.queue 0 0) = some (blockOf d, d)) && isNext (exec (.restore 0 0) s) && apartOwn (.spad 0 0x1040) 0 p.2 p.1 && apartOwn (.spad 1 0x1000) 0 p.2 p.1 && !apartOwn (.spad 0 0x103F) 0 p.2 p.1) = true := by decide +kernel

theorem wit_TransfersStoreOnlyIntoTheirTargets_update :
    (let d := cmd 0x70 [(24, 31), (56, 0x1000), (96, 0x2000), (136, 0x3000), (176, 0x4000)]; let s := withCmd d { dev with opt := [(0, { optInit with configured := true, algorithm := 1 })] }
     let u := updArgs d; let k := optCodes (s.optSlot u.slot)
     decide (nextCmd (s.queue 0 0) = some (blockOf d, d)) && isNext (exec (.update 0 0 [0]) s) && decide (32 * 0 < u.count)
       && [(k.1, u.param), (k.2.2.1, u.m)].all fun c => let p := arrayPart c.1 c.2 0 (min 32 u.count); apart (.hbm 0x2000) p.1 p.2 && apart (.spad 0 0x1000) p.1 p.2) = true := by decide +kernel

theorem wit_TransfersStoreOnlyIntoTheirTargets_tarn :
    (let d (op : Nat) := cmd op [(8, 15), (64, 7), (128, 0x300000)]; let s (op : Nat) : State := withCmd (d op) { (mapped dev) with tarn := [(15, some index15)], hbm := { dev.hbm with mem := [(0x1008, 4), (0x1012, 1), (0x101A, 2)] } }
     let e (op : Nat) := ((entered 0 0 (s op) (blockOf (d op)) (d op)).dirRead index15 0).1
     [0x51, 0x52].all (fun op => decide (nextCmd ((s op).queue 0 0) = some (blockOf (d op), d op)) && decide ((s op).index 15 = some index15)) && isNext (exec (.tarnInsert 0 0) (s 0x51)) && isNext (exec (.tarnDelete 0 0 [0]) (s 0x52))
       && (let x : Place := .hbm 0x300000; apart x ((e 0x51).log + (e 0x51).length * entryBytes 0) (entryBytes 0) && apart x ((e 0x51).tomb + 4 * (e 0x51).length) 4 && apart x (0x1000 + 12) 4 && apart x (e 0x52).tomb 4)) = true := by decide +kernel

theorem wit_TransfersStoreOnlyIntoTheirTargets_bucket :
    (let d := cmd 0x60 [(8, 4095), (64, 3)]; let s := withCmd d grouped
     decide (nextCmd (s.queue 0 0) = some (blockOf d, d)) && isNext (exec (.bucketAdd 0 0 [0]) s) && decide (s.bucket (bucketOf d) = some bucket15)
       && (addLines bucket15 0x200000 4).all fun l => apart (.hbm 0x200010) (0x200000 + l.1 * bucket15.elem) (l.2 * bucket15.elem) && apart (.spad 0 0x200000) (0x200000 + l.1 * bucket15.elem) (l.2 * bucket15.elem)) = true := by decide +kernel

theorem wit_LinkWritesStayInTheirWindow :
    (isNext (exec (.write (.port 0) write5) open5)
      && (match frameTarget (acceptFrame open5 (.port 0) 2 write5).1 write5 write5.payload.length with
          | some w => outside (w.addr + 128) w.addr 128 && (w.addr == 0 || outside (w.addr - 1) w.addr 128)
          | none => false)
      && isNext (exec (.read (.port 0) { frame with core := 23, window := 5 }) open5)
      && (let f : Frame := { frame with queue := 0, slot := 3, mb := 7, lenM1 := 255, last := true, payload := List.replicate 256 1 }
          isNext (exec (.slotWrite (.port 0) f) paired) && (match slotCheck (acceptFrame paired (.port 0) 4 f).1 0 3 f with
            | some x => x.pieces.all fun p => apart (.hbm 0x1002FF) (slotAddr x.k 3 + p.off) p.bytes.length && apart (.spad 0 0) (slotAddr x.k 3 + p.off) p.bytes.length
            | none => false))) = true := by decide +kernel

theorem wit_MemoryWritesStoreTheirBytes :
    (let bs := [Bt.mk 7 false true, Bt.mk 8 false true]
     outside 0x1FFF 0x2000 bs.length && outside 0x2002 0x2000 bs.length && !hits 0x2000 bs.length (armedRanges dev)
       && (List.range bs.length).all (fun i => !dev.hbm.failedAt (0x2000 + i) && !(dev.core 23).segDead (0x2000 + i)) && bs.all Bt.got) = true := by decide +kernel

theorem wit_MemoryWritesStoreTheirBytes_host :
    (isNext (exec (.bar2Write 0 [1, 2, 3, 4] false) windowed) && isNext (exec (.memWr 0 .i (List.replicate 64 1) false) coherent)) = true := by decide +kernel

theorem wit_RegisterWritesKeepTheRest :
    (([Instr.channelReset 0, .mbxDoorbell 0 1, .mbxCplHead 0 1, .enable 0 true, .enable 63 false, .moderationTimer 0, .fwIrqStatus 0xFFFFFFFF, .spadConflictClr 23 3, .resetCtl 1, .bootGo 1, .endpointWaitTimeout 0 0 0,
       .registerWrite .bar0 0x10 4 0x1000 true, .registerWrite .bar4 0 2 0 false, .registerWrite .bar0 0x10 8 0x1000 false]
        ++ ([0x10, 0x18, 0x1C, 0x28, 0x2C, 0x10000, 0x4FFFC, 0x100000, 0x1003FC, 0x200000, 0x20017C, 0x300000].map fun o => Instr.registerWrite .bar0 o 4 1 false)
        ++ ([0, 0xC, 0x10, 0x20, 0x3F024].map fun o => Instr.registerWrite .bar4 o 4 1 false) ++ ([0, 0x10, 0xFFC].map fun o => Instr.registerWrite .config o 4 1 false)).all
      fun i => isNext (exec i dev)) = true := by decide +kernel

theorem wit_ErrorEventRulesHold_queues :
    (decide ((tget [] dev.err.queues 2).length < 64) && decide (64 ≤ (tget [] (busy .nonceExpiry).err.queues 1).length)) = true := by decide +kernel

theorem wit_VectorCommandsWorkRowByRow_row :
    (let d := rowCmd 0x20
     let s := withCmd d (mapped dev)
     let r := takeVector (entered 0 0 s (blockOf d) d)
     let v := vecArgs d
     let a := actlOf v.actl
     let xs := r.rowVals true a v.aFmt v.a 0 v.len
     let ys := xs.2.rowVals v.uses.1 a v.bFmt v.b 0 v.len
     let zs := ys.2.rowVals v.uses.2.1 a v.bFmt v.c 0 v.len
     !(v.op == 0x20 && v.func == 9) && !(v.op == 0x23 && v.func == 1) && xs.1.isSome && ys.1.isSome && zs.1.isSome) = true := by decide +kernel

theorem wit_VectorCommandsWorkRowByRow_online :
    (let d := cmd 0x23 [(24, 1), (8, 1), (16, 1), (232, 0x8000), (328, 0x9000)]
     let s := withCmd d (mapped dev)
     let r := takeVector (entered 0 0 s (blockOf d) d)
     let v := vecArgs d
     let a := actlOf v.actl
     let xs := r.rowVals true a v.aFmt v.a 0 v.len
     v.op == 0x23 && v.func == 1 && xs.1.isSome && (xs.2.softRec v a 0).1.isSome) = true := by decide +kernel

theorem wit_VectorCommandsWorkRowByRow_dropout :
    (let d := cmd 0x20 [(8, 1), (16, 1), (24, 9), (232, 0x1000), (328, 0x2000)]
     let s := withCmd d (mapped dev)
     let r := takeVector (entered 0 0 s (blockOf d) d)
     let v := vecArgs d
     v.op == 0x20 && v.func == 9 && (r.rowBytesAt v.a v.a (rowBytes v.aFmt v.len)).1.isSome) = true := by decide +kernel

/-- The example of spec 02 under R59: tail and head at 65534, the doorbell written with 1, three requests to take. -/
theorem test_doorbell_wraps :
    (let s : State := evalDoorbell (dev.modChan 5 fun _ => { Channel.init with enabled := true, state := 1, session := 7, reqTail := 65534, reqHead := 65534, doorbell := 1 }) 5
     (s.chan 5).state = 1 ∧ ((s.chan 5).reqTail - (s.chan 5).reqHead).toNat = 3) := by decide +kernel

/-- The example of spec 04 under R139: a BS8 block of 0.75, about -0.3, 0.001 and zeros. -/
theorem test_bs8_block :
    encodeBs8 .plain (([v32 0x3F400000, v32 0xBE99999A, v32 0x3A83126F] ++ List.replicate 29 pZero).map fun v => (v, 0)) = ([0x60, 0xDA] ++ List.replicate 30 0 ++ [0x7E], fNX ||| fUF) := by decide +kernel

/-- The example of spec 04 under R140: 1.999 rounds to 128 and clamps to 127. -/
theorem test_bs8_clamps :
    (let r := encodeBs8 .plain ((v32 0x3FFFDF3B, 0) :: List.replicate 31 (pZero, 0)); r.1.head? = some 0x7F ∧ r.2 = fNX) := by decide +kernel

/-- The example of spec 04 under R164: BF16 gradients of an M1 become E5M2. -/
theorem test_boundary_conversions :
    [0x3DCD, 0x4780, 0x3380].map (fun x => convertTo e5m2 .plain (decodeFp bf16 x)) = [(0x2E, fNX), (0x7C, fOF ||| fNX), (0, fUF ||| fNX)] ∧ (convertTo bf16 .plain (decodeFp e4m3 0x7E)).1 = 0x43E0 := by decide +kernel

/-- The example of spec 05 under R173: element (100, 1000) of a 512 by 2048 BF16 matrix. -/
theorem test_block_layout : layoutOff 2048 1 100 1000 = 456976 ∧ layoutBytes 512 2048 1 = 2097152 := by decide +kernel

/-- The example of spec 05 under R191: the segment sums 2^24, 1, 1, 1, native and in 4x128. -/
theorem test_drain_order :
    (let seg (v : FV) : Lane := some v :: List.replicate 31 (some pZero)
     let xs := seg (.fin false 1 24) ++ seg one ++ seg one ++ seg one
     let ws : Lane := List.replicate 128 (some one)
     b32 (drainSum .plain (shapeGeom 0 1) false [] 0 0 0 0 xs ws 128 pZero).1 = 0x4B800000 ∧ b32 (drainSum .plain (shapeGeom 2 1) false [] 0 0 0 0 xs ws 128 pZero).1 = 0x4B800001) := by decide +kernel

/-- The example of spec 05 under R211: a 56 by 56 input with a 3 by 3 kernel of stride 2 and padding 1. -/
theorem test_conv_size : convOut 56 1 1 1 3 2 = 28 := by decide +kernel

/-- The example of spec 06 under R226, and the counter of spec 11 under R418: element 16,803,333 is word 1 of block 4,200,833. -/
theorem test_dropout_element :
    dropIndex (BitVec.ofNat 512 (bits [(224, 8192), (256, 2048), (288, 1024)])) 3 517 = 16803333
    ∧ drawWord 0x0123456789ABCDEF 1200 41 0x306 16803333 = (philox 0x0123456789ABCDEF (0x00401981, 0x306, 0x29, 0x4B0)).2.1 := by decide +kernel

/-- The published test vector of Philox-4x32-10 for a zero counter and a zero key. -/
theorem test_philox_zero : philox 0 (0, 0, 0, 0) = (0x6627E8D5, 0xE169C58D, 0xBC57AC4C, 0x9B00DBD8) := by decide +kernel

/-- The example of spec 07 under R255: local address 0x92_3480 lies in segment 2 and tag slot 4,678. -/
theorem test_scratchpad_places : segOf 0x923480 = 2 ∧ tagSlots 0x923480 1 = [4678] := by decide +kernel

/-- The example of spec 07 under R283: a base and bound pair moves the address. -/
theorem test_base_bound :
    (let g (b : Nat) : CoreCfg := { CoreCfg.init with pairs := [(8, some { logical := 0, size := 0x400000, base := b, rd := true, wr := false })] }
     xlat (g 0x800000) 2 0x123480 1 false = some 0x923480 ∧ xlat (g 0xC00000) 2 0x123480 1 false = some 0xD23480 ∧ xlat (g 0x800000) 2 0x123480 1 true = none) := by decide +kernel

/-- The example of spec 08 under R315: two granules and their channels, global numbers 29 and 108. -/
theorem test_channel_interleave : chanOf 0x1234567000 = 29 ∧ chanOf 0x1234568000 = 108 ∧ chanOffset 0x1234567000 = 0x2468A000 := by decide +kernel

/-- The example of spec 08 under R331: a chunk with one escape is coded in 97 bytes. -/
theorem test_coded_chunk :
    (let raw : List Byte := [0x80, 0x3F, 0x40, 0xC0] ++ (List.replicate 62 [0x00, 0x2F]).flatten
     let c := storeChunk 0 raw
     c.length = 97 ∧ c.head? = some 0x87 ∧ (c.drop 32).take 1 = [0x5E] ∧ decodeChunk 0 c = some raw) := by decide +kernel

/-- The example of spec 08 under R332: the scale of 3.0 is -7; 0x3DCD stores 13 and comes back as 0x3DD0. -/
theorem test_narrow :
    (let x := decodeFp bf16 0x3DCD
     narrowScale [decodeFp bf16 0x4040, x] = -7 ∧ convertTo e4m3 .plain (scaleV x 7) = (0x55, fNX) ∧ decodeFp e4m3 0x55 = .fin false 13 0 ∧ (convertTo bf16 .plain (scaleV (decodeFp e4m3 0x55) (-7))).1 = 0x3DD0) := by decide +kernel

/-- The example of spec 09 under R359: one AdamW element. -/
theorem test_adamw :
    (let o : OptSlot := { optInit with configured := true, algorithm := 2, beta1 := 0x3F600000, beta2 := 0x3F700000, eps := 0x35800000, decay := 0x3A800000, omb1 := 0x3E000000, omb2 := 0x3D800000 }
     let u : UpdArgs := { param := 0, grad := 0, m := 0, v := 0, copy := 0, count := 1, slot := 0, lr := 0x3A800000, scale := 0x3F800000, bc1 := 0x41000000, bc2 := 0x40800000, clear := false, noDecay := false, actl := 0 }
     let r := updateElem u o .plain (v32 0x3F000000) one pZero pZero
     b32 r.p = 0x3F7FBFF0 ∧ b32 r.m = 0x3D800000 ∧ b32 r.v = 0x3C800000 ∧ r.flags = fNX ∧ (convertTo bf16 .plain r.p).1 = 0x3F80) := by decide +kernel

/-- R603 and R737: limiter counter i stands at byte 64 + 8i of a snapshot. -/
theorem test_snapshot_counter :
    (let s : State := { dev with telem := { dev.telem with lim := [(235, 0x1122334455667788)] } }
     ((snapshot s).drop (64 + 8 * 235)).take 8 = [0x88, 0x77, 0x66, 0x55, 0x44, 0x33, 0x22, 0x11] ∧ (snapshot s).length = 2048) := by decide +kernel

/-- The check value of CRC-32C for the digits 1 to 9, and the published SHA-384 hash of abc. -/
theorem test_checksums :
    crc32c [0x31, 0x32, 0x33, 0x34, 0x35, 0x36, 0x37, 0x38, 0x39] = 0xE3069283
    ∧ sha384 [0x61, 0x62, 0x63] = 0xcb00753f45a35e8bb5a03d699ac65007272c32ab0eded1631a8b605a43ff5bed8086072ba1e7cc2358baeca134c825a7 := by decide +kernel

/-- The example of spec 02 under R75: a session of revision 3.1 and its capability bitmap 0x3FFF. -/
theorem test_open_session_grants :
    (let m : Msg := { req [(0, 0x0300), (16, 0x0301), (32, 1)] with session := 0, requestId := 7 }
     match exec (.openSession m 0x2A) fresh with
     | .next t => decide (t.mbx.sessions.map (fun x => (x.handle, x.rev, x.privilege)) = [(0x2A, 0x0301, 1)]) && capsOf 0x0301 == 0x3FFF
     | _ => false) = true := by decide +kernel

/-- The step takes the front command and keeps the queue's order. -/
theorem test_queue_order :
    (match step { dev with pending := [.enable 3 true, .nonceExpiry] } with
     | .next t => (match t.pending with | [.nonceExpiry] => true | _ => false)
     | _ => false) = true := by decide +kernel

/-- No row of the table gives bits, so no word spells a command. -/
theorem test_no_word_decodes : (decodeTableWord 32 0xFFFFFFFF).isNone = true ∧ (dev.withFetchWord 32 5).pending.isEmpty = true := by decide +kernel

/-- The terms of a well-formed message and of well-formed operands. -/
theorem test_well_formed : (wfMsg (req []) && wfMsg (ptrReq [] [1, 2]) && wellFormed (.openSession { req [] with session := 0 } 1) && wellFormed (.write (.port 0) write5)) = true := by decide +kernel

/-- Ill-formed requests: a length above its field, extra bytes above the management limit, extra bytes on a channel, a buffer or a pointer on the management path, and a buffer of another length than its pointer block gives. -/
theorem test_ill_formed_messages :
    [{ req [] with payloadLen := 65536 }, { req [] with src := .mctp .pcie 0, extra := List.replicate 977 0 }, { req [] with extra := [0] }, { ptrReq [] [1] with src := .mctp .pcie 0 }, { req [] with src := .mctp .pcie 0, ptr := true }, { ptrReq [] [1, 2] with req := [1] }].all
      (fun m => !wfMsg m && !wellFormed (.echo m)) = true := by decide +kernel

/-- Ill-formed operands, one for each check. -/
theorem test_ill_formed_operands :
    [Instr.openSession { req [] with session := 0 } 0, .tarnDelete 0 0 [67108864], .bucketAdd 0 0 [2 ^ 27 + 1], .update 0 0 [2 ^ 27], .registerWrite .bar0 4 2 0 false, .registerWrite .bar0 2 4 0 false, .bar2Read 0 0, .bar2Write 0 [] false, .memWr 0 .i [0] false,
     .memWrPtl 0 .i (List.replicate 64 0) [true] false, .linkCtl 0 write5, .write (.port 0) frame, .readData (.port 0) { frame with lenM1 := 1 }, .powerManagerTick [] 0 true, .telemetrySample 0 0 0 [] []].all (fun i => !wellFormed i) = true := by decide +kernel

/-- An image longer than the fetch stores is ill-formed (spec 19, boot stages). -/
theorem test_ill_formed_image : wellFormed (.imageCheck (some (List.replicate 1048577 0))) = false := by
  show decide ((List.replicate 1048577 (0 : Byte)).length ≤ 1048576) = false
  rw [List.length_replicate]; rfl

/-- R56 at its edges, from tail and head 0: 0 has no effect, 4096 fits, 4097 and 32768 overrun the ring, 32769 is backward. -/
theorem test_doorbell_edges :
    ([0, 4096, 4097, 32768, 32769].map fun v : Nat =>
      match exec (.mbxDoorbell 0 (BitVec.ofNat 32 v)) (dev.modChan 0 fun c => { c with reqTail := 0 }) with
      | .next t => ((t.chan 0).reqTail.toNat, (t.chan 0).state.toNat, (t.chan 0).reason.toNat)
      | _ => (0, 9, 9)) = [(0, 1, 0), (4096, 1, 0), (0, 2, 1), (0, 2, 1), (0, 2, 2)] := by decide +kernel

theorem wit_EmptyQueueOnlyPassesTime_0 :
    (decide (dev.pending = [] ∧ dev.host.waiting = [] ∧ dev.boot.fwStage ≠ 3 ∧ dev.clock.slew = 0) && [false, true].all fun n => let s : State := { State.reset with boot := { Boot.init with fwStage := 3, needTrain := n } }; decide (s.pending = [] ∧ s.host.waiting = [] ∧ s.boot.fwStage = 3)) = true := by decide +kernel

theorem wit_SessionMessagesTakeEffect_0 :
    (let m : Msg := { req [(0, 0x0300), (16, 0xFFFF), (32, 2), (64, 9)] with session := 0 }; let s : State := fresh; let u := begun m s; let x := view m s; let n : ChanId := 0; let rev : BitVec 16 := 0x0302; decide (m.src = .chan n ∧ canDequeue s m.src = true ∧ refusal u opOpen false m = none ∧ (u.chan n.val).session = 0 ∧ x.f 39 32 ≤ 2 ∧ grantRev (x.f 15 0) (x.f 31 16) = some rev ∧ (¬(x.f 39 32 = 2 ∧ u.mbx.sessions.any (fun y => y.privilege == 2) = true)) ∧ freshHandle u 5 ≠ 0)) = true := by decide +kernel

theorem wit_SessionMessagesTakeEffect_1 :
    (let m : Msg := req []; let s : State := dev; let u := begun m s; let x := view m s; decide (accepts { plainOp 0x0102 0 [] with quar := true } m s = true ∧ busyChans u x.session x.chan = 0)) = true := by decide +kernel

theorem wit_SessionMessagesTakeEffect_1_busy :
    (let m : Msg := req []; let s : State := dev.modChan 63 fun _ => { Channel.init with enabled := true, state := 1, session := 7, reqTail := 1, reqHead := 1, busy := true }; let u := begun m s; let x := view m s; decide (accepts { plainOp 0x0102 0 [] with quar := true } m s = true ∧ busyChans u x.session x.chan ≠ 0)) = true := by decide +kernel

theorem wit_SessionMessagesTakeEffect_2 :
    (let m : Msg := req [(0, 63)]; let s : State := dev.modChan 63 fun c => { c with state := 1, enabled := true }; let u := begun m s; let x := view m s; decide (accepts { plainOp 0x0103 0 [(383, 6)] with quar := true } m s = true ∧ x.f 5 0 ≠ x.chan ∧ (u.chan (x.f 5 0)).state = 1 ∧ (u.chan (x.f 5 0)).session = 0)) = true := by decide +kernel

theorem wit_SessionMessagesTakeEffect_3 :
    (let m : Msg := req [(0, 63)]; let s : State := dev.modChan 63 fun c => { c with state := 1, enabled := true, session := 7 }; let u := begun m s; let x := view m s; decide (accepts { plainOp 0x0104 0 [(383, 6)] with quar := true } m s = true ∧ x.f 5 0 ≠ x.chan ∧ (u.chan (x.f 5 0)).session = x.session)) = true := by decide +kernel

theorem wit_SessionMessagesTakeEffect_4 :
    (let m : Msg := req []; let s : State := dev; decide (accepts (queryOp 0x0105 0 []) m s = true)) = true := by decide +kernel

theorem wit_SessionMessagesTakeEffect_5 :
    (let m : Msg := req []; let s : State := dev; decide (accepts (queryOp 0x0106 0 []) m s = true)) = true := by decide +kernel

theorem wit_SessionMessagesTakeEffect_6 :
    (let m : Msg := req []; let s : State := dev; decide (accepts (queryOp 0x0107 0 []) m s = true)) = true := by decide +kernel

theorem wit_SessionMessagesTakeEffect_7 :
    (let m : Msg := req []; let s : State := dev; let n : ChanId := 0; let op : BitVec 16 := 0x0999; decide (m.src = .chan n ∧ opcodes.contains op.toNat = false ∧ canDequeue s m.src = true)) = true := by decide +kernel

theorem wit_SessionMessagesTakeEffect_8 :
    (let m : Msg := { req [] with src := .mctp .pcie 7 }; let s : State := dev; let path : MgmtPath := .pcie; let t : Fin 8 := 7; let op : BitVec 16 := 0x0999; decide (m.src = .mctp path t ∧ opcodes.contains op.toNat = false ∧ canDequeue s m.src = true)) = true := by decide +kernel

theorem wit_ResetsReachTheirDomains_0 :
    (let m : Msg := req []; let s : State := dev; let u := begun m s; decide (accepts opReset m s = true ∧ fld (effPayload m) 1 0 = 0 ∧ u.hbm.failed = 0 ∧ u.hot = false ∧ securityBusy u = false)) = true := by decide +kernel

theorem wit_ResetsReachTheirDomains_busy :
    (let m : Msg := req []; let s : State := { dev with mbx := { dev.mbx with held := [{ heldOf 0x0A05 (req []) 1 with src := .chan 1, msg := { req [] with src := .chan 1 } }] } }; let u := begun m s; decide (accepts opReset m s = true ∧ fld (effPayload m) 1 0 = 0 ∧ securityBusy u = true)) = true := by decide +kernel

theorem wit_ResetsReachTheirDomains_1 :
    (let m : Msg := req [(0, 1)]; let s : State := dev; let u := begun m s; decide (accepts opReset m s = true ∧ fld (effPayload m) 1 0 = 1 ∧ u.hot = false)) = true := by decide +kernel

theorem wit_ResetsReachTheirDomains_2 :
    (let s : State := { dev with boot := { dev.boot with resetDue := true } }; decide (s.boot.resetDue = true ∧ s.clocked = true)) = true := by decide +kernel

theorem wit_ResetsReachTheirDomains_3 :
    (let s : State := { State.reset with boot := { Boot.init with pwrgood := false } }; decide (s.boot.pwrgood = false)) = true := by decide +kernel

theorem wit_ResetsReachTheirDomains_4 :
    (let s : State := dev; decide (s.boot.pwrgood = true)) = true := by decide +kernel

theorem wit_ResetsReachTheirDomains_17 :
    (let powerOn := false; decide (powerOn = false)) = true := by decide +kernel

theorem wit_ResetsReachTheirDomains_21 :
    (let powerOn := true; decide (powerOn = true)) = true := by decide +kernel

theorem wit_ScratchpadMessagesTakeEffect_0 :
    (let m : Msg := req [(0, 23), (8, 3), (12, 3), (16, 3), (32, 0x1000), (64, 0x8000), (96, 0xFFF000)]; let s : State := dev; let u := begun m s; let x := view m s; let c := x.f 4 0; decide (accepts (plainOp 0x0201 1 [(383, 120), (95, 88), (63, 57), (31, 18), (15, 14), (11, 10), (7, 5)]) m s = true ∧ regionRefusal u x = none ∧ (u.queue c (x.f 9 8)).started = [] ∧ u.behind (heldOf 0x0201 m 0) = false)) = true := by decide +kernel

theorem wit_ScratchpadMessagesTakeEffect_1 :
    (let m : Msg := req [(32, 128), (96, 128)]; let s : State := withStarted (entryOf (cmd 0 [])) dev; let u := begun m s; let x := view m s; let c := x.f 4 0; decide (accepts (plainOp 0x0201 1 [(383, 120), (95, 88), (63, 57), (31, 18), (15, 14), (11, 10), (7, 5)]) m s = true ∧ regionRefusal u x = none ∧ (u.queue c (x.f 9 8)).started ≠ [])) = true := by decide +kernel

theorem wit_ScratchpadMessagesTakeEffect_2 :
    (let m : Msg := req [(0, 23), (16, 15)]; let s : State := dev; let u := begun m s; let x := view m s; let c := x.f 4 0; decide (accepts { plainOp 0x0202 1 [(383, 160), (127, 121), (95, 88), (63, 20), (15, 14), (11, 10), (7, 5)] with high := true } m s = true ∧ c < 24 ∧ circUsed u c (x.f 19 16) = false ∧ x.f 120 96 = 0)) = true := by decide +kernel

theorem wit_ScratchpadMessagesTakeEffect_3 :
    (let m : Msg := req [(16, 15), (64, 0x80), (96, 0x1F80), (128, 0x80)]; let s : State := dev.modCfg 0 fun g => { g with pairs := [(0, some { logical := 0, size := 0x2000, base := 0x4000, rd := true, wr := true })] }; let u := begun m s; let x := view m s; let c := x.f 4 0; let g : Circ := { queue := x.f 9 8, pair := x.f 13 12, start := x.f 87 64, size := x.f 120 96, entry := x.f 159 128, head := 0, tail := 0, resHead := 0, resTail := 0 }; decide (accepts { plainOp 0x0202 1 [(383, 160), (127, 121), (95, 88), (63, 20), (15, 14), (11, 10), (7, 5)] with high := true } m s = true ∧ c < 24 ∧ circUsed u c (x.f 19 16) = false ∧ g.size ≠ 0 ∧ g.start % 128 = 0 ∧ g.entry ≠ 0 ∧ g.entry % 128 = 0 ∧ g.entry ≤ 1048576 ∧ g.size % g.entry = 0 ∧ circInside g ((u.core c).cfg.pair g.queue g.pair) = true)) = true := by decide +kernel

theorem wit_ScratchpadMessagesTakeEffect_4 :
    (let m : Msg := req [(0, 23), (8, 63), (36, 3), (96, 0x80), (128, 0xFFFF80)]; let s : State := dev; let u := begun m s; let x := view m s; let c := x.f 4 0; let w := windowOf x; decide (accepts { plainOp 0x0203 1 [(383, 152), (127, 121), (95, 76), (63, 60), (35, 14), (7, 5)] with high := true } m s = true ∧ c < 24 ∧ w.base % 128 = 0 ∧ w.size % 128 = 0 ∧ w.size ≠ 0 ∧ w.base + w.size ≤ 0x1000000 ∧ ((u.core c).cfg.windows.any fun e => match e.2 with | none => false | some o => overlaps w.base w.size o.base o.size) = false ∧ tget none (u.core c).cfg.windows (x.f 13 8) = none)) = true := by decide +kernel

theorem wit_ScratchpadMessagesTakeEffect_5 :
    (let m : Msg := req [(0, 23), (8, 63)]; let s : State := dev; let u := begun m s; let x := view m s; let c := x.f 4 0; decide (accepts (plainOp 0x0204 1 [(383, 14), (7, 5)]) m s = true ∧ c < 24 ∧ groupNames u c (x.f 13 8) = false)) = true := by decide +kernel

theorem wit_ScratchpadMessagesTakeEffect_6 :
    (let m : Msg := req [(0, 23), (16, 255), (32, 0xFFFFFFFF), (8, 1)]; let s : State := dev; let u := begun m s; let x := view m s; let c := x.f 4 0; decide (accepts (plainOp 0x0205 1 [(383, 64), (31, 24), (15, 9), (7, 5)]) m s = true ∧ c < 24 ∧ groupCounts u c (x.f 23 16) = false)) = true := by decide +kernel

theorem wit_ScratchpadMessagesTakeEffect_7 :
    (let m : Msg := req [(0, 23), (8, 3), (16, 1)]; let s : State := dev; let x := view m s; let c := x.f 4 0; decide (accepts (plainOp 0x0206 1 [(383, 17), (15, 10), (7, 5)]) m s = true ∧ c < 24 ∧ (bit x.p 16 = true → x.has capStrict = true))) = true := by decide +kernel

theorem wit_ScratchpadMessagesTakeEffect_8 :
    (let m : Msg := req [(0, 23), (8, 9)]; let s : State := dev; let u := begun m s; let x := view m s; let c := x.f 4 0; let mask : BitVec 4 := fb x.p 8 4; decide (accepts (plainOp 0x0207 1 [(383, 17), (15, 12), (7, 5)]) m s = true ∧ c < 24 ∧ u.behind (heldOf 0x0207 m 0) = false ∧ bit x.p 16 = false ∧ segmentsHeld u c mask = false)) = true := by decide +kernel

theorem wit_ScratchpadMessagesTakeEffect_9 :
    (let m : Msg := req [(0, 23), (8, 9), (16, 1)]; let s : State := dev; let u := begun m s; let x := view m s; let c := x.f 4 0; decide (accepts (plainOp 0x0207 1 [(383, 17), (15, 12), (7, 5)]) m s = true ∧ c < 24 ∧ u.behind (heldOf 0x0207 m 0) = false ∧ bit x.p 16 = true ∧ (u.core c).segOff &&& fb x.p 8 4 = 0 ∧ (u.core c).segZeroing &&& fb x.p 8 4 = 0)) = true := by decide +kernel

theorem wit_ScratchpadMessagesTakeEffect_10 :
    (let m : Msg := req [(0, 23), (8, 8), (16, 1)]; let s : State := dev.modCore 23 fun k => { k with segOff := 8 }; let u := begun m s; let x := view m s; let c := x.f 4 0; decide (accepts (plainOp 0x0207 1 [(383, 17), (15, 12), (7, 5)]) m s = true ∧ c < 24 ∧ u.behind (heldOf 0x0207 m 0) = false ∧ bit x.p 16 = true ∧ ¬((u.core c).segOff &&& fb x.p 8 4 = 0 ∧ (u.core c).segZeroing &&& fb x.p 8 4 = 0))) = true := by decide +kernel

theorem wit_ScratchpadMessagesTakeEffect_behind :
    (let m : Msg := req [(0, 23), (8, 8)]; let h : Held := { heldOf 0x0207 (req [(0, 23), (8, 8), (16, 1)]) 1 with src := .chan 1, msg := { req [(0, 23), (8, 8), (16, 1)] with src := .chan 1 } }; let s : State := { dev with mbx := { dev.mbx with held := [h] } }; let u := begun m s; let x := view m s; decide (accepts (plainOp 0x0207 1 [(383, 17), (15, 12), (7, 5)]) m s = true ∧ x.f 4 0 < 24 ∧ u.behind (heldOf 0x0207 m 0) = true)) = true := by decide +kernel

theorem wit_ScratchpadMessagesTakeEffect_11 :
    (let s : State := dev.modCore 23 fun k => { k with segZeroing := 8 }; let core : CoreId := 23; let g : Fin 4 := 3; decide (bit (s.core core.val).segZeroing g.val = true)) = true := by decide +kernel

theorem wit_MemoryMessagesTakeEffect_0 :
    (let m : Msg := req [(0, 15)]; let s : State := dev; let u := begun m s; let x := view m s; let r := x.f 3 0; let base := x.f 103 64; let size := x.f 167 128; decide (accepts { plainOp 0x0210 1 [(383, 168), (127, 104), (63, 4)] with high := true } m s = true ∧ size % 4096 = 0 ∧ base % 4096 = 0 ∧ regionOpen u r = false ∧ size = 0)) = true := by decide +kernel

theorem wit_MemoryMessagesTakeEffect_1 :
    (let m : Msg := req [(0, 15), (64, 0x5FFFFFF000), (128, 0x1000)]; let s : State := dev; let u := begun m s; let x := view m s; let r := x.f 3 0; let base := x.f 103 64; let size := x.f 167 128; decide (accepts { plainOp 0x0210 1 [(383, 168), (127, 104), (63, 4)] with high := true } m s = true ∧ size % 4096 = 0 ∧ base % 4096 = 0 ∧ regionOpen u r = false ∧ size ≠ 0 ∧ inHbm base size = true ∧ hits base size ((u.regions.filter fun e => e.1 != r).map fun e => e.2) = false ∧ hits base size (windowRanges u) = false)) = true := by decide +kernel

theorem wit_MemoryMessagesTakeEffect_2 :
    (let m : Msg := req [(0, 23), (8, 7), (16, 1), (18, 2)]; let s : State := dev; let x := view m s; decide (accepts (plainOp 0x0211 1 [(383, 20), (15, 11), (7, 5)]) m s = true ∧ x.f 4 0 < 24 ∧ x.f 17 16 ≠ 3 ∧ x.f 19 18 ≠ 3 ∧ (x.f 17 16 = 1 → x.has capNarrow = true))) = true := by decide +kernel

theorem wit_MemoryMessagesTakeEffect_3 :
    (let m : Msg := req []; let s : State := dev; decide (accepts (readOp 0x0212 0 []) m s = true)) = true := by decide +kernel

theorem wit_MemoryMessagesTakeEffect_4 :
    (let m : Msg := req []; let s : State := dev; let u := begun m s; let x := view m s; let base := x.f 103 64; let size := x.f 167 128; decide (accepts { plainOp 0x0220 2 [(383, 168), (127, 104), (63, 0)] with cap := some capWindow, high := true } m s = true ∧ size % 0x10000000 = 0 ∧ size ≤ 0x1000000000 ∧ base % 0x10000000 = 0 ∧ u.host.committed = false ∧ size = 0 ∧ base = 0)) = true := by decide +kernel

theorem wit_MemoryMessagesTakeEffect_5 :
    (let m : Msg := req [(64, 0x5FF0000000), (128, 0x10000000)]; let s : State := dev; let u := begun m s; let x := view m s; let base := x.f 103 64; let size := x.f 167 128; decide (accepts { plainOp 0x0220 2 [(383, 168), (127, 104), (63, 0)] with cap := some capWindow, high := true } m s = true ∧ size % 0x10000000 = 0 ∧ size ≤ 0x1000000000 ∧ base % 0x10000000 = 0 ∧ u.host.committed = false ∧ size ≠ 0 ∧ inHbm base size = true ∧ hits base size (storeRanges u ++ tarnRanges u ++ bucketRanges u ++ replayRanges u) = false)) = true := by decide +kernel

theorem wit_StageMessagesTakeEffect_0 :
    (let m : Msg := req [(0, 5), (32, 6)]; let s : State := dev; let u := begun m s; decide (accepts (plainOp 0x0301 1 [(383, 64)]) m s = true ∧ u.anyQueue = false)) = true := by decide +kernel

theorem wit_StageMessagesTakeEffect_1 :
    (let m : Msg := req [(0, 1), (1, 1)]; let s : State := dev; let x := view m s; decide (accepts (plainOp 0x0302 1 [(383, 73), (31, 28), (15, 2)]) m s = true ∧ bit x.p 1 = true ∧ zeros x.p [(72, 64), (63, 32), (27, 16)] = true)) = true := by decide +kernel

theorem wit_StageMessagesTakeEffect_2 :
    (let m : Msg := req [(0, 1), (16, 9), (32, 5), (64, 256)]; let s : State := dev; let u := begun m s; let x := view m s; decide (accepts (plainOp 0x0302 1 [(383, 73), (31, 28), (15, 2)]) m s = true ∧ bit x.p 1 = false ∧ x.f 72 64 ≠ 0 ∧ x.f 72 64 ≤ 256 ∧ u.isSelf (x.f 27 16) = false)) = true := by decide +kernel

theorem wit_StageMessagesTakeEffect_3 :
    (let m : Msg := req [(0, 3), (2, 1)]; let s : State := { dev with stage := { dev.stage with queues := [(0, some ({ expected := 256, base := 0x100000, stride := 256, slots := 256, inSpad := false, core := 0, messages := false } : MbQueue)), (3, some ({ expected := 256, base := 0x100000, stride := 256, slots := 256, inSpad := false, core := 0, messages := false } : MbQueue))] } }; let u := begun m s; let x := view m s; let q := x.f 1 0; decide (accepts { plainOp 0x0303 1 [(383, 160), (127, 104), (31, 25), (15, 14), (7, 5)] with high := true } m s = true ∧ allFree u q = true ∧ bit x.p 2 = true)) = true := by decide +kernel

theorem wit_StageMessagesTakeEffect_4 :
    (let m : Msg := req [(0, 1), (16, 256), (32, 128), (64, 0x1000), (128, 128)]; let s : State := dev; let u := begun m s; let x := view m s; let q := x.f 1 0; let k := queueOf x; decide (accepts { plainOp 0x0303 1 [(383, 160), (127, 104), (31, 25), (15, 14), (7, 5)] with high := true } m s = true ∧ allFree u q = true ∧ bit x.p 2 = false ∧ k.slots ≠ 0 ∧ k.slots ≤ 256 ∧ k.stride % 128 = 0 ∧ x.f 4 3 ≤ 1 ∧ (k.inSpad = true → k.core < 24) ∧ queueRangeOk k = true)) = true := by decide +kernel

theorem wit_StageMessagesTakeEffect_5 :
    (let m : Msg := req [(0, 3), (8, 255), (32, 64)]; let s : State := { dev with stage := { dev.stage with queues := [(0, some ({ expected := 256, base := 0x100000, stride := 256, slots := 256, inSpad := false, core := 0, messages := false } : MbQueue)), (3, some ({ expected := 256, base := 0x100000, stride := 256, slots := 256, inSpad := false, core := 0, messages := false } : MbQueue))] } }; let u := begun m s; let x := view m s; let k := ({ expected := 256, base := 0x100000, stride := 256, slots := 256, inSpad := false, core := 0, messages := false } : MbQueue); decide (accepts (plainOp 0x0304 1 [(383, 64), (31, 16), (7, 2)]) m s = true ∧ u.stage.queue (x.f 1 0) = some k ∧ x.f 15 8 < k.slots ∧ (u.stage.slot (x.f 1 0) (x.f 15 8)).state = 0)) = true := by decide +kernel

theorem wit_StageMessagesTakeEffect_6 :
    (let m : Msg := req [(0, 15)]; let s : State := { dev with stage := { dev.stage with queues := [(0, some ({ expected := 256, base := 0x100000, stride := 256, slots := 256, inSpad := false, core := 0, messages := false } : MbQueue)), (3, some ({ expected := 256, base := 0x100000, stride := 256, slots := 256, inSpad := false, core := 0, messages := false } : MbQueue))] } }; decide (accepts (plainOp 0x0305 1 [(383, 4)]) m s = true)) = true := by decide +kernel

theorem wit_StageMessagesTakeEffect_7 :
    (let m : Msg := req [(0, 3)]; let s : State := { dev with stage := { dev.stage with queues := [(0, some ({ expected := 256, base := 0x100000, stride := 256, slots := 256, inSpad := false, core := 0, messages := false } : MbQueue)), (3, some ({ expected := 256, base := 0x100000, stride := 256, slots := 256, inSpad := false, core := 0, messages := false } : MbQueue))] } }; let u := begun m s; let x := view m s; let k := ({ expected := 256, base := 0x100000, stride := 256, slots := 256, inSpad := false, core := 0, messages := false } : MbQueue); decide (accepts (readOp 0x0306 0 [(383, 2)]) m s = true ∧ u.stage.queue (x.f 1 0) = some k)) = true := by decide +kernel

theorem wit_RingMessagesTakeEffect_0 :
    (let m : Msg := req [(0, 23), (8, 3), (16, 12), (24, 40), (64, 0x10000), (128, 4096)]; let s : State := dev.modQueue 23 3 fun u => { u with cpl := some { base := 0x80000, log2 := 8, vector := 127, headAddr := 0x90000, written := 0, head := 0 } }; let u := begun m s; let x := view m s; let c := x.f 4 0; let q := x.f 9 8; decide (accepts { plainOp 0x0401 1 [(383, 144), (127, 104), (63, 32), (23, 21), (15, 10), (7, 5)] with high := true } m s = true ∧ ringFieldsOk x = true ∧ (u.queue c q).armed = [] ∧ (u.queue c q).cpl ≠ none ∧ otherQuotas u c q + (if x.f 143 128 = 0 then 1024 else x.f 143 128) ≤ 4096)) = true := by decide +kernel

theorem wit_RingMessagesTakeEffect_1 :
    (let m : Msg := req [(64, 1)]; let s : State := (withCmd 0 dev).modQueue 0 0 fun u => { u with armed := [] }; let u := begun m s; let x := view m s; let c := x.f 4 0; let q := x.f 9 8; let r := ({ base := 0x10000, log2 := 12, waitLimit := 24, quota := 1024 } : Ring); let rd := readEntries u r (x.f 63 32) (x.f 80 64); decide (accepts (plainOp 0x0402 1 [(383, 81), (31, 10), (7, 5)]) m s = true ∧ submitRefusal u x = none ∧ (u.queue c q).armed.length < 64 ∧ (u.queue c q).ring = some r ∧ ((blockRanges r (x.f 63 32) (x.f 80 64)).flatMap fun p => snoopsFor u p.1 p.2 false) = [] ∧ rd.2.1 = none ∧ admitBlock rd.2.2 x.caps c q 0 rd.1 = none)) = true := by decide +kernel

theorem wit_RingMessagesTakeEffect_2 :
    (let m : Msg := req []; let s : State := withCmd 0 dev; let u := begun m s; let x := view m s; let c := x.f 4 0; let q := x.f 9 8; let ids := ([] : List Nat); decide (accepts (plainOp 0x0403 1 [(383, 10), (7, 5)]) m s = true ∧ c < 24 ∧ ((abortQueue u c q ids).queue c q).started = [])) = true := by decide +kernel

theorem wit_RingMessagesTakeEffect_3 :
    (let m : Msg := req []; let s : State := withStarted { entryOf 0 with done := true } dev; let u := begun m s; let x := view m s; let c := x.f 4 0; let q := x.f 9 8; let ids := ([0] : List Nat); decide (accepts (plainOp 0x0403 1 [(383, 10), (7, 5)]) m s = true ∧ c < 24 ∧ ((abortQueue u c q ids).queue c q).started ≠ [])) = true := by decide +kernel

theorem wit_RingMessagesTakeEffect_4 :
    (let m : Msg := req [(0, 23), (8, 3), (16, 20), (24, 63), (64, 0x10000), (128, 0x90000)]; let s : State := dev; let u := begun m s; let x := view m s; let c := x.f 4 0; let q := x.f 9 8; decide (accepts { plainOp 0x0404 1 [(383, 168), (127, 104), (63, 31), (23, 21), (15, 10), (7, 5)] with high := true } m s = true ∧ c < 24 ∧ 8 ≤ x.f 20 16 ∧ x.f 20 16 ≤ 20 ∧ (x.f 30 24 ≤ 63 ∨ x.f 30 24 = 127) ∧ x.f 103 64 % 4096 = 0 ∧ inHbm (x.f 103 64) (32 * 2 ^ x.f 20 16) = true ∧ x.f 167 128 % 8 = 0 ∧ inHbm (x.f 167 128) 4 = true ∧ (u.queue c q).armed = [])) = true := by decide +kernel

theorem wit_RingMessagesTakeEffect_5 :
    (let m : Msg := req [(0, 23), (8, 3)]; let s : State := dev; let x := view m s; let c := x.f 4 0; decide (accepts (readOp 0x0405 0 [(383, 10), (7, 5)]) m s = true ∧ c < 24)) = true := by decide +kernel

theorem wit_HeldMessagesTakeEffect_0 :
    (let m : Msg := ptrReq [(0, 1), (24, 63)] (List.replicate 1088 0); let s : State := dev; let u := begun m s; let x := view m s; decide (accepts { plainOp 0x0410 1 [(383, 30)] with cap := some capMicro, buf := true } m s = true ∧ m.ptr = true ∧ msgReqLen m = 1088 ∧ microOk m.req = true ∧ loadFree u 0x0410 x.p = true ∧ u.behind (heldOf 0x0410 m 0) = false)) = true := by decide +kernel

theorem wit_HeldMessagesTakeEffect_1 :
    (let m : Msg := ptrReq [(0, 1), (24, 63)] (List.replicate 1088 0); let s : State := withStarted (entryOf (cmd 0x21 [(24, 127)])) dev; let u := begun m s; let x := view m s; decide (accepts { plainOp 0x0410 1 [(383, 30)] with cap := some capMicro, buf := true } m s = true ∧ m.ptr = true ∧ msgReqLen m = 1088 ∧ microOk m.req = true ∧ loadFree u 0x0410 x.p = false)) = true := by decide +kernel

theorem wit_HeldMessagesTakeEffect_2 :
    (let m : Msg := ptrReq [(0, 1), (24, 15)] (List.replicate 16384 0); let s : State := dev; let u := begun m s; let x := view m s; decide (accepts { plainOp 0x0411 1 [(383, 96), (31, 29)] with cap := some capTables, buf := true } m s = true ∧ m.ptr = true ∧ msgReqLen m = 16384 ∧ ((tableImage m.req).all fun b => leNat (b.drop 12) == 0) = true ∧ loadFree u 0x0411 x.p = true ∧ u.behind (heldOf 0x0411 m 0) = false)) = true := by decide +kernel

theorem wit_HeldMessagesTakeEffect_3 :
    (let m : Msg := ptrReq [(0, 1), (24, 15)] (List.replicate 16384 0); let s : State := withStarted (entryOf (cmd 0x21 [(24, 31)])) dev; let u := begun m s; let x := view m s; decide (accepts { plainOp 0x0411 1 [(383, 96), (31, 29)] with cap := some capTables, buf := true } m s = true ∧ m.ptr = true ∧ msgReqLen m = 16384 ∧ ((tableImage m.req).all fun b => leNat (b.drop 12) == 0) = true ∧ loadFree u 0x0411 x.p = false)) = true := by decide +kernel

theorem wit_HeldMessagesTakeEffect_4 :
    (let s : State := holding (heldOf 0x0410 (ptrReq [(0, 1), (24, 63)] (List.replicate 1088 0)) 0) dev; let src : MsgSrc := .chan 0; let h : Held := heldOf 0x0410 (ptrReq [(0, 1), (24, 63)] (List.replicate 1088 0)) 0; let op := 0x0410; decide (s.heldBy src = some h ∧ s.behind h = false ∧ (op = 0x0410 ∨ op = 0x0411) ∧ h.opcode = BitVec.ofNat 16 op ∧ loadFree s h.opcode (effPayload h.msg) = true)) = true := by decide +kernel

theorem wit_HeldMessagesTakeEffect_5 :
    (let s : State := holding (heldOf 0x0602 (req []) 0) dev; let src : MsgSrc := .chan 0; let h : Held := heldOf 0x0602 (req []) 0; let op := 0x0602; decide (s.heldBy src = some h ∧ s.behind h = false ∧ (op = 0x0601 ∨ op = 0x0602) ∧ h.opcode = BitVec.ofNat 16 op ∧ slotUsed s (fld (effPayload h.msg) 3 0) = false)) = true := by decide +kernel

theorem wit_HeldMessagesTakeEffect_6 :
    (let s : State := holding (heldOf 0x0201 (req [(0, 23), (8, 3), (12, 3), (16, 3), (32, 0x1000), (64, 0x8000), (96, 0xFFF000)]) 0) dev; let src : MsgSrc := .chan 0; let h : Held := heldOf 0x0201 (req [(0, 23), (8, 3), (12, 3), (16, 3), (32, 0x1000), (64, 0x8000), (96, 0xFFF000)]) 0; decide (s.heldBy src = some h ∧ s.behind h = false ∧ h.opcode = 0x0201 ∧ (s.queue (fld (effPayload h.msg) 4 0) (fld (effPayload h.msg) 9 8)).started = [] ∧ regionRefusal (s.unheld src) (ctxOf s h.msg) = none)) = true := by decide +kernel

theorem wit_HeldMessagesTakeEffect_7 :
    ([0x0410, 0x0411, 0x0601, 0x0602, 0x0503, 0x0801, 0x0201].all fun op => decide ((holding (heldOf op (req []) 0) dev).heldBy (.chan 0) = some (heldOf op (req []) 0))) = true := by decide +kernel

theorem wit_HeldMessagesTakeEffect_behind :
    (let h : Held := { heldOf 0x0601 (req []) 0 with src := .chan 1, msg := { req [] with src := .chan 1 } }; let s : State := { dev with mbx := { dev.mbx with held := [heldOf 0x0601 (req []) 0, h] } }; decide (s.heldBy (.chan 1) = some h ∧ s.behind h = true)) = true := by decide +kernel

theorem wit_TarnMessagesTakeEffect_0 :
    (let m : Msg := req [(0, 15), (64, 10), (128, 0x2000), (192, 0x1000)]; let s : State := dev; let u := begun m s; let x := view m s; let i := x.f 3 0; decide (accepts { plainOp 0x0501 1 [(383, 320), (287, 232), (191, 168), (127, 80), (63, 60), (47, 40), (15, 10), (7, 4)] with cap := some capTarn, high := true } m s = true ∧ u.index i = none ∧ (hbmRead u (newIndex x).dir (32 * (newIndex x).lists)).2.1 = none ∧ inHbm (newIndex x).dir (32 * (newIndex x).lists) = true ∧ indexBad (hbmRead u (newIndex x).dir (32 * (newIndex x).lists)).2.2 x = false)) = true := by decide +kernel

theorem wit_TarnMessagesTakeEffect_1 :
    ([dev, { dev with tarn := [(15, some index15)] }].all fun s : State => let m : Msg := req [(0, 15)]; let u := begun m s; let x := view m s; let i := x.f 3 0; decide (accepts { plainOp 0x0502 1 [(383, 4)] with cap := some capTarn } m s = true ∧ tarnStarted u i = false ∧ ((u.index i).all fun k => decide (k.rewrites = [])) = true)) = true := by decide +kernel

theorem wit_TarnMessagesTakeEffect_2 :
    (let m : Msg := req [(0, 15), (32, 5)]; let s : State := { dev with tarn := [(15, some index15)] }; let u := begun m s; let x := view m s; let i := x.f 3 0; let k := index15; decide (accepts { plainOp 0x0503 1 [(383, 64), (31, 4)] with cap := some capTarn } m s = true ∧ u.index i = some k ∧ k.floor.toNat ≤ x.f 63 32 ∧ x.f 63 32 ≤ k.published.toNat ∧ (readsBelow u i (x.f 63 32) || u.mbx.held.any (sameObject (heldOf 0x0503 m 0))) = false)) = true := by decide +kernel

theorem wit_TarnMessagesTakeEffect_3 :
    (let m : Msg := req [(0, 15), (32, 5)]; let s : State := withStarted (entryOf (cmd 0x50 [(8, 15), (32, 4)])) ({ dev with tarn := [(15, some index15)] }); let u := begun m s; let x := view m s; let i := x.f 3 0; let k := index15; decide (accepts { plainOp 0x0503 1 [(383, 64), (31, 4)] with cap := some capTarn } m s = true ∧ u.index i = some k ∧ k.floor.toNat ≤ x.f 63 32 ∧ x.f 63 32 ≤ k.published.toNat ∧ (readsBelow u i (x.f 63 32) || u.mbx.held.any (sameObject (heldOf 0x0503 m 0))) = true)) = true := by decide +kernel

theorem wit_TarnMessagesTakeEffect_4 :
    (let m : Msg := req [(0, 15), (64, 0x10000), (128, 0x20000), (192, 4)]; let s : State := { dev with tarn := [(15, some index15)] }; let u := begun m s; let x := view m s; let i := x.f 3 0; let k := index15; let rs := listRanges k.width { tomb := x.f 167 128, log := x.f 103 64, length := 0, cap := x.f 223 192 }; decide (accepts { plainOp 0x0504 1 [(383, 224), (191, 168), (127, 104), (63, 40), (15, 4)] with cap := some capTarn, high := true } m s = true ∧ u.index i = some k ∧ x.f 39 16 < k.lists ∧ x.f 223 192 ≠ 0 ∧ x.f 223 192 ≤ 67108864 ∧ x.f 167 128 % 128 = 0 ∧ x.f 103 64 % 256 = 0 ∧ rs.all (fun r => inHbm r.1 r.2) = true ∧ selfOverlap rs = false ∧ rs.any (fun r => hits r.1 r.2 (tarnRanges u ++ storeRanges u ++ windowRanges u)) = false ∧ k.rewriting (x.f 39 16) = false ∧ rewriteCount u < 64)) = true := by decide +kernel

theorem wit_TarnMessagesTakeEffect_5 :
    (let m : Msg := req [(0, 15)]; let s : State := { dev with tarn := [(15, some index15)] }; decide (accepts { readOp 0x0505 0 [(383, 4)] with cap := some capTarn } m s = true)) = true := by decide +kernel

theorem wit_UpdateAndGroupMessagesTakeEffect_0 :
    (let m : Msg := req [(0, 15), (8, 3), (12, 1), (16, 1), (20, 1), (24, 4)]; let s : State := dev; let u := begun m s; let x := view m s; decide (accepts { plainOp 0x0601 1 [(383, 27), (23, 21), (19, 17), (15, 13), (11, 11), (7, 4)] with cap := some capUpdate } m s = true ∧ x.f 10 8 ≤ 3 ∧ x.f 26 24 ≤ 4 ∧ (bit x.p 16 = true → x.has capBs8 = true) ∧ slotUsed u (x.f 3 0) = false ∧ u.behind (heldOf 0x0601 m 0) = false)) = true := by decide +kernel

theorem wit_UpdateAndGroupMessagesTakeEffect_1 :
    (let m : Msg := req [(0, 0)]; let s : State := withStarted (entryOf (cmd 0x70 [(0, 0)])) dev; let u := begun m s; let x := view m s; decide (accepts { plainOp 0x0601 1 [(383, 27), (23, 21), (19, 17), (15, 13), (11, 11), (7, 4)] with cap := some capUpdate } m s = true ∧ x.f 10 8 ≤ 3 ∧ x.f 26 24 ≤ 4 ∧ (bit x.p 16 = true → x.has capBs8 = true) ∧ slotUsed u (x.f 3 0) = true)) = true := by decide +kernel

theorem wit_UpdateAndGroupMessagesTakeEffect_2 :
    (let m : Msg := req [(0, 15), (32, 0x3F800000), (64, 0x3F7FBE77), (96, 0x322BCC77), (128, 0x3C23D70A)]; let s : State := dev; let u := begun m s; let x := view m s; decide (accepts { plainOp 0x0602 1 [(383, 160), (31, 4)] with cap := some capUpdate, high := true } m s = true ∧ unitRange (fb x.p 32 32) = true ∧ unitRange (fb x.p 64 32) = true ∧ notNegative (fb x.p 96 32) = true ∧ notNegative (fb x.p 128 32) = true ∧ slotUsed u (x.f 3 0) = false ∧ u.behind (heldOf 0x0602 m 0) = false)) = true := by decide +kernel

theorem wit_UpdateAndGroupMessagesTakeEffect_3 :
    (let m : Msg := req [(0, 0), (32, 0x3F800000), (64, 0x3F7FBE77), (96, 0x322BCC77), (128, 0x3C23D70A)]; let s : State := withStarted (entryOf (cmd 0x70 [(0, 0)])) dev; let u := begun m s; let x := view m s; decide (accepts { plainOp 0x0602 1 [(383, 160), (31, 4)] with cap := some capUpdate, high := true } m s = true ∧ unitRange (fb x.p 32 32) = true ∧ unitRange (fb x.p 64 32) = true ∧ notNegative (fb x.p 96 32) = true ∧ notNegative (fb x.p 128 32) = true ∧ slotUsed u (x.f 3 0) = true)) = true := by decide +kernel

theorem wit_UpdateAndGroupMessagesTakeEffect_4 :
    (let m : Msg := req [(0, 0xFFF)]; let s : State := dev; let u := begun m s; let x := view m s; let b : Bucket := { addr := x.f 103 64, length := x.f 63 32, bf16 := bit x.p 16, group := x.f 15 12 }; decide (accepts (plainOp 0x0610 1 [(383, 104), (31, 17)]) m s = true ∧ bucketStarted u (fun k => k == x.f 11 0) = false ∧ b.length = 0)) = true := by decide +kernel

theorem wit_UpdateAndGroupMessagesTakeEffect_5 :
    (let m : Msg := req [(0, 0xFFF), (12, 15), (32, 2048), (64, 0x100000)]; let s : State := State.modCfg ({ dev with groups := [(15, some group15)], fabric := { dev.fabric with coord := 5, endpoints := [(1, some { coord := 5, conn := 0, portMask := 0, rprofile := 0, self := true, roce := false, profile := none, quarantine := none }), (2, some { coord := 6, conn := 0, portMask := 1, rprofile := 0, self := false, roce := false, profile := none, quarantine := none })] } }) 0 (fun g => { g with windows := [(1, some { base := 0, size := 0x10000, srcMask := 0, srcEp := 0, counter := 1, ctrEn := true, publish := false, wr := true, rd := false }), (2, some { base := 65536, size := 0x10000, srcMask := 0, srcEp := 0, counter := 2, ctrEn := true, publish := false, wr := true, rd := false })] }); let u := begun m s; let x := view m s; let b : Bucket := { addr := x.f 103 64, length := x.f 63 32, bf16 := bit x.p 16, group := x.f 15 12 }; decide (accepts (plainOp 0x0610 1 [(383, 104), (31, 17)]) m s = true ∧ bucketStarted u (fun k => k == x.f 11 0) = false ∧ b.length ≠ 0 ∧ bucketBad u (x.f 11 0) b = false)) = true := by decide +kernel

theorem wit_UpdateAndGroupMessagesTakeEffect_6 :
    (let m : Msg := ptrReq [(0, 15)] []; let s : State := State.modCfg ({ dev with groups := [(15, some group15)], fabric := { dev.fabric with coord := 5, endpoints := [(1, some { coord := 5, conn := 0, portMask := 0, rprofile := 0, self := true, roce := false, profile := none, quarantine := none }), (2, some { coord := 6, conn := 0, portMask := 1, rprofile := 0, self := false, roce := false, profile := none, quarantine := none })] } }) 0 (fun g => { g with windows := [(1, some { base := 0, size := 0x10000, srcMask := 0, srcEp := 0, counter := 1, ctrEn := true, publish := false, wr := true, rd := false }), (2, some { base := 65536, size := 0x10000, srcMask := 0, srcEp := 0, counter := 2, ctrEn := true, publish := false, wr := true, rd := false })] }); let u := begun m s; let x := view m s; let g := x.f 3 0; let n := x.f 15 8; decide (accepts { plainOp 0x0611 1 [(383, 62), (55, 53), (47, 46), (39, 37), (31, 26), (23, 21), (7, 4)] with buf := true } m s = true ∧ m.ptr = true ∧ msgReqLen m = 2 * n ∧ bucketStarted u (boundTo u g) = false ∧ n = 0)) = true := by decide +kernel

theorem wit_UpdateAndGroupMessagesTakeEffect_7 :
    (let m : Msg := ptrReq [(0, 15), (8, 2), (40, 1), (56, 2)] [1, 0, 2, 0]; let s : State := State.modCfg ({ dev with groups := [(15, some group15)], fabric := { dev.fabric with coord := 5, endpoints := [(1, some { coord := 5, conn := 0, portMask := 0, rprofile := 0, self := true, roce := false, profile := none, quarantine := none }), (2, some { coord := 6, conn := 0, portMask := 1, rprofile := 0, self := false, roce := false, profile := none, quarantine := none })] } }) 0 (fun g => { g with windows := [(1, some { base := 0, size := 0x10000, srcMask := 0, srcEp := 0, counter := 1, ctrEn := true, publish := false, wr := true, rd := false }), (2, some { base := 65536, size := 0x10000, srcMask := 0, srcEp := 0, counter := 2, ctrEn := true, publish := false, wr := true, rd := false })] }); let u := begun m s; let x := view m s; let g := x.f 3 0; let n := x.f 15 8; let ws := rankWords n m.req; let r := groupFrom u x ws; decide (accepts { plainOp 0x0611 1 [(383, 62), (55, 53), (47, 46), (39, 37), (31, 26), (23, 21), (7, 4)] with buf := true } m s = true ∧ m.ptr = true ∧ msgReqLen m = 2 * n ∧ bucketStarted u (boundTo u g) = false ∧ 2 ≤ n ∧ n ≤ 128 ∧ r.core < 24 ∧ ranksOk u ws = true ∧ landingOk u r.coreA r.winA = true ∧ landingOk u r.coreB r.winB = true ∧ (¬(r.coreA = r.coreB ∧ r.winA = r.winB)) ∧ otherNames u g r.coreA r.winA = false ∧ otherNames u g r.coreB r.winB = false)) = true := by decide +kernel

theorem wit_FabricMessagesTakeEffect_0 :
    (let m : Msg := { req [(0, 7), (16, 15), (32, 65534)] with src := .mctp (.smbus 0x4E) 1, session := 0 }; let s : State := dev; let u := begun m s; let x := view m s; let c : BitVec 48 := fb x.p 32 16 ++ fb x.p 16 16 ++ fb x.p 0 16; decide (accepts { plainOp 0x0701 2 [(383, 48)] with mctp := true } m s = true ∧ x.mgmt = true ∧ coordOk c = true ∧ u.fabric.coord ≠ c ∧ (u.coordSet = false ∨ ((List.range 18).all fun p => (u.port p).state == 0) = true))) = true := by decide +kernel

theorem wit_FabricMessagesTakeEffect_host :
    (let m : Msg := req [(0, 7)]; decide (accepts { plainOp 0x0701 2 [(383, 48)] with mctp := true } m dev = true ∧ (view m dev).mgmt = false)) = true := by decide +kernel

theorem wit_FabricMessagesTakeEffect_1 :
    (let m : Msg := ptrReq [] (List.replicate 16 0); let s : State := dev; decide (accepts { plainOp 0x0702 2 [(383, 0)] with buf := true } m s = true ∧ m.ptr = true ∧ m.req.length % 16 = 0 ∧ m.req.length ≤ 65536 ∧ (chunksOf 16 4097 m.req).all wireEntryOk = true)) = true := by decide +kernel

theorem wit_FabricMessagesTakeEffect_2 :
    (let m : Msg := req [(0, 2)]; let s : State := dev; let x := view m s; decide (accepts (plainOp 0x0703 2 [(383, 2)]) m s = true ∧ x.f 1 0 ≠ 3 ∧ (x.f 1 0 ≠ 0 → x.has capAdopt = true))) = true := by decide +kernel

theorem wit_FabricMessagesTakeEffect_3 :
    (let m : Msg := req [(0, 31), (32, 0x01001FFF), (64, 0x0500001F), (96, 0), (128, 0)]; let s : State := dev; let u := begun m s; let x := view m s; let mask : BitVec 5 := fb x.p 0 5; let ws := (List.range 4).map (queueFmtWord x); decide (accepts { plainOp 0x0704 2 [(383, 160), (31, 5)] with high := true } m s = true ∧ ws.all queueFmtOk = true ∧ (bit mask 0 = true → x.has capM1 = true) ∧ ((bit mask 1 || bit mask 2) = true → x.has capM2 = true) ∧ u.anyQueue = false)) = true := by decide +kernel

theorem wit_FabricMessagesTakeEffect_4 :
    (let m : Msg := req [(0, 0xFFF), (46, 1), (96, 0xFFFFFFFFFFFF)]; let s : State := dev; let u := begun m s; let x := view m s; let i := x.f 11 0; let e := endpointOf x; decide (accepts { plainOp 0x0705 1 [(383, 144), (95, 76), (45, 43), (39, 18), (15, 12)] with high := true } m s = true ∧ endpointBad u e = false ∧ e.self = false ∧ (u.isSelf i = false ∨ u.anyQueue = false))) = true := by decide +kernel

theorem wit_FabricMessagesTakeEffect_5 :
    (let m : Msg := req [(0, 1), (17, 1), (96, 5)]; let s : State := { dev with groups := [(15, some group15)], fabric := { dev.fabric with coord := 5, endpoints := [(1, some { coord := 5, conn := 0, portMask := 0, rprofile := 0, self := true, roce := false, profile := none, quarantine := none }), (2, some { coord := 6, conn := 0, portMask := 1, rprofile := 0, self := false, roce := false, profile := none, quarantine := none })] } }; let u := begun m s; let x := view m s; let i := x.f 11 0; let e := endpointOf x; decide (accepts { plainOp 0x0705 1 [(383, 144), (95, 76), (45, 43), (39, 18), (15, 12)] with high := true } m s = true ∧ endpointBad u e = false ∧ e.self = true ∧ changesSelf u i e = false)) = true := by decide +kernel

theorem wit_FabricMessagesTakeEffect_6 :
    (let m : Msg := req [(0, 3), (17, 1), (96, 5)]; let s : State := { dev with groups := [(15, some group15)], fabric := { dev.fabric with coord := 5, endpoints := [(1, some { coord := 5, conn := 0, portMask := 0, rprofile := 0, self := true, roce := false, profile := none, quarantine := none }), (2, some { coord := 6, conn := 0, portMask := 1, rprofile := 0, self := false, roce := false, profile := none, quarantine := none })] } }; let u := begun m s; let x := view m s; let i := x.f 11 0; let e := endpointOf x; decide (accepts { plainOp 0x0705 1 [(383, 144), (95, 76), (45, 43), (39, 18), (15, 12)] with high := true } m s = true ∧ endpointBad u e = false ∧ e.self = true ∧ changesSelf u i e = true ∧ u.anyQueue = false)) = true := by decide +kernel

theorem wit_FabricMessagesTakeEffect_7 :
    (let m : Msg := req [(0, 2)]; let s : State := { dev with groups := [(15, some group15)], fabric := { dev.fabric with coord := 5, endpoints := [(1, some { coord := 5, conn := 0, portMask := 0, rprofile := 0, self := true, roce := false, profile := none, quarantine := none }), (2, some { coord := 6, conn := 0, portMask := 1, rprofile := 0, self := false, roce := false, profile := none, quarantine := none })] } }; let u := begun m s; let x := view m s; let i := x.f 11 0; decide (accepts (plainOp 0x0706 1 [(383, 12)]) m s = true ∧ u.isSelf i = false ∧ (u.stage.addr.any fun a => match a.2 with | none => false | some y => y.endpoint == BitVec.ofNat 12 i) = false ∧ unsentOwners u i = [])) = true := by decide +kernel

theorem wit_PortMessagesTakeEffect_0 :
    (let m : Msg := req [(0, 17), (32, 3)]; let s : State := dev; let u := begun m s; let x := view m s; let p := x.f 4 0; decide (accepts opTrain m s = true ∧ trainAction m = 0 ∧ trainOk x = true ∧ (u.port p).state = 0)) = true := by decide +kernel

theorem wit_PortMessagesTakeEffect_1 :
    (let m : Msg := req [(0, 17), (8, 1)]; let s : State := dev; let x := view m s; decide (accepts opTrain m s = true ∧ trainAction m = 1 ∧ trainOk x = true)) = true := by decide +kernel

theorem wit_PortMessagesTakeEffect_2 :
    (let m : Msg := req [(0, 17), (8, 2)]; let s : State := dev.modPort 17 fun p => { p with state := 2, inSession := true }; let u := begun m s; let x := view m s; let p := x.f 4 0; decide (accepts opTrain m s = true ∧ trainAction m = 2 ∧ trainOk x = true ∧ (u.port p).state = 2)) = true := by decide +kernel

theorem wit_PortMessagesTakeEffect_3 :
    (let m : Msg := req [(0, 17)]; let s : State := dev; let x := view m s; let p := x.f 4 0; decide (accepts (queryOp 0x0711 0 [(383, 5)]) m s = true ∧ p < 18)) = true := by decide +kernel

theorem wit_EthernetMessagesTakeEffect_0 :
    (let m : Msg := ptrReq [(0, 0), (8, 1)] (leBytes 64 (bits [(320, 1), (304, 1)])); let s : State := dev; let u := begun m s; let x := view m s; let r := ethRecord x; decide (accepts opEthernet m s = true ∧ ethAction m = 0 ∧ ethLenOk x 64 = true ∧ fld r 303 0 = 0 ∧ fld r 322 320 ≠ fld r 319 317 ∧ (portCarries u (x.f 8 8) = false ∨ onlyEnable (portOf r (u.ethPort (x.f 8 8))) (u.ethPort (x.f 8 8)) = true))) = true := by decide +kernel

theorem wit_EthernetMessagesTakeEffect_1 :
    (let m : Msg := ptrReq [(0, 1)] (leBytes 64 (bits [(116, 4095), (128, 60000)])); let s : State := dev; let u := begun m s; let x := view m s; let r := ethRecord x; decide (accepts opEthernet m s = true ∧ ethAction m = 1 ∧ ethLenOk x 64 = true ∧ connFieldsOk r = true ∧ (bit r 113 = true → x.has capRoceInput = true) ∧ u.conn (fld r 127 116) = none)) = true := by decide +kernel

theorem wit_EthernetMessagesTakeEffect_2 :
    (let m : Msg := ptrReq [(0, 2), (16, 4095)] []; let s : State := { dev with eth := { dev.eth with conns := [(4095, some conn1)] } }; let u := begun m s; let x := view m s; decide (accepts opEthernet m s = true ∧ ethAction m = 2 ∧ ethLenOk x 0 = true ∧ connEndpoint u (fb x.p 16 12) = none)) = true := by decide +kernel

theorem wit_EthernetMessagesTakeEffect_3 :
    (let m : Msg := ptrReq [(0, 3), (8, 1), (32, 1), (40, 255)] []; let s : State := dev; let x := view m s; decide (accepts opEthernet m s = true ∧ ethAction m = 3 ∧ ethLenOk x 0 = true)) = true := by decide +kernel

theorem wit_EthernetMessagesTakeEffect_4 :
    (let m : Msg := ptrReq [(0, 4), (16, 4095)] []; let s : State := { dev with eth := { dev.eth with conns := [(4095, some conn1)] } }; let x := view m s; decide (accepts opEthernet m s = true ∧ ethAction m = 4 ∧ ethLenOk x 0 = true)) = true := by decide +kernel

theorem wit_TimeCommandsTakeEffect_0 :
    (let m : Msg := req [(0, 1), (64, 3000000000)]; let s : State := dev; let x := view m s; decide (accepts (plainOp 0x0801 2 [(383, 128), (63, 3)]) m s = true ∧ timeModeBad x = false ∧ x.f 1 0 = 1)) = true := by decide +kernel

theorem wit_TimeCommandsTakeEffect_1 :
    (let m : Msg := req [(2, 1), (64, 7)]; let s : State := dev; let u := begun m s; let x := view m s; decide (accepts (plainOp 0x0801 2 [(383, 128), (63, 3)]) m s = true ∧ timeModeBad x = false ∧ x.f 1 0 = 0 ∧ u.behind (heldOf 0x0801 m 0) = false ∧ bit x.p 2 = true ∧ u.clock.gtc.toNat ≤ x.f 127 64)) = true := by decide +kernel

theorem wit_TimeCommandsTakeEffect_2 :
    (let m : Msg := req []; let s : State := dev; let u := begun m s; let x := view m s; decide (accepts (plainOp 0x0801 2 [(383, 128), (63, 3)]) m s = true ∧ timeModeBad x = false ∧ x.f 1 0 = 0 ∧ u.behind (heldOf 0x0801 m 0) = false ∧ bit x.p 2 = false)) = true := by decide +kernel

theorem wit_TimeCommandsTakeEffect_behind :
    (let m : Msg := req []; let h : Held := { heldOf 0x0801 (req [(0, 1), (64, 3000000000)]) 0 with src := .chan 1, msg := { req [(0, 1), (64, 3000000000)] with src := .chan 1 } }; let s : State := { dev with mbx := { dev.mbx with held := [h] } }; let x := view m s; decide (accepts (plainOp 0x0801 2 [(383, 128), (63, 3)]) m s = true ∧ timeModeBad x = false ∧ x.f 1 0 = 0 ∧ (begun m s).behind (heldOf 0x0801 m 0) = true)) = true := by decide +kernel

theorem wit_TimeCommandsTakeEffect_3 :
    (let m : Msg := req []; let s : State := dev; decide (accepts (readOp 0x0802 0 []) m s = true)) = true := by decide +kernel

theorem wit_TimeCommandsTakeEffect_4 :
    (let m : Msg := req [(0, 63), (8, 23), (16, 63), (64, 0)]; let s : State := dev; let u := begun m s; let x := view m s; let e : Edge := { time := fb x.p 64 64, period := fb x.p 128 32, core := x.f 12 8, event := x.f 21 16 }; decide (accepts { plainOp 0x0803 1 [(383, 160), (63, 22), (15, 13), (7, 6)] with high := true } m s = true ∧ x.f 12 8 < 24 ∧ u.clock.gtc.toNat ≤ e.time.toNat)) = true := by decide +kernel

theorem wit_TimeCommandsTakeEffect_5 :
    (let m : Msg := req [(0, 63), (8, 23), (16, 63)]; let s : State := { dev with clock := { dev.clock with gtc := 1 } }; let u := begun m s; let x := view m s; let e : Edge := { time := fb x.p 64 64, period := fb x.p 128 32, core := x.f 12 8, event := x.f 21 16 }; decide (accepts { plainOp 0x0803 1 [(383, 160), (63, 22), (15, 13), (7, 6)] with high := true } m s = true ∧ x.f 12 8 < 24 ∧ e.time.toNat < u.clock.gtc.toNat)) = true := by decide +kernel

theorem wit_TimeCommandsTakeEffect_6 :
    (let m : Msg := req [(0, 63)]; let s : State := dev; decide (accepts (plainOp 0x0804 1 [(383, 6)]) m s = true)) = true := by decide +kernel

theorem wit_LogMessagesTakeEffect_0 :
    (let m : Msg := req [(40, 255)]; let s : State := { dev with err := { dev.err with nextSeq := 1, ring := [ErrRec.init] } }; let x := view m s; let n := 0; decide (m.src = .chan n ∧ accepts (queryOp 0x0901 0 [(383, 48), (39, 33)]) m s = true ∧ bit x.p 32 = false)) = true := by decide +kernel

theorem wit_LogMessagesTakeEffect_1 :
    (let m : Msg := req [(32, 15), (64, 74)]; let s : State := { dev with err := { dev.err with nextSeq := 1, ring := [ErrRec.init] } }; let u := begun m s; let x := view m s; decide (accepts (readOp 0x0902 1 [(383, 76), (63, 36)]) m s = true ∧ (x.f 31 0 = 0xFFFFFFFF ∨ x.f 31 0 < u.err.nextSeq.toNat) ∧ (bit x.p 32 = true → x.f 75 64 ≤ 74))) = true := by decide +kernel

theorem wit_LogMessagesTakeEffect_2 :
    (let m : Msg := req [(0, 1)]; let s : State := dev; let n := 0; decide (m.src = .chan n ∧ accepts (queryOp 0x0903 0 [(383, 1)]) m s = true)) = true := by decide +kernel

theorem wit_LogMessagesTakeEffect_3 :
    (let m : Msg := ptrReq [] []; let s : State := dev; let x := view m s; let n := 0; decide (m.src = .chan n ∧ accepts (queryOp 0x0910 0 [(383, 8)]) m s = true ∧ m.ptr = true ∧ x.f 7 0 = 0)) = true := by decide +kernel

theorem wit_LogMessagesTakeEffect_4 :
    (let m : Msg := req [(0, 10000000), (64, 0x10000), (112, 4), (120, 127)]; let s : State := dev; let u := begun m s; let x := view m s; decide (accepts (plainOp 0x0911 1 [(383, 127), (119, 116), (111, 104), (63, 32)]) m s = true ∧ rateBad u x = false)) = true := by decide +kernel

theorem wit_SecurityCommandsTakeEffect_0 :
    (let m : Msg := req []; let s : State := dev; decide (accepts (queryOp 0x0A01 0 []) m s = true)) = true := by decide +kernel

theorem wit_SecurityCommandsTakeEffect_1 :
    (let m : Msg := req []; let s : State := dev; let u := begun m s; decide (accepts (plainOp 0x0A02 2 []) m s = true ∧ securityBusy u = false ∧ debugLevel u.sec.bank ≠ 2)) = true := by decide +kernel

theorem wit_SecurityCommandsTakeEffect_2 :
    (let m : Msg := req []; let s : State := { dev with sec := { dev.sec with bank := { FuseBank.init with debugPwHash := 0x563d8b79225194d63c90b4837eb9fdfde037fb36fa9c2a5859d4624897653fe270f9c258d42e2e375ea6ae76004a6395 } } }; let u := begun m s; let x := view m s; decide (accepts { plainOp 0x0A03 2 [] with buf := true } m s = true ∧ securityBusy u = false ∧ m.ptr = false ∧ unlockFormatOk x = true ∧ debugLevel u.sec.bank = 1 ∧ u.sec.failures < 8 ∧ u.sec.bank.debugPwHash ≠ 0 ∧ sha384 (vecBytes u.sec.bank.serial ++ (vecBytes x.p).drop 16) = u.sec.bank.debugPwHash.toNat)) = true := by decide +kernel

theorem wit_SecurityCommandsTakeEffect_3 :
    (let m : Msg := ptrReq [(0, 1)] (keyOne ++ List.replicate 31 0 ++ beBytes 48 ecG.1 ++ beBytes 48 0x4f4ebe016327358f994b5e5634fe0fdc2c05af8ab24242756a155b6d5d346e4eac0a414c19f9607b51dabea22cf4b855 ++ List.replicate 32 0); let s : State := { dev with sec := { dev.sec with nonce := some 5, bank := { FuseBank.init with debugKeyHash := FuseBank.init.vendorKeyHash } } }; let u := begun m s; let x := view m s; let nonce := (5 : BitVec 256); let key := slice m.req 0 97; decide (accepts { plainOp 0x0A03 2 [] with buf := true } m s = true ∧ securityBusy u = false ∧ m.ptr = true ∧ unlockFormatOk x = true ∧ debugLevel u.sec.bank = 1 ∧ u.sec.failures < 8 ∧ u.sec.bank.debugKeyHash ≠ 0 ∧ u.sec.nonce = some nonce ∧ sha384 key = u.sec.bank.debugKeyHash.toNat ∧ ecdsaVerify key (vecBytes nonce ++ vecBytes u.sec.bank.serial) (slice m.req 128 96) = true)) = true := by decide +kernel

theorem wit_SecurityCommandsTakeEffect_4 :
    (let m : Msg := ptrReq [] image; let s : State := dev; let u := begun m s; decide (accepts { plainOp 0x0A04 2 [(383, 0)] with buf := true } m s = true ∧ securityBusy u = false ∧ m.ptr = true ∧ anyArmed u = false ∧ anyHeld u longRunning = false ∧ imageReason u m.req = none)) = true := by decide +kernel

theorem wit_SecurityCommandsTakeEffect_5 :
    (let m : Msg := req [(0, 2)]; let s : State := { dev with boot := { dev.boot with image := some (imageOf image) } }; let u := begun m s; let x := view m s; decide (accepts (plainOp 0x0A05 2 [(383, 8)]) m s = true ∧ securityBusy u = false ∧ rollbackRefusal x u = none)) = true := by decide +kernel

theorem wit_SecurityCommandsTakeEffect_6 :
    (let s : State := holding { heldOf 0x0A05 (req []) 0 with arg := 2 } dev; let h := ({ heldOf 0x0A05 (req []) 0 with arg := 2 } : Held); let f : BitVec 64 := s.sec.rollback ||| (1#64 <<< nextFuse s.sec.rollback); decide ((s.mbx.held.find? fun h => h.opcode == 0x0A05 && h.arg != 0) = some h ∧ popCount f < h.arg)) = true := by decide +kernel

theorem wit_SecurityCommandsTakeEffect_10 :
    (decide (dev.sec.trstLow = false ∧ dev.debugOpen = false ∧ ({ dev with sec := { dev.sec with trstLow := true } } : State).sec.trstLow = true) && decide (∀ low, JtagInstr.debug ≠ .trst low)) = true := by decide +kernel

theorem wit_SecurityCommandsTakeEffect_11 :
    (let s : State := { dev with sec := { dev.sec with debugOpened := true } }; decide (s.sec.trstLow = false ∧ s.debugOpen = true)) = true := by decide +kernel

theorem wit_OverturnCommandsTakeEffect_0 :
    (let m : Msg := req [(32, 3), (64, 4)]; let s : State := dev; let x := view m s; let u := begun m s; let a := logArgs x.p; let d := hbmRead u a.addr (16 * a.count); let v := d.2.2; let rs := ([] : List (Nat × Nat)); decide (accepts { plainOp 0x0B01 1 [(383, 296), (255, 232), (191, 168), (31, 16), (7, 3)] with high := true } m s = true ∧ inHbm a.addr (16 * a.count) = true ∧ snoopsFor u a.addr (16 * a.count) false = [] ∧ d.2.1 = none ∧ logRanges v x = some rs ∧ rs = [] ∧ logReady v = true)) = true := by decide +kernel

theorem wit_OverturnCommandsTakeEffect_1 :
    (let m : Msg := req [(0, 1), (8, 1), (128, 0x10000), (192, 0x10000), (256, 0x30000)]; let s : State := dev; let x := view m s; let u := begun m s; let a := logArgs x.p; let d := hbmRead u a.addr (16 * a.count); let v := d.2.2; let rs := ([(0, 0)] : List (Nat × Nat)); decide (accepts { plainOp 0x0B01 1 [(383, 296), (255, 232), (191, 168), (31, 16), (7, 3)] with high := true } m s = true ∧ inHbm a.addr (16 * a.count) = true ∧ snoopsFor u a.addr (16 * a.count) false = [] ∧ d.2.1 = none ∧ logRanges v x = some rs ∧ rs ≠ [])) = true := by decide +kernel

theorem wit_OverturnCommandsTakeEffect_2 :
    (let m : Msg := req [(64, 0x10000)]; let s : State := recorded; let u := begun m s; let x := view m s
     match readRecord u (x.f 103 64) with
     | (some r, none, v) =>
       decide (accepts { plainOp 0x0B02 1 [(383, 104), (63, 1)] with cap := some capOverturn } m s = true ∧ replayLines u (x.f 103 64) = [] ∧ r.closed = true ∧ r.overrun = false ∧ r.aborted = false ∧ (bit x.p 0 = true → r.payloads = true)
         ∧ anyArmed v = false ∧ v.stage.identity.getD (0, 0) = (r.pipelineId, r.stageId) ∧ inputDiff ((applySnap v.closeStep r.snap).scan (rangesOf r.inputs)) r = none)
     | _ => false) = true := by decide +kernel

theorem wit_OverturnCommandsTakeEffect_3 :
    (let m : Msg := req [(16, 1), (256, 0x30000), (320, 4096)]; let s : State := windowed; let u := begun m s; let x := view m s; let rs := ([(0, 0)] : List (Nat × Nat)); let w := ((0, 0x10000000) : Nat × Nat); let a := ckptArgs x.p; let d := hbmRead u a.addr (16 * a.count); let v := d.2.2; let len := imageLen (rs.map fun r => r.2); let i := ckptOf v rs; decide (accepts { plainOp 0x0B03 1 [(319, 296), (255, 24), (3, 1)] with high := true } m s = true ∧ inHbm a.addr (16 * a.count) = true ∧ rangeList u a.addr a.count = some rs ∧ snoopsFor u a.addr (16 * a.count) false = [] ∧ d.2.1 = none ∧ a.count ≠ 0 ∧ a.count ≤ 64 ∧ rs.all (fun r => inHbm r.1 r.2) = true ∧ a.ethernet = false ∧ i.2.2.host.window = some w ∧ mediumOk v a len = true ∧ anyArmed v = false ∧ ((rs.flatMap fun r => snoopsFor v r.1 r.2 false) ++ ckptLines v a len true) = [])) = true := by decide +kernel

theorem wit_OverturnCommandsTakeEffect_4 :
    (let m : Msg := req [(0, 1), (4, 4095), (16, 1), (256, 0x30000), (320, 4096)]; let s : State := memConn; let u := begun m s; let x := view m s; let rs := ([(0, 0)] : List (Nat × Nat)); let k := ({ conn1 with memory := true } : Conn); let a := ckptArgs x.p; let d := hbmRead u a.addr (16 * a.count); let v := d.2.2; let len := imageLen (rs.map fun r => r.2); let i := ckptOf v rs; decide (accepts { plainOp 0x0B03 1 [(319, 296), (255, 24), (3, 1)] with high := true } m s = true ∧ inHbm a.addr (16 * a.count) = true ∧ rangeList u a.addr a.count = some rs ∧ snoopsFor u a.addr (16 * a.count) false = [] ∧ d.2.1 = none ∧ a.count ≠ 0 ∧ a.count ≤ 64 ∧ rs.all (fun r => inHbm r.1 r.2) = true ∧ a.ethernet = true ∧ mediumOk v a len = true ∧ i.2.2.conn a.conn.toNat = some k ∧ i.2.2.freeTag 24 = some 30720 ∧ connSends i.2.2 k 2 = true ∧ anyArmed v = false ∧ (rs.flatMap fun r => snoopsFor v r.1 r.2 false) = [])) = true := by decide +kernel

theorem wit_OverturnCommandsTakeEffect_5 :
    (let m : Msg := req [(320, 4096)]; let s : State := { windowed with hbm := { windowed.hbm with mem := cells 0x1000 ((imageCode.put (checkpoint, 0, 4096)).take 512) } }; let u := begun m s; let x := view m s; let w := ((0, 0x10000000) : Nat × Nat); let a := ckptArgs x.p; let v := u.scan [(w.1 + a.offset, 4096)]
     match imageAt fun j => v.hbmByte (w.1 + a.offset + j) with
     | some i =>
       let len := imageLen (i.ranges.map fun r => r.len)
       decide (accepts { plainOp 0x0B04 1 [(319, 296), (255, 24), (3, 1)] with high := true } m s = true ∧ a.count = 0 ∧ a.addr = 0 ∧ a.ethernet = false ∧ u.host.window = some w ∧ mediumOk u a 4096 = true ∧ anyArmed u = false
         ∧ ckptLines u a (min headLen (w.2 - a.offset)) false = [] ∧ a.offset + len ≤ w.2 ∧ anySlotUsed v = false ∧ (ckptLines v a len false ++ (i.ranges.flatMap fun r => snoopsFor v r.addr r.len true)) = [])
     | none => false) = true := by decide +kernel

theorem wit_OverturnCommandsTakeEffect_6 :
    (let m : Msg := req [(0, 1), (4, 4095), (320, 4096)]; let s : State := memConn; let u := begun m s; let x := view m s; let k := ({ conn1 with memory := true } : Conn); let a := ckptArgs x.p; decide (accepts { plainOp 0x0B04 1 [(319, 296), (255, 24), (3, 1)] with high := true } m s = true ∧ a.count = 0 ∧ a.addr = 0 ∧ a.ethernet = true ∧ mediumOk u a 4096 = true ∧ u.conn a.conn.toNat = some k ∧ connSends u k 2 = true ∧ anyArmed u = false ∧ u.freeTag 24 = some 30720)) = true := by decide +kernel

theorem wit_OverturnCommandsTakeEffect_7 :
    (let h : Held := { heldOf 0x0B04 (req [(0, 1), (4, 4095)]) 2 with image := some checkpoint }; let conn : BitVec 12 := 4095
     (let s : State := holding h memConn; let t := s.endFirmwareOp conn; decide ((ckptOn s conn 0x0B04).head? = some h ∧ anySlotUsed t = false ∧ imageLines t checkpoint = []))
     && (let s : State := { withStarted (entryOf (cmd 0x70 [])) memConn with mbx := (holding h memConn).mbx }; let t := s.endFirmwareOp conn; decide ((ckptOn s conn 0x0B04).head? = some h ∧ anySlotUsed t = true))) = true := by decide +kernel

theorem wit_OverturnCommandsTakeEffect_7_head :
    (let s : State := holding (heldOf 0x0B04 (req [(0, 1), (4, 4095)]) 1) memConn; let conn : BitVec 12 := 4095; let h : Held := heldOf 0x0B04 (req [(0, 1), (4, 4095)]) 1; let t := s.endFirmwareOp conn; let data := imageCode.put (checkpoint, 0, 4096); decide ((ckptOn s conn 0x0B04).head? = some h ∧ h.image = none ∧ t.conn conn.toNat = some { conn1 with memory := true }) && (imageAt fun j => data.getD j 0).isSome) = true := by decide +kernel

theorem wit_OverturnCommandsTakeEffect_8 :
    (let m : Msg := req [(0, 5), (32, 6)]; let s : State := { dev with ovt := { dev.ovt with ckpt := some checkpoint } }; let u := begun m s; let x := view m s; let i := checkpoint; decide (accepts { plainOp 0x0B05 1 [(383, 64)] with cap := some capSpare } m s = true ∧ u.ovt.ckpt = some i ∧ u.anyQueue = false ∧ i.pipelineId = fb x.p 32 32 ∧ i.stageId = fb x.p 0 32)) = true := by decide +kernel

theorem wit_PowerMessagesTakeEffect_0 :
    (let m : Msg := req []; let s : State := dev; let x := view m s; decide (accepts (plainOp 0x0C01 2 [(383, 2)]) m s = true ∧ x.f 1 0 = 0)) = true := by decide +kernel

theorem wit_PowerMessagesTakeEffect_1 :
    (let m : Msg := req [(0, 1)]; let s : State := dev; let u := begun m s; let x := view m s; decide (accepts (plainOp 0x0C01 2 [(383, 2)]) m s = true ∧ x.f 1 0 = 1 ∧ anyArmed u = false)) = true := by decide +kernel

theorem wit_PowerMessagesTakeEffect_2 :
    (let m : Msg := req [(0, 0xFFFFFF), (32, 800), (48, 1800), (64, 400)]; let s : State := dev; let x := view m s; let cap := x.f 79 64; let lo := x.f 47 32; let hi := x.f 63 48; decide (accepts (plainOp 0x0C02 2 [(383, 80), (31, 24)]) m s = true ∧ (cap = 0 ∨ (400 ≤ cap ∧ cap ≤ 1150)) ∧ (x.f 23 0 = 0 ∨ (lo % 25 = 0 ∧ hi % 25 = 0 ∧ 800 ≤ lo ∧ lo ≤ hi ∧ hi ≤ 1800)))) = true := by decide +kernel

theorem wit_PowerMessagesTakeEffect_3 :
    (let m : Msg := req [(0, 0xFFFFFF), (32, 255)]; let s : State := dev; let x := view m s; decide (accepts (plainOp 0x0C03 1 [(383, 40), (31, 24)]) m s = true ∧ x.f 23 0 ≠ 0)) = true := by decide +kernel

theorem wit_PowerMessagesTakeEffect_4 :
    (let m : Msg := req []; let s : State := dev; decide (accepts (queryOp 0x0C04 0 []) m s = true)) = true := by decide +kernel

theorem wit_SpdmRequestsAreAnswered_0 :
    (let s : State := { dev with sec := { dev.sec with spdmVersion := 0x13 } }; decide (s.ready = true)) = true := by decide +kernel

theorem wit_SpdmRequestsAreAnswered_1 :
    (let r : SpdmReq := spdm; let s : State := { dev with sec := { dev.sec with spdmVersion := 0x13 } }; decide (s.ready = true ∧ r.version = 0x13 ∧ s.sec.spdmVersion = 0x13)) = true := by decide +kernel

theorem wit_SpdmRequestsAreAnswered_2 :
    (let r : SpdmReq := spdm; let s : State := { dev with sec := { dev.sec with spdmVersion := 0x13 } }; decide (s.ready = true ∧ r.version = 0x13 ∧ s.sec.spdmVersion = 0x13 ∧ bit r.hashAlgos 1 = true ∧ bit r.asymAlgos 7 = true)) = true := by decide +kernel

theorem wit_SpdmRequestsAreAnswered_3 :
    (let r : SpdmReq := spdm; let s : State := negotiated; decide (s.ready = true ∧ r.version = 0x13 ∧ s.sec.spdmReady = true)) = true := by decide +kernel

theorem wit_SpdmRequestsAreAnswered_4 :
    (let r : SpdmReq := spdm; let s : State := negotiated; decide (s.ready = true ∧ r.version = 0x13 ∧ s.sec.spdmReady = true ∧ r.slot = 0 ∧ s.sec.bank.cert.length ≤ 1534)) = true := by decide +kernel

theorem wit_SpdmRequestsAreAnswered_5 :
    (let r : SpdmReq := spdm; let s : State := negotiated; decide (s.ready = true ∧ r.version = 0x13 ∧ s.sec.spdmReady = true ∧ r.slot = 0)) = true := by decide +kernel

theorem wit_SpdmRequestsAreAnswered_7 :
    (let r : SpdmReq := spdm; let s : State := negotiated; decide (s.ready = true ∧ r.version = 0x13 ∧ s.sec.spdmReady = true ∧ r.slot = 0 ∧ r.signed = false ∧ 1 ≤ r.measOp.toNat ∧ r.measOp.toNat ≤ 5)) = true := by decide +kernel

theorem wit_SpdmRequestsAreAnswered_6 :
    (let r : SpdmReq := { spdm with measOp := 0 }; let s : State := negotiated; decide (s.ready = true ∧ r.version = 0x13 ∧ s.sec.spdmReady = true ∧ r.slot = 0 ∧ r.signed = false ∧ r.measOp = 0)) = true := by decide +kernel

theorem wit_SpdmRequestsAreAnswered_8 :
    (let r : SpdmReq := { spdm with measOp := 255 }; let s : State := negotiated; decide (s.ready = true ∧ r.version = 0x13 ∧ s.sec.spdmReady = true ∧ r.slot = 0 ∧ r.signed = false ∧ r.measOp = 255)) = true := by decide +kernel

theorem wit_SpdmRequestsAreAnswered_9 :
    (let r : SpdmReq := { spdm with measOp := 5, signed := true }; let s : State := negotiated; decide (s.ready = true ∧ r.version = 0x13 ∧ s.sec.spdmReady = true ∧ r.slot = 0 ∧ r.signed = true ∧ 1 ≤ r.measOp.toNat ∧ r.measOp.toNat ≤ 5)) = true := by decide +kernel

theorem wit_RegisterCommandsTakeEffect_0 :
    (let s : State := dev; decide (s.hostOpen = true)) = true := by decide +kernel

theorem wit_RegisterCommandsTakeEffect_2 :
    (let s : State := dev.modChan 63 fun c => { c with reqBase := 4096, cplBase := 8192 }; let n : ChanId := 63; decide (s.hostOpen = true ∧ (s.chan n.val).enabled = false ∧ (s.chan n.val).state = 0 ∧ s.ready = true ∧ (s.chan n.val).reqBase ≠ 0 ∧ (s.chan n.val).cplBase ≠ 0)) = true := by decide +kernel

theorem wit_RegisterCommandsTakeEffect_5 :
    (let s : State := { dev with boot := { dev.boot with fwStage := 7, bootAddr := 4096 } }; let v : BitVec 32 := 1; decide (s.hostOpen = true ∧ bit v 0 = true ∧ (s.boot.fwStage = 1 ∨ s.boot.fwStage = 7) ∧ s.boot.bootAddr ≠ 0)) = true := by decide +kernel

theorem wit_RegisterCommandsTakeEffect_6 :
    (let s : State := dev; let v : BitVec 32 := 0xD5; decide (s.hostOpen = true ∧ fld v 7 0 = 0xD5)) = true := by decide +kernel

theorem wit_RegisterCommandsTakeEffect_8 :
    (let s : State := dev; let v : BitVec 32 := 1; decide (s.hostOpen = true ∧ bit v 0 = true)) = true := by decide +kernel

theorem wit_RegisterCommandsTakeEffect_9 :
    (let s : State := dev; let o := 4; decide (s.hostOpen = true ∧ o % 4 = 0)) = true := by decide +kernel

theorem wit_RegisterCommandsTakeEffect_10 :
    (let s : State := dev; let o := 8; decide (s.hostOpen = true ∧ o % 8 = 0)) = true := by decide +kernel

theorem wit_RegisterCommandsTakeEffect_12 :
    (let s : State := dev; let o := 2; let n := 4; decide (s.hostOpen = true ∧ (¬((n = 4 ∨ n = 8) ∧ o % n = 0)))) = true := by decide +kernel

theorem wit_RegisterCommandsTakeEffect_reads :
    (decide (bootAddrOpen { dev with boot := { dev.boot with fwStage := 7 } } = true ∧ { dev with boot := { dev.boot with fwStage := 7 } }.hostOpen = true ∧ State.reset.sec.sensed = false)) = true := by decide +kernel

theorem wit_RegisterCommandsTakeEffect_13 :
    (let s : State := dev.modChan 63 fun c => { c with unsignalled := 1, moderation := 0x10002, irqEnable := true }; let n : ChanId := 63; decide ((s.chan n.val).unsignalled ≠ 0 ∧ fld (s.chan n.val).moderation 31 16 ≠ 0 ∧ (s.chan n.val).irqEnable = true)) = true := by decide +kernel

theorem wit_RegisterCommandsTakeEffect_14 :
    (let s : State := { dev with mbx := { dev.mbx with sessions := [({ handle := 8, privilege := 1, rev := 0x0302, clientId := 1, leaseMs := 1 } : Session)] } }; let h := (8 : BitVec 32); let x := ({ handle := 8, privilege := 1, rev := 0x0302, clientId := 1, leaseMs := 1 } : Session); decide (s.ready = true ∧ x ∈ s.mbx.sessions ∧ x.handle = h ∧ x.leaseMs ≠ 0)) = true := by decide +kernel

theorem wit_RegisterCommandsTakeEffect_15 :
    (let s : State := dev; let n : ChanId := 0; decide (canDequeue s (.chan n) = true)) = true := by decide +kernel

theorem wit_HostWindowCommandsTakeEffect_0 :
    (let s : State := windowed; let o := 0x0FFFFFC0; let n := 64; let a := 0x0FFFFFC0; decide (s.hostOpen = true ∧ s.host.committed = false ∧ inWindow s o n = some a)) = true := by decide +kernel

theorem wit_HostWindowCommandsTakeEffect_1 :
    (let s : State := windowed; let o := 0x0FFFFFC0; let bs : List Byte := [1, 2]; let a := 0x0FFFFFC0; decide (s.hostOpen = true ∧ s.host.committed = false ∧ inWindow s o bs.length = some a)) = true := by decide +kernel

theorem wit_HostWindowCommandsTakeEffect_2 :
    (let s : State := coherent; let line := 3; let a := 192; decide (s.hostOpen = true ∧ lineAddr s line = some a ∧ s.claimed line = false)) = true := by decide +kernel

theorem wit_HostWindowCommandsTakeEffect_3 :
    (let s : State := coherent; let line := 3; let a := 192; decide (s.hostOpen = true ∧ lineAddr s line = some a ∧ s.claimed line = false)) = true := by decide +kernel

theorem wit_HostWindowCommandsTakeEffect_crossing :
    (let s : State := snooping; let line := 3; decide (s.hostOpen = true ∧ lineAddr s line = some 192 ∧ s.snooped line = true)) = true := by decide +kernel

theorem wit_HostWindowCommandsTakeEffect_4 :
    (let s : State := coherent; let line := 3; let a := 192; decide (s.hostOpen = true ∧ lineAddr s line = some a ∧ s.claimed line = false)) = true := by decide +kernel

theorem wit_HostWindowCommandsTakeEffect_5 :
    (let s : State := coherent; let line := 3; let a := 192; decide (s.hostOpen = true ∧ lineAddr s line = some a ∧ s.claimed line = false)) = true := by decide +kernel

theorem wit_HostWindowCommandsTakeEffect_6 :
    (let s : State := coherent; let line := 0x3FFFFF; let a := 0x0FFFFFC0; decide (s.hostOpen = true ∧ lineAddr s line = some a ∧ s.claimed line = false ∧ s.host.tracker.length < trackerSize)) = true := by decide +kernel

theorem wit_HostWindowCommandsTakeEffect_7 :
    (let s : State := coherent; let line := 0x3FFFFF; let a := 0x0FFFFFC0; decide (s.hostOpen = true ∧ lineAddr s line = some a ∧ s.claimed line = false ∧ s.host.tracker.length < trackerSize)) = true := by decide +kernel

theorem wit_HostWindowCommandsTakeEffect_8 :
    (let s : State := coherent; let line := 0x3FFFFF; let a := 0x0FFFFFC0; decide (s.hostOpen = true ∧ lineAddr s line = some a ∧ s.claimed line = false ∧ s.host.tracker.length < trackerSize)) = true := by decide +kernel

theorem wit_HostWindowCommandsTakeEffect_9 :
    (let s : State := coherent; let line := 0x3FFFFF; let a := 0x0FFFFFC0; decide (s.hostOpen = true ∧ lineAddr s line = some a ∧ s.claimed line = false ∧ s.host.tracker.length < trackerSize)) = true := by decide +kernel

theorem wit_HostWindowCommandsTakeEffect_10 :
    (let s : State := coherent; let line := 3; let a := 192; decide (s.hostOpen = true ∧ lineAddr s line = some a ∧ s.claimed line = false)) = true := by decide +kernel

theorem wit_HostWindowCommandsTakeEffect_11 :
    (let s : State := coherent; let line := 3; let a := 192; decide (s.hostOpen = true ∧ lineAddr s line = some a ∧ s.claimed line = false)) = true := by decide +kernel

theorem wit_HostWindowCommandsTakeEffect_12 :
    (let s : State := snooping; let line := 3; decide (s.hostOpen = true ∧ s.snooped line = true)) = true := by decide +kernel

theorem wit_HostWindowCommandsTakeEffect_13 :
    (let s : State := snooping; let line := 3; decide (s.hostOpen = true ∧ s.snooped line = true)) = true := by decide +kernel

theorem wit_HostWindowCommandsTakeEffect_14 :
    (let s : State := snooping; let line := 3; decide (s.hostOpen = true ∧ s.snooped line = true)) = true := by decide +kernel

theorem wit_HostWindowCommandsTakeEffect_15 :
    (let s : State := snooping; let line := 3; decide (s.hostOpen = true ∧ s.snooped line = true ∧ (s.host.waiting.any fun r => match r.instr with | .memInv l => l == line | _ => false) = false)) = true := by decide +kernel

theorem wit_HostWindowCommandsTakeEffect_16 :
    (let s : State := snooping; let line := 3; decide (s.hostOpen = true ∧ s.snooped line = true)) = true := by decide +kernel

theorem wit_HostWindowCommandsTakeEffect_17 :
    (let s : State := windowed; let size : BitVec 64 := 0x10000000; let w := ((0, 0x10000000) : Nat × Nat); decide (s.hostOpen = true ∧ s.host.cxl = true ∧ s.host.committed = false ∧ s.host.window = some w ∧ size.toNat = w.2)) = true := by decide +kernel

theorem wit_HostWindowCommandsTakeEffect_18 :
    (let s : State := State.reset; let width := 4; decide (s.clocked = true ∧ s.host.linkUp = false ∧ (width = 4 ∨ width = 8 ∨ width = 16))) = true := by decide +kernel

theorem wit_HostWindowCommandsTakeEffect_18_wide :
    (decide (State.reset.clocked = true ∧ State.reset.host.linkUp = false)) = true := by decide +kernel

theorem wit_HostWindowCommandsTakeEffect_19 :
    (let s : State := dev; decide (s.clocked = true ∧ s.host.waiting = [] ∧ s.telem.due = 0 ∧ s.mbx.held = [] ∧ s.allStarted = [] ∧ s.ovt.jobs = [] ∧ s.ovt.replay = none ∧ s.boot.fwStage ≠ 2)) = true := by decide +kernel

theorem wit_ControlCommandsDoTheirWork_0 :
    (let core : CoreId := 0; let queue : QueueId := 0; let s : State := withCmd (cmd 0 []) (dev); let b : Block := blockOf (cmd 0 []); let d : BitVec 512 := cmd 0 []; decide (starts 0x00 core.val queue.val s anyTime b d = true)) = true := by decide +kernel

theorem wit_ControlCommandsDoTheirWork_1 :
    (let core : CoreId := 0; let queue : QueueId := 0; let s : State := withCmd (cmd 1 [(8, 63), (32, 5)]) (dev.modCore 0 fun k => { k with events := [(63, 5)] }); let b : Block := blockOf (cmd 1 [(8, 63), (32, 5)]); let d : BitVec 512 := cmd 1 [(8, 63), (32, 5)]; let r := entered core.val queue.val s b d; let q := fld (cmdBody d) 1 0; let i := fld (cmdBody d) 15 8; decide (starts 0x01 core.val queue.val s anyTime b d = true ∧ q = 0 ∧ fld (cmdBody d) 63 32 ≤ (tget 0 r.k.events i).toNat)) = true := by decide +kernel

theorem wit_ControlCommandsDoTheirWork_2 :
    (let core : CoreId := 0; let queue : QueueId := 0; let s : State := withCmd (cmd 1 [(8, 63), (32, 5)]) (dev.modCore 0 fun k => { k with events := [(63, 4)] }); let b : Block := blockOf (cmd 1 [(8, 63), (32, 5)]); let d : BitVec 512 := cmd 1 [(8, 63), (32, 5)]; let r := entered core.val queue.val s b d; let q := fld (cmdBody d) 1 0; let i := fld (cmdBody d) 15 8; decide (starts 0x01 core.val queue.val s anyTime b d = true ∧ q = 0 ∧ (tget 0 r.k.events i).toNat < fld (cmdBody d) 63 32)) = true := by decide +kernel

theorem wit_ControlCommandsDoTheirWork_3 :
    (let core : CoreId := 0; let queue : QueueId := 0; let s : State := withCmd (cmd 1 [(0, 1), (8, 255), (32, 5)]) (dev.modCfg 0 fun g => { g with counters := [(255, { value := 5, overflow := false, messages := false })] }); let b : Block := blockOf (cmd 1 [(0, 1), (8, 255), (32, 5)]); let d : BitVec 512 := cmd 1 [(0, 1), (8, 255), (32, 5)]; let r := entered core.val queue.val s b d; let q := fld (cmdBody d) 1 0; let i := fld (cmdBody d) 15 8; decide (starts 0x01 core.val queue.val s anyTime b d = true ∧ q ≠ 0 ∧ (tget Counter.init r.k.cfg.counters i).overflow = false ∧ fld (cmdBody d) 63 32 ≤ (tget Counter.init r.k.cfg.counters i).value.toNat)) = true := by decide +kernel

theorem wit_ControlCommandsDoTheirWork_4 :
    (let core : CoreId := 0; let queue : QueueId := 0; let s : State := withCmd (cmd 1 [(0, 1), (8, 255), (32, 5)]) (dev.modCfg 0 fun g => { g with counters := [(255, { value := 0xFFFFFFFF, overflow := true, messages := false })] }); let b : Block := blockOf (cmd 1 [(0, 1), (8, 255), (32, 5)]); let d : BitVec 512 := cmd 1 [(0, 1), (8, 255), (32, 5)]; let r := entered core.val queue.val s b d; let q := fld (cmdBody d) 1 0; let i := fld (cmdBody d) 15 8; decide (starts 0x01 core.val queue.val s anyTime b d = true ∧ q ≠ 0 ∧ (tget Counter.init r.k.cfg.counters i).overflow = true)) = true := by decide +kernel

theorem wit_ControlCommandsDoTheirWork_5 :
    (let core : CoreId := 0; let queue : QueueId := 0; let s : State := withCmd (cmd 2 [(0, 23), (8, 63), (16, 1), (32, 7)]) (dev); let b : Block := blockOf (cmd 2 [(0, 23), (8, 63), (16, 1), (32, 7)]); let d : BitVec 512 := cmd 2 [(0, 23), (8, 63), (16, 1), (32, 7)]; decide (starts 0x02 core.val queue.val s anyTime b d = true ∧ fld (cmdBody d) 16 16 = 1)) = true := by decide +kernel

theorem wit_ControlCommandsDoTheirWork_6 :
    (let core : CoreId := 0; let queue : QueueId := 0; let s : State := withCmd (cmd 2 [(0, 23), (8, 63), (32, 0xFFFFFFFF)]) (dev); let b : Block := blockOf (cmd 2 [(0, 23), (8, 63), (32, 0xFFFFFFFF)]); let d : BitVec 512 := cmd 2 [(0, 23), (8, 63), (32, 0xFFFFFFFF)]; let r := entered core.val queue.val s b d; let mb : BitVec 32 := fb (cmdBody d) 32 32; let c := fld (cmdBody d) 4 0; let ev := fld (cmdBody d) 13 8; decide (starts 0x02 core.val queue.val s anyTime b d = true ∧ fld (cmdBody d) 16 16 = 0 ∧ (tget 0 (r.s.core c).events ev).toNat + mb.toNat < 2 ^ 32)) = true := by decide +kernel

theorem wit_ControlCommandsDoTheirWork_7 :
    (let core : CoreId := 0; let queue : QueueId := 0; let s : State := withCmd (cmd 3 [(32, 9)]) (staged { Slot.init with state := 2, mb := 9 }); let b : Block := blockOf (cmd 3 [(32, 9)]); let d : BitVec 512 := cmd 3 [(32, 9)]; let r := entered core.val queue.val s b d; let q := fld (cmdBody d) 1 0; let i := fld (cmdBody d) 15 8; let mb : BitVec 32 := fb (cmdBody d) 32 32; decide (starts 0x03 core.val queue.val s anyTime b d = true ∧ slotThere r.s q i = true ∧ q < 2 ∧ (r.s.stage.slot q i).state = 2 ∧ (r.s.stage.slot q i).mb = mb ∧ (r.s.stage.slot q i).pendingDigest = false)) = true := by decide +kernel

theorem wit_ControlCommandsDoTheirWork_8 :
    (let core : CoreId := 0; let queue : QueueId := 0; let s : State := withCmd (cmd 3 [(32, 9)]) (staged Slot.init); let b : Block := blockOf (cmd 3 [(32, 9)]); let d : BitVec 512 := cmd 3 [(32, 9)]; let r := entered core.val queue.val s b d; let q := fld (cmdBody d) 1 0; let i := fld (cmdBody d) 15 8; decide (starts 0x03 core.val queue.val s anyTime b d = true ∧ slotThere r.s q i = true ∧ q < 2 ∧ (r.s.stage.slot q i).state ≠ 2)) = true := by decide +kernel

theorem wit_ControlCommandsDoTheirWork_9 :
    (let core : CoreId := 0; let queue : QueueId := 0; let s : State := withCmd (cmd 3 [(0, 2), (32, 9)]) (staged Slot.init); let b : Block := blockOf (cmd 3 [(0, 2), (32, 9)]); let d : BitVec 512 := cmd 3 [(0, 2), (32, 9)]; let r := entered core.val queue.val s b d; let q := fld (cmdBody d) 1 0; let i := fld (cmdBody d) 15 8; decide (starts 0x03 core.val queue.val s anyTime b d = true ∧ slotThere r.s q i = true ∧ 2 ≤ q ∧ (r.s.stage.slot q i).state = 0)) = true := by decide +kernel

theorem wit_ControlCommandsDoTheirWork_10 :
    (let core : CoreId := 0; let queue : QueueId := 0; let s : State := withCmd (cmd 3 [(0, 2), (32, 9)]) (staged { Slot.init with state := 5, mb := 9 }); let b : Block := blockOf (cmd 3 [(0, 2), (32, 9)]); let d : BitVec 512 := cmd 3 [(0, 2), (32, 9)]; let r := entered core.val queue.val s b d; let q := fld (cmdBody d) 1 0; let i := fld (cmdBody d) 15 8; decide (starts 0x03 core.val queue.val s anyTime b d = true ∧ slotThere r.s q i = true ∧ 2 ≤ q ∧ (r.s.stage.slot q i).state ≠ 0)) = true := by decide +kernel

theorem wit_ControlCommandsDoTheirWork_11 :
    (let core : CoreId := 0; let queue : QueueId := 0; let s : State := withCmd (cmd 4 [(32, 9)]) (staged { Slot.init with state := 2, mb := 9 }); let b : Block := blockOf (cmd 4 [(32, 9)]); let d : BitVec 512 := cmd 4 [(32, 9)]; let r := entered core.val queue.val s b d; let q := fld (cmdBody d) 1 0; let i := fld (cmdBody d) 15 8; let mb : BitVec 32 := fb (cmdBody d) 32 32; decide (starts 0x04 core.val queue.val s anyTime b d = true ∧ slotThere r.s q i = true ∧ (r.s.stage.slot q i).mb = mb ∧ q < 2 ∧ (r.s.stage.slot q i).state = 2)) = true := by decide +kernel

theorem wit_ControlCommandsDoTheirWork_12 :
    (let core : CoreId := 0; let queue : QueueId := 0; let s : State := withCmd (cmd 4 [(0, 2), (32, 9)]) (staged { Slot.init with state := 5, mb := 9 }); let b : Block := blockOf (cmd 4 [(0, 2), (32, 9)]); let d : BitVec 512 := cmd 4 [(0, 2), (32, 9)]; let r := entered core.val queue.val s b d; let q := fld (cmdBody d) 1 0; let i := fld (cmdBody d) 15 8; let mb : BitVec 32 := fb (cmdBody d) 32 32; decide (starts 0x04 core.val queue.val s anyTime b d = true ∧ slotThere r.s q i = true ∧ (r.s.stage.slot q i).mb = mb ∧ 2 ≤ q ∧ (r.s.stage.slot q i).state = 5)) = true := by decide +kernel

theorem wit_SendSlotSendsUnderItsCredit_0 :
    (let core : CoreId := 0; let queue : QueueId := 0; let port : PortId := 0; let s : State := withCmd (cmd 5 [(0, 2), (32, 9)]) (linked ({ (staged { Slot.init with state := 3, mb := 9 }) with stage := { (staged { Slot.init with state := 3, mb := 9 }).stage with addr := [(1, some { peerInSlots := 4, peerStageId := 0, endpoint := 2 })], remote := [(2, [(1, { newest := some 1, credit := some 1 })])] } })); let b : Block := blockOf (cmd 5 [(0, 2), (32, 9)]); let d : BitVec 512 := cmd 5 [(0, 2), (32, 9)]; let k : MbQueue := mbq; let a : StageAddr := { peerInSlots := 4, peerStageId := 0, endpoint := 2 }; let gen : BitVec 16 := 1; let via : Via := .port 0; let p : Nat := 3; let tag : Nat := 0; let q := fld (cmdBody d) 1 0; let i := fld (cmdBody d) 15 8; let r0 := entered core.val queue.val s b d; let r1 : Run := { r0.modSlot q i fun x => { x with state := 4, counter := 0 } with e := { r0.e with cursor := 1 } }; let r2 := r1.fixProfile ((r1.s.endpoint a.endpoint.toNat).bind fun e => e.profile); let rs := fld (cmdBody d) 63 32 % a.peerInSlots; decide (starts 0x05 core.val queue.val s anyTime b d = true ∧ r0.s.stage.queue q = some k ∧ slotThere r0.s q i = true ∧ (r0.s.stage.slot q i).state = 3 ∧ (r0.s.stage.slot q i).mb = fb (cmdBody d) 32 32 ∧ r1.s.ovt.replay = none ∧ r1.s.stage.receiver q = some a ∧ (match gateOf r2.s (some a.endpoint.toNat) port.val with | .go v0 p0 => decide (v0 = via) && decide (p0 = p) | _ => false) = true ∧ (r2.s.stage.rslot q rs).credit = some gen ∧ r2.s.freeTag core.val = some tag ∧ (match r2.coherent [(slotAddr k i, slotExpected k (r2.s.stage.slot q i))] [] with | .go _ => true | .stop _ => false) = true)) = true := by decide +kernel

theorem wit_MatrixCommandsComputeTheirOutputs_0 :
    (let core : CoreId := 0; let queue : QueueId := 0; let s : State := withCmd (cmd 0x10 [(56, 0)]) (mapped dev); let b : Block := blockOf (cmd 0x10 [(56, 0)]); let d : BitVec 512 := cmd 0x10 [(56, 0)]; let x : BitVec 512 := 0; let r := takeArrays (entered core.val queue.val s b d); let op := 0x10; let m := matArgs d; let c := epiCfg m.epi; decide ((op = 0x10 ∨ op = 0x11) ∧ starts op core.val queue.val s (arraysAccept core.val queue.val) b d = true ∧ (r.readRec c).1 = some x ∧ dropTooFar c x m.tokens m.vectors = false ∧ (matPanels m (entered core.val queue.val s b d).actl c x [] [] (r.readRec c).2).run.e.done = false)) = true := by decide +kernel

theorem wit_MatrixCommandsComputeTheirOutputs_1 :
    (let core : CoreId := 0; let queue : QueueId := 0; let s : State := withCmd (cmd 0x12 [(160, 0x1000)]) (mapped dev); let b : Block := blockOf (cmd 0x12 [(160, 0x1000)]); let d : BitVec 512 := cmd 0x12 [(160, 0x1000)]; let x : BitVec 512 := 0; let r := takeArrays (entered core.val queue.val s b d); let bd := cmdBody d; let c := epiCfg (fb bd 320 64); let n := eltCount bd; decide (starts 0x12 core.val queue.val s (arraysAccept core.val queue.val) b d = true ∧ (r.readRec c).1 = some x ∧ dropTooFar c x 1 n = false ∧ ((readElts (entered core.val queue.val s b d).actl (fld bd 18 16) (fld bd 22 20) (fld bd 119 96) (fld bd 151 128) n (r.readRec c).2).2.readVecs c x 0 n).1.isSome = true)) = true := by decide +kernel

theorem wit_MatrixCommandsComputeTheirOutputs_panel :
    (let s : State := withCmd (cmd 0x10 [(56, 0)]) (mapped dev); let d : BitVec 512 := cmd 0x10 [(56, 0)]; let r := takeArrays (entered 0 0 s (blockOf d) d); let a := (entered 0 0 s (blockOf d) d).actl; let m := matArgs d; let c := epiCfg m.epi; let x : BitVec 512 := 0; let st : MatRun := { run := r, tile := [], rows := [], wts := [], outs := [], reached := 0 }
     let lanes := (shapeGeom m.shape m.statFmt).lanes; let tn := min lanes m.tokens; let nn := min m.panel m.vectors; let g := loadPanel m a 0 0 tn nn st; let start := accStart m a 0 tn 0 nn g.2.2
     !st.run.e.done && (start.2.readVecs c x 0 nn).1.isSome) = true := by decide +kernel

theorem wit_VectorCommandsWorkRowByRow_0 :
    (let core : CoreId := 0; let queue : QueueId := 0; let s : State := withCmd (cmd 0x24 [(8, 1), (16, 1), (184, 1), (200, 3), (232, 0x1000)]) (mapped dev); let b : Block := blockOf (cmd 0x24 [(8, 1), (16, 1), (184, 1), (200, 3), (232, 0x1000)]); let d : BitVec 512 := cmd 0x24 [(8, 1), (16, 1), (184, 1), (200, 3), (232, 0x1000)]; let v := vecArgs d; let op := 0x24; let i : Instr := .vecNorm core queue; decide ((op, i) ∈ [(0x20, Instr.vecElem core queue), (0x21, .vecFunc core queue), (0x22, .vecRowstat core queue), (0x23, .vecSoftmax core queue), (0x24, .vecNorm core queue)] ∧ starts op core.val queue.val s (vectorAccepts core.val) b d = true ∧ (¬(v.op = 0x20 ∧ v.func = 9)))) = true := by decide +kernel

theorem wit_VectorCommandsWorkRowByRow_1 :
    (let core : CoreId := 0; let queue : QueueId := 0; let s : State := withCmd (cmd 0x20 [(8, 1), (16, 1), (24, 9), (232, 0x1000), (328, 0x2000)]) ((mapped dev).modCore 0 fun k => { k with spad := [(0x201C, 1)] }); let b : Block := blockOf (cmd 0x20 [(8, 1), (16, 1), (24, 9), (232, 0x1000), (328, 0x2000)]); let d : BitVec 512 := cmd 0x20 [(8, 1), (16, 1), (24, 9), (232, 0x1000), (328, 0x2000)]; let r := takeVector (entered core.val queue.val s b d); let v := vecArgs d; let x := BitVec.ofNat 512 (2 ^ 224); decide (starts 0x20 core.val queue.val s (vectorAccepts core.val) b d = true ∧ v.func = 9 ∧ (r.readRec (dropCfg v)).1 = some x ∧ dropTooFar (dropCfg v) x v.rows v.len = false)) = true := by decide +kernel

theorem wit_DmaCommandsDoTheirWork_0 :
    (let core : CoreId := 0; let queue : QueueId := 0; let s : State := withCmd (cmd 0x30 [(192, 0), (64, 0), (256, 0x1000), (320, 64)]) (mapped dev); let b : Block := blockOf (cmd 0x30 [(192, 0), (64, 0), (256, 0x1000), (320, 64)]); let d : BitVec 512 := cmd 0x30 [(192, 0), (64, 0), (256, 0x1000), (320, 64)]; let r := entered core.val queue.val s b d; let n := dmaLen d; let sd := dmaSides r.s core.val d; let r1 := r; let r2 := Run.chunks sd false r1.tagPlan n (2 * (n / 2048 + 8)) r1; decide ((r.reserve n).isNone = true ∧ starts 0x30 core.val queue.val s anyTime b d = true ∧ sd.1.remote = false ∧ sd.2.remote = false ∧ (match r.coherent (sideRange sd.1 0 n) (sideRange sd.2 0 n) with | .go _ => true | .stop _ => false) = true ∧ r2.e.done = false ∧ n ≤ r2.e.cursor ∧ fld (cmdBody d) 32 32 = 0)) = true := by decide +kernel

theorem wit_DmaCommandsDoTheirWork_ring :
    (let d := cmd 0x30 [(18, 2), (20, 15), (320, 128)]; let s : State := withCmd d ((mapped dev).modCfg 0 fun g => { g with circ := [(15, some { queue := 0, pair := 0, start := 0x8000, size := 0x1000, entry := 128, head := 0, tail := 0, resHead := 0, resTail := 0 })] })
     let r := entered 0 0 s (blockOf d) d; let n := dmaLen d; let sd := dmaSides r.s 0 d
     starts 0x30 0 0 s anyTime (blockOf d) d && !sd.1.remote && !sd.2.remote && (match r.reserve n with
       | some r0 => decide (r0.e.wait = .none) && (match r0.coherent (sideRange sd.1 0 n) (sideRange sd.2 0 n) with
         | .go r1 => let r2 := Run.chunks sd false r1.tagPlan n (2 * (n / 2048 + 8)) r1; !r2.e.done && decide (n ≤ r2.e.cursor)
         | .stop _ => false)
       | none => false)) = true := by decide +kernel

theorem wit_DmaCommandsDoTheirWork_1 :
    (let core : CoreId := 0; let queue : QueueId := 0; let port : PortId := 0; let s : State := withCmd (cmd 0x31 [(44, 2), (33, 5), (192, 0), (256, 0x80), (320, 64)]) (linked (mapped dev)); let b : Block := blockOf (cmd 0x31 [(44, 2), (33, 5), (192, 0), (256, 0x80), (320, 64)]); let d : BitVec 512 := cmd 0x31 [(44, 2), (33, 5), (192, 0), (256, 0x80), (320, 64)]; let r := entered core.val queue.val s b d; let n := dmaLen d; let sd := dmaSides r.s core.val d; let r1 := r; let via := (.port 0 : Via); let p := 3; let tag := 0; let r2 := Run.chunks sd true { r1.tagPlan with guarded := false, publish := false } n (n / 2048 + 8) r1; decide ((r.reserve n).isNone = true ∧ starts 0x31 core.val queue.val s anyTime b d = true ∧ sd.1.remote = false ∧ sd.2.remote = true ∧ (match (r.coherent (sideRange sd.1 0 n) []) with | .go _ => true | .stop _ => false) = true ∧ 0 < n ∧ (match gateOf r1.s (r1.target sd.2).1 port.val with | .go v0 p0 => decide (v0 = via) && decide (p0 = p) | _ => false) = true ∧ r2.e.done = false ∧ n ≤ r2.e.cursor ∧ (match gateOf r2.s (r2.target sd.2).1 port.val with | .go v0 p0 => decide (v0 = via) && decide (p0 = p) | _ => false) = true ∧ r2.s.freeTag core.val = some tag)) = true := by decide +kernel

theorem wit_DmaCommandsDoTheirWork_2 :
    (let core : CoreId := 0; let queue : QueueId := 0; let port : PortId := 0; let s : State := withCmd (cmd 0x32 [(44, 2), (33, 5), (192, 0), (256, 0x80), (320, 64)]) (linked (mapped dev)); let b : Block := blockOf (cmd 0x32 [(44, 2), (33, 5), (192, 0), (256, 0x80), (320, 64)]); let d : BitVec 512 := cmd 0x32 [(44, 2), (33, 5), (192, 0), (256, 0x80), (320, 64)]; let r := entered core.val queue.val s b d; let n := dmaLen d; let sd := dmaSides r.s core.val d; let r1 := r; let r2 := Run.issueReads sd r1.tagPlan n port.val (n + 1) r1; decide ((r.reserve n).isNone = true ∧ starts 0x32 core.val queue.val s anyTime b d = true ∧ sd.1.remote = true ∧ 0 < n ∧ (match r.coherent [] (sideRange sd.2 0 n) with | .go _ => true | .stop _ => false) = true ∧ r2.e.done = false ∧ r2.ops.isEmpty = false)) = true := by decide +kernel

theorem wit_DmaCommandsDoTheirWork_3 :
    (let core : CoreId := 0; let queue : QueueId := 0; let s : State := withCmd (cmd 0x33 [(0, 8191), (16, 0), (32, 1)]) (dev); let b : Block := blockOf (cmd 0x33 [(0, 8191), (16, 0), (32, 1)]); let d : BitVec 512 := cmd 0x33 [(0, 8191), (16, 0), (32, 1)]; let r := entered core.val queue.val s b d; decide (starts 0x33 core.val queue.val s anyTime b d = true ∧ (r.tagRange.find? fun i => r.k.segDead (2048 * i)) = none ∧ fld (cmdBody d) 33 32 < 2)) = true := by decide +kernel

theorem wit_DmaCommandsDoTheirWork_wait :
    (let d : BitVec 512 := cmd 0x33 [(0, 8191), (16, 0), (32, 2)]; let s : State := withCmd d dev; let b : Block := blockOf d; let r := entered 0 0 s b d; decide (starts 0x33 0 0 s anyTime b d = true ∧ (r.tagRange.find? fun i => r.k.segDead (2048 * i)) = none ∧ 2 ≤ fld (cmdBody d) 33 32)) = true := by decide +kernel

theorem wit_DmaCommandsDoTheirWork_off :
    (let d : BitVec 512 := cmd 0x33 [(0, 8191), (16, 0), (32, 1)]; let s : State := withCmd d (dev.modCore 0 fun k => { k with segOff := 0xF }); let b : Block := blockOf d; let r := entered 0 0 s b d; decide (starts 0x33 0 0 s anyTime b d = true ∧ (r.tagRange.find? fun i => r.k.segDead (2048 * i)) = some 8191 ∧ fld (cmdBody d) 33 32 < 2)) = true := by decide +kernel

theorem wit_SaveCommandsDoTheirWork_0 :
    (let core : CoreId := 0; let queue : QueueId := 0; let s : State := withCmd (cmd 0x40 [(8, 7), (12, 15), (64, 2), (96, 0)]) ({ (mapped dev) with regions := [(15, (0x100000, 0x100000))] }); let b : Block := blockOf (cmd 0x40 [(8, 7), (12, 15), (64, 2), (96, 0)]); let d : BitVec 512 := cmd 0x40 [(8, 7), (12, 15), (64, 2), (96, 0)]; let r := entered core.val queue.val s b d; let bd := cmdBody d; let st := fld bd 10 8; let m := tget StreamMode.init r.k.cfg.streams st; let range := recRange r.s (fld bd 15 12) (fld bd 135 96) (fld bd 91 64) m.coding.toNat; decide (starts 0x40 core.val queue.val s anyTime b d = true ∧ inRegion r.s (fld bd 15 12) (fld bd 135 96) (fld bd 91 64) m.coding.toNat = true ∧ hits range.1 range.2 (openRanges r.s) = false ∧ r.k.saveRec st = none)) = true := by decide +kernel

theorem wit_SaveCommandsDoTheirWork_1 :
    (let core : CoreId := 0; let queue : QueueId := 0; let s : State := withCmd (cmd 0x41 [(8, 7), (32, 4096), (160, 0)]) (State.setRec ({ (mapped dev) with regions := [(15, (0x100000, 0x100000))] }) 0 7 (some { queue := 0, region := 15, offset := 0, blocks := 2, used := 0, coding := 0, view := 0, written := 0 })); let b : Block := blockOf (cmd 0x41 [(8, 7), (32, 4096), (160, 0)]); let d : BitVec 512 := cmd 0x41 [(8, 7), (32, 4096), (160, 0)]; let r := entered core.val queue.val s b d; let bd := cmdBody d; let st := fld bd 10 8; decide (starts 0x41 core.val queue.val s (saveAccepts core.val) b d = true ∧ appendFault r st (ceilDiv (fld bd 63 32) 4096) true = none)) = true := by decide +kernel

theorem wit_SaveCommandsDoTheirWork_2 :
    (let core : CoreId := 0; let queue : QueueId := 0; let s : State := withCmd (cmd 0x42 [(8, 7)]) (State.setRec ({ (mapped dev) with regions := [(15, (0x100000, 0x100000))] }) 0 7 (some { queue := 0, region := 15, offset := 0, blocks := 2, used := 0, coding := 0, view := 0, written := 0 })); let b : Block := blockOf (cmd 0x42 [(8, 7)]); let d : BitVec 512 := cmd 0x42 [(8, 7)]; let r := entered core.val queue.val s b d; let bd := cmdBody d; let st := fld bd 10 8; let x := ({ queue := 0, region := 15, offset := 0, blocks := 2, used := 0, coding := 0, view := 0, written := 0 } : SaveRec); decide (starts 0x42 core.val queue.val s anyTime b d = true ∧ r.k.saveRec st = some x ∧ x.queue = queue.val ∧ streamBusy r.s core.val st = false)) = true := by decide +kernel

theorem wit_SaveCommandsDoTheirWork_3 :
    (let core : CoreId := 0; let queue : QueueId := 0; let s : State := withCmd (cmd 0x43 [(12, 15), (32, 64), (16, 2), (160, 0)]) ({ (mapped dev) with regions := [(15, (0x100000, 0x100000))] }); let b : Block := blockOf (cmd 0x43 [(12, 15), (32, 64), (16, 2), (160, 0)]); let d : BitVec 512 := cmd 0x43 [(12, 15), (32, 64), (16, 2), (160, 0)]; let r := entered core.val queue.val s b d; let bd := cmdBody d; decide (starts 0x43 core.val queue.val s anyTime b d = true ∧ inRegion r.s (fld bd 15 12) (fld bd 135 96) (fld bd 91 64 + ceilDiv (fld bd 63 32) 4096) (fld bd 17 16) = true)) = true := by decide +kernel

theorem wit_TarnCommandsDoTheirWork_0 :
    (let core : CoreId := 0; let queue : QueueId := 0; let s : State := withCmd (cmd 0x50 [(8, 15), (64, 5)]) ({ (mapped dev) with tarn := [(15, some index15)], hbm := { dev.hbm with mem := [(0x1008, 4), (0x1012, 1), (0x101A, 2)] } }); let b : Block := blockOf (cmd 0x50 [(8, 15), (64, 5)]); let d : BitVec 512 := cmd 0x50 [(8, 15), (64, 5)]; let k : Index := index15; let r := entered core.val queue.val s b d; let a := queryArgs d; decide (r.s.index (fld (cmdBody d) 11 8) = some k ∧ starts 0x50 core.val queue.val s queryAccepts b d = true ∧ r.e.absent = false ∧ k.floor.toNat ≤ a.epoch ∧ a.epoch ≤ k.published.toNat)) = true := by decide +kernel

theorem wit_TarnCommandsDoTheirWork_1 :
    (let core : CoreId := 0; let queue : QueueId := 0; let s : State := withCmd (cmd 0x51 [(8, 15), (128, 0x300000)]) ({ (mapped dev) with tarn := [(15, some index15)], hbm := { dev.hbm with mem := [(0x1008, 4), (0x1012, 1), (0x101A, 2)] } }); let b : Block := blockOf (cmd 0x51 [(8, 15), (128, 0x300000)]); let d : BitVec 512 := cmd 0x51 [(8, 15), (128, 0x300000)]; let k : Index := index15; let r := entered core.val queue.val s b d; let l := fld (cmdBody d) 39 16; let r1 := r; let n := fld (cmdBody d) 55 40 + 1; let sz := entryBytes k.width; let src := fld (cmdBody d) 167 128; let e := r1.dirRead k l; let g := e.2.devRead src (n * sz); decide (r.s.index (fld (cmdBody d) 11 8) = some k ∧ starts 0x51 core.val queue.val s anyTime b d = true ∧ r.e.absent = false ∧ l < k.lists ∧ k.rewriting l = false ∧ deleting r.s (fld (cmdBody d) 11 8) = false ∧ k.pendingEpoch ≠ 0xFFFFFFFF ∧ (match r.coherent [(src, n * sz)] [] with | .go _ => true | .stop _ => false) = true ∧ e.1.length + n ≤ e.1.cap ∧ (g.1.any fun b => !b.got) = false)) = true := by decide +kernel

theorem wit_TarnCommandsDoTheirWork_2 :
    (let core : CoreId := 0; let queue : QueueId := 0; let s : State := withCmd (cmd 0x52 [(8, 15), (64, 7)]) ({ (mapped dev) with tarn := [(15, some index15)], hbm := { dev.hbm with mem := [(0x1008, 4), (0x1012, 1), (0x101A, 2)] } }); let b : Block := blockOf (cmd 0x52 [(8, 15), (64, 7)]); let d : BitVec 512 := cmd 0x52 [(8, 15), (64, 7)]; let k : Index := index15; let r := entered core.val queue.val s b d; let l := fld (cmdBody d) 39 16; decide (r.s.index (fld (cmdBody d) 11 8) = some k ∧ starts 0x52 core.val queue.val s anyTime b d = true ∧ r.e.absent = false ∧ l < k.lists ∧ k.rewriting l = false ∧ deleting r.s (fld (cmdBody d) 11 8) = false ∧ k.pendingEpoch ≠ 0xFFFFFFFF)) = true := by decide +kernel

theorem wit_TarnCommandsDoTheirWork_3 :
    (let core : CoreId := 0; let queue : QueueId := 0; let s : State := withCmd (cmd 0x53 [(8, 15)]) ({ (mapped dev) with tarn := [(15, some index15)], hbm := { dev.hbm with mem := [(0x1008, 4), (0x1012, 1), (0x101A, 2)] } }); let b : Block := blockOf (cmd 0x53 [(8, 15)]); let d : BitVec 512 := cmd 0x53 [(8, 15)]; let k : Index := index15; let r := entered core.val queue.val s b d; decide (r.s.index (fld (cmdBody d) 11 8) = some k ∧ starts 0x53 core.val queue.val s anyTime b d = true ∧ r.e.absent = false ∧ k.pendingEpoch ≠ 0xFFFFFFFF ∧ deleting r.s (fld (cmdBody d) 11 8) = false ∧ (r.s.allStarted.any fun e => applied (fld (cmdBody d) 11 8) e.2.2) = false)) = true := by decide +kernel

theorem wit_TarnCommandsDoTheirWork_4 :
    (let index : Fin 16 := 15; let s : State := { dev with tarn := [(15, some { width := 0, lists := 1, dir := 0x1000, centroid := 0x2000, rdvWait := 10, rdvMax := 2, published := 5, pendingEpoch := 6, floor := 3, collecting := [{ core := 0, queue := 0, id := 0, pool := none }], closed := none, running := [], rewrites := [] })] }; let k : Index := { width := 0, lists := 1, dir := 0x1000, centroid := 0x2000, rdvWait := 10, rdvMax := 2, published := 5, pendingEpoch := 6, floor := 3, collecting := [{ core := 0, queue := 0, id := 0, pool := none }], closed := none, running := [], rewrites := [] }; decide (s.index index.val = some k ∧ k.collecting ≠ [] ∧ k.closed = none)) = true := by decide +kernel

theorem wit_TarnCommandsDoTheirWork_5 :
    (let index : Fin 16 := 15; let s : State := withStarted (entryOf (cmd 0x50 [(8, 15), (64, 5)])) { (mapped dev) with tarn := [(15, some { width := 0, lists := 1, dir := 0x1000, centroid := 0x2000, rdvWait := 10, rdvMax := 2, published := 5, pendingEpoch := 6, floor := 3, collecting := [], closed := some [{ core := 0, queue := 0, id := 0, pool := none }], running := [], rewrites := [] })] }; let k : Index := { width := 0, lists := 1, dir := 0x1000, centroid := 0x2000, rdvWait := 10, rdvMax := 2, published := 5, pendingEpoch := 6, floor := 3, collecting := [], closed := some [{ core := 0, queue := 0, id := 0, pool := none }], running := [], rewrites := [] }; let l := ([{ core := 0, queue := 0, id := 0, pool := none }] : List QueryRef); decide (s.index index.val = some k ∧ s.power.standby = false ∧ s.clocked = true ∧ batchOver s k = true ∧ k.closed = some l ∧ l.flatMap (queryLines s k) = [])) = true := by decide +kernel

theorem wit_TarnCommandsDoTheirWork_running :
    (let k : Index := { index15 with running := [{ core := 0, queue := 0, id := 0, pool := some [] }] }; let s : State := withStarted (entryOf (cmd 0x50 [(8, 15), (64, 5)])) { (mapped dev) with tarn := [(15, some k)] }; decide (s.index 15 = some k ∧ s.power.standby = false ∧ s.clocked = true ∧ batchOver s k = false)) = true := by decide +kernel

theorem wit_TarnCommandsDoTheirWork_6 :
    (let index : Fin 16 := 15; let s : State := holding (heldOf 0x0504 (req []) 0) { dev with tarn := [(15, some { width := 0, lists := 1, dir := 0x1000, centroid := 0x2000, rdvWait := 10, rdvMax := 2, published := 5, pendingEpoch := 6, floor := 3, collecting := [], closed := none, running := [], rewrites := [{ src := .chan 0, list := 0, newLog := 0x30000, newTomb := 0x40000, newCap := 4, floor := 3 }] })] }; let k : Index := { width := 0, lists := 1, dir := 0x1000, centroid := 0x2000, rdvWait := 10, rdvMax := 2, published := 5, pendingEpoch := 6, floor := 3, collecting := [], closed := none, running := [], rewrites := [{ src := .chan 0, list := 0, newLog := 0x30000, newTomb := 0x40000, newCap := 4, floor := 3 }] }; let list := 0; let w := ({ src := .chan 0, list := 0, newLog := 0x30000, newTomb := 0x40000, newCap := 4, floor := 3 } : Rewrite); let h := heldOf 0x0504 (req []) 0; let t := (rewriteList s k w).1.modIndex index.val fun k => { k with rewrites := k.rewrites.filter fun x => x.list != list }; decide (s.index index.val = some k ∧ s.power.standby = false ∧ s.clocked = true ∧ (k.rewrites.find? fun w => w.list == list) = some w ∧ (s.allStarted.any fun e => cmdOp e.2.2.desc == 0x52 && applied index.val e.2.2 && !e.2.2.done && fld (cmdBody e.2.2.desc) 39 16 == list) = false ∧ t.heldBy w.src = some h)) = true := by decide +kernel

theorem wit_GradientCommandsDoTheirWork_0 :
    (let core : CoreId := 0; let queue : QueueId := 0; let s : State := withCmd (cmd 0x60 [(8, 4095), (64, 3)]) grouped; let b : Block := blockOf (cmd 0x60 [(8, 4095), (64, 3)]); let d : BitVec 512 := cmd 0x60 [(8, 4095), (64, 3)]; let k : Bucket := bucket15; let g : Group := group15; let r := entered core.val queue.val s b d; let bd := cmdBody d; let n := fld bd 95 64 + 1; let sf := fld bd 21 21; let at' := k.addr + fld bd 63 32 * k.elem; let fresh : Bool := fld bd 20 20 == 1; decide (r.s.bucket (bucketOf d) = some k ∧ r.s.group k.group = some g ∧ g.broken = false ∧ starts 0x60 core.val queue.val s bucketAccepts b d = true ∧ fresh = false) && (match (r.doing [0]).coherent (if fresh then [] else [(at', n * k.elem)]) [(at', n * k.elem)] with | .go r1 => !((r1.localRead (fld bd 119 96) (fld bd 119 96) (n * fmtBytes sf)).1.any fun x => !x.got) | .stop _ => false)) = true := by decide +kernel

theorem wit_GradientCommandsDoTheirWork_1 :
    (let core : CoreId := 0; let queue : QueueId := 0; let s : State := withCmd (cmd 0x60 [(8, 4095), (64, 3), (20, 1)]) grouped; let b : Block := blockOf (cmd 0x60 [(8, 4095), (64, 3), (20, 1)]); let d : BitVec 512 := cmd 0x60 [(8, 4095), (64, 3), (20, 1)]; let k : Bucket := bucket15; let g : Group := group15; let r := entered core.val queue.val s b d; let bd := cmdBody d; let n := fld bd 95 64 + 1; let sf := fld bd 21 21; let at' := k.addr + fld bd 63 32 * k.elem; let fresh : Bool := fld bd 20 20 == 1; decide (r.s.bucket (bucketOf d) = some k ∧ r.s.group k.group = some g ∧ g.broken = false ∧ starts 0x60 core.val queue.val s bucketAccepts b d = true ∧ fresh = true) && (match (r.doing [0]).coherent (if fresh then [] else [(at', n * k.elem)]) [(at', n * k.elem)] with | .go r1 => !((r1.localRead (fld bd 119 96) (fld bd 119 96) (n * fmtBytes sf)).1.any fun x => !x.got) | .stop _ => false)) = true := by decide +kernel

theorem wit_GradientCommandsDoTheirWork_2 :
    (let core : CoreId := 0; let queue : QueueId := 0; let s : State := withCmd (cmd 0x61 [(8, 4095)]) grouped; let b : Block := blockOf (cmd 0x61 [(8, 4095)]); let d : BitVec 512 := cmd 0x61 [(8, 4095)]; let k : Bucket := bucket15; let g : Group := group15; let r := entered core.val queue.val s b d; decide (r.s.bucket (bucketOf d) = some k ∧ r.s.group k.group = some g ∧ g.broken = false ∧ starts 0x61 core.val queue.val s bucketAccepts b d = true ∧ (g.ranks.findSome? fun ep => (memberFault r.s ep.toNat).map fun st => (st, ep)) = none)) = true := by decide +kernel

theorem wit_GradientCommandsDoTheirWork_3 :
    (let core : CoreId := 0; let queue : QueueId := 0; let s : State := withCmd (cmd 0x70 [(24, 31), (56, 0x1000), (96, 0x2000), (136, 0x3000), (176, 0x4000)]) ({ dev with opt := [(0, { optInit with configured := true, algorithm := 1 })] }); let b : Block := blockOf (cmd 0x70 [(24, 31), (56, 0x1000), (96, 0x2000), (136, 0x3000), (176, 0x4000)]); let d : BitVec 512 := cmd 0x70 [(24, 31), (56, 0x1000), (96, 0x2000), (136, 0x3000), (176, 0x4000)]; let r := entered core.val queue.val s b d; let u := updArgs d; let o := r.s.optSlot u.slot; decide (starts 0x70 core.val queue.val s updateAccepts b d = true ∧ updateOk r.s d = true ∧ (match (takeUpdate (r.doing [0])).coherent (u.used o) (u.used o) with | .go _ => true | .stop _ => false) = true)) = true := by decide +kernel

theorem wit_QueueEventsDoTheirWork_0 :
    (let core : CoreId := 0; let queue : QueueId := 0; let s : State := withStarted { entryOf 0 with done := true } dev; let e : Started := { entryOf 0 with done := true }; let id := 0; decide (s.clocked = true ∧ s.started core.val queue.val id = some e ∧ e.done = true ∧ unitsDone (s.core core.val) queue.val id = true ∧ (s.power.standby && stopsInStandby e.desc) = false ∧ linesDue s core.val queue.val e = [])) = true := by decide +kernel

theorem wit_QueueEventsDoTheirWork_lines :
    (let e : Started := { entryOf 0x100 with done := true }; let s : State := withStarted e { coherent with host := { coherent.host with tracker := [(0x2000, true)] } }; decide (s.clocked = true ∧ s.started 0 0 0 = some e ∧ e.done = true ∧ unitsDone (s.core 0) 0 0 = true ∧ (s.power.standby && stopsInStandby e.desc) = false ∧ linesDue s 0 0 e ≠ [])) = true := by decide +kernel

theorem wit_QueueEventsDoTheirWork_1 :
    (let e : Started := { entryOf (cmd 0x33 [(0, 8191), (32, 2)]) with wait := .tagSlot 8191 true (2048 * 8191) }; let s : State := withStarted e dev; decide (s.started 0 0 0 = some e ∧ e.done = false ∧ waitOver s 0 0 e = false)) = true := by decide +kernel

theorem wit_QueueEventsDoTheirWork_ring :
    (let e : Started := { entryOf (cmd 0x30 [(18, 1), (20, 15), (256, 0x1000), (320, 128)]) with wait := .circular 15 }; let s : State := withStarted e ((mapped dev).modCfg 0 fun g => { g with circ := [(15, some { queue := 0, pair := 0, start := 0x8000, size := 0x1000, entry := 128, head := 0, tail := 0, resHead := 0, resTail := 0 })] }); decide (s.started 0 0 0 = some e ∧ e.done = false ∧ waitOver s 0 0 e = false)) = true := by decide +kernel

theorem wit_QueueEventsDoTheirWork_program :
    (let e : Started := { entryOf (cmd 1 [(8, 63), (32, 5)]) with wait := .program }; let s : State := withStarted e dev; decide (s.started 0 0 0 = some e ∧ e.done = false ∧ e.wait = .program ∧ waitOver s 0 0 e = false)) = true := by decide +kernel

theorem wit_QueueEventsDoTheirWork_next :
    (let d : BitVec 512 := BitVec.ofNat 512 (bits [(22, 1), (16, 63), (64, 5)]); let s : State := withCmd d dev; decide (nextCmd (s.queue 0 0) = some (blockOf d, d) ∧ queueOpen s 0 0 = true ∧ waitMet (s.core 0) d = false)) = true := by decide +kernel

theorem wit_QueueEventsDoTheirWork_2 :
    (let core : CoreId := 0; let queue : QueueId := 0; let s : State := withCmd 0 dev; let r := ({ base := 0x80000, log2 := 8, vector := 127, headAddr := 0x90000, written := 0, head := 0 } : CplRing); let head := (0xFFFFFFFF : BitVec 32); decide ((s.queue core.val queue.val).cpl = some r ∧ (head - r.written).toInt ≤ 2 ^ r.log2)) = true := by decide +kernel

theorem wit_QueueEventsDoTheirWork_4 :
    (let s : State := dev.modCore 23 fun k => { k with arrays := [(3, { ArrayState.init with rampUp := true })] }; decide (s.clocked = true ∧ s.nextRamp = some (23, 3))) = true := by decide +kernel

theorem wit_LinkFramesReachTheirTargets_0 :
    (let via : Via := .port 0; let f : Frame := write5; let s : State := open5; let t := ({ core := 23, num := 5, win := { base := 0, size := 0x10000, srcMask := 0, srcEp := 0, counter := 1, ctrEn := true, publish := false, wr := true, rd := true }, addr := 0xFF80, inside := true } : Target); decide ((acceptFrame s via 2 f).2 = true ∧ (acceptFrame s via 2 f).1.boot.quarantined = false ∧ frameTarget (acceptFrame s via 2 f).1 f f.payload.length = some t ∧ windowReason (acceptFrame s via 2 f).1 f (some t) true = none)) = true := by decide +kernel

theorem wit_LinkFramesReachTheirTargets_1 :
    (let via : Via := .port 0; let f : Frame := { write5 with payload := [], lenM1 := 127 }; let s : State := open5; let t := ({ core := 23, num := 5, win := { base := 0, size := 0x10000, srcMask := 0, srcEp := 0, counter := 1, ctrEn := true, publish := false, wr := true, rd := true }, addr := 0xFF80, inside := true } : Target); decide ((acceptFrame s via 3 f).2 = true ∧ (acceptFrame s via 3 f).1.boot.quarantined = false ∧ quarantineOf (acceptFrame s via 3 f).1 f.srcEp.toNat = none ∧ frameTarget (acceptFrame s via 3 f).1 f (f.lenM1.toNat + 1) = some t ∧ windowReason (acceptFrame s via 3 f).1 f (some t) false = none ∧ (spadRead (acceptFrame s via 3 f).1 t.core t.addr (f.lenM1.toNat + 1)).dead = none)) = true := by decide +kernel

theorem wit_LinkFramesReachTheirTargets_2 :
    (let via : Via := .port 0; let f : Frame := { frame with queue := 0, slot := 3, mb := 7, lenM1 := 255, last := true, payload := List.replicate 256 1 }; let s : State := paired; decide ((acceptFrame s via 4 f).2 = true ∧ (acceptFrame s via 4 f).1.boot.quarantined = false ∧ (slotCheck (acceptFrame s via 4 f).1 f.queue.toNat f.slot.toNat f).isSome = true)) = true := by decide +kernel

theorem wit_RefusedFramesAreAnswered_0 :
    (let via : Via := .port 0; let f : Frame := { write5 with offset := 0xFF81 }; let s : State := open5; let n : Nat := 3; let a := (acceptFrame s via 2 f).1; decide ((acceptFrame s via 2 f).2 = true ∧ a.boot.quarantined = false ∧ windowReason a f (frameTarget a f f.payload.length) true = some n)) = true := by decide +kernel

theorem wit_RefusedFramesAreAnswered_1 :
    (let via : Via := .port 0; let f : Frame := { write5 with payload := [], window := 6 }; let s : State := open5; let n : Nat := 0; let a := (acceptFrame s via 3 f).1; decide ((acceptFrame s via 3 f).2 = true ∧ a.boot.quarantined = false ∧ quarantineOf (acceptFrame s via 3 f).1 f.srcEp.toNat = none ∧ windowReason a f (frameTarget a f (f.lenM1.toNat + 1)) false = some n)) = true := by decide +kernel

theorem wit_RefusedFramesAreAnswered_2 :
    (let via : Via := .port 0; let f : Frame := write5; let s : State := shut; decide ((acceptFrame s via 2 f).2 = true ∧ (acceptFrame s via 2 f).1.boot.quarantined = true)) = true := by decide +kernel

theorem wit_RefusedFramesAreAnswered_3 :
    (let via : Via := .port 0; let f : Frame := { write5 with payload := [] }; let s : State := shut; decide ((acceptFrame s via 3 f).2 = true ∧ (acceptFrame s via 3 f).1.boot.quarantined = true)) = true := by decide +kernel

theorem wit_RefusedFramesAreAnswered_4 :
    (let via : Via := .port 0; let f : Frame := { write5 with payload := [] }; let s : State := shut; decide ((acceptFrame s via 4 f).2 = true ∧ (acceptFrame s via 4 f).1.boot.quarantined = true)) = true := by decide +kernel

theorem wit_RefusedFramesAreAnswered_source :
    (let via : Via := .port 0; let f : Frame := { write5 with payload := [], srcEp := 2 }; let s : State := { open5 with fabric := { open5.fabric with endpoints := [(1, tget none open5.fabric.endpoints 1), (2, (tget none open5.fabric.endpoints 2).map fun e => { e with quarantine := some 0x505 })] } }; let a := (acceptFrame s via 3 f).1; decide ((acceptFrame s via 3 f).2 = true ∧ a.boot.quarantined = false ∧ (quarantineOf a f.srcEp.toNat).isSome = true)) = true := by decide +kernel

theorem wit_ResponsesReachTheirOperations_0 :
    (let via : Via := .port 0; let f : Frame := { frame with tag := 9, lenM1 := 63, last := true, payload := List.replicate 64 1 }; let s : State := busyNet (.read 0 64); let o := ({ tag := 9, gen := 0, via := .port 0, endpoint := 2, owner := .cmd 0 0 0, kind := .read 0 64, frames := 1, acked := 0, sent := 1, bytes := 64 } : NetOp); decide ((acceptFrame s via 5 f).2 = true ∧ opFor (acceptFrame s via 5 f).1 f = some o)) = true := by decide +kernel

theorem wit_ResponsesReachTheirOperations_1 :
    (let via : Via := .port 0; let f : Frame := { frame with tag := 10 }; let s : State := busyNet (.read 0 64); decide ((acceptFrame s via 5 f).2 = true ∧ opFor (acceptFrame s via 5 f).1 f = none)) = true := by decide +kernel

theorem wit_ResponsesReachTheirOperations_2 :
    (let via : Via := .port 0; let f : Frame := { frame with tag := 9 }; let s : State := busyNet .write; let o := ({ tag := 9, gen := 0, via := .port 0, endpoint := 2, owner := .cmd 0 0 0, kind := .write, frames := 1, acked := 0, sent := 1, bytes := 64 } : NetOp); decide ((acceptFrame s via 6 f).2 = true ∧ opFor (acceptFrame s via 6 f).1 f = some o)) = true := by decide +kernel

theorem wit_ResponsesReachTheirOperations_3 :
    (let via : Via := .port 0; let f : Frame := { frame with tag := 9, tagGen := 1 }; let s : State := busyNet .write; decide ((acceptFrame s via 6 f).2 = true ∧ opFor (acceptFrame s via 6 f).1 f = none)) = true := by decide +kernel

theorem wit_ResponsesReachTheirOperations_4 :
    (let via : Via := .port 0; let f : Frame := { frame with queue := 0, slot := 3, slotGen := 1 }; let s : State := paired; let a := ({ peerInSlots := 4, peerStageId := 0, endpoint := 2 } : StageAddr); decide ((acceptFrame s via 7 f).2 = true ∧ f.queue.toNat < 2 ∧ (acceptFrame s via 7 f).1.stage.receiver (f.queue.toNat + 2) = some a ∧ a.endpoint = f.srcEp ∧ f.slot.toNat < a.peerInSlots ∧ ((acceptFrame s via 7 f).1.stage.rslot (f.queue.toNat + 2) f.slot.toNat).newest = none ∧ ((acceptFrame s via 7 f).1.stage.rslot (f.queue.toNat + 2) f.slot.toNat).credit = none)) = true := by decide +kernel

theorem wit_LinkEventsTakeEffect_0 :
    (decide ((linked dev).port 0).live && (linked dev).clocked && decide (((linked dev).port 0).state = 2) && decide (((portIs 4 true).port 0).live = true ∧ (portIs 4 true).clocked = true ∧ ((portIs 4 true).port 0).state ≠ 2)) = true := by decide +kernel

theorem wit_LinkEventsTakeEffect_1 :
    (let port : PortId := 0; let s : State := linked dev; let p := port.val; let h := ({ wiringHash := 0, pod := 0, board := 0, slot := 6, profiles := 0x1F, mbxRev := 0x0302, fwVersion := 0, generation := 0x81, linkVersion := 3, port := 0, status := 0 } : Hello); decide ((s.port p).live = true ∧ s.clocked = true ∧ h.generation ≠ 0x80 ∧ (s.port p).switchSeen = false)) = true := by decide +kernel

theorem wit_LinkEventsTakeEffect_2 :
    (let port : PortId := 0; let s : State := { linked dev with clock := { dev.clock with mode := 1 } }; let p := port.val; decide ((s.port p).live = true ∧ s.clocked = true ∧ (s.clock.mode = 1 ∨ s.clock.root = true))) = true := by decide +kernel

theorem wit_LinkEventsTakeEffect_3 :
    (let port : PortId := 0; let s : State := dev.modPort 0 fun p => { p with state := 1, agreed := 3, version := 3, lanes := 0xFF }; let p := port.val; decide (s.clocked = true ∧ (s.port p).state = 1 ∧ (s.port p).agreed ≠ 0 ∧ (s.port p).lanes = 0xFF ∧ (s.port p).version = (s.port p).agreed)) = true := by decide +kernel

theorem wit_LinkEventsTakeEffect_4 :
    (let port : PortId := 0; let s : State := linked dev; let p := port.val; let id := (8 : BitVec 32); decide (s.clocked = true ∧ (s.port p).state ≠ 1 ∧ (s.port p).inSession = true ∧ (s.port p).peerSessionId ≠ some id)) = true := by decide +kernel

theorem wit_LinkEventsTakeEffect_5 :
    (let port : PortId := 0; let s : State := portIs 1 false; let p := port.val; decide ((s.port p).state ≠ 0 ∧ (s.port p).live = false)) = true := by decide +kernel

theorem wit_LinkEventsTakeEffect_6 :
    (let port : PortId := 0; let s : State := (linked dev).modPort 0 fun p => { p with replayAsked := some 0 }; let p := port.val; decide ((s.port p).live = true ∧ (s.port p).replayAsked = some (s.port p).rxSeq)) = true := by decide +kernel

theorem wit_LinkEventsTakeEffect_7 :
    (let port : PortId := 0; let s : State := (portIs 3 true).modPort 0 fun p => { p with lostTimer := true }; let p := port.val; decide ((s.port p).lostTimer = true ∧ (s.port p).inSession = true)) = true := by decide +kernel

theorem wit_LinkEventsTakeEffect_8 :
    (let port : PortId := 0; let s : State := busyNet .write; let p := port.val; decide ((s.port p).inSession = true ∧ (∃ o ∈ s.net.ops, allSent s o = true ∧ o.via = .port port))) = true := by decide +kernel

theorem wit_LinkEventsTakeEffect_8_read :
    (let s : State := withStarted { entryOf (cmd 0x32 [(320, 64)]) with cursor := 64 } (busyNet (.read 0 64)); decide ((s.port 0).inSession = true ∧ (∃ o ∈ s.net.ops, allSent s o = true ∧ o.via = .port 0))) = true := by decide +kernel

theorem wit_LinkEventsTakeEffect_9 :
    (let port : PortId := 0; let s : State := { linked dev with clock := { dev.clock with root := true } }; let p := port.val; decide ((s.port p).state = 2 ∧ (s.clock.mode = 1 ∨ s.clock.root = true) ∧ (s.port p).lastTimeRx = 0)) = true := by decide +kernel

theorem wit_TrainingEventsTakeEffect_0 :
    (let port : PortId := 0; let s : State := portIs 1 false; let p := port.val; decide (s.clocked = true ∧ (s.port p).lanes ≠ 0xFF ∧ (s.port p).state = 1 ∧ (s.port p).agreed = 0)) = true := by decide +kernel

theorem wit_TrainingEventsTakeEffect_1 :
    (let port : PortId := 0; let s : State := portIs 3 true; let p := port.val; decide (s.clocked = true ∧ (s.port p).lanes ≠ 0xFF ∧ (s.port p).state = 3)) = true := by decide +kernel

theorem wit_TrainingEventsTakeEffect_2 :
    (let port : PortId := 0; let s : State := portIs 3 true; let p := port.val; decide (s.clocked = true ∧ (s.port p).state = 3)) = true := by decide +kernel

theorem wit_TrainingEventsTakeEffect_3 :
    (let port : PortId := 0; let s : State := portIs 1 false; let p := port.val; decide (s.clocked = true ∧ (s.port p).state = 1)) = true := by decide +kernel

theorem wit_TrainingEventsTakeEffect_4 :
    (let port : PortId := 0; let s : State := portIs 2 true; let p := port.val; decide (s.clocked = true ∧ (s.port p).state = 2)) = true := by decide +kernel

theorem wit_TrainingEventsTakeEffect_5 :
    (let port : PortId := 0; let s : State := portIs 1 false; let p := port.val; decide (s.clocked = true ∧ (s.port p).state = 1)) = true := by decide +kernel

theorem wit_TrainingEventsTakeEffect_6 :
    (let port : PortId := 0; let s : State := portIs 3 true; let p := port.val; decide (s.clocked = true ∧ (s.port p).state = 3 ∧ (s.port p).lanes ≠ 0xFF)) = true := by decide +kernel

theorem wit_TrainingEventsTakeEffect_7 :
    (let e : Started := { entryOf (cmd 0x31 [(44, 3), (320, 64)]) with wait := .endpoint 3 }; let s : State := withStarted e (mapped dev); decide (s.clocked = true ∧ s.started 0 0 0 = some e ∧ awaitsEndpoint s 0 0 e = true)) = true := by decide +kernel

theorem wit_TrainingEventsTakeEffect_8 :
    (let s : State := { paired with stage := { paired.stage with v1Hold := [(1, true)] } }; let queue : Fin 2 := 1; decide (s.clocked = true ∧ tget false s.stage.v1Hold queue.val = true ∧ feederUp s queue.val = true)) = true := by decide +kernel

theorem wit_EthernetEventsTakeEffect_0 :
    (let s : State := wired; let c := (4095 : BitVec 12); let k := conn1; decide (s.conn c.toNat = some k)) = true := by decide +kernel

theorem wit_EthernetEventsTakeEffect_1 :
    (let s : State := wired; let c := (4095 : BitVec 12); let k := conn1; decide (s.conn c.toNat = some k)) = true := by decide +kernel

theorem wit_EthernetEventsTakeEffect_2 :
    (let s : State := wired; let port : Fin 2 := 0; decide ((s.ethPort port.val).up = true)) = true := by decide +kernel

theorem wit_EthernetEventsTakeEffect_3 :
    (let s : State := wired; let c := (4095 : BitVec 12); let k := conn1; decide (s.conn c.toNat = some k ∧ k.error = false ∧ (s.ethPort k.port).up = true)) = true := by decide +kernel

theorem wit_EthernetEventsTakeEffect_4 :
    (let s : State := wired; let port : Fin 2 := 0; decide ((s.ethPort port.val).up = true)) = true := by decide +kernel

theorem wit_EthernetEventsTakeEffect_5 :
    (let s : State := { wired with eth := { wired.eth with conns := [(4095, some { conn1 with unackedPkts := 1 })] } }; let c := (4095 : BitVec 12); let k := { conn1 with unackedPkts := 1 }; decide (s.conn c.toNat = some k ∧ connResends s c k = true)) = true := by decide +kernel

theorem wit_EthernetEventsTakeEffect_6 :
    (let s : State := { wired with eth := { wired.eth with conns := [(4095, some { conn1 with unackedPkts := 1 })] } }; let c := (4095 : BitVec 12); let k := { conn1 with unackedPkts := 1 }; decide (s.conn c.toNat = some k ∧ connWaits s c k = true)) = true := by decide +kernel

theorem wit_EthernetEventsTakeEffect_10 :
    (let s : State := { wired with eth := { wired.eth with conns := [(4095, some { conn1 with unackedPkts := 1 })] } }; let c := (4095 : BitVec 12); let k := { conn1 with unackedPkts := 1 }; decide (s.conn c.toNat = some k ∧ k.error = false ∧ (s.ethPort k.port).up = true)) = true := by decide +kernel

theorem wit_EthernetEventsTakeEffect_11 :
    (let s : State := { wired with eth := { wired.eth with conns := [(4095, some { conn1 with unackedPkts := 1 })] } }; let c := (4095 : BitVec 12); let k := { conn1 with unackedPkts := 1 }; decide (s.conn c.toNat = some k ∧ k.error = false ∧ (s.ethPort k.port).up = true ∧ connResends s c k = true)) = true := by decide +kernel

theorem wit_EthernetEventsTakeEffect_7 :
    (let on (s : State) : Bool := (s.ethPort 0).ptpEn && (s.ethPort 0).up && s.clocked
     let s1 : State := wired.modEth 0 fun p => { p with ptpSync := some (5, 100) }
     let s2 : State := wired.modEth 0 fun p => { p with ptpSeq := 8, ptpPair := some (1000, 1100), ptpReq := some 1200 }
     on wired && on s1 && decide ((s1.ethPort 0).ptpSync = some (5, 100)) && on s2 && decide (((7 : BitVec 16) + 1 = (s2.ethPort 0).ptpSeq) ∧ (s2.ethPort 0).ptpPair = some (1000, 1100) ∧ (s2.ethPort 0).ptpReq = some 1200)) = true := by decide +kernel

theorem wit_EthernetEventsTakeEffect_8 :
    (let s : State := wired.modEth 0 fun p => { p with up := false }; let port : Fin 2 := 0; decide ((s.ethPort port.val).configured = true ∧ (s.ethPort port.val).enabled = true ∧ (s.ethPort port.val).up = false ∧ s.clocked = true)) = true := by decide +kernel

theorem wit_TimeCommandsTakeEffect_e0 :
    (let h (fs : List (Nat × Nat)) : BitVec 384 := effPayload (heldOf 0x0801 (req ((64, 1000000000) :: fs)) 0).msg
     decide (dev.clocked = true ∧ fld (h [(0, 1)]) 1 0 = 1 ∧ fld (h [(2, 1)]) 1 0 ≠ 1 ∧ bit (h [(2, 1)]) 2 = true ∧ fld (h []) 1 0 ≠ 1 ∧ bit (h []) 2 = false)
       && [h [(0, 1)], h [(2, 1)]].all fun p => decide (dev.clock.gtc.toNat ≤ (fb p 64 64 : BitVec 64).toNat)) = true := by decide +kernel

theorem wit_TimeCommandsTakeEffect_e1 :
    (let s : State := { dev with clock := { dev.clock with gtc := 1000000001 } }; [[(0, 1)], [(2, 1)]].all fun fs => let p := effPayload (heldOf 0x0801 (req ((64, 1000000000) :: fs)) 0).msg
     decide ((fld p 1 0 = 1 ∨ bit p 2 = true) ∧ (fb p 64 64 : BitVec 64).toNat < s.clock.gtc.toNat)) = true := by decide +kernel

theorem wit_TimeCommandsTakeEffect_emark :
    (decide (({ dev with clock := { dev.clock with mode := 1, state := 1 } } : State).clock.mode = 1 ∧ ({ dev with clock := { dev.clock with mode := 1, state := 1 } } : State).clock.state = 1 ∧ ¬(dev.clock.mode = 1 ∧ dev.clock.state = 1))) = true := by decide +kernel

theorem wit_TimeCommandsTakeEffect_e2 :
    (let s : State := { dev with clock := { dev.clock with mode := 1 } }; decide (s.clock.mode = 1)) = true := by decide +kernel

theorem wit_TimeCommandsTakeEffect_e3 :
    (let s : State := dev; decide (s.clock.mode = 0)) = true := by decide +kernel

theorem wit_TimeCommandsTakeEffect_e4 :
    (let s : State := { dev with clock := { dev.clock with mode := 1, state := 1 } }; decide (s.clock.mode = 1 ∧ s.clock.state ≠ 2)) = true := by decide +kernel

theorem wit_TimeCommandsTakeEffect_e5 :
    (let s : State := dev; decide (s.clock.mode = 0)) = true := by decide +kernel

theorem wit_TimeCommandsTakeEffect_e6 :
    (let s : State := { dev with clock := { dev.clock with gtc := 5 }, edges := [(63, some { time := 5, period := 10, core := 23, event := 63 })] }; let i : Fin 64 := 63; let e := ({ time := 5, period := 10, core := 23, event := 63 } : Edge); decide (s.edge i.val = some e ∧ e.time.toNat ≤ s.clock.gtc.toNat)) = true := by decide +kernel

theorem wit_ErrorEventsTakeEffect_0 :
    (let s : State := { dev with hbm := { dev.hbm with scrubPos := scrubWords - 1 } }; decide (s.clocked = true ∧ s.boot.needTrain = false ∧ tget false s.hbm.broken (chanAddr (s.hbm.scrubPos % 128) (32 * (s.hbm.scrubPos / 128)) / 32) = false)) = true := by decide +kernel

theorem wit_ErrorEventsTakeEffect_1 :
    (let s : State := dev; let c : Fin 128 := 127; decide (s.hbm.failed.getLsbD c.val = false ∧ s.clocked = true)) = true := by decide +kernel

theorem wit_ErrorEventsTakeEffect_2 :
    (let s : State := { dev with err := { dev.err with queues := [(3, [{ ErrRec.init with severity := 3 }])] } }; let i := 3; let r := ({ ErrRec.init with severity := 3 } : ErrRec); let rest := ([] : List ErrRec); decide (s.clocked = true ∧ s.itkan = true ∧ ([3, 2, 1, 0].find? fun i => !(tget [] s.err.queues i).isEmpty) = some i ∧ tget [] s.err.queues i = r :: rest)) = true := by decide +kernel

theorem wit_ErrorEventsTakeEffect_3 :
    (let s : State := dev; let cause : BitVec 4 := 3; decide (cause.toNat < 4 ∧ s.boot.fwStage ≠ 0 ∧ s.boot.fwStage ≠ 8 ∧ s.clocked = true)) = true := by decide +kernel

theorem wit_BootEventsTakeEffect_0 :
    (let s : State := State.reset; decide (s.clocked = true ∧ s.sec.sensed = false ∧ s.boot.fwStage = 0)) = true := by decide +kernel

theorem wit_BootEventsTakeEffect_1 :
    (let s : State := { State.reset with sec := { State.reset.sec with sensed := true }, boot := { Boot.init with fwStage := 2, fetching := true } }; let bs := image; decide (s.clocked = true ∧ s.boot.fwStage = 2 ∧ s.boot.startReady = false ∧ s.boot.fetching = true ∧ bootReason s (some bs) = none)) = true := by decide +kernel

theorem wit_BootEventsTakeEffect_2 :
    (let s : State := { State.reset with sec := { State.reset.sec with sensed := true }, boot := { Boot.init with fwStage := 2, fetching := true } }; let img := (none : Option (List Byte)); let r := 9; decide (s.clocked = true ∧ s.boot.fwStage = 2 ∧ s.boot.startReady = false ∧ s.boot.fetching = true ∧ bootReason s img = some r)) = true := by decide +kernel

theorem wit_BootEventsTakeEffect_3 :
    (let s : State := { State.reset with boot := { Boot.init with fwStage := 2, startReady := true } }; decide (s.clocked = true ∧ s.boot.startReady = true ∧ s.boot.fwStage = 2 ∧ s.boot.afterTrip = false)) = true := by decide +kernel

theorem wit_BootEventsTakeEffect_4 :
    (let s : State := { State.reset with boot := { Boot.init with fwStage := 4 } }; decide (s.clocked = true ∧ s.boot.fwStage = 4)) = true := by decide +kernel

theorem wit_BootEventsTakeEffect_5 :
    (let s : State := { State.reset with boot := { Boot.init with fwStage := 5 } }; decide (s.clocked = true ∧ s.boot.fwStage = 5)) = true := by decide +kernel

theorem wit_PowerEventsTakeEffect_0 :
    (let s : State := dev; decide (s.clocked = true ∧ s.itkan = true)) = true := by decide +kernel

theorem wit_PowerEventsTakeEffect_1 :
    (let s : State := { dev with power := { dev.power with avsWant := some 820 } }; let v := (820 : BitVec 16); decide (s.clocked = true ∧ s.power.avsWant = some v)) = true := by decide +kernel

theorem wit_PowerEventsTakeEffect_2 :
    (let s : State := { dev with power := { dev.power with avsWant := some 820 } }; let v := (820 : BitVec 16); decide (s.clocked = true ∧ s.power.avsWant = some v)) = true := by decide +kernel

theorem wit_PowerEventsTakeEffect_3 :
    (let s : State := dev; let temps := (List.replicate 41 50 : List (BitVec 8)); decide (s.clocked = true ∧ temps.length = 41)) = true := by decide +kernel

theorem wit_PowerEventsTakeEffect_4 :
    (let s : State := { dev with telem := { dev.telem with period := 100, dest := 0x10000, log2 := 4, vector := 127, snapSeq := 0xFFFFFFFF } }; decide (s.clocked = true ∧ s.telem.period ≠ 0 ∧ s.telem.due = 0 ∧ snoopsFor s (s.telem.dest + 2048 * (s.telem.snapSeq.toNat % 2 ^ s.telem.log2)) 2048 true = [] ∧ s.telem.vector = 127)) = true := by decide +kernel

theorem wit_PowerEventsTakeEffect_5 :
    (let s : State := dev; let i : Fin 41 := 32; let v : BitVec 8 := 95; decide (s.clocked = true ∧ i.val < 33 ∧ 95 ≤ v.toInt)) = true := by decide +kernel

theorem wit_PowerEventsTakeEffect_6 :
    (let s : State := dev; let i : Fin 41 := 33; let v : BitVec 8 := 95; decide (s.clocked = true ∧ 33 ≤ i.val ∧ 95 ≤ v.toInt)) = true := by decide +kernel

theorem wit_PowerEventsTakeEffect_7 :
    (let s : State := dev; let v : BitVec 8 := 105; decide (s.clocked = true ∧ 105 ≤ v.toInt)) = true := by decide +kernel

theorem wit_PowerEventsTakeEffect_8 :
    (let s : State := dev; let i : Fin 41 := 40; let v : BitVec 8 := 110; decide (s.clocked = true ∧ (i.val < 33 → 120 ≤ v.toInt) ∧ (33 ≤ i.val → 110 ≤ v.toInt))) = true := by decide +kernel

theorem wit_PowerEventsTakeEffect_9 :
    (let s : State := dev; let v : BitVec 8 := 85; decide (s.clocked = true ∧ 85 ≤ v.toInt)) = true := by decide +kernel

theorem wit_MailboxRulesHold_0 :
    (let n : ChanId := 0; let s : State := dev; decide (s.hostOpen = true ∧ s.ready = true ∧ (s.chan n.val).state = 1)) = true := by decide +kernel

theorem wit_MailboxRulesHold_1 :
    (let m : Msg := { req [] with session := 0 }; let n : ChanId := 0; let s : State := dev; decide (m.src = .chan n ∧ canDequeue s m.src = true ∧ refusal (begun m s) opOpen false m = none ∧ ((begun m s).chan n.val).session ≠ 0)) = true := by decide +kernel

theorem wit_FabricRulesHold_0 :
    (let port : PortId := 0; let id : BitVec 32 := 9; let ack : BitVec 16 := 1; let s : State := linked dev; decide (s.clocked = true ∧ (s.port port.val).state ≠ 1 ∧ (s.port port.val).inSession = true ∧ ((s.port port.val).peerSessionId ≠ some id ∨ (s.port port.val).ackOk ack = false))) = true := by decide +kernel

theorem wit_FabricRulesHold_2 :
    (let f : Frame := { frame with tag := 9 }; let k : Nat := 9; decide (f.tag.toNat = k)) = true := by decide +kernel

theorem wit_FabricRulesHold_3 :
    (let via : Via := .port 0; let f : Frame := { frame with tag := 10 }; let s : State := busyNet (.read 0 64); decide ((acceptFrame s via 5 f).2 = true ∧ opFor (acceptFrame s via 5 f).1 f = none)) = true := by decide +kernel

theorem wit_FabricRulesHold_4 :
    (let via : Via := .port 0; let f : Frame := { frame with tag := 10 }; let s : State := busyNet .write; decide ((acceptFrame s via 6 f).2 = true ∧ opFor (acceptFrame s via 6 f).1 f = none)) = true := by decide +kernel

theorem wit_FabricRulesHold_5 :
    (let m : Msg := { req [(32, 65535)] with src := .mctp .pcie 0, session := 0 }; let s : State := dev; let x := view m s; let c : BitVec 48 := fb x.p 32 16 ++ fb x.p 16 16 ++ fb x.p 0 16; decide (accepts { plainOp 0x0701 2 [(383, 48)] with mctp := true } m s = true ∧ x.mgmt = true ∧ coordOk c = false)) = true := by decide +kernel

theorem wit_FabricRulesHold_6 :
    (let m : Msg := { req [(0, 5)] with src := .mctp .pcie 0, session := 0 }; let s : State := linked dev; let u := begun m s; let x := view m s; let c : BitVec 48 := fb x.p 32 16 ++ fb x.p 16 16 ++ fb x.p 0 16; decide (accepts { plainOp 0x0701 2 [(383, 48)] with mctp := true } m s = true ∧ x.mgmt = true ∧ coordOk c = true ∧ u.fabric.coord = c)) = true := by decide +kernel

theorem wit_FabricRulesHold_7 :
    (let m : Msg := { req [(0, 7)] with src := .mctp .pcie 0, session := 0 }; let s : State := linked dev; let u := begun m s; let x := view m s; let c : BitVec 48 := fb x.p 32 16 ++ fb x.p 16 16 ++ fb x.p 0 16; decide (accepts { plainOp 0x0701 2 [(383, 48)] with mctp := true } m s = true ∧ x.mgmt = true ∧ coordOk c = true ∧ u.fabric.coord ≠ c ∧ u.coordSet = true ∧ ((List.range 18).any fun p => (u.port p).state != 0) = true)) = true := by decide +kernel

theorem wit_FabricRulesHold_8 :
    (let m : Msg := { req [(0, 7)] with src := .mctp .pcie 0, session := 0 }; let s : State := { dev with fabric := { dev.fabric with coord := 5, coordEver := true } }; let u := begun m s; let x := view m s; let c : BitVec 48 := fb x.p 32 16 ++ fb x.p 16 16 ++ fb x.p 0 16; decide (accepts { plainOp 0x0701 2 [(383, 48)] with mctp := true } m s = true ∧ x.mgmt = true ∧ coordOk c = true ∧ u.fabric.coord ≠ c ∧ u.coordSet = true ∧ u.fabric.coordEver = true ∧ ((List.range 18).all fun p => (u.port p).state == 0) = true)) = true := by decide +kernel

theorem wit_FabricRulesHold_9 :
    (let c : BitVec 12 := 4095; let k : Conn := conn1; let s : State := wired; decide (s.conn c.toNat = some k)) = true := by decide +kernel

theorem wit_FabricRulesHold_10 :
    (let c : BitVec 12 := 4095; let k : Conn := conn1; let s : State := wired; decide (s.conn c.toNat = some k)) = true := by decide +kernel

theorem wit_ErrorEventRulesHold_0 :
    (let s : State := { dev with err := { dev.err with queues := [(1, [ErrRec.init]), (2, [{ ErrRec.init with severity := 2 }])] } }; let i : Nat := 2; let r : ErrRec := ({ ErrRec.init with severity := 2 } : ErrRec); let rest : List ErrRec := ([] : List ErrRec); decide (s.clocked = true ∧ s.itkan = true ∧ i < 4 ∧ tget [] s.err.queues i = r :: rest ∧ tget [] s.err.queues 3 = [])) = true := by decide +kernel

theorem wit_ErrorEventRulesHold_2 :
    (let s : State := dev; let r : ErrRec := ErrRec.init; decide (s.clocked = true ∧ (tget [] s.err.queues r.severity.toNat).length < 64)) = true := by decide +kernel

theorem wit_ErrorEventRulesHold_payload :
    (decide (dev.clocked = true ∧ dev.started 23 3 9 = none)) = true := by decide +kernel

theorem wit_ErrorEventRulesHold_4 :
    (let s : State := { dev with err := { dev.err with queues := [(0, List.replicate 64 ErrRec.init)] } }; let r : ErrRec := ErrRec.init; decide (64 ≤ (tget [] s.err.queues r.severity.toNat).length)) = true := by decide +kernel

theorem wit_ErrorEventRulesHold_6 :
    (let s : State := dev; let r : ErrRec := ErrRec.init; let n := latchNo r.unitClass.toNat r.unitIndex.toNat; decide (tget none s.err.latches n = none)) = true := by decide +kernel

theorem wit_ErrorEventRulesHold_7 :
    (let s : State := { dev with err := { dev.err with latches := [(0, some { first := ErrRec.init, highest := 3, count := 255 })] } }; let r : ErrRec := ErrRec.init; let n := latchNo r.unitClass.toNat r.unitIndex.toNat; let l := ({ first := ErrRec.init, highest := 3, count := 255 } : Latch); decide (tget none s.err.latches n = some l)) = true := by decide +kernel

theorem wit_SettingRulesHold_0 :
    (let m : Msg := req [(16, 1)]; let s : State := { dev with mbx := { dev.mbx with sessions := [{ handle := 7, privilege := 2, rev := 0x0301, clientId := 1, leaseMs := 0 }] } }; let x := view m s; let c := x.f 4 0; decide (accepts (plainOp 0x0206 1 [(383, 17), (15, 10), (7, 5)]) m s = true ∧ c < 24 ∧ bit x.p 16 = true ∧ x.has capStrict = false)) = true := by decide +kernel

theorem wit_SettingRulesHold_1 :
    (let m : Msg := req [(0, 23), (8, 3), (16, 1)]; let s : State := dev; let x := view m s; let c := x.f 4 0; decide (accepts (plainOp 0x0206 1 [(383, 17), (15, 10), (7, 5)]) m s = true ∧ c < 24 ∧ (bit x.p 16 = true → x.has capStrict = true))) = true := by decide +kernel

theorem wit_SettingRulesHold_2 :
    (let m : Msg := req [(0, 23), (16, 255), (32, 5)]; let s : State := dev; let u := begun m s; let x := view m s; let c := x.f 4 0; decide (accepts (plainOp 0x0205 1 [(383, 64), (31, 24), (15, 9), (7, 5)]) m s = true ∧ c < 24 ∧ groupCounts u c (x.f 23 16) = false)) = true := by decide +kernel

theorem wit_SettingRulesHold_3 :
    (let m : Msg := req [(32, 0xBF800000)]; let s : State := dev; let x := view m s; let good := unitRange (fb x.p 32 32) && unitRange (fb x.p 64 32) && notNegative (fb x.p 96 32) && notNegative (fb x.p 128 32); decide (accepts { plainOp 0x0602 1 [(383, 160), (31, 4)] with cap := some capUpdate, high := true } m s = true ∧ good = false)) = true := by decide +kernel

theorem wit_SettingRulesHold_4 :
    (let m : Msg := req [(32, 0x3F800000)]; let s : State := dev; let u := begun m s; let x := view m s; let good := unitRange (fb x.p 32 32) && unitRange (fb x.p 64 32) && notNegative (fb x.p 96 32) && notNegative (fb x.p 128 32); decide (accepts { plainOp 0x0602 1 [(383, 160), (31, 4)] with cap := some capUpdate, high := true } m s = true ∧ good = true ∧ slotUsed u (x.f 3 0) = false ∧ u.behind (heldOf 0x0602 m 0) = false)) = true := by decide +kernel

theorem wit_SettingRulesHold_5 :
    (let m : Msg := req [(32, 0x3F800000)]; let s : State := withStarted (entryOf (cmd 0x70 [])) dev; let u := begun m s; let x := view m s; let good := unitRange (fb x.p 32 32) && unitRange (fb x.p 64 32) && notNegative (fb x.p 96 32) && notNegative (fb x.p 128 32); decide (accepts { plainOp 0x0602 1 [(383, 160), (31, 4)] with cap := some capUpdate, high := true } m s = true ∧ good = true ∧ slotUsed u (x.f 3 0) = true)) = true := by decide +kernel

theorem wit_SettingRulesHold_12 :
    (let core : CoreId := 0; let queue : QueueId := 0; let s : State := withCmd (cmd 0x51 [(8, 15), (16, 1)]) { dev with tarn := [(15, some index15)] }; let b : Block := blockOf (cmd 0x51 [(8, 15), (16, 1)]); let d : BitVec 512 := cmd 0x51 [(8, 15), (16, 1)]; let op : Nat := 0x51; let i : Instr := Instr.tarnInsert core queue; decide ((op, i) ∈ [(0x51, Instr.tarnInsert core queue), (0x52, .tarnDelete core queue [])] ∧ starts op core.val queue.val s anyTime b d = true ∧ (((entered core.val queue.val s b d).s.index (fld (cmdBody d) 11 8)).any fun k => decide (k.lists ≤ fld (cmdBody d) 39 16)) = true)) = true := by decide +kernel

end Sys2Proof.Tests
end

section
/-! PROOFS. The mailbox's rules: what ringing a doorbell does to the channels, and what OPEN_SESSION answers on a channel that a session owns. -/

namespace Sys2Proof.Machine

variable {s t u : State} {n : Nat}

/-- Only the mailbox channels may differ. -/
def onlyChans (s t : State) : Prop := t = { s with mbx := { s.mbx with chans := t.mbx.chans } }

theorem onlyChans_refl : onlyChans s s := rfl

theorem onlyChans_trans (h : onlyChans s t) (k : onlyChans t u) : onlyChans s u := by
  unfold onlyChans at *; rw [k, h]

theorem onlyChans_modChan {f : Channel → Channel} : onlyChans s (s.modChan n f) := rfl

@[simp] theorem modChan_ready {f : Channel → Channel} : (s.modChan n f).ready = s.ready := rfl

@[simp] theorem chan_modChan_same {f : Channel → Channel} : (s.modChan n f).chan n = f (s.chan n) := by simp [chan_modChan]

theorem chan_modChan_ne {k : Nat} {f : Channel → Channel} (hk : k ≠ n) : (s.modChan n f).chan k = s.chan k := by simp [chan_modChan, hk]

/-- What a channel becomes depends only on what the change makes of the channel as it is. -/
theorem modChan_congr {f g : Channel → Channel} (h : f (s.chan n) = g (s.chan n)) : s.modChan n f = s.modChan n g := by
  simp only [State.chan] at h
  simp only [State.modChan, tmod, h]

/-- What R56 makes of a READY channel that latched a doorbell value: the tail stands, the channel is FAULTED, or the tail takes the value. -/
def settledTail (c : Channel) : Channel :=
  if c.doorbell = c.reqTail then c
  else if 32768 < (c.doorbell - c.reqTail).toNat then { c with state := 2, reason := 2 }
  else if 4096 < (c.doorbell - c.reqHead).toNat then { c with state := 2, reason := 1 }
  else { c with reqTail := c.doorbell }

/-- A tail moves by zero entries exactly where the doorbell names the tail itself. -/
theorem tailMove_eq_zero_iff {c : Channel} : (c.doorbell - c.reqTail).toNat = 0 ↔ c.doorbell = c.reqTail := by
  bv_omega

/-- A channel whose doorbell names its tail is settled. -/
theorem settledTail_of_eq {c : Channel} (h : c.doorbell = c.reqTail) : settledTail c = c := if_pos h

/-- A doorbell's evaluation settles its channel's tail where channel and firmware are READY and the value is a new one, and else changes nothing. -/
theorem evalDoorbell_eq :
    evalDoorbell s n =
      if s.ready = true ∧ (s.chan n).state = 1 ∧ (s.chan n).doorbell ≠ (s.chan n).reqTail then s.modChan n settledTail else s := by
  by_cases hopen : s.ready = true ∧ (s.chan n).state = 1
  · by_cases hmove : (s.chan n).doorbell = (s.chan n).reqTail
    · simp [evalDoorbell, hmove]
    · simp only [evalDoorbell, hopen, hmove, tailMove_eq_zero_iff, beq_self_eq_true, Bool.and_self, if_true, if_false, ne_eq, not_false_eq_true, and_self]
      split
      case isTrue backward => exact modChan_congr (by simp only [settledTail, hmove, backward, if_true, if_false])
      case isFalse forward =>
        split
        case isTrue overrun => exact modChan_congr (by simp only [settledTail, hmove, forward, overrun, if_true, if_false])
        case isFalse fits => exact modChan_congr (by simp only [settledTail, hmove, forward, fits, if_false])
  · have closed : (s.ready && (s.chan n).state == 1) = false := by simpa using hopen
    rw [if_neg fun ⟨hready, hstate, _⟩ => hopen ⟨hready, hstate⟩]
    simp only [evalDoorbell, closed, Bool.false_eq_true, if_false]

theorem evalDoorbell_onlyChans : onlyChans s (evalDoorbell s n) := by
  rw [evalDoorbell_eq]
  split
  · exact onlyChans_modChan
  · exact onlyChans_refl

theorem evalDoorbell_chan_ne {k : Nat} (hk : k ≠ n) : (evalDoorbell s n).chan k = s.chan k := by
  rw [evalDoorbell_eq]
  split
  · exact chan_modChan_ne hk
  · rfl

/-- While channel and firmware are READY, the evaluation settles the channel's tail. -/
theorem evalDoorbell_chan_same (hr : s.ready = true) (hc : (s.chan n).state = 1) : (evalDoorbell s n).chan n = settledTail (s.chan n) := by
  by_cases hmove : (s.chan n).doorbell = (s.chan n).reqTail
  · rw [evalDoorbell_eq, if_neg fun ⟨_, _, hnew⟩ => hnew hmove, settledTail_of_eq hmove]
  · rw [evalDoorbell_eq, if_pos ⟨hr, hc, hmove⟩, chan_modChan_same]

theorem ringDoorbell_onlyChans {v : BitVec 32} : onlyChans s (ringDoorbell s n v) :=
  onlyChans_trans onlyChans_modChan evalDoorbell_onlyChans

theorem ringDoorbell_chan_ne {v : BitVec 32} {k : Nat} (hk : k ≠ n) : (ringDoorbell s n v).chan k = s.chan k :=
  (evalDoorbell_chan_ne hk).trans (chan_modChan_ne hk)

theorem ringDoorbell_chan_same {v : BitVec 32} (hr : s.ready = true) (hc : (s.chan n).state = 1) :
    (ringDoorbell s n v).chan n = settledTail { s.chan n with doorbell := fb v 0 16 } := by
  have latched : (s.modChan n fun c => { c with doorbell := fb v 0 16 }).chan n = { s.chan n with doorbell := fb v 0 16 } := chan_modChan_same
  rw [ringDoorbell, evalDoorbell_chan_same (modChan_ready.trans hr) ((congrArg Channel.state latched).trans hc), latched]

/-- MBX_DOORBELL rings its channel's doorbell while the host link carries it. -/
theorem exec_mbxDoorbell {c : ChanId} {v : BitVec 32} (h : s.hostOpen = true) : exec (.mbxDoorbell c v) s = .next (ringDoorbell s c.val v) := by
  change byHost s _ = _
  rw [byHost, if_pos h]

/-- The handler of a message from a channel sees that channel's number. -/
theorem view_chan {m : Msg} {c : ChanId} (h : m.src = .chan c) : (view m s).chan = c.val := by
  simp only [view, ctxOf, h]
  split <;> rfl

/-- R78: a channel that a session owns opens no other session. -/
theorem openSession_owned {x : Ctx} {want : BitVec 32} (h : (s.chan x.chan).session ≠ 0) : openSession s x want = (s, 0, .st 0x203) := by
  simp only [openSession, bne_iff_ne, ne_eq, h, not_false_eq_true, if_true]

/-- An OPEN_SESSION that begins and is not refused answers what opening the session gives. -/
theorem exec_openSession {m : Msg} {want : BitVec 32} (hd : canDequeue s m.src = true) (hr : refusal (begun m s) opOpen false m = none) :
    exec (.openSession m want) s =
      let r := openSession (begun m s) (view m s) want
      .next (finishMsg r.1 m 0x0101 r.2.1 r.2.2) := by
  change execOpenSession m want s = _
  rw [begun] at hr
  simp only [execOpenSession, hd, hr, if_true, begun, view]

/-- Settles O57: a doorbell through the channel that its evaluation leaves (R56), a second OPEN_SESSION through the owner that its handler finds (R78). -/
theorem mailboxRulesHold : Obligations.MailboxRulesHold := by
  refine ⟨fun n v s hopen hready hstate => ?_, fun m n want s hsrc hd hr howned => ?_⟩
  · exact ⟨ringDoorbell s n.val v, exec_mbxDoorbell hopen, ringDoorbell_onlyChans, fun _ => ringDoorbell_chan_ne, ringDoorbell_chan_same hready hstate⟩
  · have refused : openSession (begun m s) (view m s) want = (begun m s, 0, .st 0x203) :=
      openSession_owned (by rwa [view_chan hsrc])
    rw [exec_openSession hd hr, refused]

end Sys2Proof.Machine
end

section
/-! PROOFS. Rules of single settings: the conflict policy (R265), an arrival counter and what arrives after it is set (R290 to R292), hyperparameters (R348, R350), and Tarn writes that name what is not there (R387). -/

namespace Sys2Proof.Machine

variable {s : State} {m : Msg} {c i : Nat}

/-! What a core reads after its configuration or one of its counters changed. -/

theorem cfg_modCfg_same {f : CoreCfg → CoreCfg} : ((s.modCfg c f).core c).cfg = f (s.core c).cfg := by
  simp only [State.modCfg, core_modCore, if_true]

/-- A changed arrival counter reads as the change makes it: the WAITs that its change settles keep the counters. -/
theorem counter_modCounter_same {f : Counter → Counter} :
    tget Counter.init ((s.modCore c fun k => k.modCounter i f).core c).cfg.counters i = f (tget Counter.init (s.core c).cfg.counters i) := by
  simp only [core_modCore, if_true, Core.modCounter, Core.settle, Core.mapStarted, tget_tmod_same]

theorem counter_arrive_same {n : Nat} {last : Bool} :
    tget Counter.init ((s.arrive c i n last).core c).cfg.counters i = countArrival (tget Counter.init (s.core c).cfg.counters i) n last :=
  counter_modCounter_same

theorem satAdd32_fits {v : BitVec 32} {n : Nat} (h : v.toNat + n < 2 ^ 32) : satAdd32 v n = (BitVec.ofNat 32 (v.toNat + n), false) := by
  rw [satAdd32, if_pos (by omega)]

/-- R290: an arrival that the counter can hold adds its bytes, or one at its last byte, and leaves OVERFLOW as it is. -/
theorem countArrival_fits {k : Counter} {n : Nat} {last : Bool}
    (h : k.value.toNat + (if k.messages then (if last then 1 else 0) else n) < 2 ^ 32) :
    countArrival k n last = { k with value := BitVec.ofNat 32 (k.value.toNat + (if k.messages then (if last then 1 else 0) else n)) } := by
  simp only [countArrival, satAdd32_fits h, Bool.or_false]

theorem toNat_fb_word {n lo : Nat} {x : BitVec n} : (fb x lo 32).toNat = fld x (lo + 31) lo := by
  simp only [fb, fld, BitVec.extractLsb'_toNat, show lo + 31 + 1 - lo = 32 by omega]

/-! SET_CONFLICT_POLICY. -/

section
variable (h : accepts (plainOp 0x0206 1 [(383, 17), (15, 10), (7, 5)]) m s = true) (hc : (view m s).f 4 0 < 24)
include h hc

/-- R265: the strict policy needs its capability. -/
theorem exec_setConflictPolicy_refused (hstrict : bit (view m s).p 16 = true) (hcap : (view m s).has capStrict = false) :
    exec (.setConflictPolicy m) s = replied m 0x0206 (begun m s) (.st 0x201) := by
  change execSetConflictPolicy m s = _
  rw [execSetConflictPolicy, serve_accepted h]
  simp only [coreOk, hc, hstrict, hcap, decide_true, Bool.not_true, Bool.not_false, Bool.and_self, Bool.false_eq_true, if_true, if_false]
  rfl

theorem exec_setConflictPolicy_taken (hcap : bit (view m s).p 16 = true → (view m s).has capStrict = true) :
    exec (.setConflictPolicy m) s =
      replied m 0x0206 ((begun m s).modCfg ((view m s).f 4 0) fun k => { k with strict := tset false k.strict ((view m s).f 9 8) (bit (view m s).p 16) }) .ok := by
  have permitted : (bit (view m s).p 16 && !(view m s).has capStrict) = false := by
    rw [Bool.and_eq_false_imp]
    exact fun hstrict => by rw [hcap hstrict, Bool.not_true]
  change execSetConflictPolicy m s = _
  rw [execSetConflictPolicy, serve_accepted h]
  simp only [coreOk, hc, permitted, decide_true, Bool.not_true, Bool.false_eq_true, if_false]
  rfl

end

/-! SET_COUNTER. -/

theorem exec_setCounter_taken (h : accepts (plainOp 0x0205 1 [(383, 64), (31, 24), (15, 9), (7, 5)]) m s = true) (hc : (view m s).f 4 0 < 24)
    (hfree : groupCounts (begun m s) ((view m s).f 4 0) ((view m s).f 23 16) = false) :
    exec (.setCounter m) s =
      replied m 0x0205
        ((begun m s).modCore ((view m s).f 4 0) fun k => k.modCounter ((view m s).f 23 16) fun _ =>
          { value := fb (view m s).p 32 32, overflow := false, messages := bit (view m s).p 8 }) .ok := by
  change execSetCounter m s = _
  rw [execSetCounter, serve_accepted h]
  simp only [coreOk, hc, hfree, decide_true, Bool.not_true, Bool.false_eq_true, if_false]
  rfl

/-! SET_HYPERPARAMETERS. -/

/-- The four hyperparameters of a payload lie in their ranges (R348). -/
def hyperOk (p : BitVec 384) : Bool :=
  unitRange (fb p 32 32) && unitRange (fb p 64 32) && notNegative (fb p 96 32) && notNegative (fb p 128 32)

theorem optNow_free {x : Ctx} {op : BitVec 16} (hslot : slotUsed s (x.f 3 0) = false) (hfirst : s.behind (heldOf op.toNat x.m 0) = false) :
    optNow s x op = .done (applyOpt s op x.p) .ok := by
  simp only [optNow, hslot, hfirst, Bool.or_self, Bool.false_eq_true, if_false]

theorem optNow_held {x : Ctx} {op : BitVec 16} (h : slotUsed s (x.f 3 0) = true ∨ s.behind (heldOf op.toNat x.m 0) = true) :
    optNow s x op = .hold s (heldOf op.toNat x.m 0) := by
  rw [optNow, if_pos (Bool.or_eq_true_iff.mpr h)]

/-- What SET_HYPERPARAMETERS makes of the slot that its payload names. -/
theorem optSlot_applyHyper {p : BitVec 384} : (applyOpt s 0x0602 p).optSlot (fld p 3 0) = hyperSlot p (s.optSlot (fld p 3 0)) :=
  tget_tmod_same

/-- R348: a sum in FP32 is rounded once. -/
theorem add32_plain {x y : FV} : (add32 .plain x y).1 = (roundTo fp32 .plain (addX .rne x y).1 false).val := rfl

/-- R348: a slot takes the payload's hyperparameters, and 1 - BETA of each coefficient rounded once. -/
theorem hyperSlot_fields {p : BitVec 384} {o : OptSlot} :
    let n := hyperSlot p o
    n.beta1 = fb p 32 32 ∧ n.beta2 = fb p 64 32 ∧ n.eps = fb p 96 32 ∧ n.decay = fb p 128 32
      ∧ n.omb1 = b32 (roundTo fp32 .plain (addX .rne one (negX (v32 (fb p 32 32)))).1 false).val
      ∧ n.omb2 = b32 (roundTo fp32 .plain (addX .rne one (negX (v32 (fb p 64 32)))).1 false).val :=
  ⟨rfl, rfl, rfl, rfl, congrArg b32 add32_plain, congrArg b32 add32_plain⟩

section
variable (h : accepts { plainOp 0x0602 1 [(383, 160), (31, 4)] with cap := some capUpdate, high := true } m s = true)
include h

theorem exec_setHyperparameters_refused (hbad : hyperOk (view m s).p = false) :
    exec (.setHyperparameters m) s = replied m 0x0602 (begun m s) (.st 0x201) := by
  change execSetHyperparameters m s = _
  rw [hyperOk] at hbad
  rw [execSetHyperparameters, serve_accepted h]
  simp only [hbad, Bool.false_eq_true, if_false]
  rfl

theorem exec_setHyperparameters_good (hgood : hyperOk (view m s).p = true) :
    exec (.setHyperparameters m) s = .next (settleMsg m 0x0602 m.session (optNow (begun m s) (view m s) 0x0602)) := by
  change execSetHyperparameters m s = _
  rw [hyperOk] at hgood
  rw [execSetHyperparameters, serve_accepted h]
  simp only [hgood, if_true]
  rfl

theorem exec_setHyperparameters_taken (hgood : hyperOk (view m s).p = true) (hslot : slotUsed (begun m s) ((view m s).f 3 0) = false)
    (hfirst : (begun m s).behind (heldOf 0x0602 m 0) = false) :
    exec (.setHyperparameters m) s = replied m 0x0602 (applyOpt (begun m s) 0x0602 (view m s).p) .ok := by
  rw [exec_setHyperparameters_good h hgood, optNow_free hslot (by rwa [view_m])]
  rfl

/-- R350: while its slot is in use, or an earlier message for it waits, the message stays in progress. -/
theorem exec_setHyperparameters_held (hgood : hyperOk (view m s).p = true)
    (hwait : slotUsed (begun m s) ((view m s).f 3 0) = true ∨ (begun m s).behind (heldOf 0x0602 m 0) = true) :
    exec (.setHyperparameters m) s = kept m (begun m s) (heldOf 0x0602 m 0) := by
  rw [exec_setHyperparameters_good h hgood, optNow_held (by rwa [view_m]), view_m]
  rfl

end

/-! Commands that start, and how a failing one ends. -/

section
variable {q op : Nat} {b : Block} {d : BitVec 512} {r : Run} {st detail : Nat}

theorem sameBytes_trans {t u : State} (h : sameBytes s t) (k : sameBytes t u) : sameBytes s u :=
  ⟨k.1.trans h.1, fun c => (k.2 c).trans (h.2 c)⟩

theorem sameBytes_beginCmd {e : Started} : sameBytes s (beginCmd s c q b e) := ⟨rfl, fun _ => modQueue_spad⟩

theorem sameBytes_store : sameBytes r.s r.store := ⟨rfl, fun _ => modStarted_spad⟩

/-- A command that starts joins its queue's started commands. -/
theorem started_beginCmd {e : Started} : e ∈ ((beginCmd s c q b e).queue c q).started := by
  simp [beginCmd, queue_modQueue]

/-- Stored progress stands in the queue where the command has started. -/
theorem store_mem {e : Started} (h : e ∈ (r.s.queue r.core r.queue).started) (hid : e.id = r.e.id) :
    r.e ∈ (r.store.queue r.core r.queue).started := by
  simp only [Run.store, State.modStarted, queue_modQueue, and_self, if_true, List.mem_map]
  exact ⟨e, h, if_pos hid⟩

/-- R108: a command that starts is attempted on the state that its start leaves, and its progress is stored. -/
theorem startCmd_starts {accept : State → BitVec 512 → Bool} {attempt : Run → Run} (h : starts op c q s accept b d = true) :
    startCmd [op] c q s accept attempt = stored (attempt (entered c q s b d)) := by
  simp only [starts, Bool.and_eq_true, decide_eq_true_eq, beq_iff_eq] at h
  obtain ⟨⟨⟨⟨hnext, hop⟩, hopen⟩, hwait⟩, haccept⟩ := h
  simp only [startCmd, hnext, hop, hopen, hwait, haccept, List.contains_cons, beq_self_eq_true, Bool.true_or, Bool.and_self, if_true]
  rfl

theorem fault_id {e : Started} : (e.fault st detail).id = e.id := by
  unfold Started.fault
  split <;> rfl

theorem failWith_id : (r.failWith st detail).e.id = r.e.id := fault_id

/-- R610: a ranked failure gives a command without one its status. -/
theorem failWith_status (hok : r.e.status = 0) (hrank : rankOf st < rankOf 0) : (r.failWith st detail).e.status = BitVec.ofNat 16 st := by
  have taken : r.e.fault st detail = { r.e with status := BitVec.ofNat 16 st, detail := BitVec.ofNat 32 detail } :=
    if_pos (by rwa [hok])
  change (r.e.fault st detail).status = _
  rw [taken]

end

/-! Tarn writes (R387). -/

/-- A Tarn write names what is not there: its index was not there at admission or is not there now, or its list is none of the index's. -/
def Run.lacksTarget (r : Run) : Prop :=
  r.e.absent = true ∨ r.s.index (r.field 11 8) = none ∨ ∃ k, r.s.index (r.field 11 8) = some k ∧ k.lists ≤ r.field 39 16

section
variable {r : Run}

/-- R387: such a write ends with BAD_FIELD and performs nothing. -/
theorem tarnWrite_lacking {f : Index → Nat → Run} (h : r.lacksTarget) : r.tarnWrite true f = r.failWith 0x201 0 := by
  cases hindex : r.s.index (r.field 11 8) with
  | none => simp only [Run.tarnWrite, hindex]
  | some k =>
    have refused : (r.e.absent || (true && decide (k.lists ≤ r.field 39 16))) = true := by
      rcases h with habsent | hnone | ⟨j, hsome, hlist⟩
      · rw [habsent, Bool.true_or]
      · rw [hindex] at hnone
        contradiction
      · obtain rfl : k = j := Option.some.inj (hindex.symm.trans hsome)
        rw [decide_eq_true hlist, Bool.and_self, Bool.or_true]
    simp only [Run.tarnWrite, hindex, refused, if_true]

/-- The running command waits for nothing while it is attempted. -/
def Run.unwaiting (r : Run) : Run := { r with e := { r.e with wait := .none } }

theorem attemptInsert_lacking (h : r.lacksTarget) : attemptInsert r = r.unwaiting.failWith 0x201 0 := tarnWrite_lacking h

theorem attemptDelete_lacking (h : r.lacksTarget) : attemptDelete r = r.unwaiting.failWith 0x201 0 := tarnWrite_lacking h

end

/-- A command that fails with BAD_FIELD right at its start stores no byte, leaves Tarn alone, and stands in its queue as done with that status. -/
theorem store_badField {q : Nat} {b : Block} {d : BitVec 512} {r : Run} (hs : r.s = (entered c q s b d).s) (hcore : r.core = c) (hqueue : r.queue = q)
    (hid : r.e.id = (s.queue c q).nextId) (hok : r.e.status = 0) :
    let t := (r.failWith 0x201 0).store
    sameBytes s t ∧ t.tarn = s.tarn
      ∧ ∃ e, e ∈ (t.queue c q).started ∧ e.id = (s.queue c q).nextId ∧ e.done = true ∧ e.status = 0x201 := by
  subst hcore hqueue
  have joined : (entered r.core r.queue s b d).e ∈ (r.s.queue r.core r.queue).started := by
    rw [hs]
    exact started_beginCmd
  refine ⟨sameBytes_trans ?_ sameBytes_store, ?_, (r.failWith 0x201 0).e, ?_, failWith_id.trans hid, rfl, failWith_status hok (by decide)⟩
  · change sameBytes s r.s
    rw [hs]
    exact sameBytes_beginCmd
  · change r.s.tarn = s.tarn
    rw [hs]
    rfl
  · exact store_mem (r := r.failWith 0x201 0) joined (hid.symm.trans failWith_id.symm)

/-- TARN_INSERT and TARN_DELETE of what is not there begin, fail and are stored alike. -/
theorem exec_tarnWrite_lacking {core : CoreId} {queue : QueueId} {b : Block} {d : BitVec 512} {op : Nat} {instr : Instr} {first : List Nat}
    (hinstr : (op, instr) ∈ [(0x51, Instr.tarnInsert core queue), (0x52, .tarnDelete core queue first)])
    (hstart : starts op core.val queue.val s anyTime b d = true) (hlack : (entered core.val queue.val s b d).lacksTarget) :
    ∃ r : Run, exec instr s = stored (r.failWith 0x201 0) ∧ r.s = (entered core.val queue.val s b d).s ∧ r.core = core.val ∧ r.queue = queue.val
      ∧ r.e.id = (s.queue core.val queue.val).nextId ∧ r.e.status = 0 := by
  simp only [List.mem_cons, List.not_mem_nil, or_false, Prod.mk.injEq] at hinstr
  rcases hinstr with ⟨rfl, rfl⟩ | ⟨rfl, rfl⟩
  · refine ⟨(entered core.val queue.val s b d).unwaiting, ?_, rfl, rfl, rfl, rfl, rfl⟩
    change execTarnInsert core queue s = _
    rw [execTarnInsert, startCmd_starts hstart, attemptInsert_lacking hlack]
  · refine ⟨((entered core.val queue.val s b d).doing first).unwaiting, ?_, rfl, rfl, rfl, rfl, rfl⟩
    have lacking : ((entered core.val queue.val s b d).doing first).lacksTarget := hlack
    change execTarnDelete core queue first s = _
    rw [execTarnDelete, startCmd_starts hstart, attemptDelete_lacking lacking]

/-! What each message makes of its setting. -/

theorem setConflictPolicy_sets_queue (h : accepts (plainOp 0x0206 1 [(383, 17), (15, 10), (7, 5)]) m s = true) (hc : (view m s).f 4 0 < 24)
    (hcap : bit (view m s).p 16 = true → (view m s).has capStrict = true) :
    ∃ t, exec (.setConflictPolicy m) s = replied m 0x0206 t .ok
      ∧ tget false (t.core ((view m s).f 4 0)).cfg.strict ((view m s).f 9 8) = bit (view m s).p 16
      ∧ ∀ q, q ≠ (view m s).f 9 8 →
          tget false (t.core ((view m s).f 4 0)).cfg.strict q = tget false ((begun m s).core ((view m s).f 4 0)).cfg.strict q := by
  refine ⟨_, exec_setConflictPolicy_taken h hc hcap, ?_, fun q hq => ?_⟩
  · rw [cfg_modCfg_same]
    exact tget_tset_same
  · rw [cfg_modCfg_same]
    exact tget_tset_ne hq

/-- R291: an arrival after SET_COUNTER is counted against the new value. -/
theorem setCounter_counts_from_value (h : accepts (plainOp 0x0205 1 [(383, 64), (31, 24), (15, 9), (7, 5)]) m s = true) (hc : (view m s).f 4 0 < 24)
    (hfree : groupCounts (begun m s) ((view m s).f 4 0) ((view m s).f 23 16) = false) :
    ∃ t, exec (.setCounter m) s = replied m 0x0205 t .ok
      ∧ tget Counter.init (t.core ((view m s).f 4 0)).cfg.counters ((view m s).f 23 16)
          = { value := fb (view m s).p 32 32, overflow := false, messages := bit (view m s).p 8 }
      ∧ ∀ n last, let k := if bit (view m s).p 8 then (if last then 1 else 0) else n
          (view m s).f 63 32 + k < 2 ^ 32 →
          tget Counter.init ((t.arrive ((view m s).f 4 0) ((view m s).f 23 16) n last).core ((view m s).f 4 0)).cfg.counters ((view m s).f 23 16)
            = { value := BitVec.ofNat 32 ((view m s).f 63 32 + k), overflow := false, messages := bit (view m s).p 8 } := by
  have word : (view m s).f 63 32 = (fb (view m s).p 32 32).toNat := toNat_fb_word.symm
  refine ⟨_, exec_setCounter_taken h hc hfree, counter_modCounter_same, fun n last => ?_⟩
  intro k hfits
  rw [word] at hfits ⊢
  rw [counter_arrive_same, counter_modCounter_same]
  exact countArrival_fits hfits

/-- Settles O60: each message through what its handler makes of the setting (R265, R291, R348, R350), the Tarn writes through the failure that both end with (R387). -/
theorem settingRulesHold : Obligations.SettingRulesHold := by
  refine ⟨fun m s => ⟨fun h hc => ⟨exec_setConflictPolicy_refused h hc, setConflictPolicy_sets_queue h hc⟩, setCounter_counts_from_value, fun h => ?_⟩,
    fun core queue s b d op instr first hinstr hstart hlack => ?_⟩
  · exact ⟨exec_setHyperparameters_refused h, exec_setHyperparameters_taken h, exec_setHyperparameters_held h,
      fun v => optSlot_applyHyper (s := v) ▸ hyperSlot_fields⟩
  · obtain ⟨r, hexec, hs, hcore, hqueue, hid, hok⟩ := exec_tarnWrite_lacking hinstr hstart hlack
    obtain ⟨hbytes, htarn, e, hmem, hfields⟩ := store_badField hs hcore hqueue hid hok
    exact ⟨_, e, hexec, hbytes, htarn, hmem, hfields⟩

end Sys2Proof.Machine
end

section
/-! PROOFS. The fabric's rules: a RETRAIN_SYNC that ends the session (R464, R467), late responses (R470), coordinates that are set once (R483), and the rates of a connection (R570). -/

namespace Sys2Proof.Machine

variable {s t : State} {p c : Nat}

/-! RETRAIN_SYNC. -/

theorem port_of_fabric (h : t.fabric = s.fabric) : t.port p = s.port p := by
  rw [State.port, State.port, h]

theorem port_modPort_same {f : Port → Port} : (s.modPort p f).port p = f (s.port p) := by
  rw [port_modPort, if_pos rfl]

/-- R467: a port whose session ended is in none. -/
theorem endSession_inSession : ((s.endSession p).port p).inSession = false := by
  rw [State.endSession]
  split
  case isTrue _ => rw [port_of_fabric postErr_fabric, port_modPort_same]
  case isFalse hnone => exact Bool.eq_false_of_not_eq_true hnone

theorem enterTraining_state : ((s.enterTraining p).port p).state = 1 := by
  rw [State.enterTraining, port_modPort_same]

theorem enterTraining_inSession : ((s.enterTraining p).port p).inSession = (s.port p).inSession := by
  rw [State.enterTraining, port_modPort_same]

/-- R464: outside TRAINING, a RETRAIN_SYNC of another session, or one whose ACK lies outside the unacknowledged frames, ends the session. -/
theorem exec_retrainSync_foreign {port : PortId} {id : BitVec 32} {l : LinkFields} (hclock : s.clocked = true) (htrained : (s.port port.val).state ≠ 1)
    (hsession : (s.port port.val).inSession = true) (hforeign : (s.port port.val).peerSessionId ≠ some id ∨ (s.port port.val).ackOk l.ack = false) :
    exec (.retrainSync port id l) s = .next ((s.endSession port.val).enterTraining port.val) := by
  change execRetrainSync port id l s = _
  simp only [execRetrainSync, hclock, htrained, hsession, Bool.not_true, Bool.false_eq_true, if_false, if_true]
  exact if_pos hforeign

/-! Late responses. -/

/-- R470: the tag of an operation that ended takes the next generation. -/
theorem tagGen_endOp : (s.endOp c).tagGen c = s.tagGen c + 1 := by
  rw [State.tagGen, State.endOp, tget_tmod_same, State.tagGen]

/-- R470: a response under the tag of an operation that ended belongs to no operation. -/
theorem opFor_endOp {f : Frame} (h : f.tag.toNat = c) : opFor (s.endOp c) f = none := by
  simp only [opFor, State.endOp, h, List.find?_eq_none, List.mem_filter]
  rintro o ⟨_, hother⟩ hmatch
  rw [Bool.and_eq_true, beq_iff_eq] at hmatch
  exact bne_iff_ne.mp hother hmatch.1

section
variable {via : Via} {f : Frame}

theorem exec_readData_late (ha : (acceptFrame s via 5 f).2 = true) (hlate : opFor (acceptFrame s via 5 f).1 f = none) :
    exec (.readData via f) s = .next (staleResponse (acceptFrame s via 5 f).1) := by
  change execReadData via f s = _
  simp only [execReadData, ha, hlate, Bool.not_true, Bool.false_eq_true, if_false]

theorem exec_writeAck_late (ha : (acceptFrame s via 6 f).2 = true) (hlate : opFor (acceptFrame s via 6 f).1 f = none) :
    exec (.writeAck via f) s = .next (staleResponse (acceptFrame s via 6 f).1) := by
  change execWriteAck via f s = _
  simp only [execWriteAck, ha, hlate, Bool.not_true, Bool.false_eq_true, if_false]

end

/-! The coordinates and the ports' states, and what leaves both alone. -/

/-- What R483 speaks of: the coordinates, and the state of each port. -/
def siting (s : State) : BitVec 48 × (Nat → BitVec 4) := (s.fabric.coord, fun p => (s.port p).state)

theorem siting_of_fabric (h : t.fabric = s.fabric) : siting t = siting s := by
  simp only [siting, State.port, h]

theorem coord_of_siting {x : BitVec 48} {states : Nat → BitVec 4} (h : siting t = (x, states)) : t.fabric.coord = x := congrArg Prod.fst h

theorem state_of_siting {x : BitVec 48} {states : Nat → BitVec 4} (h : siting t = (x, states)) : (t.port p).state = states p :=
  congrFun (congrArg Prod.snd h) p

theorem siting_eth {e : Eth} : siting { s with eth := e } = siting s := rfl

theorem siting_modPort {f : Port → Port} (h : ∀ x, (f x).state = x.state) : siting (s.modPort p f) = siting s := by
  refine Prod.ext rfl (funext fun k => ?_)
  change ((s.modPort p f).port k).state = (s.port k).state
  rw [port_modPort]
  split
  case isTrue hk => rw [h, hk]
  case isFalse _ => rfl

/-- A change of some ports that keeps their states, over a list of ports. -/
theorem siting_foldl_modPort {test : State → Nat → Bool} {f : Port → Port} (h : ∀ x, (f x).state = x.state) (l : List Nat) :
    siting (l.foldl (fun s p => if test s p then s.modPort p f else s) s) = siting s := by
  refine foldl_keeps (fun s p => ?_) l s
  split
  · exact siting_modPort h
  · rfl

theorem siting_withdraw {tags : List Nat} : siting (s.withdraw tags) = siting s := by
  simp only [State.withdraw]
  rw [siting_eth]
  refine siting_foldl_modPort ?_ _
  exact fun _ => rfl

theorem siting_countFailed {v : Via} {n : Nat} : siting (s.countFailed v n) = siting s := by
  cases v with
  | port q => exact siting_modPort fun _ => rfl
  | conn k => exact siting_of_fabric modConn_fabric

theorem siting_cutEndpoint {i : Nat} {st : BitVec 16} : siting (s.cutEndpoint i st) = siting s := by
  simp only [State.cutEndpoint]
  rw [siting_of_fabric wakeEndpoint_fabric, siting_eth]
  refine (siting_foldl_modPort ?_ _).trans (siting_withdraw.trans (foldl_keeps (fun s o => ?_) _ s))
  · exact fun _ => rfl
  have counted : siting ((s.endOp o.tag).countFailed o.via (if o.transmitted then 1 else 0)) = siting s :=
    siting_countFailed.trans (siting_of_fabric endOp_fabric)
  cases o.owner with
  | cmd c q id => exact (siting_of_fabric modStarted_fabric).trans counted
  | firmware => exact counted

theorem siting_judgeEndpoint {i : Nat} : siting (s.judgeEndpoint i) = siting s := by
  rw [State.judgeEndpoint]
  split
  · rfl
  · dsimp only
    split
    · rfl
    · split
      · rfl
      · exact (siting_of_fabric postErr_fabric).trans siting_cutEndpoint

theorem siting_judgeAll : siting s.judgeAll = siting s := foldl_keeps (fun _ _ => siting_judgeEndpoint) _ s

theorem siting_drainPort {n : Nat} : siting (drainPort n s p) = siting s := by
  induction n generalizing s with
  | zero => rfl
  | succ n ih =>
    rw [drainPort]
    split
    · rfl
    · exact ih.trans (siting_modPort fun _ => rfl)

theorem siting_sendFrame {v : Via} {ty : Nat} {f : Frame} : siting (s.sendFrame v ty f) = siting s := by
  cases v with
  | port q => exact siting_drainPort.trans (siting_modPort fun _ => rfl)
  | conn k => exact siting_of_fabric (drainC_fabric.trans modConn_fabric)

theorem siting_sendCredit {q slot : Nat} {gen : BitVec 16} : siting (s.sendCredit q slot gen) = siting s := by
  simp only [State.sendCredit]
  split
  · rfl
  · split
    · rfl
    · split
      · split
        · rfl
        · exact siting_sendFrame
      · rfl

theorem siting_flushCredits : siting s.flushCredits = siting s := by
  rw [State.flushCredits]
  exact (siting_of_fabric wakeEndpoint_fabric).trans (foldl_keeps (fun _ _ => siting_sendCredit) _ _)

/-- The checks settle a port in UP, MISWIRED or QUARANTINE alone: a DISABLED one stays. -/
theorem settlePort_disabled (h : (s.port p).state = 0) : s.settlePort p = s := by
  simp [State.settlePort, h]

theorem siting_settlePorts (h : ∀ p, p < 18 → (s.port p).state = 0) : siting s.settlePorts = siting s := by
  have still : (List.range 18).foldl State.settlePort s = s :=
    List.foldlRecOn (motive := fun t => t = s) _ _ rfl fun t ht q hq => by
      rw [ht, settlePort_disabled (h q (List.mem_range.mp hq))]
  rw [State.settlePorts, siting_flushCredits, still]

/-- While every port is DISABLED, judging the peers again changes neither the coordinates nor a port's state. -/
theorem siting_rejudge (h : ∀ p, p < 18 → (s.port p).state = 0) : siting s.rejudge = siting s := by
  have judged (q : Nat) : (s.judgeAll.port q).state = (s.port q).state := state_of_siting siting_judgeAll
  rw [State.rejudge, siting_settlePorts fun q hq => (judged q).trans (h q hq), siting_judgeAll]

/-! SET_COORDINATES. -/

/-- The coordinates that a payload names: pod, board and slot. -/
def payloadCoord (x : BitVec 384) : BitVec 48 := fb x 32 16 ++ fb x 16 16 ++ fb x 0 16

/-- Every port is DISABLED. -/
def allDisabled (s : State) : Bool := (List.range 18).all fun p => (s.port p).state == 0

theorem allDisabled_iff : allDisabled s = true ↔ ∀ p, p < 18 → (s.port p).state = 0 := by
  simp [allDisabled]

/-- The device takes coordinates, tells its partners and judges its peers again; its ports begin to train where it never had any (R453, R449). -/
def takeCoord (s : State) (x : BitVec 48) : State :=
  let t := State.helloAll { s with fabric := { s.fabric with coord := x, coordEver := true } }
  (if !s.fabric.coordEver then startTraining t else t).rejudge

/-- R483: what SET_COORDINATES answers on the management path. -/
def coordAnswer (s : State) (x : BitVec 48) : Answer :=
  if !coordOk x then refuse s 0x201
  else if s.fabric.coord = x then .done s .ok
  else if s.coordSet && !allDisabled s then refuse s 0x203
  else .done (takeCoord s x) .ok

section
variable {m : Msg} (h : accepts { plainOp 0x0701 2 [(383, 48)] with mctp := true } m s = true) (hm : (view m s).mgmt = true)
include h hm

theorem exec_setCoordinates :
    exec (.setCoordinates m) s = .next (settleMsg m 0x0701 m.session (coordAnswer (begun m s) (payloadCoord (view m s).p))) := by
  change execSetCoordinates m s = _
  rw [execSetCoordinates, serve_accepted h]
  simp only [hm, Bool.not_true, Bool.false_eq_true, if_false]
  rfl

theorem exec_setCoordinates_bad (hbad : coordOk (payloadCoord (view m s).p) = false) :
    exec (.setCoordinates m) s = replied m 0x0701 (begun m s) (.st 0x201) := by
  rw [exec_setCoordinates h hm, coordAnswer, hbad]
  rfl

variable (hok : coordOk (payloadCoord (view m s).p) = true)
include hok

theorem exec_setCoordinates_same (hsame : (begun m s).fabric.coord = payloadCoord (view m s).p) :
    exec (.setCoordinates m) s = replied m 0x0701 (begun m s) .ok := by
  rw [exec_setCoordinates h hm, coordAnswer, hok, if_neg (by decide), if_pos hsame]
  rfl

variable (hnew : (begun m s).fabric.coord ≠ payloadCoord (view m s).p)
include hnew

theorem exec_setCoordinates_refused (hset : (begun m s).coordSet = true) (hlive : ∃ p, p < 18 ∧ ((begun m s).port p).state ≠ 0) :
    exec (.setCoordinates m) s = replied m 0x0701 (begun m s) (.st 0x203) := by
  obtain ⟨p, hp, hstate⟩ := hlive
  have live : allDisabled (begun m s) = false := Bool.eq_false_of_not_eq_true fun hall => hstate (allDisabled_iff.mp hall p hp)
  rw [exec_setCoordinates h hm, coordAnswer, hok, if_neg (by decide), if_neg hnew, hset, live, if_pos (by decide)]
  rfl

theorem exec_setCoordinates_taken (hdown : ∀ p, p < 18 → ((begun m s).port p).state = 0) :
    exec (.setCoordinates m) s = replied m 0x0701 (takeCoord (begun m s) (payloadCoord (view m s).p)) .ok := by
  rw [exec_setCoordinates h hm, coordAnswer, hok, if_neg (by decide), if_neg hnew, allDisabled_iff.mpr hdown, if_neg (by simp)]
  rfl

end

/-- R483: a device whose ports are all DISABLED takes new coordinates with its ports as they are, where it had coordinates before. -/
theorem siting_takeCoord {x : BitVec 48} (hever : s.fabric.coordEver = true) (hdown : ∀ p, p < 18 → (s.port p).state = 0) :
    siting (takeCoord s x) = (x, fun p => (s.port p).state) := by
  have told : siting (State.helloAll { s with fabric := { s.fabric with coord := x, coordEver := true } }) = (x, fun p => (s.port p).state) := by
    rw [siting_of_fabric helloAll_fabric]
    rfl
  rw [takeCoord, hever, Bool.not_true, if_neg Bool.false_ne_true, siting_rejudge, told]
  exact fun p hp => (state_of_siting told).trans (hdown p hp)

/-! The rates of a connection. -/

/-- A change of one connection changes what that one reads as, and sends nothing. -/
theorem modConn_changes_one {k : Conn} {f : Conn → Conn} (h : s.conn c = some k) :
    (s.modConn c f).out = s.out ∧ (∀ j, j ≠ c → (s.modConn c f).conn j = s.conn j) ∧ (s.modConn c f).conn c = some (f k) := by
  refine ⟨modConn_out, fun j hj => ?_, ?_⟩
  · rw [conn_modConn, if_neg hj]
  · rw [conn_modConn, if_pos rfl, h, Option.map_some]

/-- Settles O58: a foreign RETRAIN_SYNC through the session it ends (R464, R467), late responses through the generation of their tag (R470), SET_COORDINATES through its answer and what keeps coordinates and port states (R483), congestion through the one connection it changes (R570). -/
theorem fabricRulesHold : Obligations.FabricRulesHold := by
  refine ⟨fun port id l s hclock htrained hsession hforeign => ?_, fun via f s k => ?_, fun m s => ?_, fun c spill k s hk => ?_⟩
  · exact ⟨_, exec_retrainSync_foreign hclock htrained hsession hforeign, rfl, enterTraining_state, enterTraining_inSession.trans endSession_inSession⟩
  · exact ⟨⟨tagGen_endOp, opFor_endOp⟩, exec_readData_late, exec_writeAck_late⟩
  · intro u x c h hm
    refine ⟨exec_setCoordinates_bad h hm, exec_setCoordinates_same h hm, exec_setCoordinates_refused h hm, fun hok hnew _ hever hdown => ?_⟩
    have sited := siting_takeCoord (x := c) hever hdown
    exact ⟨_, exec_setCoordinates_taken h hm hok hnew hdown, coord_of_siting sited, fun p hp => (state_of_siting sited).trans (hdown p hp)⟩
  · exact ⟨⟨_, rfl, modConn_changes_one hk⟩, ⟨_, rfl, modConn_changes_one hk⟩⟩

end Sys2Proof.Machine
end

section
/-! PROOFS. The error events' rules: bad parity of a payload of a command that its queue has yet to start (R318, R629). -/

namespace Sys2Proof.Machine

variable {s : State}

/-- A payload that will meet bad parity is one more than the state noted before. -/
theorem strike_ne_self {owner : Option (Nat × Nat × Nat)} {skip : Nat} : s.strike owner skip ≠ s := by
  intro hsame
  have noted : (s.strike owner skip).strikes.length = s.strikes.length + 1 := List.length_append
  rw [hsame] at noted
  omega

/-- Bad parity of a payload whose command's id its queue has yet to give is kept for that command (R629). -/
theorem detect_fabricPayload_ahead {c : CoreId} {q : QueueId} {id part : Nat} (hnone : s.started c.val q.val id = none)
    (hahead : (s.queue c.val q.val).nextId ≤ id) :
    detect s (.fabricPayload c q id part) = s.strike (some (c.val, q.val, id)) part := by
  simp only [detect, spoilPayload, hnone]
  exact if_pos hahead

/-- Refutes O59: where no started command has the id that a payload names, `detect` need not keep the state. After reset, id 0 of queue 0 of core 0 is the next to start, and the bad parity of its payload waits for it. -/
theorem not_errorEventRulesHold : ¬ Obligations.ErrorEventRulesHold := by
  rintro ⟨_, hevents, _⟩
  obtain ⟨_, _, _, hkeeps⟩ := hevents State.reset [] rfl
  have struck : detect State.reset (.fabricPayload 0 0 0 0) = State.reset.strike (some (0, 0, 0)) 0 :=
    detect_fabricPayload_ahead rfl (Nat.le_refl 0)
  exact strike_ne_self (struck.symm.trans (hkeeps 0 0 0 0 rfl))

end Sys2Proof.Machine
end

section
/-! PROOFS. What every step keeps: canonical memories, bounded error stores, blown fuses, the quarantine, one ADMIN session and, for the commands that store nothing, every byte. The relation and its rules for the updates of the state's parts. -/

namespace Sys2Proof.Machine

/-- What is watched beyond the facts that every operation keeps: the quarantine, the bytes of every memory, and the ROLLBACK fuses. -/
structure Watch where
  quarantine : Bool
  bytes : Bool
  fuses : Bool

/-- A change of external memory keeps its canonical form and, where bytes are watched, every byte. -/
def Hbm.Kept (ω : Watch) (g h : Hbm) : Prop := (g.wf = true → h.wf = true) ∧ (ω.bytes = true → h.mem = g.mem)

/-- A change of a core keeps its memories' canonical form and, where bytes are watched, its scratchpad. -/
def Core.Kept (ω : Watch) (k l : Core) : Prop := (k.wf = true → l.wf = true) ∧ (ω.bytes = true → l.spad = k.spad)

/-- The ADMIN sessions. -/
def admins (l : List Session) : List Session := l.filter fun x => x.privilege == 2

/-- Every core's memories are canonical, and so is the table of cores. -/
def coresWf (t : Tbl Core) : Bool := tblWf Core.init t && t.all fun e => e.2.wf

/-- The event queues hold at most 64 records each (R621). -/
def queuesBounded (q : Tbl (List ErrRec)) : Bool := (List.range 4).all fun i => decide ((tget [] q i).length ≤ 64)

/-- What state `s` keeps of state `z`, where `ω` says what else is watched. -/
structure Kept (ω : Watch) (z s : State) : Prop where
  hbm : z.hbm.Kept ω s.hbm
  cores : coresWf z.cores = true → coresWf s.cores = true
  spads : ω.bytes = true → ∀ c, spadOf s.cores c = spadOf z.cores c
  stage : stageOk z = true → stageOk s = true
  queues : queuesBounded z.err.queues = true → queuesBounded s.err.queues = true
  ring : ringOk z = true → ringOk s = true
  bank : s.sec.bank = z.sec.bank
  blown : ∀ i, z.sec.rollback.getLsbD i = true → s.sec.rollback.getLsbD i = true
  fuses : ω.fuses = true → s.sec.rollback = z.sec.rollback
  quarantine : ω.quarantine = true → z.boot.quarantined = true → s.boot.quarantined = true
  admin : (admins z.mbx.sessions).length ≤ 1 → (admins s.mbx.sessions).length ≤ 1

/-- A command answers a next state that keeps what is watched. -/
def Answers (ω : Watch) (z : State) (r : Res) : Prop := ∃ t, r = .next t ∧ Kept ω z t

/-- The state of a handler's answer. -/
def Answer.state : Answer → State
  | .done s _ => s
  | .hold s _ => s

variable {ω : Watch} {z s t : State} {r : Run}

theorem Hbm.Kept.refl {h : Hbm} : h.Kept ω h := ⟨id, fun _ => rfl⟩

theorem Hbm.Kept.trans {g h k : Hbm} (a : g.Kept ω h) (b : h.Kept ω k) : g.Kept ω k :=
  ⟨fun w => b.1 (a.1 w), fun w => (b.2 w).trans (a.2 w)⟩

theorem Core.Kept.refl {k : Core} : k.Kept ω k := ⟨id, fun _ => rfl⟩

theorem Core.Kept.trans {k l m : Core} (a : k.Kept ω l) (b : l.Kept ω m) : k.Kept ω m :=
  ⟨fun w => b.1 (a.1 w), fun w => (b.2 w).trans (a.2 w)⟩

theorem coreInit_wf : Core.init.wf = true := by decide

theorem coresWf_get {t : Tbl Core} {c : Nat} (h : coresWf t = true) : (tget Core.init t c).wf = true := by
  simp only [coresWf, Bool.and_eq_true] at h
  exact tget_all h.2 coreInit_wf

theorem coresWf_tset {t : Tbl Core} {c : Nat} {k : Core} (h : coresWf t = true) (hk : k.wf = true) : coresWf (tset Core.init t c k) = true := by
  simp only [coresWf, Bool.and_eq_true] at h ⊢
  exact ⟨tset_wf h.1, tset_all h.2 hk⟩

namespace Kept

theorem refl : Kept ω z z :=
  ⟨Hbm.Kept.refl, id, fun _ _ => rfl, id, id, id, rfl, fun _ => id, fun _ => rfl, fun _ => id, id⟩

/-- The parts of the state that are looked at. -/
def watched (s : State) : Hbm × Tbl Core × BitVec 4 × Tbl (List ErrRec) × List ErrRec × FuseBank × BitVec 64 × Bool × List Session :=
  (s.hbm, s.cores, s.boot.fwStage, s.err.queues, s.err.ring, s.sec.bank, s.sec.rollback, s.boot.quarantined, s.mbx.sessions)

/-- What leaves every watched part alone keeps all. -/
theorem same (h : Kept ω z s) (e : watched t = watched s) : Kept ω z t := by
  simp only [watched, Prod.mk.injEq] at e
  obtain ⟨hhbm, hcores, hstage, hqueues, hring, hbank, hroll, hquar, hses⟩ := e
  constructor <;> simp only [stageOk, ringOk, hhbm, hcores, hstage, hqueues, hring, hbank, hroll, hquar, hses]
  exacts [h.hbm, h.cores, h.spads, h.stage, h.queues, h.ring, h.bank, h.blown, h.fuses, h.quarantine, h.admin]

/-- An update of the other parts keeps all. -/
theorem frame {pending : List Instr} {out : List Out} {fresh : Nat} {strikes : List Strike} {boot : Boot} {irq : Irq} {mbx : Mailbox} {regions : Tbl (Nat × Nat)} {stage : Stage} {opt : Tbl OptSlot} {updateCmds : List (Nat × Nat × Nat)} {tarn : Tbl (Option Index)} {groups : Tbl (Option Group)} {buckets : Tbl (Option Bucket)} {ovt : Overturn} {fabric : Fabric} {net : Net} {clock : TimeState} {edges : Tbl (Option Edge)} {host : HostIf} {eth : Eth} {err : Errors} {sec : Security} {power : Power} {telem : Telem}
    (h : Kept ω z s) (e : (boot.fwStage, boot.quarantined, mbx.sessions, err.queues, err.ring, sec.bank, sec.rollback)
      = (s.boot.fwStage, s.boot.quarantined, s.mbx.sessions, s.err.queues, s.err.ring, s.sec.bank, s.sec.rollback)) :
    Kept ω z { pending := pending, out := out, fresh := fresh, strikes := strikes, boot := boot, irq := irq, mbx := mbx, cores := s.cores, hbm := s.hbm, regions := regions, stage := stage, opt := opt, updateCmds := updateCmds, tarn := tarn, groups := groups, buckets := buckets, ovt := ovt, fabric := fabric, net := net, clock := clock, edges := edges, host := host, eth := eth, err := err, sec := sec, power := power, telem := telem } := by
  simp only [Prod.mk.injEq] at e
  obtain ⟨hstage, hquar, hses, hqueues, hring, hbank, hroll⟩ := e
  exact h.same (by simp only [watched, hstage, hquar, hses, hqueues, hring, hbank, hroll])

theorem setHbm {g : Hbm} (h : Kept ω z s) (hg : s.hbm.Kept ω g) : Kept ω z { s with hbm := g } :=
  { h with hbm := h.hbm.trans hg }

theorem setCore {c : Nat} {k : Core} (h : Kept ω z s) (hk : (s.core c).Kept ω k) : Kept ω z { s with cores := tset Core.init s.cores c k } :=
  { h with
    cores := fun w => coresWf_tset (h.cores w) (hk.1 (coresWf_get (h.cores w)))
    spads := fun w i => by
      have spads := h.spads w i
      simp only [spadOf, tget_tset] at spads ⊢
      split
      · rename_i e
        rw [hk.2 w, ← spads, e]
        rfl
      · exact spads }

theorem setCores {l : Tbl Core} (h : Kept ω z s) (hw : coresWf s.cores = true → coresWf l = true) (hb : ω.bytes = false) : Kept ω z { s with cores := l } :=
  { h with cores := fun w => hw (h.cores w), spads := by simp [hb] }

theorem setBoot {b : Boot} (h : Kept ω z s) (hs : s.boot.fwStage.toNat ≤ 8 → b.fwStage.toNat ≤ 8) (hq : ω.quarantine = true → s.boot.quarantined = true → b.quarantined = true) :
    Kept ω z { s with boot := b } :=
  { h with stage := fun w => decide_eq_true (hs (of_decide_eq_true (h.stage w))), quarantine := fun w e => hq w (h.quarantine w e) }

theorem setErr {e : Errors} (h : Kept ω z s) (hq : queuesBounded s.err.queues = true → queuesBounded e.queues = true)
    (hr : s.err.ring.length ≤ 256 → e.ring.length ≤ 256) : Kept ω z { s with err := e } :=
  { h with queues := fun w => hq (h.queues w), ring := fun w => decide_eq_true (hr (of_decide_eq_true (h.ring w))) }

theorem setSec {x : Security} (h : Kept ω z s) (hb : x.bank = s.sec.bank) (hr : x.rollback = s.sec.rollback) : Kept ω z { s with sec := x } :=
  { h with
    bank := hb.trans h.bank
    blown := fun i w => by simpa only [hr] using h.blown i w
    fuses := fun w => hr.trans (h.fuses w) }

theorem setSessions {b : Mailbox} (h : Kept ω z s) (hs : (admins s.mbx.sessions).length ≤ 1 → (admins b.sessions).length ≤ 1) : Kept ω z { s with mbx := b } :=
  { h with admin := fun w => hs (h.admin w) }

theorem ite {c : Prop} [Decidable c] (hs : Kept ω z s) (ht : Kept ω z t) : Kept ω z (if c then s else t) := by
  split
  · exact hs
  · exact ht

end Kept

/-- A fold keeps what each of its steps keeps. -/
theorem foldl_inv {α β : Type} {P : β → Prop} {f : β → α → β} (hf : ∀ b a, P b → P (f b a)) {l : List α} {b : β} (h : P b) : P (l.foldl f b) := by
  induction l generalizing b with
  | nil => exact h
  | cons a l ih => exact ih (hf b a h)

theorem foldl_kept {α : Type} {f : State → α → State} {l : List α} (hf : ∀ s a, Kept ω z s → Kept ω z (f s a)) (hk : Kept ω z s) : Kept ω z (l.foldl f s) :=
  foldl_inv hf hk

theorem modCore_kept {c : Nat} {f : Core → Core} (hk : Kept ω z s) (hf : ∀ k : Core, k.Kept ω (f k)) : Kept ω z (s.modCore c f) := hk.setCore (hf _)

theorem Answers.next (hk : Kept ω z s) : Answers ω z (.next s) := ⟨s, rfl, hk⟩

/-- What is watched only where `p` holds is not watched where it does not. -/
theorem unwatched {b : Bool} {p : Prop} (h : b = true → p) (hp : ¬p) : b = false := by
  simpa using fun hb => hp (h hb)

end Sys2Proof.Machine
end

section
/-! PROOFS. What the operations on events, sessions, memories, the error log and the resets keep of what is watched. -/

namespace Sys2Proof.Machine

variable {ω : Watch} {z s t : State} {r : Run}

theorem foldlRun_kept {α : Type} {f : Run → α → Run} {l : List α} (hf : ∀ (r : Run) (a : α), Kept ω z r.s → Kept ω z (f r a).s) (hk : Kept ω z r.s) :
    Kept ω z (l.foldl f r).s := foldl_inv (P := fun r : Run => Kept ω z r.s) hf hk

theorem Core.Kept.ite {k l m : Core} {c : Prop} [Decidable c] (hl : k.Kept ω l) (hm : k.Kept ω m) : k.Kept ω (if c then l else m) := by
  split
  · exact hl
  · exact hm

/-! Cores: their events, waits and tags. -/

theorem settle_coreKept {k : Core} : k.Kept ω k.settle := ⟨id, fun _ => rfl⟩

theorem setEvents_coreKept {k : Core} {i : Nat} {v : BitVec 32} : k.Kept ω { k with events := tset 0 k.events i v } := by
  refine ⟨fun w => ?_, fun _ => rfl⟩
  simp only [Core.wf, Bool.and_eq_true] at w ⊢
  obtain ⟨⟨⟨hspad, hbad⟩, htags⟩, hevents⟩ := w
  exact ⟨⟨⟨hspad, hbad⟩, htags⟩, tset_wf hevents⟩

theorem tset_ite_wf {α : Type} [DecidableEq α] {d v : α} {t : Tbl α} {i : Nat} {c : Prop} [Decidable c] (h : tblWf d t = true) :
    tblWf d (if c then tset d t i v else t) = true := by
  split
  · exact tset_wf h
  · exact h

theorem foldl_tset_wf {α β : Type} [DecidableEq α] {d : α} {l : List β} {i : β → Nat} {v : β → α} {p : β → Bool} {t : Tbl α} (h : tblWf d t = true) :
    tblWf d (l.foldl (fun t x => if p x then tset d t (i x) (v x) else t) t) = true :=
  foldl_inv (P := fun t => tblWf d t = true) (fun _ _ ht => tset_ite_wf ht) h

theorem setTags_coreKept {k : Core} {l : List Nat} {v : Bool} : k.Kept ω (k.setTags l v) := by
  unfold Core.setTags
  split
  · exact .refl
  · refine ⟨fun w => ?_, fun _ => rfl⟩
    simp only [Core.wf, Core.mapStarted, Bool.and_eq_true] at w ⊢
    obtain ⟨⟨⟨hspad, hbad⟩, htags⟩, hevents⟩ := w
    exact ⟨⟨⟨hspad, hbad⟩, foldl_inv (P := fun t => tblWf false t = true) (fun _ _ ht => tset_wf ht) htags⟩, hevents⟩

theorem modCounter_coreKept {k : Core} {i : Nat} {f : Counter → Counter} : k.Kept ω (k.modCounter i f) := ⟨id, fun _ => rfl⟩

theorem addEvent_kept {c i n : Nat} (hk : Kept ω z s) : Kept ω z (addEvent s c i n).1 :=
  modCore_kept hk fun _ => setEvents_coreKept.trans settle_coreKept

/-! Events, the boot stage and sessions. -/

theorem queuesBounded_iff {q : Tbl (List ErrRec)} : queuesBounded q = true ↔ ∀ i, i < 4 → (tget [] q i).length ≤ 64 := by
  simp [queuesBounded]

theorem queuesBounded_tset {q : Tbl (List ErrRec)} {i : Nat} {l : List ErrRec} (h : queuesBounded q = true) (hl : l.length ≤ 64) :
    queuesBounded (tset [] q i l) = true := by
  rw [queuesBounded_iff] at h ⊢
  intro j hj
  rw [tget_tset]
  split
  · exact hl
  · exact h j hj

theorem latchError_queues {e : Errors} {r : ErrRec} : (latchError e r).queues = e.queues := rfl

theorem setIrq_kept {i : Nat} (hk : Kept ω z s) : Kept ω z (s.setIrq i) := by
  unfold State.setIrq State.raise
  dsimp only
  (repeat' split) <;> exact hk.same rfl

theorem assertAlert_kept (hk : Kept ω z s) : Kept ω z s.assertAlert := by
  unfold State.assertAlert
  split
  · exact hk
  · have asserted := setIrq_kept (i := 2) (hk.setErr (e := { s.err with alert := true }) id id)
    exact asserted.same rfl

theorem setFwStage_kept {v : BitVec 4} (hk : Kept ω z s) (hv : v.toNat ≤ 8) : Kept ω z (s.setFwStage v) := by
  unfold State.setFwStage
  split
  · exact hk
  · exact setIrq_kept (hk.setBoot (fun _ => hv) fun _ => id)

theorem postErr_kept {x : ErrRec} (hk : Kept ω z s) : Kept ω z (s.postErr x) := by
  unfold State.postErr
  dsimp only
  split
  · rename_i hroom
    exact hk.setErr (fun hq => queuesBounded_tset (by rwa [latchError_queues]) (by rw [List.length_append]; exact hroom)) id
  · have lost := hk.setErr (e := { latchError s.err { x with gtc := s.clock.gtc, fwInstance := s.boot.fwInstance } with
      overflow := satInc (latchError s.err { x with gtc := s.clock.gtc, fwInstance := s.boot.fwInstance }).overflow 1
      alertLost := (latchError s.err { x with gtc := s.clock.gtc, fwInstance := s.boot.fwInstance }).alertLost || decide (2 ≤ x.severity.toNat) }) id id
    split
    · exact assertAlert_kept lost
    · exact lost

theorem admins_filter_le {l : List Session} {p : Session → Bool} : (admins (l.filter p)).length ≤ (admins l).length :=
  (List.filter_sublist.filter _).length_le

theorem filterSessions_kept {p : Session → Bool} (hk : Kept ω z s) : Kept ω z { s with mbx := { s.mbx with sessions := s.mbx.sessions.filter p } } :=
  hk.setSessions fun few => admins_filter_le.trans few

theorem closeSession_kept {h : BitVec 32} (hk : Kept ω z s) : Kept ω z (closeSession s h) :=
  filterSessions_kept (foldl_kept (fun _ _ hk => Kept.ite (hk.same rfl) hk) hk)

theorem admins_append_le {l : List Session} {n : Session} (h : (admins l).length ≤ 1) (hn : n.privilege = 2 → l.any (fun y => y.privilege == 2) = false) :
    (admins (l ++ [n])).length ≤ 1 := by
  have split : admins (l ++ [n]) = admins l ++ admins [n] := List.filter_append ..
  rw [split, List.length_append]
  by_cases hp : n.privilege = 2
  · have none : admins l = [] := List.filter_eq_nil_iff.mpr fun a ha => List.any_eq_false.mp (hn hp) a ha
    rw [none, List.length_nil, Nat.zero_add]
    exact List.length_filter_le _ [n]
  · have other : admins [n] = [] := List.filter_cons_of_neg (by simpa using hp)
    simpa [other] using h

theorem openSession_kept {x : Ctx} {want : BitVec 32} (hk : Kept ω z s) : Kept ω z (openSession s x want).1 := by
  unfold openSession
  dsimp only
  split
  · exact hk
  split
  · exact hk
  split
  · exact hk
  split
  · exact hk
  split
  · exact hk
  next hsmall _ _ _ hone _ =>
    refine Kept.same (s := { s with mbx := { s.mbx with sessions := s.mbx.sessions ++ [_] } }) (Kept.setSessions hk fun few => admins_append_le few fun hp => ?_) rfl
    have admin : x.f 39 32 = 2 := by
      have low : x.f 39 32 % 256 = 2 := congrArg BitVec.toNat hp
      omega
    simpa [admin] using hone

/-! External memory and scratchpads. -/

theorem Hbm.wf_iff {h : Hbm} : h.wf = true ↔
    tblWf 0 h.mem = true ∧ tblWf false h.poison = true ∧ tblWf false h.weak = true ∧ tblWf false h.broken = true ∧ tblWf 0 h.corrected = true := by
  simp only [Hbm.wf, Bool.and_eq_true, and_assoc]

theorem Hbm.Kept.of_wf {g h : Hbm} (hw : g.wf = true → h.wf = true) (hm : h.mem = g.mem) : g.Kept ω h := ⟨hw, fun _ => hm⟩

theorem correctWeak_kept {a n : Nat} (hk : Kept ω z s) : Kept ω z (correctWeak s a n) := by
  unfold correctWeak
  refine foldl_kept (fun s x hk => postErr_kept (hk.setHbm (.of_wf (fun w => ?_) rfl))) hk
  rw [Hbm.wf_iff] at w ⊢
  obtain ⟨hmem, hpoison, hweak, hbroken, hcorrected⟩ := w
  dsimp only
  exact ⟨hmem, hpoison, tset_wf hweak, hbroken, tmod_wf hcorrected⟩

theorem countBroken_hbmKept {h : Hbm} {lo hi : Nat} : h.Kept ω (h.countBroken lo hi) := by
  unfold Hbm.countBroken
  dsimp only
  split
  · exact .refl
  · exact ⟨id, fun _ => rfl⟩

theorem hbmRead_kept {a n : Nat} (hk : Kept ω z s) : Kept ω z (hbmRead s a n).2.2 := by
  unfold hbmRead
  dsimp only
  exact Kept.setHbm (Kept.ite ((correctWeak_kept hk).same rfl) (correctWeak_kept hk)) countBroken_hbmKept

theorem readWord_kept {idx : Nat} (hk : Kept ω z s) : Kept ω z (readWord s idx) :=
  (correctWeak_kept hk).setHbm countBroken_hbmKept

theorem hbmWriteWord_kept {dropped : Nat → Nat → Bool} {x : Wr} {p : Nat × List Bt} (hk : Kept ω z x.s) (hb : ω.bytes = false) :
    Kept ω z (hbmWriteWord dropped x p).s := by
  unfold hbmWriteWord
  dsimp only
  split
  · exact hk
  · split
    · exact hk
    · refine Kept.setHbm (Kept.ite hk (readWord_kept hk)) ⟨fun w => ?_, by simp [hb]⟩
      rw [Hbm.wf_iff] at w ⊢
      obtain ⟨hmem, hpoison, hweak, hbroken, hcorrected⟩ := w
      exact ⟨foldl_tset_wf hmem, tset_wf hpoison, tset_ite_wf hweak, tset_ite_wf hbroken, hcorrected⟩

theorem hbmWrite_kept {a : Nat} {bs : List Bt} (hk : Kept ω z s) (hb : ω.bytes = false) : Kept ω z (hbmWrite s a bs).s := by
  have written : ∀ {d : Nat → Nat → Bool} {l : List (Nat × List Bt)}, Kept ω z (l.foldl (hbmWriteWord d) { s := s, lost := none, part := none }).s :=
    foldl_inv (P := fun x : Wr => Kept ω z x.s) (fun _ _ hk => hbmWriteWord_kept hk hb) hk
  unfold hbmWrite
  dsimp only
  split
  · exact written
  · exact postErr_kept written

theorem spadWriteWord_coreKept {x : SpadWr} {p : Nat × List Bt} (hb : ω.bytes = false) : x.core.Kept ω (spadWriteWord x p).core := by
  unfold spadWriteWord
  dsimp only
  split
  · exact .refl
  · split
    · exact .refl
    · refine ⟨fun w => ?_, by simp [hb]⟩
      simp only [Core.wf, Bool.and_eq_true] at w ⊢
      obtain ⟨⟨⟨hspad, hbad⟩, htags⟩, hevents⟩ := w
      exact ⟨⟨⟨foldl_tset_wf hspad, tset_wf hbad⟩, htags⟩, hevents⟩

theorem spadWrite_kept {c a : Nat} {bs : List Bt} (hk : Kept ω z s) (hb : ω.bytes = false) : Kept ω z (spadWrite s c a bs).1 :=
  hk.setCore (foldl_inv (P := fun x : SpadWr => (s.core c).Kept ω x.core) (fun _ _ h => h.trans (spadWriteWord_coreKept hb)) .refl)

/-! The error log. -/

theorem dropFirst_length_le {α : Type} {p : α → Bool} {l : List α} (h : l.any p = true) : (dropFirst p l).length + 1 = l.length := by
  induction l with
  | nil => simp at h
  | cons a l ih =>
    simp only [dropFirst, List.any_cons, Bool.or_eq_true] at h ⊢
    split
    · rfl
    · next hp => simpa using ih (h.resolve_left hp)

theorem intoRing_ring_le {e : Errors} {x : ErrRec} (h : e.ring.length ≤ 256) : (intoRing e x).ring.length ≤ 256 := by
  unfold intoRing
  dsimp only
  split
  · next hroom =>
    simp only [ringFull, Bool.not_eq_true', decide_eq_false_iff_not, not_le] at hroom
    rw [List.length_append]
    exact hroom
  · split
    · next hswap =>
      have shorter := dropFirst_length_le hswap.2
      rw [List.length_append, List.length_singleton]
      omega
    · exact h

theorem intoRing_queues {e : Errors} {x : ErrRec} : (intoRing e x).queues = e.queues := by
  unfold intoRing
  dsimp only
  (repeat' split) <;> rfl

theorem newRecord_kept {x : ErrRec} (hk : Kept ω z s) : Kept ω z (writeRecord.newRecord s x) := by
  unfold writeRecord.newRecord
  dsimp only
  have logged := hk.setErr (e := intoRing { s.err with nextSeq := s.err.nextSeq + 1 } { x with seq := s.err.nextSeq })
    (fun w => by rwa [intoRing_queues]) fun w => intoRing_ring_le w
  split
  · exact assertAlert_kept (logged.same rfl)
  · exact logged.same rfl

theorem writeRecord_kept {x : ErrRec} (hk : Kept ω z s) : Kept ω z (writeRecord s x) := by
  unfold writeRecord
  split
  · next n hlast =>
    split
    · refine hk.setErr id fun w => ?_
      have some : s.err.ring ≠ [] := by
        intro h
        simp [h] at hlast
      have pos := List.length_pos_iff.mpr some
      simp only [List.length_append, List.length_dropLast, List.length_singleton]
      omega
    · exact newRecord_kept hk
  · exact newRecord_kept hk

/-! The resets. -/

theorem resetStageLogic_kept (hk : Kept ω z s) (hb : ω.bytes = false) (hq : ω.quarantine = false) : Kept ω z (resetStageLogic s) := by
  have emptied := (hk.setCores (l := []) (fun _ => rfl) hb).setBoot (b := { s.boot with quarantined := false }) id (by simp [hq])
  exact emptied.same rfl

theorem bootFailed_kept {n : Nat} (hk : Kept ω z s) : Kept ω z (s.bootFailed n) :=
  setFwStage_kept (hk.same rfl) (by decide)

theorem releaseAlert_kept (hk : Kept ω z s) : Kept ω z s.releaseAlert := by
  unfold State.releaseAlert
  split
  · exact hk.same rfl
  · exact hk

theorem fullReset_kept {powerOn : Bool} (hk : Kept ω z s) (hb : ω.bytes = false) (hq : ω.quarantine = false) : Kept ω z (fullReset s powerOn) := by
  have released := releaseAlert_kept hk
  unfold fullReset
  dsimp only
  generalize s.releaseAlert = s at released
  have emptied := (((released.setCores (l := []) (fun _ => rfl) hb).setBoot (b := { Boot.init with bootAddr := if powerOn then 0 else s.boot.bootAddr })
    (fun _ => Nat.zero_le _) (by simp [hq])).setSec (x := resetSecurity s.sec powerOn) rfl rfl).setHbm
    (g := { s.hbm with uncorrected := 0, scrubPasses := 0, corrected := [], scrubPos := 0 }) ⟨fun w => ?_, fun _ => rfl⟩
  · have cleared := emptied.setErr (e := if powerOn then Errors.init else
      { clearErrors s.err with alert := false, alertSeqs := [], alertLost := false, alertFirst := false, alertLatest := false, tripTimes := [] })
      (fun _ => by cases powerOn <;> rfl) (fun _ => by cases powerOn <;> exact Nat.zero_le _)
    exact (cleared.setSessions (b := Mailbox.init) fun _ => Nat.zero_le _).same rfl
  · rw [Hbm.wf_iff] at w ⊢
    obtain ⟨hmem, hpoison, hweak, hbroken, _⟩ := w
    exact ⟨hmem, hpoison, hweak, hbroken, tblWf_nil⟩

/-! Runs, ring sides and what they wait for. -/

theorem addFirmwareOp_kept {conn : BitVec 12} {kind : OpKind} {n : Nat} (hk : Kept ω z s) (h : s.addFirmwareOp conn kind n = some t) : Kept ω z t := by
  simp only [State.addFirmwareOp, Option.map_eq_some_iff] at h
  obtain ⟨_, _, rfl⟩ := h
  exact hk.same rfl

theorem faults_s {l : List (Nat × Nat)} : (r.faults l).s = r.s := by
  unfold Run.faults
  exact foldl_keeps (g := Run.s) (f := fun r (f : Nat × Nat) => r.fault f.1 f.2) (fun _ _ => rfl) _ _

theorem faults_kept {l : List (Nat × Nat)} (hk : Kept ω z r.s) : Kept ω z (r.faults l).s := by rwa [faults_s]

theorem tagGate_kept {slot addr : Nat} {full : Bool} {x : Run} (hk : Kept ω z r.s) (h : r.tagGate slot addr full = some x) : Kept ω z x.s := by
  unfold Run.tagGate at h
  split at h
  · cases h
    exact hk
  · split at h <;> cases h
    exact hk

theorem reserve_kept {n : Nat} {x : Run} (hk : Kept ω z r.s) (h : r.reserve n = some x) : Kept ω z x.s := by
  unfold Run.reserve at h
  split at h
  · cases h
  split at h
  · cases h
  split at h
  · cases h
    exact hk
  split at h
  · cases h
    exact hk
  · cases h
    exact modCore_kept hk fun _ => .refl

theorem queryRun_kept {q : QueryRef} {x : Run} (hk : Kept ω z s) (h : queryRun s q = some x) : Kept ω z x.s := by
  simp only [queryRun, Option.map_eq_some_iff] at h
  obtain ⟨_, _, rfl⟩ := h
  exact hk

theorem sendSnoops_kept {l : List Nat} {inv : Bool} (hk : Kept ω z s) : Kept ω z (sendSnoops s l inv) :=
  foldl_kept (fun _ _ hk => Kept.ite hk (hk.same rfl)) hk

theorem askLines_kept {l m : List Nat} (hk : Kept ω z s) : Kept ω z (askLines s l m) := sendSnoops_kept (sendSnoops_kept hk)

theorem coherent_stop_kept {a b : List (Nat × Nat)} {x : Run} (hk : Kept ω z r.s) (h : r.coherent a b = .stop x) : Kept ω z x.s := by
  unfold Run.coherent at h
  dsimp only at h
  split at h
  · cases h
  · split at h <;> cases h
    · exact hk
    · exact askLines_kept hk

theorem coherent_go_kept {a b : List (Nat × Nat)} {x : Run} (hk : Kept ω z r.s) (h : r.coherent a b = .go x) : Kept ω z x.s := by
  unfold Run.coherent at h
  dsimp only at h
  split at h
  · split at h <;> cases h <;> exact hk
  · split at h <;> cases h

theorem withBucket_kept {f : Bucket → Nat → Group → Run} (hk : Kept ω z r.s) (hf : ∀ k i g, Kept ω z (f k i g).s) : Kept ω z (r.withBucket f).s := by
  unfold Run.withBucket
  split
  · exact hk
  split
  · exact hk
  split
  · exact hk
  · exact hf _ _ _

theorem tarnWrite_kept {onList : Bool} {f : Index → Nat → Run} (hk : Kept ω z r.s) (hf : ∀ k l, Kept ω z (f k l).s) : Kept ω z (r.tarnWrite onList f).s := by
  unfold Run.tarnWrite
  dsimp only
  split
  · exact hk
  split
  · exact hk
  split
  · exact hf _ _
  (repeat' split) <;> [exact hk; exact hk; exact hk; exact hf _ _]

end Sys2Proof.Machine
end

section
/-! PROOFS. What the other operations keep of what is watched, in the order of their definitions. -/

namespace Sys2Proof.Machine

variable {ω : Watch} {z s t : State} {r : Run}

theorem emit_kept {o : Out} (hk : Kept ω z s) : Kept ω z (s.emit o) := Kept.frame hk rfl

theorem admitReq_kept {line : Nat} {needs : Bool} (hk : Kept ω z s) : Kept ω z (admitReq s line needs).1 := by
  unfold admitReq
  split
  · exact hk
  · split
    · split
      · exact hk
      · exact sendSnoops_kept (Kept.frame hk rfl)
    · exact hk

theorem holdReq_kept {i : Instr} {line : Nat} (hk : Kept ω z s) : Kept ω z (holdReq s i line) := Kept.frame hk rfl

theorem track_kept {line : Nat} {v : Option Bool} (hk : Kept ω z s) : Kept ω z (s.track line v) := Kept.frame hk rfl

theorem readEntry_kept {line : Nat} {mv : Meta} {rd : Bool} (hk : Kept ω z s) : Kept ω z (readEntry s line mv rd) := by
  unfold readEntry
  split
  · exact track_kept hk
  · exact track_kept hk
  · exact Kept.ite (track_kept hk) hk

theorem sendMsix_kept {v : Nat} (hk : Kept ω z s) : Kept ω z (s.sendMsix v) := emit_kept hk

theorem raise_kept {v : Nat} (hk : Kept ω z s) : Kept ω z (s.raise v) := Kept.ite (Kept.frame hk rfl) (sendMsix_kept hk)

theorem readLine_kept {line : Nat} {a : Nat} (hk : Kept ω z s) : Kept ω z (readLine s line a) := emit_kept (hbmRead_kept hk)

theorem hostRead_kept {i : Instr} {line : Nat} {mv : Meta} {rd : Bool} (hk : Kept ω z s) : Kept ω z (hostRead s i line mv rd) := by
  unfold hostRead
  split
  · exact hk
  · dsimp only
    split
    · exact holdReq_kept (admitReq_kept hk)
    · exact readEntry_kept (readLine_kept (admitReq_kept hk))

theorem hostDrop_kept {line : Nat} (hk : Kept ω z s) : Kept ω z (hostDrop s line) := emit_kept (track_kept hk)

theorem hostInv_kept {i : Instr} {line : Nat} (hk : Kept ω z s) : Kept ω z (hostInv s i line) := by
  unfold hostInv
  split
  · exact hk
  · exact Kept.ite (holdReq_kept hk) (hostDrop_kept hk)

theorem crossLine_kept {line : Nat} (hk : Kept ω z s) : Kept ω z (crossLine s line) := Kept.frame hk rfl

theorem hostWrite_kept {i : Instr} {line : Nat} {mv : Meta} {bs : List Bt} (hk : Kept ω z s) (hb : ω.bytes = false) : Kept ω z (hostWrite s i line mv bs) := by
  unfold hostWrite
  split
  · exact hk
  · dsimp only
    split
    · refine holdReq_kept ?_
      split
      · exact hk
      · exact admitReq_kept hk
    · refine emit_kept ?_
      split
      · refine track_kept ?_
        refine crossLine_kept ?_
        refine hbmWrite_kept ?_ hb
        split
        · exact hk
        · exact admitReq_kept hk
      · refine track_kept ?_
        refine hbmWrite_kept ?_ hb
        split
        · exact hk
        · exact admitReq_kept hk
      · refine hbmWrite_kept ?_ hb
        split
        · exact hk
        · exact admitReq_kept hk

theorem rerun_kept {i : Instr} (hk : Kept ω z s) (hb : ω.bytes = false) : Kept ω z (rerun s i) := by
  unfold rerun
  split
  · exact hostRead_kept hk
  · exact hostRead_kept hk
  · exact hostInv_kept hk
  · exact hostWrite_kept hk hb
  · exact hostWrite_kept hk hb
  · exact hk

theorem serveHost_kept (hk : Kept ω z s) (hb : ω.bytes = false) : Kept ω z (serveHost s) := foldl_kept (fun _ _ hk₁ => Kept.ite (Kept.frame hk₁ rfl) (rerun_kept hk₁ hb)) (Kept.ite hk (Kept.frame hk rfl))

theorem modChan_kept {n : Nat} {f : Channel → Channel} (hk : Kept ω z s) : Kept ω z (s.modChan n f) := Kept.frame hk rfl

theorem evalDoorbell_kept {n : Nat} (hk : Kept ω z s) : Kept ω z (evalDoorbell s n) := Kept.ite (Kept.ite hk (Kept.ite (modChan_kept hk) (Kept.ite (modChan_kept hk) (modChan_kept hk)))) hk

theorem evalDoorbells_kept (hk : Kept ω z s) : Kept ω z (evalDoorbells s) := foldl_kept (fun _ _ hk₁ => evalDoorbell_kept hk₁) hk

theorem becomeReady_kept (hk : Kept ω z s) : Kept ω z (becomeReady s) := evalDoorbells_kept (setFwStage_kept hk (by decide))

theorem endInit_kept (hk : Kept ω z s) : Kept ω z (endInit s) := Kept.ite (Kept.ite (setFwStage_kept hk (by decide)) (becomeReady_kept hk)) hk

theorem endHold_kept (hk : Kept ω z s) : Kept ω z (endHold s) := Kept.frame hk rfl

theorem advanceGtc_kept (hk : Kept ω z s) : Kept ω z (advanceGtc s) := Kept.ite (Kept.frame hk rfl) hk

theorem idle_kept (hk : Kept ω z s) (hb : ω.bytes = false) : Kept ω z (idle s) := serveHost_kept (endInit_kept (endHold_kept (advanceGtc_kept hk))) hb

theorem dequeue_kept {src : MsgSrc} (hk : Kept ω z s) : Kept ω z (dequeue s src) := by
  unfold dequeue
  split
  · exact modChan_kept (emit_kept hk)
  · exact hk

theorem moderate_kept {n : Nat} (hk : Kept ω z s) : Kept ω z (moderate s n) := Kept.ite (raise_kept (modChan_kept hk)) hk

theorem completeChan_kept {n : Nat} {m : Msg} {op : Nat} {session : BitVec 32} {y : Reply} (hk : Kept ω z s) : Kept ω z (completeChan s n m op session y) := Kept.ite (modChan_kept hk) (moderate_kept (modChan_kept (emit_kept (emit_kept (Kept.ite (emit_kept hk) hk)))))

theorem finishOne_kept {m : Msg} {op : Nat} {session : BitVec 32} {y : Reply} (hk : Kept ω z s) : Kept ω z (finishOne s m op session y) := by
  unfold finishOne
  split
  · exact Kept.ite (modChan_kept (Kept.frame hk rfl)) (completeChan_kept (modChan_kept (Kept.frame hk rfl)))
  · exact emit_kept hk

theorem detachChan_kept {n : Nat} (hk : Kept ω z s) : Kept ω z (detachChan s n) := modChan_kept hk

theorem unheld_kept {src : MsgSrc} (hk : Kept ω z s) : Kept ω z (s.unheld src) := Kept.frame hk rfl

theorem settleCloses_kept {a : Nat} (hk : Kept ω z s) : Kept ω z (settleCloses a s) := by
  induction a generalizing s with
  | zero => exact hk
  | succ a ih =>
    unfold settleCloses
    split
    · exact hk
    · exact ih (finishOne_kept (closeSession_kept (unheld_kept hk)))

theorem finishMsg_kept {m : Msg} {op : Nat} {session : BitVec 32} {y : Reply} (hk : Kept ω z s) : Kept ω z (finishMsg s m op session y) := settleCloses_kept (finishOne_kept hk)

theorem settleMsg_kept {m : Msg} {op : Nat} {session : BitVec 32} {a : Answer} (hk : Kept ω z a.state) : Kept ω z (settleMsg m op session a) := by
  unfold settleMsg
  split
  · exact finishMsg_kept hk
  · dsimp only
    split
    · exact modChan_kept (Kept.frame hk rfl)
    · exact Kept.frame hk rfl

theorem refuse_kept {st : Nat} (hk : Kept ω z s) : Kept ω z (refuse s st).state := hk

theorem endOp_kept {t : Nat} (hk : Kept ω z s) : Kept ω z (s.endOp t) := Kept.frame hk rfl

theorem modPort_kept {p : Nat} {f : Port → Port} (hk : Kept ω z s) : Kept ω z (s.modPort p f) := Kept.frame hk rfl

theorem dropOps_kept (hk : Kept ω z s) : Kept ω z (dropOps s) := Kept.frame (foldl_kept (fun _ _ hk₁ => Kept.ite hk₁ (modPort_kept hk₁)) (foldl_kept (fun _ _ hk₁ => endOp_kept hk₁) hk)) rfl

theorem tearPart_kept {p : BufPart} (hk : Kept ω z s) (hb : ω.bytes = false) : Kept ω z (tearPart s p) := by
  unfold tearPart
  refine Kept.frame ?_ rfl
  split
  · exact hbmWrite_kept hk hb
  · exact hk

theorem tearUpdates_kept (hk : Kept ω z s) (hb : ω.bytes = false) : Kept ω z (tearUpdates s) := foldl_kept (fun _ _ hk₁ => tearPart_kept hk₁ hb) hk

theorem sendHello_kept {p : Nat} (hk : Kept ω z s) : Kept ω z (s.sendHello p) := emit_kept hk

theorem helloAll_kept (hk : Kept ω z s) : Kept ω z s.helloAll := foldl_kept (fun _ _ hk₁ => Kept.ite hk₁ (sendHello_kept hk₁)) hk

theorem abortHeld_kept (hk : Kept ω z s) : Kept ω z (abortHeld s) := foldl_kept (fun _ _ hk₁ => finishMsg_kept hk₁) (Kept.frame hk rfl)

theorem modCfg_kept {c : Nat} {f : CoreCfg → CoreCfg} (hk : Kept ω z s) : Kept ω z (s.modCfg c f) := modCore_kept hk (fun _ => ⟨id, fun _ => rfl⟩)

theorem modQueue_kept {c : Nat} {q : Nat} {f : CmdQueue → CmdQueue} (hk : Kept ω z s) : Kept ω z (s.modQueue c q f) := modCore_kept hk (fun _ => ⟨id, fun _ => rfl⟩)

theorem applyRegion_kept {x : Ctx} (hk : Kept ω z s) : Kept ω z (applyRegion s x) := modQueue_kept (modCfg_kept hk)

theorem endHeld_kept {h : Held} {y : Reply} (hk : Kept ω z s) : Kept ω z (endHeld s h y) := finishMsg_kept (unheld_kept hk)

theorem holdCredit_kept {h : HeldCredit} (hk : Kept ω z s) : Kept ω z (s.holdCredit h) := Kept.frame hk rfl

theorem drainPort_kept {a : Nat} {a' : Nat} (hk : Kept ω z s) : Kept ω z (drainPort a s a') := by
  induction a generalizing s a' with
  | zero => exact hk
  | succ a ih =>
    unfold drainPort
    split
    · exact hk
    · exact ih (emit_kept (Kept.frame (modPort_kept hk) rfl))

theorem drain_kept {p : Nat} (hk : Kept ω z s) : Kept ω z (s.drain p) := drainPort_kept hk

theorem modConn_kept {c : Nat} {f : Conn → Conn} (hk : Kept ω z s) : Kept ω z (s.modConn c f) := Kept.frame hk rfl

theorem packets_kept {c : Nat} {spill : Bool} {n : Nat} (hk : Kept ω z s) : Kept ω z (s.packets c spill n) := by
  unfold State.packets
  split
  · exact hk
  · exact modConn_kept (emit_kept hk)

theorem drainConn_kept {vc : Nat} {a : Nat} {a' : Nat} (hk : Kept ω z s) : Kept ω z (drainConn vc a s a') := by
  induction a generalizing vc s a' with
  | zero => exact hk
  | succ a ih =>
    unfold drainConn
    split
    · exact hk
    · split
      · exact hk
      · exact Kept.ite hk (ih (emit_kept (Kept.frame (modConn_kept (packets_kept hk)) rfl)))

theorem drainConns_kept {cs : List Nat} (hk : Kept ω z s) : Kept ω z (s.drainConns cs) := foldl_kept (fun _ _ hk₁ => foldl_kept (fun _ _ hk₂ => drainConn_kept hk₂) hk₁) hk

theorem drainC_kept {c : Nat} (hk : Kept ω z s) : Kept ω z (s.drainC c) := drainConns_kept hk

theorem sendFrame_kept {v : Via} {ty : Nat} {f : Frame} (hk : Kept ω z s) : Kept ω z (s.sendFrame v ty f) := by
  unfold State.sendFrame
  dsimp only
  split
  · exact drain_kept (modPort_kept hk)
  · exact drainC_kept (modConn_kept hk)

theorem sendCredit_kept {q : Nat} {slot : Nat} {gen : BitVec 16} (hk : Kept ω z s) : Kept ω z (s.sendCredit q slot gen) := by
  unfold State.sendCredit
  dsimp only
  split
  · exact holdCredit_kept hk
  · split
    · exact holdCredit_kept hk
    · split
      · exact Kept.ite (holdCredit_kept hk) (sendFrame_kept (Kept.frame hk rfl))
      · exact holdCredit_kept hk

theorem modStarted_kept {c : Nat} {q : Nat} {id : Nat} {f : Started → Started} (hk : Kept ω z s) : Kept ω z (s.modStarted c q id f) := modQueue_kept hk

theorem wakeEndpoint_kept {p : Nat → Bool} (hk : Kept ω z s) : Kept ω z (s.wakeEndpoint p) := foldl_kept (fun _ _ hk₁ => modStarted_kept hk₁) hk

theorem flushCredits_kept (hk : Kept ω z s) : Kept ω z s.flushCredits := wakeEndpoint_kept (foldl_kept (fun _ _ hk₁ => sendCredit_kept hk₁) (Kept.frame hk rfl))

theorem withdraw_kept {tags : List Nat} (hk : Kept ω z s) : Kept ω z (s.withdraw tags) := Kept.frame (foldl_kept (fun _ _ hk₁ => Kept.ite (modPort_kept hk₁) hk₁) hk) rfl

theorem dropCmdOps_kept {c : Nat} {q : Nat} {id : Nat} (hk : Kept ω z s) : Kept ω z (s.dropCmdOps c q id) := withdraw_kept (foldl_kept (fun _ _ hk₁ => endOp_kept hk₁) hk)

theorem abortSlotCmds_kept {q : Nat} (hk : Kept ω z s) : Kept ω z (abortSlotCmds s q) := foldl_kept (fun _ _ hk₁ => modStarted_kept (dropCmdOps_kept hk₁)) hk

theorem clearQueue_kept {q : Nat} (hk : Kept ω z s) : Kept ω z (clearQueue s q) := Kept.frame (abortSlotCmds_kept hk) rfl

theorem sendCredits_kept {q : Nat} {n : Nat} (hk : Kept ω z s) : Kept ω z (sendCredits s q n) := foldl_kept (fun _ _ hk₁ => sendCredit_kept hk₁) (Kept.frame hk rfl)

theorem setQueue_kept {q : Nat} {k : MbQueue} (hk : Kept ω z s) : Kept ω z (setQueue s q k) := Kept.ite (sendCredits_kept (Kept.frame (clearQueue_kept hk) rfl)) (Kept.frame (clearQueue_kept hk) rfl)

theorem resetQueue_kept {q : Nat} (hk : Kept ω z s) : Kept ω z (resetQueue s q) := by
  unfold resetQueue
  split
  · exact hk
  · exact Kept.ite (sendCredits_kept (Kept.frame (abortSlotCmds_kept hk) rfl)) (Kept.frame (abortSlotCmds_kept hk) rfl)

theorem freshWord_kept (hk : Kept ω z s) : Kept ω z s.freshWord.2 := Kept.frame hk rfl

theorem busyRetry_kept (hk : Kept ω z s) : Kept ω z (busyRetry s).1 := freshWord_kept hk

theorem answerBusy_kept (hk : Kept ω z s) : Kept ω z (answerBusy s).state := busyRetry_kept hk

theorem holdFor_kept {h : Held} {rl : List Nat} {wl : List Nat} (hk : Kept ω z s) : Kept ω z (holdFor s h rl wl).state := askLines_kept hk

theorem readEntries_kept {y : Ring} {start : Nat} {n : Nat} (hk : Kept ω z s) : Kept ω z (readEntries s y start n).2.2 := by
  unfold readEntries
  refine foldl_inv (P := fun x : List (BitVec 512) × Option Nat × State => Kept ω z x.2.2) ?_ hk
  intro _ _ hk₁
  dsimp only
  split <;> exact hbmRead_kept hk₁

theorem msgPoison_kept {x : Ctx} {a : Nat} (hk : Kept ω z s) : Kept ω z (msgPoison s x a).state := refuse_kept (postErr_kept hk)

theorem record_kept {size : Nat} {f : StepRec → StepRec} (hk : Kept ω z s) : Kept ω z (s.record size f) := by
  unfold State.record
  split
  · exact hk
  · exact Kept.frame hk rfl

theorem recordBlock_kept {e : BlockEntry} (hk : Kept ω z s) : Kept ω z (s.recordBlock e) := Kept.frame (record_kept hk) rfl

theorem armBlock_kept {x : Ctx} {ds : List (BitVec 512)} (hk : Kept ω z s) : Kept ω z (armBlock s x ds) := recordBlock_kept (modQueue_kept hk)

theorem submitBlock_kept {m : Msg} {x : Ctx} (hk : Kept ω z s) : Kept ω z (submitBlock m s x).state := by
  unfold submitBlock
  split
  · exact refuse_kept hk
  · split
    · exact refuse_kept hk
    · dsimp only
      split
      · exact answerBusy_kept hk
      · split
        · exact refuse_kept hk
        · split
          · split
            · exact refuse_kept hk
            · exact holdFor_kept hk
          · split
            · exact readEntries_kept hk
            · split
              · exact postErr_kept (readEntries_kept hk)
              · exact armBlock_kept (readEntries_kept hk)

theorem dropQuery_kept {c : Nat} {q : Nat} {id : Nat} (hk : Kept ω z s) : Kept ω z (dropQuery s c q id) := Kept.frame hk rfl

theorem abortCmd_kept {c : Nat} {q : Nat} {id : Nat} (hk : Kept ω z s) : Kept ω z (abortCmd s c q id) := dropQuery_kept (dropCmdOps_kept (modStarted_kept hk))

theorem recordAbort_kept (hk : Kept ω z s) : Kept ω z s.recordAbort := Kept.frame hk rfl

theorem abortQueue_kept {c : Nat} {q : Nat} {also : List Nat} (hk : Kept ω z s) : Kept ω z (abortQueue s c q also) := recordAbort_kept (modCore_kept (foldl_kept (fun _ _ hk₁ => abortCmd_kept hk₁) (modQueue_kept hk)) (fun _ => ⟨id, fun _ => rfl⟩))

theorem releaseRegion_kept {p : BitVec 384} (hk : Kept ω z s) : Kept ω z (releaseRegion s p) := modQueue_kept hk

theorem applyHeldRegion_kept {h : Held} (hk : Kept ω z s) : Kept ω z (applyHeldRegion s h) := by
  unfold applyHeldRegion
  dsimp only
  split
  · exact hk
  · split
    · exact endHeld_kept (releaseRegion_kept (unheld_kept hk))
    · exact endHeld_kept (applyRegion_kept (unheld_kept hk))

theorem applyOpt_kept {opcode : BitVec 16} {p : BitVec 384} (hk : Kept ω z s) : Kept ω z (applyOpt s opcode p) := Kept.frame hk rfl

theorem contHeld_kept {h : Held} {a : Answer} (hk : Kept ω z a.state) : Kept ω z (contHeld h a) := by
  unfold contHeld
  split
  · exact endHeld_kept hk
  · exact Kept.frame hk rfl

theorem abortCkpt_kept {into : Bool} (hk : Kept ω z s) : Kept ω z (abortCkpt s into).state := refuse_kept (Kept.ite (Kept.frame hk rfl) hk)

theorem ckptOf_kept {rs : List (Nat × Nat)} (hk : Kept ω z s) : Kept ω z (ckptOf s rs).2.2 := foldl_inv (P := fun x : List (List Bt) × State => Kept ω z x.2) (fun _ _ hk₁ => hbmRead_kept hk₁) hk

theorem addOp_kept {o : NetOp} (hk : Kept ω z s) : Kept ω z (s.addOp o) := Kept.frame hk rfl

theorem scan_kept {rs : List (Nat × Nat)} (hk : Kept ω z s) : Kept ω z (s.scan rs) := foldl_kept (fun _ _ hk₁ => hbmRead_kept hk₁) hk

theorem corruptImage_kept {x : Ctx} (hk : Kept ω z s) : Kept ω z (corruptImage s x).state := postErr_kept (Kept.frame hk rfl)

theorem landRanges_kept {rs : List RangeDigest} {contents : List Bt} (hk : Kept ω z s) (hb : ω.bytes = false) : Kept ω z (landRanges s rs contents) := foldl_inv (P := fun x : State × List Bt => Kept ω z x.1) (fun _ _ hk₁ => hbmWrite_kept hk₁ hb) hk

theorem takeImage_kept {i : CkptImage} (hk : Kept ω z s) : Kept ω z (takeImage s i) := Kept.frame hk rfl

theorem landImage_kept {x : Ctx} {i : CkptImage} {body : List Bt} (hk : Kept ω z s) (hb : ω.bytes = false) : Kept ω z (landImage s x i body).state := by
  unfold landImage
  dsimp only
  split
  · exact corruptImage_kept (landRanges_kept hk hb)
  · exact takeImage_kept (landRanges_kept hk hb)

theorem takeArrived_kept {m : Msg} {x : Ctx} {i : CkptImage} {body : List Byte} (hk : Kept ω z s) (hb : ω.bytes = false) : Kept ω z (takeArrived m s x i body).state := by
  unfold takeArrived
  dsimp only
  split
  · exact hk
  · split
    · split
      · exact abortCkpt_kept hk
      · exact holdFor_kept hk
    · exact landImage_kept hk hb

theorem endBusy_kept {h : Held} (hk : Kept ω z s) : Kept ω z (endBusy s h) := endHeld_kept (busyRetry_kept hk)

theorem modIndex_kept {i : Nat} {f : Index → Index} (hk : Kept ω z s) : Kept ω z (s.modIndex i f) := Kept.frame hk rfl

theorem raiseFloor_kept {i : Nat} {floor : Nat} (hk : Kept ω z s) : Kept ω z (raiseFloor s i floor) := modIndex_kept hk

theorem settleFloor_kept {h : Held} (hk : Kept ω z s) : Kept ω z (settleFloor s h) := by
  unfold settleFloor
  dsimp only
  split
  · exact hk
  · split
    · exact endHeld_kept hk
    · exact Kept.ite (endHeld_kept hk) (endHeld_kept (raiseFloor_kept hk))

theorem settleFloors_kept (hk : Kept ω z s) : Kept ω z (settleFloors s) := foldl_kept (fun _ _ hk₁ => settleFloor_kept hk₁) hk

theorem noteRoots_kept {old : List (BitVec 48)} (hk : Kept ω z s) : Kept ω z (noteRoots old s) := Kept.ite (postErr_kept hk) hk

theorem noteAdoption_kept {p : Nat} (hk : Kept ω z s) : Kept ω z (s.noteAdoption p) := Kept.ite (postErr_kept (modPort_kept hk)) (modPort_kept hk)

theorem replayFrames_kept {p : Nat} (hk : Kept ω z s) : Kept ω z (replayFrames s p) := by
  unfold replayFrames
  dsimp only
  split
  · exact Kept.ite (modPort_kept hk) hk
  · exact foldl_kept (fun _ _ hk₁ => emit_kept hk₁) (modPort_kept (Kept.ite (modPort_kept hk) hk))

theorem enterTarget_kept {p : Nat} (hk : Kept ω z s) : Kept ω z (s.enterTarget p) := by
  unfold State.enterTarget
  dsimp only
  split
  · refine noteRoots_kept ?_
    refine drain_kept ?_
    split
    · split
      · exact replayFrames_kept (postErr_kept (modPort_kept (noteAdoption_kept hk)))
      · exact postErr_kept (modPort_kept (noteAdoption_kept hk))
    · exact Kept.ite (replayFrames_kept (modPort_kept (noteAdoption_kept hk))) (modPort_kept (noteAdoption_kept hk))
  · exact Kept.ite (postErr_kept (modPort_kept (noteAdoption_kept hk))) (modPort_kept (noteAdoption_kept hk))

theorem loseOp_kept {o : NetOp} (hk : Kept ω z s) : Kept ω z (s.loseOp o) := by
  unfold State.loseOp
  dsimp only
  split
  · exact modStarted_kept (endOp_kept hk)
  · exact endOp_kept hk

theorem countFailed_kept {v : Via} {n : Nat} (hk : Kept ω z s) : Kept ω z (s.countFailed v n) := by
  unfold State.countFailed
  split
  · exact modPort_kept hk
  · exact modConn_kept hk

theorem losePath_kept {v : Via} (hk : Kept ω z s) : Kept ω z (s.losePath v) := countFailed_kept (foldl_kept (fun _ _ hk₁ => modStarted_kept hk₁) (foldl_kept (fun _ _ hk₁ => loseOp_kept hk₁) hk))

theorem holdLost_kept {fs : List TxFrame} (hk : Kept ω z s) : Kept ω z (s.holdLost fs) := foldl_kept (fun _ _ hk₁ => holdCredit_kept hk₁) (Kept.frame hk rfl)

theorem losePort_kept {p : Nat} {keepReplay : Bool} (hk : Kept ω z s) : Kept ω z (s.losePort p keepReplay) := holdLost_kept (modPort_kept (losePath_kept hk))

theorem settlePort_kept {p : Nat} (hk : Kept ω z s) : Kept ω z (s.settlePort p) := by
  unfold State.settlePort
  dsimp only
  split
  · exact Kept.ite (noteAdoption_kept hk) (enterTarget_kept (Kept.ite (modPort_kept (losePort_kept hk)) hk))
  · exact hk

theorem settlePorts_kept (hk : Kept ω z s) : Kept ω z s.settlePorts := flushCredits_kept (foldl_kept (fun _ _ hk₁ => settlePort_kept hk₁) hk)

theorem cutEndpoint_kept {i : Nat} {st : BitVec 16} (hk : Kept ω z s) : Kept ω z (s.cutEndpoint i st) := by
  unfold State.cutEndpoint
  refine wakeEndpoint_kept ?_
  refine Kept.frame ?_ rfl
  refine foldl_kept (fun _ _ hk₁ => Kept.ite (modPort_kept hk₁) hk₁) ?_
  refine withdraw_kept ?_
  refine foldl_kept ?_ hk
  intro _ _ hk₁
  dsimp only
  split
  · exact modStarted_kept (countFailed_kept (endOp_kept hk₁))
  · exact countFailed_kept (endOp_kept hk₁)

theorem judgeEndpoint_kept {i : Nat} (hk : Kept ω z s) : Kept ω z (s.judgeEndpoint i) := by
  unfold State.judgeEndpoint
  split
  · exact hk
  · dsimp only
    split
    · exact Kept.frame hk rfl
    · exact Kept.ite (Kept.frame hk rfl) (postErr_kept (cutEndpoint_kept (Kept.frame hk rfl)))

theorem judgeAll_kept (hk : Kept ω z s) : Kept ω z s.judgeAll := foldl_kept (fun _ _ hk₁ => judgeEndpoint_kept hk₁) hk

theorem rejudge_kept (hk : Kept ω z s) : Kept ω z s.rejudge := settlePorts_kept (judgeAll_kept hk)

theorem setMode_kept {f : TimeState → TimeState} (hk : Kept ω z s) : Kept ω z (setMode s f) := rejudge_kept (Kept.ite (noteRoots_kept (Kept.frame hk rfl)) (helloAll_kept (noteRoots_kept (Kept.frame hk rfl))))

theorem fireEdge_kept {i : Nat} {late : Bool} (hk : Kept ω z s) : Kept ω z (fireEdge s i late) := by
  unfold fireEdge
  split
  · exact hk
  · exact Kept.frame (Kept.ite (postErr_kept (addEvent_kept hk)) (addEvent_kept hk)) rfl

theorem stepGtc_kept {v : BitVec 64} (hk : Kept ω z s) : Kept ω z (stepGtc s v) := Kept.ite hk (foldl_kept (fun _ _ hk₁ => fireEdge_kept hk₁) (Kept.frame hk rfl))

theorem abortRest_kept {h : Held} (hk : Kept ω z s) : Kept ω z (abortRest s h) := foldl_kept (fun _ _ hk₁ => abortCmd_kept hk₁) hk

theorem endReplay_kept {h : Held} (hk : Kept ω z s) : Kept ω z (endReplay s h) := Kept.ite (endBusy_kept hk) (endHeld_kept (Kept.frame (foldl_kept (fun _ _ hk₁ => abortQueue_kept hk₁) hk) rfl))

theorem forgetIndex_kept {i : Nat} (hk : Kept ω z s) : Kept ω z (forgetIndex s i) := foldl_kept (fun _ _ hk₁ => modQueue_kept hk₁) (Kept.frame hk rfl)

theorem optNow_kept {x : Ctx} {opcode : BitVec 16} (hk : Kept ω z s) : Kept ω z (optNow s x opcode).state := by
  unfold optNow
  dsimp only
  split
  · exact hk
  · exact applyOpt_kept hk

theorem clearBuckets_kept {g : Nat} (hk : Kept ω z s) : Kept ω z (clearBuckets s g) := Kept.frame hk rfl

theorem zeroLanding_kept {c : Nat} {w : Nat} (hk : Kept ω z s) : Kept ω z (zeroLanding s c w) := by
  unfold zeroLanding
  split
  · exact hk
  · exact modCfg_kept hk

theorem enterTraining_kept {p : Nat} (hk : Kept ω z s) : Kept ω z (s.enterTraining p) := modPort_kept hk

theorem startTraining_kept (hk : Kept ω z s) : Kept ω z (startTraining s) := foldl_kept (fun _ _ hk₁ => Kept.ite (enterTraining_kept hk₁) hk₁) hk

theorem endSession_kept {p : Nat} (hk : Kept ω z s) : Kept ω z (s.endSession p) := Kept.ite (postErr_kept (modPort_kept (losePort_kept hk))) hk

theorem disablePort_kept {p : Nat} (hk : Kept ω z s) : Kept ω z (disablePort s p) := modPort_kept (endSession_kept hk)

theorem enterRetrain_kept {p : Nat} (hk : Kept ω z s) : Kept ω z (enterRetrain s p) := modPort_kept hk

theorem modEth_kept {p : Nat} {f : EthPort → EthPort} (hk : Kept ω z s) : Kept ω z (s.modEth p f) := Kept.frame hk rfl

theorem failCheckpoints_kept {c : BitVec 12} (hk : Kept ω z s) : Kept ω z (failCheckpoints s c) := by
  unfold failCheckpoints
  dsimp only
  split
  · exact foldl_kept (fun _ _ hk₁ => endHeld_kept hk₁) hk
  · exact Kept.frame (foldl_kept (fun _ _ hk₁ => endHeld_kept hk₁) hk) rfl

theorem loseConn_kept {c : Nat} (hk : Kept ω z s) : Kept ω z (s.loseConn c) := holdLost_kept (modConn_kept (losePath_kept hk))

theorem failConn_kept {c : BitVec 12} (hk : Kept ω z s) : Kept ω z (failConn s c) := failCheckpoints_kept (loseConn_kept hk)

theorem takeSource_kept (hk : Kept ω z s) : Kept ω z (takeSource s) := by
  unfold takeSource
  split
  · exact hk
  · split <;> exact Kept.frame hk rfl

theorem settleAlert_kept (hk : Kept ω z s) : Kept ω z (settleAlert s) := Kept.ite (releaseAlert_kept hk) hk

theorem alertRead_kept {from' : Nat} {got : List ErrRec} {all : Bool} (hk : Kept ω z s) : Kept ω z (alertRead s from' got all) := settleAlert_kept (Kept.frame hk rfl)

theorem actChallenge_kept {nonce : BitVec 256} (hk : Kept ω z s) : Kept ω z (actChallenge nonce s).1 := by
  unfold actChallenge
  split
  · exact hk
  · exact Kept.frame hk rfl

theorem unlocked_kept {method : Nat} (hk : Kept ω z s) : Kept ω z (unlocked s method).1 := postErr_kept (Kept.frame hk rfl)

theorem unlockFailed_kept (hk : Kept ω z s) : Kept ω z (unlockFailed s).1 := postErr_kept (Kept.frame hk rfl)

theorem actUnlock_kept {x : Ctx} (hk : Kept ω z s) : Kept ω z (actUnlock x s).1 := by
  unfold actUnlock
  dsimp only
  split
  · exact hk
  · split
    · exact hk
    · split
      · exact hk
      · split
        · exact hk
        · split
          · split
            · exact hk
            · split
              · split
                · exact unlocked_kept (Kept.frame hk rfl)
                · exact unlockFailed_kept (Kept.frame hk rfl)
              · split
                · exact unlocked_kept (Kept.frame hk rfl)
                · exact unlockFailed_kept (Kept.frame hk rfl)
          · split
            · exact hk
            · split
              · exact unlocked_kept hk
              · exact unlockFailed_kept hk

theorem actUpdate_kept {x : Ctx} (hk : Kept ω z s) : Kept ω z (actUpdate x s).1 := by
  unfold actUpdate
  split
  · exact hk
  · split
    · exact hk
    · split
      · exact hk
      · exact Kept.frame hk rfl

theorem dropHeldWork_kept (hk : Kept ω z s) : Kept ω z (dropHeldWork s) := Kept.frame (foldl_kept (fun _ _ hk₁ => Kept.ite (modQueue_kept hk₁) hk₁) hk) rfl

theorem openStep_kept {a : LogArgs} {rs : List (Nat × Nat)} (hk : Kept ω z s) : Kept ω z (openStep s a rs) := Kept.frame (scan_kept hk) rfl

theorem putRecord_kept {y : StepRec} (hk : Kept ω z s) (hb : ω.bytes = false) : Kept ω z (putRecord s y) := hbmWrite_kept (hbmWrite_kept hk hb) hb

theorem closeStep_kept (hk : Kept ω z s) (hb : ω.bytes = false) : Kept ω z s.closeStep := by
  unfold State.closeStep
  split
  · exact hk
  · exact putRecord_kept (Kept.frame (scan_kept hk) rfl) hb

theorem setReplayLog_kept {m : Msg} {x : Ctx} (hk : Kept ω z s) (hb : ω.bytes = false) : Kept ω z (setReplayLog m s x).state := by
  have read : Kept ω z (if inHbm (logArgs x.p).addr (16 * (logArgs x.p).count) then hbmRead s (logArgs x.p).addr (16 * (logArgs x.p).count) else ([], none, s)).2.2 := by
    split
    · exact hbmRead_kept hk
    · exact hk
  unfold setReplayLog
  dsimp only
  generalize (if inHbm (logArgs x.p).addr (16 * (logArgs x.p).count) then hbmRead s (logArgs x.p).addr (16 * (logArgs x.p).count) else ([], none, s)) = d at read
  rw [apply_ite Answer.state]
  refine .ite ?_ ?_
  · rw [apply_ite Answer.state]
    exact .ite (refuse_kept hk) (holdFor_kept hk)
  split
  · exact msgPoison_kept read
  · exact refuse_kept read
  split
  · exact openStep_kept (closeStep_kept read hb)
  · exact Kept.frame read rfl

theorem Kept.third {α β : Type} {a : α} {b : β} (hk : Kept ω z s) : Kept ω z (a, b, s).2.2 := hk

theorem readRecord_kept {base : Nat} (hk : Kept ω z s) : Kept ω z (readRecord s base).2.2 := by
  unfold readRecord
  split
  · exact hk
  · dsimp only
    split
    · exact hbmRead_kept hk
    · exact .third (hbmRead_kept (hbmRead_kept hk))

theorem applyCfg_kept {snap : Snap} {c : Nat} (hk : Kept ω z s) : Kept ω z (applyCfg snap s c) := modCfg_kept hk

theorem applySnap_kept {snap : Snap} (hk : Kept ω z s) : Kept ω z (applySnap s snap) := by
  unfold applySnap
  dsimp only
  split
  · exact Kept.frame (foldl_kept (fun _ _ hk₁ => modIndex_kept hk₁) (foldl_kept (fun _ _ hk₁ => applyCfg_kept hk₁) hk)) rfl
  · refine rejudge_kept ?_
    split
    · exact Kept.frame (foldl_kept (fun _ _ hk₁ => modIndex_kept hk₁) (foldl_kept (fun _ _ hk₁ => applyCfg_kept hk₁) hk)) rfl
    · exact helloAll_kept (Kept.frame (foldl_kept (fun _ _ hk₁ => modIndex_kept hk₁) (foldl_kept (fun _ _ hk₁ => applyCfg_kept hk₁) hk)) rfl)

theorem replayStep_kept {m : Msg} {x : Ctx} (hk : Kept ω z s) (hb : ω.bytes = false) : Kept ω z (replayStep m s x).state := by
  unfold replayStep
  dsimp only
  split
  · split
    · exact refuse_kept hk
    · exact holdFor_kept hk
  · split
    · exact msgPoison_kept (readRecord_kept hk)
    · exact readRecord_kept hk
    · split
      · exact readRecord_kept hk
      · split
        · exact readRecord_kept hk
        · split
          · exact readRecord_kept hk
          · split
            · exact postErr_kept (scan_kept (applySnap_kept (closeStep_kept (readRecord_kept hk) hb)))
            · exact Kept.frame (scan_kept (applySnap_kept (closeStep_kept (readRecord_kept hk) hb))) rfl

theorem spdmAnswer_answers {s' : State} (hk : Kept ω z s) (hk₁ : Kept ω z s') : Answers ω z (spdmAnswer s s') := .next (Kept.ite hk₁ hk)

theorem spdmError_kept {name : String} (hk : Kept ω z s) : Kept ω z (spdmError s name) := emit_kept hk

theorem spdmServe_answers {y : SpdmReq} {s' : State} (hk : Kept ω z s) (hk₁ : Kept ω z s') : Answers ω z (spdmServe y s s') := spdmAnswer_answers hk (Kept.ite (spdmError_kept hk) (Kept.ite (spdmError_kept hk) (Kept.ite (spdmError_kept hk) hk₁)))

theorem store_kept (hk : Kept ω z r.s) : Kept ω z r.store := modStarted_kept hk

theorem beginCmd_kept {c : Nat} {q : Nat} {b : Block} {e : Started} (hk : Kept ω z s) : Kept ω z (beginCmd s c q b e) := modQueue_kept hk

theorem finish_kept (hk : Kept ω z r.s) : Kept ω z r.finish.s := hk

theorem attemptNop_kept (hk : Kept ω z r.s) : Kept ω z (attemptNop r).s := finish_kept hk

theorem block_kept {w : Wait} (hk : Kept ω z r.s) : Kept ω z (r.block w).s := hk

theorem attemptWait_kept (hk : Kept ω z r.s) : Kept ω z (attemptWait r).s := by
  unfold attemptWait
  split
  · exact block_kept hk
  · exact hk

theorem fault_kept {st : Nat} {detail : Nat} (hk : Kept ω z r.s) : Kept ω z (r.fault st detail).s := hk

theorem failWith_kept {st : Nat} {detail : Nat} (hk : Kept ω z r.s) : Kept ω z (r.failWith st detail).s := finish_kept (fault_kept hk)

theorem flag_kept {f : Flags} (hk : Kept ω z r.s) : Kept ω z (r.flag f).s := hk

theorem attemptWaitSlot_kept (hk : Kept ω z r.s) : Kept ω z (attemptWaitSlot r).s := by
  unfold attemptWaitSlot
  dsimp only
  split
  · exact failWith_kept hk
  · split
    · split
      · exact block_kept hk
      · split
        · exact failWith_kept hk
        · split
          · exact block_kept hk
          · exact finish_kept (flag_kept hk)
    · split
      · exact finish_kept (Kept.frame hk rfl)
      · exact block_kept hk

theorem attemptReleaseSlot_kept (hk : Kept ω z r.s) : Kept ω z (attemptReleaseSlot r).s := by
  unfold attemptReleaseSlot
  dsimp only
  split
  · split
    · exact failWith_kept hk
    · exact finish_kept (Kept.ite (Kept.frame hk rfl) (sendCredit_kept (Kept.frame hk rfl)))
  · split
    · exact failWith_kept hk
    · exact finish_kept (Kept.frame hk rfl)

theorem modSlot_kept {q : Nat} {i : Nat} {f : Slot → Slot} (hk : Kept ω z r.s) : Kept ω z (r.modSlot q i f).s := Kept.frame hk rfl

theorem slotSent_kept {q : Nat} {i : Nat} {bytes : Nat} (hk : Kept ω z r.s) : Kept ω z (r.slotSent q i bytes).s := finish_kept (modSlot_kept hk)

theorem devRead_kept {a : Nat} {n : Nat} (hk : Kept ω z s) : Kept ω z (devRead s a n).2.2 := by
  unfold devRead
  split
  · exact hbmRead_kept hk
  · exact Kept.ite (Kept.frame hk rfl) hk
  · exact hk

theorem memRead_kept {a : Nat} {n : Nat} (hk : Kept ω z r.s) : Kept ω z (r.memRead a n).2.s := faults_kept (devRead_kept hk)

theorem struck_kept {o : Option (Nat × Nat × Nat)} (hk : Kept ω z s) : Kept ω z (s.struck o).2 := by
  unfold State.struck
  split
  · exact hk
  · dsimp only
    split <;> exact Kept.frame hk rfl

theorem openFault_kept {st : Nat} (hk : Kept ω z r.s) : Kept ω z (r.openFault st).s := fault_kept hk

theorem fabric_kept {bs : List Bt} (hk : Kept ω z r.s) : Kept ω z (r.fabric bs).2.s := by
  unfold Run.fabric
  split
  · exact hk
  · dsimp only
    split
    · exact openFault_kept (struck_kept hk)
    · exact struck_kept hk

theorem runDevRead_kept {a : Nat} {n : Nat} (hk : Kept ω z r.s) : Kept ω z (r.devRead a n).2.s := fabric_kept (memRead_kept hk)

theorem runSlotData_kept {k : MbQueue} {i : Nat} (hk : Kept ω z r.s) : Kept ω z (r.slotData k i).2.s := by
  unfold Run.slotData
  dsimp only
  split
  · exact finish_kept (runDevRead_kept hk)
  · exact runDevRead_kept hk

theorem toWire_kept {q : Nat} {profile : Nat} {bs : List Bt} (hk : Kept ω z r.s) : Kept ω z (r.toWire q profile bs).2.s := flag_kept hk

theorem recordOut_kept {q : Nat} {mb : BitVec 32} {bs : List Bt} (hk : Kept ω z r.s) : Kept ω z (r.recordOut q mb bs).s := by
  unfold Run.recordOut
  dsimp only
  exact record_kept hk

theorem isolated_kept {k : MbQueue} {q : Nat} {i : Nat} {profile : Nat} (hk : Kept ω z r.s) : Kept ω z (r.isolated k q i profile).s := by
  unfold Run.isolated
  dsimp only
  split
  · exact runSlotData_kept hk
  · exact slotSent_kept (recordOut_kept (toWire_kept (runSlotData_kept hk)))

theorem fixProfile_kept {p : Option (BitVec 3)} (hk : Kept ω z r.s) : Kept ω z (r.fixProfile p).s := hk

theorem sendFrames_kept {v : Via} {fs : List (Nat × Frame)} (hk : Kept ω z s) : Kept ω z (s.sendFrames v fs) := by
  unfold State.sendFrames
  split
  · exact drain_kept (modPort_kept hk)
  · exact drainC_kept (modConn_kept hk)

theorem sendWrite_kept {owner : OpOwner} {kind : OpKind} {tag : Nat} {via : Via} {ep : Nat} {ty : Nat} {f : Frame} {off : Nat} {bs : List Bt} (hk : Kept ω z s) : Kept ω z (sendWrite s owner kind tag via ep ty f off bs) := sendFrames_kept (addOp_kept hk)

theorem launch_kept {k : MbQueue} {q : Nat} {i : Nat} {tag : Nat} {via : Via} {ep : Nat} {rs : Nat} {gen : BitVec 16} {profile : Nat} (hk : Kept ω z r.s) : Kept ω z (r.launch k q i tag via ep rs gen profile).s := by
  unfold Run.launch
  dsimp only
  split
  · exact runSlotData_kept hk
  · split
    · exact slotSent_kept (Kept.frame (recordOut_kept (toWire_kept (runSlotData_kept hk))) rfl)
    · exact block_kept (sendWrite_kept (Kept.frame (recordOut_kept (toWire_kept (runSlotData_kept hk))) rfl))

theorem sendOn_kept {k : MbQueue} {q : Nat} {i : Nat} {want : Nat} (hk : Kept ω z r.s) : Kept ω z (r.sendOn k q i want).s := by
  unfold Run.sendOn
  split
  · exact isolated_kept hk
  · split
    · exact failWith_kept hk
    · dsimp only
      split
      · exact failWith_kept (fixProfile_kept hk)
      · exact block_kept (fixProfile_kept hk)
      · split
        · exact block_kept (fixProfile_kept hk)
        · split
          · exact block_kept (fixProfile_kept hk)
          · split
            · exact coherent_stop_kept (fixProfile_kept hk) ‹_›
            · exact launch_kept (coherent_go_kept (fixProfile_kept hk) ‹_›)

theorem attemptSendSlot_kept {want : Nat} (hk : Kept ω z r.s) : Kept ω z (attemptSendSlot want r).s := by
  unfold attemptSendSlot
  dsimp only
  split
  · exact failWith_kept hk
  · split
    · split
      · exact block_kept hk
      · split
        · exact slotSent_kept hk
        · exact finish_kept hk
    · split
      · exact sendOn_kept hk
      · split
        · exact failWith_kept hk
        · exact sendOn_kept (modSlot_kept hk)

theorem localRead_kept {base : Nat} {a : Nat} {n : Nat} (hk : Kept ω z r.s) : Kept ω z (r.localRead base a n).2.s := by
  unfold Run.localRead
  refine faults_kept ?_
  split
  · refine fault_kept ?_
    split
    · exact Kept.frame hk rfl
    · exact hk
  · split
    · exact Kept.frame hk rfl
    · exact hk

theorem readRec_kept {c : EpiCfg} (hk : Kept ω z r.s) : Kept ω z (r.readRec c).2.s := by
  unfold Run.readRec
  split
  · exact hk
  · dsimp only
    split
    · exact finish_kept (localRead_kept hk)
    · split
      · exact localRead_kept hk
      · exact failWith_kept (localRead_kept hk)

theorem takeArrays_kept (hk : Kept ω z r.s) : Kept ω z (takeArrays r).s := modCore_kept hk (fun _ => ⟨id, fun _ => rfl⟩)

theorem elem_kept {fmt : Nat} {a : Actl} {base : Nat} {addr : Nat} (hk : Kept ω z r.s) : Kept ω z (r.elem fmt a base addr).2.s := flag_kept (localRead_kept hk)

theorem readLane_kept {fmt : Nat} {a : Actl} {base : Nat} {addr : Nat → Option Nat} {a' : Nat} {a'' : Nat} (hk : Kept ω z r.s) : Kept ω z (readLane fmt a base addr a' a'' r).2.s := by
  induction a' generalizing fmt a base addr a'' r with
  | zero => exact hk
  | succ a' ih =>
    unfold readLane
    refine ih ?_
    split
    · exact hk
    · exact elem_kept hk

theorem readLanes_kept {fmt : Nat} {a : Actl} {base : Nat} {addr : Nat → Nat → Option Nat} {len : Nat} {a' : Nat} {a'' : Nat} (hk : Kept ω z r.s) : Kept ω z (readLanes fmt a base addr len a' a'' r).2.s := by
  induction a' generalizing fmt a base addr len a'' r with
  | zero => exact hk
  | succ a' ih => exact ih (readLane_kept hk)

theorem loadTile_kept {m : MatArgs} {a : Actl} {lt : Nat} {ch : Nat} (hk : Kept ω z r.s) : Kept ω z (loadTile m a lt ch r).2.s := readLanes_kept hk

theorem usedRead_kept {base : Nat} {a : Nat} {n : Nat} {used : Nat → Bool} (hk : Kept ω z r.s) : Kept ω z (r.usedRead base a n used).2.s := by
  unfold Run.usedRead
  refine faults_kept ?_
  split
  · refine fault_kept ?_
    split
    · exact Kept.frame hk rfl
    · exact hk
  · split
    · exact Kept.frame hk rfl
    · exact hk

theorem readBlock_kept {fmt : Nat} {a : Actl} {base : Nat} {addr : Nat} {live : Nat → Nat → Bool} {ni : Nat} {nj : Nat} (hk : Kept ω z r.s) : Kept ω z (readBlock fmt a base addr live ni nj r).2.s := flag_kept (usedRead_kept hk)

theorem accStart_kept {m : MatArgs} {a : Actl} {t0 : Nat} {tn : Nat} {n0 : Nat} {nn : Nat} (hk : Kept ω z r.s) : Kept ω z (accStart m a t0 tn n0 nn r).2.s := by
  unfold accStart
  split
  · exact readLanes_kept hk
  · exact hk

theorem readWords_kept {addr : Nat} {fmt : Nat} {lo : Nat} {n : Nat} (hk : Kept ω z r.s) : Kept ω z (r.readWords addr fmt lo n).2.s := by
  unfold Run.readWords
  dsimp only
  split
  · exact finish_kept (localRead_kept hk)
  · exact localRead_kept hk

theorem readVecs_kept {c : EpiCfg} {x : BitVec 512} {lo : Nat} {n : Nat} (hk : Kept ω z r.s) : Kept ω z (r.readVecs c x lo n).2.s := by
  unfold Run.readVecs
  dsimp only
  split
  · dsimp only
    split
    · exact readWords_kept hk
    · exact hk
  · dsimp only
    split
    · refine readWords_kept ?_
      split
      · exact readWords_kept hk
      · exact hk
    · dsimp only
      split
      · exact readWords_kept hk
      · exact hk

theorem localPut_kept {base : Nat} {a : Nat} {bs : List Bt} (hk : Kept ω z r.s) (hb : ω.bytes = false) : Kept ω z (r.localPut base a bs).1.s := by
  unfold Run.localPut
  split
  · exact hk
  · refine faults_kept ?_
    split
    · exact fault_kept (spadWrite_kept hk hb)
    · exact spadWrite_kept hk hb

theorem localWrite_kept {base : Nat} {a : Nat} {bs : List Bt} (hk : Kept ω z r.s) (hb : ω.bytes = false) : Kept ω z (r.localWrite base a bs).s := localPut_kept hk hb

theorem writeGrid_kept {base : Nat} {cols : Nat} {fmt : Nat} {t0 : Nat} {n0 : Nat} {late : List Nat} {outs : List (List EpiOut)} (hk : Kept ω z r.s) (hb : ω.bytes = false) : Kept ω z (r.writeGrid base cols fmt t0 n0 late outs).s := foldlRun_kept (fun _ _ hk₁ => foldlRun_kept (fun _ _ hk₂ => flag_kept (localWrite_kept hk₂ hb)) hk₁) hk

theorem claims_kept {stream : Nat} (hk : Kept ω z r.s) : Kept ω z (r.claims stream).s := hk

theorem devWrite_kept {a : Nat} {bs : List Bt} (hk : Kept ω z s) (hb : ω.bytes = false) : Kept ω z (devWrite s a bs).1 := by
  unfold devWrite
  split
  · exact hbmWrite_kept hk hb
  · exact spadWrite_kept hk hb
  · exact hk

theorem memPut_kept {a : Nat} {bs : List Bt} (hk : Kept ω z r.s) (hb : ω.bytes = false) : Kept ω z (r.memPut a bs).1.s := faults_kept (devWrite_kept hk hb)

theorem devPut_kept {a : Nat} {bs : List Bt} (hk : Kept ω z r.s) (hb : ω.bytes = false) : Kept ω z (r.devPut a bs).1.s := memPut_kept (fabric_kept hk) hb

theorem runDevWrite_kept {a : Nat} {bs : List Bt} (hk : Kept ω z r.s) (hb : ω.bytes = false) : Kept ω z (r.devWrite a bs).s := devPut_kept hk hb

theorem setRec_kept {c : Nat} {stream : Nat} {v : Option SaveRec} (hk : Kept ω z s) : Kept ω z (s.setRec c stream v) := modCore_kept hk (fun _ => ⟨id, fun _ => rfl⟩)

theorem appendBlock_kept {stream : Nat} {a : Actl} {raw : List Bt} (hk : Kept ω z r.s) (hb : ω.bytes = false) : Kept ω z (appendBlock stream a r raw).s := by
  unfold appendBlock
  split
  · exact hk
  · exact flag_kept (setRec_kept (runDevWrite_kept hk hb))

theorem append_kept {stream : Nat} {a : Actl} {bytes : List Bt} {bf : Bool} (hk : Kept ω z r.s) (hb : ω.bytes = false) : Kept ω z (r.append stream a bytes bf).s := by
  unfold Run.append
  split
  · exact fault_kept hk
  · exact foldlRun_kept (fun _ _ hk₁ => appendBlock_kept hk₁ hb) hk

theorem outsDone_kept (hk : Kept ω z r.s) : Kept ω z r.outsDone.s := by
  unfold Run.outsDone
  split
  · exact finish_kept hk
  · exact hk

theorem readElts_kept {a : Actl} {xf : Nat} {bf : Nat} {x : Nat} {b : Nat} {n : Nat} (hk : Kept ω z r.s) : Kept ω z (readElts a xf bf x b n r).2.s := foldl_inv (P := fun x : List (Option FV × Option FV) × Run => Kept ω z x.2.s) (fun _ _ hk₁ => readLane_kept (readLane_kept hk₁)) hk

theorem takeVector_kept (hk : Kept ω z r.s) : Kept ω z (takeVector r).s := modCore_kept hk (fun _ => ⟨id, fun _ => rfl⟩)

theorem rowBytesAt_kept {base : Nat} {addr : Nat} {n : Nat} (hk : Kept ω z r.s) : Kept ω z (r.rowBytesAt base addr n).2.s := by
  unfold Run.rowBytesAt
  dsimp only
  split
  · exact finish_kept (localRead_kept hk)
  · exact localRead_kept hk

theorem writeRow_kept {o : RowOut} (hk : Kept ω z r.s) (hb : ω.bytes = false) : Kept ω z (r.writeRow o).s := by
  unfold Run.writeRow
  refine foldlRun_kept ?_ (flag_kept hk)
  intro _ _ hk₁
  dsimp only
  split
  · exact hk₁
  · split
    · exact localPut_kept hk₁ hb
    · exact finish_kept (localPut_kept hk₁ hb)

theorem rowVals_kept {used : Bool} {a : Actl} {fmt : Nat} {base : Nat} {off : Nat} {n : Nat} (hk : Kept ω z r.s) : Kept ω z (r.rowVals used a fmt base off n).2.s := by
  unfold Run.rowVals
  split
  · exact hk
  · dsimp only
    split
    · exact rowBytesAt_kept hk
    · exact flag_kept (rowBytesAt_kept hk)

theorem softRec_kept {v : VecArgs} {a : Actl} {row : Nat} (hk : Kept ω z r.s) : Kept ω z (r.softRec v a row).2.s := rowBytesAt_kept hk

theorem vecRow_kept {v : VecArgs} {x : BitVec 512} {row : Nat} (hk : Kept ω z r.s) (hb : ω.bytes = false) : Kept ω z (r.vecRow v x row).s := by
  unfold Run.vecRow
  dsimp only
  split
  · split
    · exact rowBytesAt_kept hk
    · exact writeRow_kept (rowBytesAt_kept hk) hb
  · split
    · exact rowVals_kept hk
    · split
      · split
        · exact softRec_kept (rowVals_kept hk)
        · exact writeRow_kept (softRec_kept (rowVals_kept hk)) hb
      · split
        · exact rowVals_kept (rowVals_kept hk)
        · split
          · exact rowVals_kept (rowVals_kept (rowVals_kept hk))
          · exact writeRow_kept (rowVals_kept (rowVals_kept (rowVals_kept hk))) hb

theorem vecRows_kept {v : VecArgs} {x : BitVec 512} {a : Nat} {a' : Nat} (hk : Kept ω z r.s) (hb : ω.bytes = false) : Kept ω z (Run.vecRows v x a a' r).s := by
  induction a generalizing v x a' r with
  | zero => exact hk
  | succ a ih =>
    unfold Run.vecRows
    split
    · exact hk
    · exact ih (vecRow_kept hk hb)

theorem attemptVector_kept (hk : Kept ω z r.s) (hb : ω.bytes = false) : Kept ω z (attemptVector r).s := by
  unfold attemptVector
  dsimp only
  split
  · split
    · exact readRec_kept (takeVector_kept hk)
    · split
      · exact failWith_kept (readRec_kept (takeVector_kept hk))
      · exact finish_kept (vecRows_kept (readRec_kept (takeVector_kept hk)) hb)
  · exact finish_kept (vecRows_kept (takeVector_kept hk) hb)

theorem gates_kept {sd : Side × Side} {t : TagPlan} {pos k : Nat} (hk : Kept ω z r.s) : Kept ω z (r.gates sd t pos k).1.s := by
  have gate : ∀ (acc : Run × Bool) (slot addr : Nat) (full : Bool), Kept ω z acc.1.s → Kept ω z (if !acc.2 then acc
      else match acc.1.tagGate slot addr full with
        | some x => (x, false)
        | none => ({ acc.1 with e := { acc.1.e with granted := acc.1.e.granted ++ [(slot, full)] } }, true)).1.s := by
    intro acc slot addr full hk
    split
    · exact hk
    split
    next h => exact tagGate_kept hk h
    · exact hk
  unfold Run.gates
  dsimp only
  split
  · refine foldl_inv (P := fun x : Run × Bool => Kept ω z x.1.s) (fun acc y hk => gate _ _ _ _ hk) ?_
    split
    · exact foldl_inv (P := fun x : Run × Bool => Kept ω z x.1.s) (fun acc y hk => gate _ _ _ _ hk) hk
    · exact hk
  · split
    · exact foldl_inv (P := fun x : Run × Bool => Kept ω z x.1.s) (fun acc y hk => gate _ _ _ _ hk) hk
    · exact hk

theorem readSide_kept {side : Side} {pos : Nat} {n : Nat} (hk : Kept ω z r.s) : Kept ω z (r.readSide side pos n).2.s := by
  unfold Run.readSide
  split
  · exact localRead_kept hk
  · refine foldl_inv (P := fun x : List Bt × Run => Kept ω z x.2.s) ?_ hk
    exact fun _ _ hk₁ => localRead_kept hk₁
  · exact memRead_kept hk
  · exact hk

theorem carry_kept {sd : Side × Side} {keep : Bool} {bs : List Bt} (hk : Kept ω z r.s) : Kept ω z (r.carry sd keep bs).2.s := by
  unfold Run.carry
  dsimp only
  split
  · exact fabric_kept hk
  · exact hk

theorem advance_kept {pos : Nat} (hk : Kept ω z r.s) : Kept ω z (r.advance pos).s := hk

theorem setSlots_kept {xs : List (Nat × Nat)} {v : Bool} (hk : Kept ω z r.s) : Kept ω z (r.setSlots xs v).s := foldlRun_kept (fun _ _ hk₁ => modCore_kept hk₁ (fun _ => .ite .refl setTags_coreKept)) hk

theorem tagEffects_kept {sd : Side × Side} {t : TagPlan} {stop : Nat} {n : Nat} (hk : Kept ω z r.s) : Kept ω z (r.tagEffects sd t stop n).s := by
  unfold Run.tagEffects
  dsimp only
  split
  · refine setSlots_kept ?_
    split
    · exact setSlots_kept hk
    · exact hk
  · split
    · exact setSlots_kept hk
    · exact hk

theorem writeSide_kept {side : Side} {pos : Nat} {bs : List Bt} (hk : Kept ω z r.s) (hb : ω.bytes = false) : Kept ω z (r.writeSide side pos bs).1.s := by
  unfold Run.writeSide
  split
  · exact localPut_kept hk hb
  · exact foldl_inv (P := fun x : (Run × Bool) × List Bt => Kept ω z x.1.1.s) (fun _ _ hk₁ => localPut_kept hk₁ hb) hk
  · exact memPut_kept hk hb
  · exact hk

theorem putLines_kept {side : Side} {stop : Nat} {n : Nat} {bs : List Bt} (hk : Kept ω z r.s) (hb : ω.bytes = false) : Kept ω z (r.putLines side stop n bs).1.s := writeSide_kept hk hb

theorem chunk_kept {sd : Side × Side} {keep : Bool} {t : TagPlan} {n : Nat} (hk : Kept ω z r.s) (hb : ω.bytes = false) : Kept ω z (r.chunk sd keep t n).s := by
  unfold Run.chunk
  dsimp only
  generalize min (n - r.e.cursor) _ = k
  have gated : Kept ω z (r.gates sd t r.e.cursor k).1.s := gates_kept hk
  generalize r.gates sd t r.e.cursor k = g at gated
  rw [apply_ite Run.s, apply_ite Run.s]
  have carried : ∀ {l}, Kept ω z ((g.1.readSide sd.1 r.e.cursor k).2.carry sd keep l).2.s := carry_kept (readSide_kept gated)
  refine .ite gated (.ite ?_ ?_)
  · rw [apply_ite Run.s]
    exact .ite (finish_kept carried) (advance_kept (tagEffects_kept carried))
  · rw [apply_ite Run.s]
    exact .ite (finish_kept (putLines_kept carried hb)) (advance_kept (tagEffects_kept (putLines_kept carried hb)))

theorem chunks_kept {sd : Side × Side} {keep : Bool} {t : TagPlan} {n : Nat} {a : Nat} (hk : Kept ω z r.s) (hb : ω.bytes = false) : Kept ω z (Run.chunks sd keep t n a r).s := by
  induction a generalizing sd keep t n r with
  | zero => exact hk
  | succ a ih =>
    unfold Run.chunks
    split
    · exact hk
    · dsimp only
      split
      · exact chunk_kept hk hb
      · exact ih (chunk_kept hk hb)

theorem sendKept_kept {side : Side} {n : Nat} {want : Nat} {publish : Bool} (hk : Kept ω z r.s) : Kept ω z (r.sendKept side n want publish).s := by
  unfold Run.sendKept
  dsimp only
  split
  · exact failWith_kept hk
  · exact block_kept hk
  · split
    · exact block_kept hk
    · exact block_kept (sendWrite_kept hk)

theorem toRemote_kept {sd : Side × Side} {n : Nat} {want : Nat} (hk : Kept ω z r.s) (hb : ω.bytes = false) : Kept ω z (r.toRemote sd n want).s := by
  unfold Run.toRemote
  split
  · split
    · exact finish_kept hk
    · exact block_kept hk
  · split
    · exact failWith_kept hk
    · dsimp only
      split
      · split
        · split
          · exact hk
          · exact sendKept_kept hk
        · split
          · exact chunks_kept hk hb
          · exact sendKept_kept (chunks_kept hk hb)
      · split
        · split
          · exact hk
          · exact sendKept_kept hk
        · split
          · exact chunks_kept hk hb
          · exact sendKept_kept (chunks_kept hk hb)

theorem sendRead_kept {tg : Option Nat × Frame × Nat} {via : Via} {off : Nat} {pos : Nat} {k : Nat} {last : Bool} (hk : Kept ω z r.s) : Kept ω z (r.sendRead tg via off pos k last).s := by
  unfold Run.sendRead
  split
  · exact block_kept hk
  · exact advance_kept (sendFrame_kept (addOp_kept hk))

theorem issueRead_kept {sd : Side × Side} {t : TagPlan} {n : Nat} {want : Nat} (hk : Kept ω z r.s) : Kept ω z (r.issueRead sd t n want).s := by
  unfold Run.issueRead
  dsimp only
  split
  · exact failWith_kept hk
  · exact block_kept hk
  · split
    · exact sendRead_kept (gates_kept hk)
    · split
      · exact gates_kept hk
      · exact block_kept (gates_kept hk)

theorem issueReads_kept {sd : Side × Side} {t : TagPlan} {n : Nat} {want : Nat} {a : Nat} (hk : Kept ω z r.s) : Kept ω z (Run.issueReads sd t n want a r).s := by
  induction a generalizing sd t n want r with
  | zero => exact hk
  | succ a ih =>
    unfold Run.issueReads
    split
    · exact hk
    · dsimp only
      split
      · exact issueRead_kept hk
      · exact ih (issueRead_kept hk)

theorem landRest_kept {side : Side} (hk : Kept ω z r.s) (hb : ω.bytes = false) : Kept ω z (r.landRest side).s := foldlRun_kept (fun _ _ hk₁ => writeSide_kept hk₁ hb) hk

theorem arrive_kept {c : Nat} {i : Nat} {bytes : Nat} {last : Bool} (hk : Kept ω z s) : Kept ω z (s.arrive c i bytes last) := modCore_kept hk (fun _ => modCounter_coreKept)

theorem countCopy_kept {side : Side} {n : Nat} (hk : Kept ω z r.s) : Kept ω z (r.countCopy side n).s := by
  unfold Run.countCopy
  split
  · split
    · split
      · exact arrive_kept hk
      · exact hk
    · exact hk
  · exact hk

theorem inside_kept {sd : Side × Side} {n : Nat} (hk : Kept ω z r.s) (hb : ω.bytes = false) : Kept ω z (r.inside sd n).s := by
  unfold Run.inside
  split
  · exact coherent_stop_kept hk ‹_›
  · dsimp only
    split
    · exact chunks_kept (coherent_go_kept hk ‹_›) hb
    · exact finish_kept (countCopy_kept (chunks_kept (coherent_go_kept hk ‹_›) hb))

theorem attemptTag_kept (hk : Kept ω z r.s) : Kept ω z (attemptTag r).s := by
  unfold attemptTag
  dsimp only
  split
  · split
    · exact failWith_kept (setSlots_kept hk)
    · exact finish_kept (setSlots_kept hk)
  · split
    · exact failWith_kept hk
    · split
      · exact finish_kept hk
      · exact block_kept hk

theorem attemptOpen_kept (hk : Kept ω z r.s) : Kept ω z (attemptOpen r).s := by
  unfold attemptOpen
  dsimp only
  split
  · exact failWith_kept hk
  · split
    · exact failWith_kept hk
    · exact finish_kept (setRec_kept hk)

theorem attemptSaveCopy_kept (hk : Kept ω z r.s) (hb : ω.bytes = false) : Kept ω z (attemptSaveCopy r).s := by
  unfold attemptSaveCopy
  dsimp only
  split
  · exact failWith_kept hk
  · exact finish_kept (claims_kept (append_kept (localRead_kept hk) hb))

theorem attemptClose_kept (hk : Kept ω z r.s) : Kept ω z (attemptClose r).s := by
  unfold attemptClose
  dsimp only
  split
  · exact failWith_kept hk
  · split
    · exact failWith_kept hk
    · split
      · exact hk
      · exact finish_kept (setRec_kept hk)

theorem restoreBlock_kept {a : Actl} {coding : Nat} {addr : Nat} {index : Nat} (hk : Kept ω z r.s) : Kept ω z (restoreBlock a coding addr index r).2.s := by
  unfold restoreBlock
  split
  · exact runDevRead_kept hk
  · dsimp only
    split
    · exact flag_kept (runDevRead_kept (runDevRead_kept hk))
    · exact fault_kept (runDevRead_kept (runDevRead_kept hk))

theorem restoreBlocks_kept {a : Actl} {coding : Nat} {base : Nat} {a' : Nat} {a'' : Nat} (hk : Kept ω z r.s) : Kept ω z (restoreBlocks a coding base a' a'' r).2.s := by
  induction a' generalizing a coding base a'' r with
  | zero => exact hk
  | succ a' ih => exact ih (restoreBlock_kept hk)

theorem attemptRestore_kept (hk : Kept ω z r.s) (hb : ω.bytes = false) : Kept ω z (attemptRestore r).s := by
  unfold attemptRestore
  dsimp only
  split
  · exact failWith_kept hk
  · exact finish_kept (localWrite_kept (restoreBlocks_kept hk) hb)

theorem joinBatch_kept (hk : Kept ω z r.s) : Kept ω z (joinBatch r).s := by
  unfold joinBatch
  dsimp only
  split
  · exact failWith_kept hk
  · split
    · exact failWith_kept hk
    · split
      · exact failWith_kept hk
      · exact block_kept (modIndex_kept hk)

theorem dirRead_kept {x : Index} {l : Nat} (hk : Kept ω z r.s) : Kept ω z (r.dirRead x l).2.s := runDevRead_kept hk

theorem stamp_kept {k : Index} {d : DirEntry} {item : Nat} {acc : Nat × Run} {j : Nat} (hk : Kept ω z acc.2.s) (hb : ω.bytes = false) : Kept ω z (Run.stamp k d item acc j).2.s := by
  unfold Run.stamp
  dsimp only
  split
  · exact runDevWrite_kept (runDevRead_kept (runDevRead_kept hk)) hb
  · exact runDevRead_kept (runDevRead_kept hk)

theorem attemptDelete_kept (hk : Kept ω z r.s) (hb : ω.bytes = false) : Kept ω z (attemptDelete r).s := by
  unfold attemptDelete
  refine tarnWrite_kept hk ?_
  intro _ _
  dsimp only
  split
  · exact finish_kept (foldl_inv (P := fun x : Nat × Run => Kept ω z x.2.s) (fun _ _ hk₁ => stamp_kept hk₁ hb) (dirRead_kept hk))
  · exact foldl_inv (P := fun x : Nat × Run => Kept ω z x.2.s) (fun _ _ hk₁ => stamp_kept hk₁ hb) (dirRead_kept hk)

theorem doing_kept {first : List Nat} (hk : Kept ω z r.s) : Kept ω z (r.doing first).s := hk

theorem attemptPublish_kept (hk : Kept ω z r.s) : Kept ω z (attemptPublish r).s := by
  unfold attemptPublish
  refine tarnWrite_kept hk ?_
  intro _ _
  dsimp only
  split
  · exact block_kept hk
  · exact finish_kept (modIndex_kept hk)

theorem putPart_kept {p : BufPart} (hk : Kept ω z r.s) (hb : ω.bytes = false) : Kept ω z (r.putPart p).s := runDevWrite_kept hk hb

theorem putParts_kept {ps : List BufPart} (hk : Kept ω z r.s) (hb : ω.bytes = false) : Kept ω z (r.putParts ps).s := foldlRun_kept (fun _ _ hk₁ => putPart_kept hk₁ hb) hk

theorem putRest_kept (hk : Kept ω z r.s) (hb : ω.bytes = false) : Kept ω z r.putRest.s := finish_kept (putParts_kept hk hb)

theorem stopAt_kept {x : Run} {ranges : List (Nat × Nat × Nat)} (hk : Kept ω z x.s) : Kept ω z (r.stopAt x ranges).s := hk

theorem apart_kept (hk : Kept ω z r.s) : Kept ω z r.apart.s := hk

theorem addLine_kept {b : Bucket} {a : Actl} {fresh : Bool} {sf : Nat} {src : Nat} {at' : Nat} {j : Nat} {k : Nat} (hk : Kept ω z r.s) : Kept ω z (addLine b a fresh sf src at' r j k).2.s := by
  unfold addLine
  dsimp only
  split
  · exact localRead_kept (apart_kept hk)
  · exact runDevRead_kept (localRead_kept (apart_kept hk))

theorem putBlocks_kept {first : Nat → Bool} {bs : List (List BufPart)} (hk : Kept ω z r.s) (hb : ω.bytes = false) : Kept ω z (r.putBlocks first bs).s := foldlRun_kept (fun _ _ hk₁ => putParts_kept hk₁ hb) hk

theorem byPeer_kept {r' : Run} {ep : BitVec 12} (hk : Kept ω z r.s) : Kept ω z (r.byPeer r' ep).s := hk

theorem flushAt_kept {stage : Nat} {rank : Nat} (hk : Kept ω z r.s) : Kept ω z (r.flushAt stage rank).s := hk

theorem flushSend_kept {b : Bucket} {grp : Nat} {g : Group} {gather : Bool} {rank : Nat} {want : Nat} (hk : Kept ω z r.s) : Kept ω z (r.flushSend b grp g gather rank want).s := by
  unfold Run.flushSend
  dsimp only
  split
  · exact byPeer_kept (failWith_kept hk)
  · exact block_kept hk
  · split
    · exact block_kept hk
    · exact sendWrite_kept (runDevRead_kept hk)

theorem flushSends_kept {b : Bucket} {grp : Nat} {g : Group} {gather : Bool} {want : Nat} {stage : Nat} {a : Nat} (hk : Kept ω z r.s) : Kept ω z (Run.flushSends b grp g gather want stage a r).s := by
  induction a generalizing b grp g gather want stage r with
  | zero => exact hk
  | succ a ih =>
    unfold Run.flushSends
    dsimp only
    split
    · exact flushAt_kept hk
    · split
      · exact ih (flushAt_kept hk)
      · split
        · exact flushSend_kept hk
        · exact ih (flushAt_kept (flushSend_kept hk))

theorem landedFrom_kept {b : Bucket} {g : Group} {gather : Bool} {rank : Nat} (hk : Kept ω z r.s) : Kept ω z (r.landedFrom b g gather rank).2.s := by
  unfold Run.landedFrom
  dsimp only
  split
  · exact hk
  · exact runDevRead_kept hk

theorem contributions_kept {b : Bucket} {g : Group} (hk : Kept ω z r.s) : Kept ω z (r.contributions b g).2.s := by
  unfold Run.contributions
  refine foldl_inv (P := fun x : List (List Nat) × Run => Kept ω z x.2.s) ?_ hk
  intro _ _ hk₁
  dsimp only
  split
  · exact runDevRead_kept hk₁
  · exact landedFrom_kept hk₁

theorem reduceShard_kept {b : Bucket} {g : Group} (hk : Kept ω z r.s) (hb : ω.bytes = false) : Kept ω z (r.reduceShard b g).s := flag_kept (runDevWrite_kept (contributions_kept hk) hb)

theorem gatherShards_kept {b : Bucket} {g : Group} (hk : Kept ω z r.s) (hb : ω.bytes = false) : Kept ω z (r.gatherShards b g).s := by
  unfold Run.gatherShards
  refine foldlRun_kept ?_ hk
  intro _ _ hk₁
  dsimp only
  split
  · exact hk₁
  · exact runDevWrite_kept (landedFrom_kept hk₁) hb

theorem modGroup_kept {i : Nat} {f : Group → Group} (hk : Kept ω z s) : Kept ω z (s.modGroup i f) := Kept.frame hk rfl

theorem flushEnd_kept {b : Bucket} {grp : Nat} {g : Group} (hk : Kept ω z r.s) : Kept ω z (r.flushEnd b grp g).s := finish_kept (modGroup_kept (zeroLanding_kept hk))

theorem readPart_kept {code : Nat} {base : Nat} {i : Nat} {n : Nat} (hk : Kept ω z r.s) : Kept ω z (readPart code base i n r).2.2.s := runDevRead_kept hk

theorem updateBlock_kept {u : UpdArgs} {o : OptSlot} {a : Actl} {i : Nat} {n : Nat} (hk : Kept ω z r.s) : Kept ω z (updateBlock u o a i n r).2.s := by
  unfold updateBlock
  dsimp only
  split
  · exact readPart_kept (readPart_kept (readPart_kept (readPart_kept hk)))
  · exact readPart_kept (readPart_kept (readPart_kept hk))

theorem updateBlocks_kept {u : UpdArgs} {o : OptSlot} {a : Actl} {a' : Nat} {a'' : Nat} (hk : Kept ω z r.s) : Kept ω z (updateBlocks u o a a' a'' r).2.s := by
  induction a' generalizing u o a a'' r with
  | zero => exact hk
  | succ a' ih =>
    unfold updateBlocks
    split
    · exact hk
    · exact ih (updateBlock_kept (apart_kept hk))

theorem takeUpdate_kept (hk : Kept ω z r.s) : Kept ω z (takeUpdate r).s := Kept.frame hk rfl

theorem endQuarantined_kept {c : Nat} {q : Nat} {id : Nat} (hk : Kept ω z s) : Kept ω z (endQuarantined s c q id) := by
  unfold endQuarantined
  split
  · exact hk
  · exact Kept.ite (abortCmd_kept hk) hk

theorem issueVec_kept {a : QueryArgs} {far : List (Nat × Nat)} {want : Nat} (hk : Kept ω z r.s) : Kept ω z (r.issueVec a far want).s := by
  unfold Run.issueVec
  dsimp only
  split
  · exact failWith_kept hk
  · exact block_kept hk
  · exact sendRead_kept hk

theorem issueVecs_kept {a : QueryArgs} {far : List (Nat × Nat)} {want : Nat} {a' : Nat} (hk : Kept ω z r.s) : Kept ω z (Run.issueVecs a far want a' r).s := by
  induction a' generalizing a far want r with
  | zero => exact hk
  | succ a' ih =>
    unfold Run.issueVecs
    split
    · exact hk
    · dsimp only
      split
      · exact issueVec_kept hk
      · exact ih (issueVec_kept hk)

theorem scoreOf_kept {a : QueryArgs} {q : List Byte} {qBad : Bool} {far : Nat} {c : Cand} (hk : Kept ω z r.s) : Kept ω z (r.scoreOf a q qBad far c).2.2.s := by
  unfold Run.scoreOf
  dsimp only
  split
  · exact hk
  · exact hk
  · dsimp only
    split
    · split
      · exact runDevRead_kept hk
      · exact flag_kept (runDevRead_kept hk)
    · split
      · exact runDevRead_kept hk
      · exact flag_kept (runDevRead_kept hk)
  · dsimp only
    split
    · exact hk
    · exact flag_kept hk

theorem ranked_kept {a : QueryArgs} {pool : List Cand} (hk : Kept ω z r.s) : Kept ω z (r.ranked a pool).2.s := by
  unfold Run.ranked
  split
  · exact hk
  · exact foldl_inv (P := fun x : List (Score × Cand) × Nat × Run => Kept ω z x.2.2.s) (fun _ _ hk₁ => scoreOf_kept hk₁) (runDevRead_kept hk)

theorem report_kept {a : QueryArgs} {pool : List Cand} (hk : Kept ω z r.s) (hb : ω.bytes = false) : Kept ω z (r.report a pool).s := by
  unfold Run.report
  dsimp only
  split
  · exact finish_kept (ranked_kept hk)
  · refine finish_kept ?_
    split
    · exact fault_kept (runDevWrite_kept (ranked_kept hk) hb)
    · exact runDevWrite_kept (ranked_kept hk) hb

theorem doneEvent_kept {c : Nat} {e : Started} (hk : Kept ω z s) : Kept ω z (doneEvent s c e).1 := by
  unfold doneEvent
  split
  · exact addEvent_kept hk
  · exact hk

theorem writeRec_kept {c : Nat} {q : Nat} {e : Started} (hk : Kept ω z s) (hb : ω.bytes = false) : Kept ω z (writeRec s c q e) := by
  unfold writeRec
  split
  · exact hk
  · exact Kept.ite (modQueue_kept (hbmWrite_kept hk hb)) (raise_kept (modQueue_kept (hbmWrite_kept hk hb)))

theorem replayWaits_kept {p : Replay} {lines : List Nat} (hk : Kept ω z s) : Kept ω z (replayWaits s p lines) := Kept.ite hk (Kept.frame (sendSnoops_kept hk) rfl)

theorem armRecorded_kept {rec' : StepRec} {ring : Ring} {b : BlockEntry} (hk : Kept ω z s) (hb : ω.bytes = false) : Kept ω z (armRecorded s rec' ring b) := Kept.frame (recordBlock_kept (modQueue_kept (foldl_kept (fun _ _ hk₁ => hbmWrite_kept hk₁ hb) hk))) rfl

theorem admitRecorded_kept {a : Nat} (hk : Kept ω z s) (hb : ω.bytes = false) : Kept ω z (admitRecorded a s) := by
  induction a generalizing s with
  | zero => exact hk
  | succ a ih =>
    unfold admitRecorded
    split
    · exact hk
    · split
      · exact hk
      · split
        · exact hk
        · exact Kept.ite hk (Kept.ite (replayWaits_kept hk) (ih (armRecorded_kept hk hb)))

theorem recordFill_kept {q : Nat} {i : Nat} (hk : Kept ω z s) : Kept ω z (recordFill s q i) := by
  unfold recordFill
  split
  · exact hk
  · exact Kept.frame hk rfl

theorem replayReply_kept {h : Held} {d : Option (Nat × Nat)} (hk : Kept ω z s) : Kept ω z (replayReply s h d) := by
  unfold replayReply
  split
  · exact endHeld_kept hk
  · exact endHeld_kept (postErr_kept hk)

theorem settleLog_kept (hk : Kept ω z s) (hb : ω.bytes = false) : Kept ω z (settleLog s) := by
  unfold settleLog
  split
  · exact hk
  · split
    · exact Kept.ite hk (contHeld_kept (setReplayLog_kept hk hb))
    · exact Kept.ite (endHeld_kept (openStep_kept (closeStep_kept hk hb))) hk

theorem settleAborts_kept (hk : Kept ω z s) : Kept ω z (settleAborts s) := foldl_kept (fun _ _ hk₁ => endHeld_kept hk₁) hk

theorem breakGroup_kept {e : Started} (hk : Kept ω z s) : Kept ω z (breakGroup s e) := by
  unfold breakGroup
  split
  · split
    · exact hk
    · exact Kept.frame hk rfl
  · exact hk

theorem timeoutCmd_kept {c : Nat} {q : Nat} {e : Started} (hk : Kept ω z s) : Kept ω z (timeoutCmd s c q e) := modStarted_kept hk

theorem keepLines_kept {x : Index} {q : QueryRef} (hk : Kept ω z s) : Kept ω z (keepLines x s q) := modStarted_kept hk

theorem namedLists_kept {x : Index} {a : QueryArgs} (hk : Kept ω z r.s) : Kept ω z (r.namedLists x a).2.s := runDevRead_kept hk

theorem probeOne_kept {x : Index} {acc : List Probe × State} {q : QueryRef} (hk : Kept ω z acc.2) : Kept ω z (probeOne x acc q).2 := by
  unfold probeOne
  split
  · exact hk
  · dsimp only
    split
    · exact hk
    · split
      · exact store_kept (failWith_kept (queryRun_kept hk ‹_›))
      · split
        · exact store_kept (finish_kept (runDevRead_kept (queryRun_kept hk ‹_›)))
        · split
          · exact store_kept (runDevRead_kept (queryRun_kept hk ‹_›))
          · split
            · exact store_kept (failWith_kept (namedLists_kept (runDevRead_kept (queryRun_kept hk ‹_›))))
            · split
              · exact store_kept (finish_kept (namedLists_kept (runDevRead_kept (queryRun_kept hk ‹_›))))
              · exact store_kept (namedLists_kept (runDevRead_kept (queryRun_kept hk ‹_›)))

theorem stream_kept {a : Nat} {n : Nat} (hk : Kept ω z s) : Kept ω z (stream s a n).2 := devRead_kept hk

theorem streamCentroid_kept {x : Index} {acc : List Streamed × State} {l : Nat} (hk : Kept ω z acc.2) : Kept ω z (streamCentroid x acc l).2 := stream_kept hk

theorem streamPosition_kept {x : Index} {d : DirEntry} {acc : List Position × State} {j : Nat} (hk : Kept ω z acc.2) : Kept ω z (streamPosition x d acc j).2 := stream_kept (stream_kept hk)

theorem streamList_kept {x : Index} {acc : List ListStream × State} {l : Nat} (hk : Kept ω z acc.2) : Kept ω z (streamList x acc l).2 := foldl_inv (P := fun x : List Position × State => Kept ω z x.2) (fun _ _ hk₁ => streamPosition_kept hk₁) (stream_kept hk)

theorem meet_kept {x : Streamed} (hk : Kept ω z r.s) : Kept ω z (r.meet x).s := faults_kept hk

theorem scanList_kept {x : Index} {a : QueryArgs} {q : List Byte} {acc : List Cand × Run} {l : ListStream} (hk : Kept ω z acc.2.s) : Kept ω z (Run.scanList x a q acc l).2.s := foldl_inv (P := fun x : List Cand × Run => Kept ω z x.2.s) (fun _ _ hk₁ => meet_kept (meet_kept hk₁)) (meet_kept hk)

theorem poolOne_kept {x : Index} {cs : List Streamed} {ls : List ListStream} {acc : List QueryRef × State} {p : Probe} (hk : Kept ω z acc.2) : Kept ω z (poolOne x cs ls acc p).2 := by
  unfold poolOne
  split
  · exact hk
  · refine store_kept ?_
    refine foldl_inv (P := fun x : List Cand × Run => Kept ω z x.2.s) (fun _ _ hk₁ => scanList_kept hk₁) ?_
    dsimp only
    split
    · exact foldlRun_kept (fun _ _ hk₁ => meet_kept hk₁) (queryRun_kept hk ‹_›)
    · exact queryRun_kept hk ‹_›

theorem streamBatch_kept {i : Nat} {x : Index} {l : List QueryRef} (hk : Kept ω z s) : Kept ω z (streamBatch s i x l) := by
  unfold streamBatch
  refine modIndex_kept ?_
  refine foldl_inv (P := fun x : List QueryRef × State => Kept ω z x.2) (fun _ _ hk₁ => poolOne_kept hk₁) ?_
  refine foldl_inv (P := fun x : List ListStream × State => Kept ω z x.2) (fun _ _ hk₁ => streamList_kept hk₁) ?_
  dsimp only
  split
  · exact foldl_inv (P := fun x : List Streamed × State => Kept ω z x.2) (fun _ _ hk₁ => streamCentroid_kept hk₁) (foldl_inv (P := fun x : List Probe × State => Kept ω z x.2) (fun _ _ hk₁ => probeOne_kept hk₁) hk)
  · exact foldl_inv (P := fun x : List Probe × State => Kept ω z x.2) (fun _ _ hk₁ => probeOne_kept hk₁) hk

theorem dropLines_kept {q : QueryRef} (hk : Kept ω z s) : Kept ω z (dropLines s q) := modStarted_kept hk

theorem byHost_answers {s' : State} (hk : Kept ω z s) (hk₁ : Kept ω z s') : Answers ω z (byHost s s') := .next (Kept.ite hk₁ hk)

theorem ringDoorbell_kept {n : Nat} {v : BitVec 32} (hk : Kept ω z s) : Kept ω z (ringDoorbell s n v) := evalDoorbell_kept (modChan_kept hk)

theorem resetChan_kept {n : Nat} (hk : Kept ω z s) : Kept ω z (resetChan s n) := modChan_kept hk

theorem setEnable_kept {n : Nat} {on : Bool} (hk : Kept ω z s) : Kept ω z (setEnable s n on) := Kept.ite (Kept.ite (evalDoorbell_kept (modChan_kept hk)) hk) (modChan_kept hk)

theorem setCplHead_kept {n : Nat} {v : BitVec 32} (hk : Kept ω z s) : Kept ω z (setCplHead s n v) := modChan_kept hk

theorem bootGo_kept (hk : Kept ω z s) : Kept ω z (bootGo s) := by
  unfold bootGo
  split
  · dsimp only
    split
    · exact bootFailed_kept (setFwStage_kept (Kept.frame hk rfl) (by decide))
    · exact setFwStage_kept (Kept.frame hk rfl) (by decide)
  · exact hk

theorem resetKey_kept {v : BitVec 32} (hk : Kept ω z s) : Kept ω z (resetKey s v) := Kept.ite (Kept.frame hk rfl) hk

theorem clearIrq_kept {v : BitVec 32} (hk : Kept ω z s) : Kept ω z (clearIrq s v) := Kept.frame hk rfl

theorem clearConflicts_kept {c : Nat} {v : BitVec 32} (hk : Kept ω z s) : Kept ω z (clearConflicts s c v) := Kept.ite (modCore_kept hk (fun _ => ⟨id, fun _ => rfl⟩)) hk

theorem setIrqCtl_kept {v : BitVec 32} (hk : Kept ω z s) : Kept ω z (setIrqCtl s v) := Kept.frame hk rfl

theorem setMsix_kept {i : Nat} {w : Nat} {v : BitVec 32} (hk : Kept ω z s) : Kept ω z (setMsix s i w v) := by
  unfold setMsix
  split
  · exact Kept.frame hk rfl
  · exact Kept.frame hk rfl
  · exact Kept.frame hk rfl
  · exact Kept.ite (sendMsix_kept (Kept.frame (Kept.frame hk rfl) rfl)) (Kept.frame hk rfl)

theorem writeBar0_kept {o : Nat} {v : BitVec 32} (hk : Kept ω z s) : Kept ω z (writeBar0 s o v) := by
  unfold writeBar0
  split
  · exact Kept.ite (Kept.frame hk rfl) hk
  · split
    · exact Kept.ite (bootGo_kept hk) hk
    · split
      · exact resetKey_kept hk
      · split
        · exact setIrqCtl_kept hk
        · split
          · exact clearIrq_kept hk
          · exact Kept.ite (Kept.ite (ringDoorbell_kept hk) hk) (Kept.ite (setMsix_kept hk) (Kept.ite (clearConflicts_kept hk) hk))

theorem writeCtl_kept {n : Nat} {v : BitVec 32} (hk : Kept ω z s) : Kept ω z (writeCtl s n v) := Kept.ite (resetChan_kept (modChan_kept hk)) (Kept.ite (modChan_kept hk) (setEnable_kept (modChan_kept hk)))

theorem writeBar4_kept {o : Nat} {v : BitVec 32} (hk : Kept ω z s) : Kept ω z (writeBar4 s o v) := by
  unfold writeBar4
  dsimp only
  split
  · exact Kept.ite (modChan_kept hk) hk
  · split
    · exact Kept.ite (modChan_kept hk) hk
    · exact Kept.ite (writeCtl_kept hk) (Kept.ite (setCplHead_kept hk) (Kept.ite (moderate_kept (modChan_kept hk)) hk))

theorem writeConfig_kept {o : Nat} {v : BitVec 32} (hk : Kept ω z s) : Kept ω z (writeConfig s o v) := Kept.frame hk rfl

theorem writeWord_kept {bar : Bar} {o : Nat} {v : BitVec 32} (hk : Kept ω z s) : Kept ω z (writeWord bar s o v) := by
  unfold writeWord
  split
  · exact writeBar0_kept hk
  · exact writeBar4_kept hk
  · exact writeConfig_kept hk

theorem writeRegister_kept {bar : Bar} {offset : Nat} {size : Nat} {value : BitVec 64} {poison : Bool} (hk : Kept ω z s) : Kept ω z (writeRegister s bar offset size value poison) := by
  unfold writeRegister
  split
  · exact emit_kept hk
  · split
    · exact Kept.ite (writeWord_kept (writeWord_kept hk)) (writeWord_kept hk)
    · split
      · exact postErr_kept hk
      · exact hk
      · exact hk

theorem hostEvict_kept {line : Nat} (hk : Kept ω z s) : Kept ω z (hostEvict s line) := by
  unfold hostEvict
  split
  · exact hk
  · exact hostDrop_kept (crossLine_kept hk)

theorem beginReplay_kept (hk : Kept ω z s) (hb : ω.bytes = false) : Kept ω z (beginReplay s) := by
  unfold beginReplay
  split
  · exact hk
  · exact Kept.ite hk (contHeld_kept (replayStep_kept hk hb))

theorem slotData_kept {q : Nat} {i : Nat} (hk : Kept ω z s) : Kept ω z (slotData s q i).2 := by
  unfold slotData
  split
  · exact hk
  · exact devRead_kept hk

theorem settleSubmits_kept (hk : Kept ω z s) : Kept ω z (settleSubmits s) := foldl_kept (fun _ _ hk₁ => Kept.ite hk₁ (contHeld_kept (submitBlock_kept hk₁))) hk

theorem respond_kept {v : Via} {f : Frame} {ty : Nat} {status : Nat} {reason : Nat} {bs : List Bt} (hk : Kept ω z s) : Kept ω z (respond s v f ty status reason bs) := sendFrame_kept hk

theorem logRefusal_kept {u : Nat × Nat} {f : Frame} {reason : Nat} {window : Nat} (hk : Kept ω z s) : Kept ω z (logRefusal s u f reason window) := postErr_kept hk

theorem settlePfc_kept (hk : Kept ω z s) : Kept ω z s.settlePfc := foldl_kept (fun _ _ hk₁ => Kept.ite hk₁ (emit_kept (modEth_kept hk₁))) hk

theorem writePieces_kept {base : Nat} {poison : Bool} {ps : List InPiece} (hk : Kept ω z s) (hb : ω.bytes = false) : Kept ω z (writePieces s base poison ps).1 := by
  unfold writePieces
  refine foldl_inv (P := fun x : State × List Nat => Kept ω z x.1) (fun _ _ hk₁ => devWrite_kept hk₁ hb) ?_
  dsimp only
  split
  · exact hk
  · exact struck_kept hk

theorem advanceSlot_kept {q : Nat} {i : Nat} {x : SlotFill} {f : Frame} {flags : Flags} (hk : Kept ω z s) : Kept ω z (advanceSlot s q i x f flags) := Kept.ite (recordFill_kept (Kept.frame hk rfl)) (Kept.frame hk rfl)

theorem writeSnapshot_kept (hk : Kept ω z s) (hb : ω.bytes = false) : Kept ω z (writeSnapshot s) := Kept.ite (Kept.frame (hbmWrite_kept hk hb) rfl) (raise_kept (Kept.frame (hbmWrite_kept hk hb) rfl))

theorem settleSnapshots_kept {a : Nat} (hk : Kept ω z s) (hb : ω.bytes = false) : Kept ω z (settleSnapshots a s) := by
  induction a generalizing s with
  | zero => exact hk
  | succ a ih =>
    unfold settleSnapshots
    split
    · exact hk
    · dsimp only
      split
      · exact ih (writeSnapshot_kept (Kept.frame hk rfl) hb)
      · exact Kept.ite (Kept.frame hk rfl) (sendSnoops_kept (Kept.frame hk rfl))

theorem endSnoop_kept {line : Nat} (hk : Kept ω z s) : Kept ω z (endSnoop s line) := Kept.frame hk rfl

theorem resetHostLink_kept (hk : Kept ω z s) : Kept ω z (resetHostLink s) := by
  unfold resetHostLink
  dsimp only
  split
  · exact bootFailed_kept (Kept.frame (foldl_kept (fun _ _ hk₁ => modChan_kept hk₁) (foldl_kept (fun _ _ hk₁ => resetChan_kept hk₁) hk)) rfl)
  · exact Kept.frame (foldl_kept (fun _ _ hk₁ => modChan_kept hk₁) (foldl_kept (fun _ _ hk₁ => resetChan_kept hk₁) hk)) rfl

theorem abortWindowCkpts_kept (hk : Kept ω z s) : Kept ω z (abortWindowCkpts s) := by
  unfold abortWindowCkpts
  dsimp only
  split
  · exact Kept.frame (foldl_kept (fun _ _ hk₁ => endHeld_kept hk₁) hk) rfl
  · exact foldl_kept (fun _ _ hk₁ => endHeld_kept hk₁) hk

theorem sendSync_kept {p : Nat} (hk : Kept ω z s) : Kept ω z (sendSync s p) := emit_kept hk

theorem sendLinkCtl_kept {p : Nat} {vc : Nat} {units : Nat} {replay : Bool} (hk : Kept ω z s) : Kept ω z (s.sendLinkCtl p vc units replay) := emit_kept hk

theorem offerSession_kept {p : Nat} (hk : Kept ω z s) : Kept ω z (offerSession s p) := foldl_kept (fun _ _ hk₁ => sendLinkCtl_kept hk₁) (sendSync_kept (modPort_kept hk))

theorem agreeVersion_kept {p : Nat} {h : Hello} (hk : Kept ω z s) : Kept ω z (agreeVersion s p h) := Kept.ite (Kept.ite (offerSession_kept (modPort_kept hk)) (modPort_kept (modPort_kept hk))) hk

theorem keepPeer_kept {p : Nat} {h : Hello} {relayed : Bool} (hk : Kept ω z s) : Kept ω z (keepPeer s p h relayed) := by
  unfold keepPeer
  split
  · exact hk
  · dsimp only
    split
    · exact foldl_kept (fun _ _ hk₁ => modPort_kept hk₁) (Kept.frame hk rfl)
    · exact postErr_kept (foldl_kept (fun _ _ hk₁ => modPort_kept hk₁) (Kept.frame hk rfl))

theorem returnCredits_kept {p : Nat} {ty : Nat} {f : Frame} (hk : Kept ω z s) : Kept ω z (returnCredits s p ty f) := sendLinkCtl_kept hk

theorem askReplay_kept {p : Nat} (hk : Kept ω z s) : Kept ω z (askReplay s p) := by
  unfold askReplay
  dsimp only
  split
  · exact modPort_kept (enterRetrain_kept (modPort_kept (sendLinkCtl_kept hk)))
  · exact modPort_kept (sendLinkCtl_kept hk)

theorem discardFrame_kept {p : Nat} (hk : Kept ω z s) : Kept ω z (discardFrame s p) := Kept.ite hk (askReplay_kept hk)

theorem acceptPort_kept {p : Nat} {ty : Nat} {f : Frame} (hk : Kept ω z s) : Kept ω z (acceptPort s p ty f).1 := by
  unfold acceptPort
  dsimp only
  split
  · exact hk
  · split
    · exact returnCredits_kept (modPort_kept (drain_kept (modPort_kept hk)))
    · split
      · exact sendLinkCtl_kept (drain_kept (modPort_kept hk))
      · exact discardFrame_kept (drain_kept (modPort_kept hk))

theorem acceptConn_kept {c : BitVec 12} {f : Frame} (hk : Kept ω z s) : Kept ω z (acceptConn s c f).1 := by
  unfold acceptConn
  split
  · exact hk
  · split
    · exact hk
    · split
      · exact hk
      · exact modConn_kept hk

theorem acceptFrame_kept {v : Via} {ty : Nat} {f : Frame} (hk : Kept ω z s) : Kept ω z (acceptFrame s v ty f).1 := by
  unfold acceptFrame
  split
  · exact hk
  · split
    · exact acceptPort_kept hk
    · exact acceptConn_kept hk

theorem inboundBytes_kept {poison : Bool} {bs : List Byte} (hk : Kept ω z s) : Kept ω z (inboundBytes s poison bs).2.2 := by
  unfold inboundBytes
  split
  · exact hk
  · exact struck_kept hk

theorem noteLanding_kept {f : Frame} {t : Target} (hk : Kept ω z s) : Kept ω z (noteLanding s f t) := by
  unfold noteLanding
  split
  · exact modGroup_kept hk
  · exact hk

theorem publish_kept {c : Nat} {a : Nat} {n : Nat} (hk : Kept ω z s) : Kept ω z (s.publish c a n) := modCore_kept hk (fun _ => setTags_coreKept)

theorem landWrite_kept {v : Via} {f : Frame} {t : Target} (hk : Kept ω z s) (hb : ω.bytes = false) : Kept ω z (landWrite s v f t) := by
  unfold landWrite
  dsimp only
  split
  · exact respond_kept hk
  · refine respond_kept ?_
    split
    · refine publish_kept ?_
      split
      · exact arrive_kept (Kept.ite (noteLanding_kept (spadWrite_kept (inboundBytes_kept hk) hb)) (spadWrite_kept (inboundBytes_kept hk) hb))
      · exact Kept.ite (noteLanding_kept (spadWrite_kept (inboundBytes_kept hk) hb)) (spadWrite_kept (inboundBytes_kept hk) hb)
    · split
      · exact arrive_kept (Kept.ite (noteLanding_kept (spadWrite_kept (inboundBytes_kept hk) hb)) (spadWrite_kept (inboundBytes_kept hk) hb))
      · exact Kept.ite (noteLanding_kept (spadWrite_kept (inboundBytes_kept hk) hb)) (spadWrite_kept (inboundBytes_kept hk) hb)

theorem staleResponse_kept (hk : Kept ω z s) : Kept ω z (staleResponse s) := Kept.frame hk rfl

theorem noteLanded_kept {side : Side} {n : Nat} {off : Nat} {len : Nat} (hk : Kept ω z r.s) : Kept ω z (r.noteLanded side n off len).s := by
  unfold Run.noteLanded
  dsimp only
  split
  · exact setSlots_kept hk
  · exact hk

theorem land_kept {side : Side} {n : Nat} {off : Nat} {bs : List Bt} (hk : Kept ω z r.s) (hb : ω.bytes = false) : Kept ω z (r.land side n off bs).s := by
  unfold Run.land
  dsimp only
  split
  · refine noteLanded_kept ?_
    refine foldl_inv (P := fun x : Run × Bool => Kept ω z x.1.s) ?_ hk
    exact fun _ _ hk₁ => writeSide_kept hk₁ hb
  · refine foldl_inv (P := fun x : Run × Bool => Kept ω z x.1.s) ?_ hk
    exact fun _ _ hk₁ => writeSide_kept hk₁ hb

theorem landHeld_kept {side : Side} {n : Nat} {off : Nat} {bs : List Bt} (hk : Kept ω z r.s) (hb : ω.bytes = false) : Kept ω z (r.landHeld side n off bs).s := by
  unfold Run.landHeld
  dsimp only
  split
  · exact land_kept hk hb
  · split
    · exact hk
    · exact sendSnoops_kept hk

theorem landReadData_kept {o : NetOp} {f : Frame} (hk : Kept ω z s) (hb : ω.bytes = false) : Kept ω z (landReadData s o f) := by
  have ended : Kept ω z (s.endOp o.tag) := endOp_kept hk
  unfold landReadData
  dsimp only
  split
  · split
    · exact ended
    split
    · exact store_kept ended
    have arrived : ∀ {c : Bool} {st : Nat} {bs : List Bt} {x : Run}, Kept ω z x.s → Kept ω z (if c then (x.fabric bs).2.openFault st else (x.fabric bs).2).s := by
      intro c st bs x hk
      split
      · exact openFault_kept (fabric_kept hk)
      · exact fabric_kept hk
    split
    · exact store_kept (arrived (x := { s := _, core := _, queue := _, e := _ }) ended)
    refine store_kept ?_
    split
    · exact arrived (x := { s := _, core := _, queue := _, e := _ }) ended
    · exact landHeld_kept (arrived (x := { s := _, core := _, queue := _, e := _ }) ended) hb
  · exact ended

theorem ackSlot_kept {o : NetOp} {acked : Nat} (hk : Kept ω z s) : Kept ω z (ackSlot s o acked) := by
  unfold ackSlot
  split
  · exact Kept.frame hk rfl
  · exact hk

theorem landAck_kept {o : NetOp} {f : Frame} (hk : Kept ω z s) : Kept ω z (landAck s o f) := by
  unfold landAck
  dsimp only
  split
  · refine endOp_kept ?_
    refine ackSlot_kept ?_
    split
    · exact modStarted_kept hk
    · exact hk
  · refine Kept.frame ?_ rfl
    refine ackSlot_kept ?_
    split
    · exact modStarted_kept hk
    · exact hk

theorem landCredit_kept {v : Via} {f : Frame} (hk : Kept ω z s) : Kept ω z (landCredit s v f) := by
  unfold landCredit
  dsimp only
  split
  · exact postErr_kept hk
  · split
    · exact postErr_kept hk
    · split
      · split
        · exact Kept.ite (postErr_kept hk) (Kept.frame hk rfl)
        · split
          · exact Kept.frame hk rfl
          · exact Kept.ite (Kept.frame hk rfl) hk
      · split
        · exact Kept.ite (postErr_kept hk) (Kept.frame hk rfl)
        · split
          · exact Kept.frame hk rfl
          · exact Kept.ite (Kept.frame hk rfl) hk

theorem slewGtc_kept {off : ℤ} (hk : Kept ω z s) : Kept ω z (slewGtc s off) := Kept.frame hk rfl

theorem steer_kept {t : TimeMsg} (hk : Kept ω z s) : Kept ω z (steer s t) := Kept.ite (stepGtc_kept (Kept.frame hk rfl)) (slewGtc_kept (Kept.frame hk rfl))

theorem retransmit_kept {c : BitVec 12} (hk : Kept ω z s) : Kept ω z (retransmit s c) := emit_kept (modConn_kept hk)

theorem askDelay_kept {n : Nat} {origin : BitVec 64} {ingress : BitVec 64} (hk : Kept ω z s) : Kept ω z (askDelay s n origin ingress) := emit_kept (modEth_kept hk)

theorem markSecond_kept (hk : Kept ω z s) : Kept ω z (markSecond s) := Kept.ite (slewGtc_kept hk) hk

theorem strike_kept {owner : Option (Nat × Nat × Nat)} {skip : Nat} (hk : Kept ω z s) : Kept ω z (s.strike owner skip) := Kept.frame hk rfl

theorem spoilPayload_kept {c : Nat} {q : Nat} {id : Nat} {part : Nat} (hk : Kept ω z s) : Kept ω z (spoilPayload s c q id part) := by
  unfold spoilPayload
  split
  · exact Kept.ite (strike_kept hk) hk
  · exact Kept.ite hk (Kept.ite (strike_kept hk) (modStarted_kept hk))

theorem recordTrip_kept {l : LgSlot} (hk : Kept ω z s) : Kept ω z (recordTrip s l) := Kept.frame hk rfl

theorem faultChannels_kept (hk : Kept ω z s) : Kept ω z (faultChannels s) := foldl_kept (fun _ _ hk₁ => modChan_kept hk₁) hk

theorem setTemp_kept {i : Nat} {t : BitVec 8} (hk : Kept ω z s) : Kept ω z (setTemp s i t) := Kept.frame hk rfl

theorem endFirmwareOp_kept {conn : BitVec 12} (hk : Kept ω z s) : Kept ω z (s.endFirmwareOp conn) := by
  unfold State.endFirmwareOp
  split
  · exact hk
  · exact endOp_kept hk

theorem keptEntries_kept {k : Index} {w : Rewrite} {d : DirEntry} {a : Nat} {a' : Nat} {a'' : List (List Bt × List Bt)} (hk : Kept ω z s) : Kept ω z (keptEntries k w d a a' s a'').2.2 := by
  induction a generalizing k w d a' s a'' with
  | zero => exact hk
  | succ a ih =>
    unfold keptEntries
    dsimp only
    split
    · exact hbmRead_kept hk
    · split
      · exact ih (hbmRead_kept hk)
      · split
        · exact hbmRead_kept (hbmRead_kept hk)
        · exact ih (hbmRead_kept (hbmRead_kept hk))

theorem landRewrite_kept {k : Index} {w : Rewrite} {kept : List (List Bt × List Bt)} (hk : Kept ω z s) (hb : ω.bytes = false) : Kept ω z (landRewrite s k w kept) := hbmWrite_kept (hbmWrite_kept (hbmWrite_kept hk hb) hb) hb

end Sys2Proof.Machine
end

section
/-! PROOFS. What the power segments, the loads, the checkpoint transfers, the arithmetic, the writes of buckets, optimizers and Tarn, and the error handler keep of what is watched. -/

namespace Sys2Proof.Machine

variable {ω : Watch} {z s t : State} {r : Run}

theorem Core.wf_iff {k : Core} : k.wf = true ↔ tblWf 0 k.spad = true ∧ tblWf false k.badWords = true ∧ tblWf false k.tags = true ∧ tblWf 0 k.events = true := by
  simp only [Core.wf, Bool.and_eq_true, and_assoc]

theorem Core.Kept.writes {k l : Core} (hb : ω.bytes = false) (hw : k.wf = true → l.wf = true) : k.Kept ω l := ⟨hw, by simp [hb]⟩

theorem ite_tclear_wf {α : Type} [DecidableEq α] {d : α} {t : Tbl α} {a b : Nat} {c : Prop} [Decidable c] (h : tblWf d t = true) :
    tblWf d (if c then tclear t a b else t) = true := by
  split
  · exact tclear_wf h
  · exact h

theorem segmentOn_kept {c : Nat} {mask : BitVec 4} (hk : Kept ω z s) : Kept ω z (segmentOn s c mask) := by
  refine modCore_kept hk fun k => ⟨fun w => ?_, fun _ => rfl⟩
  rw [Core.wf_iff] at w ⊢
  obtain ⟨hspad, hbad, htags, hevents⟩ := w
  exact ⟨hspad, hbad, foldl_inv (P := fun t => tblWf false t = true) (fun _ _ => ite_tclear_wf) htags, hevents⟩

theorem segmentOff_kept {c g : Nat} (hk : Kept ω z s) (hb : ω.bytes = false) : Kept ω z (segmentOff s c g) := by
  unfold segmentOff
  refine foldl_kept (fun s q hk => Kept.ite hk (modQueue_kept hk)) (modCore_kept hk fun k => .writes hb fun w => ?_)
  rw [Core.wf_iff] at w ⊢
  obtain ⟨hspad, hbad, htags, hevents⟩ := w
  exact ⟨tclear_wf hspad, tclear_wf hbad, tclear_wf htags, hevents⟩

theorem applyLoad_kept {opcode : BitVec 16} {p : BitVec 384} {req : List Byte} (hk : Kept ω z s) : Kept ω z (applyLoad s opcode p req) := by
  refine foldl_kept (fun s c hk => modCore_kept hk fun k => ?_) hk
  split <;> exact ⟨id, fun _ => rfl⟩

theorem ckptOp_kept {c : Bool} {conn : BitVec 12} {kind : OpKind} {n : Nat} (hk : Kept ω z s) (h : (if c then s.addFirmwareOp conn kind n else none) = some t) : Kept ω z t := by
  cases c
  · cases h
  · exact addFirmwareOp_kept hk h

theorem sendCkpt_kept {m : Msg} {conn : BitVec 12} {k : Conn} {image : CkptImage} {offset phase due : Nat} {bs : List Byte} (hk : Kept ω z s) :
    Kept ω z (sendCkpt m s conn k image offset phase due bs).state := by
  unfold sendCkpt
  split
  · exact hk
  next h => exact packets_kept (emit_kept (ckptOp_kept hk h))

theorem askCkpt_kept {m : Msg} {conn : BitVec 12} {k : Conn} {offset n phase due : Nat} {image : Option CkptImage} (hk : Kept ω z s) :
    Kept ω z (askCkpt m s conn k offset n phase due image).state := by
  unfold askCkpt
  split
  · exact hk
  next h => exact modConn_kept (packets_kept (emit_kept (ckptOp_kept hk h)))

theorem Kept.first {α : Type} {b : α} (hk : Kept ω z s) : Kept ω z (s, b).1 := hk

theorem applyMode_kept {p : BitVec 384} (hk : Kept ω z s) : Kept ω z (applyMode s p).1 := by
  have jumped : ∀ {v : BitVec 64} {f : TimeState → TimeState}, Kept ω z (setMode (stepGtc s v) f) := setMode_kept (stepGtc_kept hk)
  unfold applyMode
  dsimp only
  split
  · split
    · exact .first hk
    · exact .first jumped
  · split
    · split
      · exact .first hk
      · exact .first jumped
    · exact .first (setMode_kept hk)

theorem attemptSignal_kept (hk : Kept ω z r.s) : Kept ω z (attemptSignal r).s := by
  unfold attemptSignal
  dsimp only
  split
  · exact finish_kept (modCore_kept hk fun _ => setEvents_coreKept.trans settle_coreKept)
  · refine finish_kept ?_
    split
    · exact fault_kept (addEvent_kept hk)
    · exact addEvent_kept hk

theorem Kept.second {α : Type} {b : α} (hk : Kept ω z r.s) : Kept ω z (b, r).2.s := hk

theorem readBlocks_kept {fmt : Nat} {a : Actl} {base cols : Nat} {live : Nat → Nat → Bool} {i0 ni j0 nj : Nat} (hk : Kept ω z r.s) :
    Kept ω z (readBlocks fmt a base cols live i0 ni j0 nj r).2.s := by
  unfold readBlocks
  refine foldl_inv (P := fun x : List Lane × Run => Kept ω z x.2.s) ?_ hk
  intro acc _ hk
  refine .second (foldl_inv (P := fun x : List Lane × Run => Kept ω z x.2.s) ?_ hk)
  intro _ _ hk
  exact .second (readBlock_kept hk)

theorem fault_s {st detail : Nat} : (r.fault st detail).s = r.s := rfl

theorem claims_s {stream : Nat} : (r.claims stream).s = r.s := rfl

theorem checked_kept {ms : List Mismatch} (hk : Kept ω z r.s) : Kept ω z (r.checked ms).s := by
  unfold Run.checked
  split
  · exact hk
  · rwa [fault_s]

theorem tap_kept {c : EpiCfg} {x : BitVec 512} {a : Actl} {bytes : List Byte} (hk : Kept ω z r.s) (hb : ω.bytes = false) : Kept ω z (r.tap c x a bytes).s := by
  unfold Run.tap
  split
  · rw [claims_s]
    exact append_kept hk hb
  · exact hk

theorem holdBack_kept {before : Core} {base fmt : Nat} {late : List (Nat × Flags)} (hk : Kept ω z r.s) (hb : ω.bytes = false) : Kept ω z (r.holdBack before base fmt late).s := by
  unfold Run.holdBack
  refine foldlRun_kept (fun r x hk => ?_) hk
  dsimp only
  split
  · exact flag_kept hk
  · refine modCore_kept hk fun k => .writes hb fun w => ?_
    rw [Core.wf_iff] at w ⊢
    obtain ⟨hspad, hbad, htags, hevents⟩ := w
    exact ⟨foldl_inv (P := fun t => tblWf 0 t = true) (fun _ _ => tset_wf) hspad, tset_wf hbad, htags, hevents⟩

theorem putLate_kept {p : BufPart} (hk : Kept ω z r.s) (hb : ω.bytes = false) : Kept ω z (r.putLate p).s := by
  unfold Run.putLate
  split
  · exact fault_kept hk
  · refine flag_kept (r := { r with s := _ }) (modCore_kept hk fun k => .writes hb fun w => ?_)
    rw [Core.wf_iff] at w ⊢
    obtain ⟨hspad, hbad, htags, hevents⟩ := w
    exact ⟨foldl_inv (P := fun t => tblWf 0 t = true) (fun _ _ => tset_wf) hspad, tset_wf hbad, htags, hevents⟩

theorem attemptInsert_kept (hk : Kept ω z r.s) (hb : ω.bytes = false) : Kept ω z (attemptInsert r).s := by
  refine tarnWrite_kept hk fun k l => ?_
  dsimp only
  split
  next h => exact coherent_stop_kept (by exact hk) h
  next h =>
    have read := dirRead_kept (x := k) (l := l) (coherent_go_kept (by exact hk) h)
    split
    · exact failWith_kept read
    · split
      · exact finish_kept (runDevRead_kept read)
      · exact finish_kept (runDevWrite_kept (runDevWrite_kept (runDevWrite_kept (runDevRead_kept read) hb) hb) hb)

theorem attemptAdd_kept (hk : Kept ω z r.s) (hb : ω.bytes = false) : Kept ω z (attemptAdd r).s := by
  refine withBucket_kept hk fun b _ _ => ?_
  dsimp only
  split
  · exact putRest_kept hk hb
  split
  next h => exact stopAt_kept (coherent_stop_kept hk h)
  next h =>
    have go := coherent_go_kept hk h
    split
    · exact finish_kept (localRead_kept go)
    · split
      · exact finish_kept (putBlocks_kept (foldl_inv (P := fun x : List (List BufPart) × Run => Kept ω z x.2.s) (fun _ _ hk => .second (addLine_kept hk)) go) hb)
      · exact putBlocks_kept (foldl_inv (P := fun x : List (List BufPart) × Run => Kept ω z x.2.s) (fun _ _ hk => .second (addLine_kept hk)) go) hb

theorem attemptUpdate_kept (hk : Kept ω z r.s) (hb : ω.bytes = false) : Kept ω z (attemptUpdate r).s := by
  unfold attemptUpdate
  dsimp only
  split
  · split
    next h => exact stopAt_kept (coherent_stop_kept (by exact hk) h)
    next h => exact putRest_kept (coherent_go_kept (by exact hk) h) hb
  · split
    · exact failWith_kept hk
    · split
      next h => exact stopAt_kept (coherent_stop_kept (by exact hk) h)
      next h =>
        have go := coherent_go_kept (by exact hk) h
        split
        · exact finish_kept (putBlocks_kept (updateBlocks_kept go) hb)
        · exact putBlocks_kept (updateBlocks_kept go) hb

theorem contain_kept (hk : Kept ω z s) : Kept ω z s.contain := by
  unfold State.contain
  split
  · exact assertAlert_kept hk
  · have contained := hk.setBoot (b := { s.boot with quarantined := true }) id fun _ _ => rfl
    refine assertAlert_kept (helloAll_kept (foldl_kept (fun _ _ hk => ?_) (setIrq_kept contained)))
    exact Kept.ite hk (modQueue_kept hk)

theorem handleEvent_kept (hk : Kept ω z s) : Kept ω z (handleEvent s) := by
  unfold handleEvent
  split
  · exact hk
  · split
    · exact hk
    next i _ =>
      split
      · exact hk
      next rec rest hq =>
        refine writeRecord_kept (hk.setErr (fun w => ?_) id)
        rw [queuesBounded_iff] at w ⊢
        intro j hj
        rw [tget_tset]
        split
        next e =>
          have few := w j hj
          rw [e, hq, List.length_cons] at few
          exact Nat.le_of_succ_le few
        · exact w j hj

theorem bankConflict_kept {c : Nat} {cmd : Option (Nat × Nat)} {x : Conflict} (hk : Kept ω z s) : Kept ω z (bankConflict s c cmd x) := by
  have counted : Kept ω z (s.modCore c fun k => k.countConflict x) := modCore_kept hk fun _ => ⟨id, fun _ => rfl⟩
  unfold bankConflict
  dsimp only
  split
  · split
    · exact counted
    · exact modStarted_kept counted
  · exact hk

end Sys2Proof.Machine
end

section
/-! PROOFS. What the queries, the flush, the rewrite and the resets of the control complex keep of what is watched; the two ways in which a command's work is run. -/

namespace Sys2Proof.Machine

variable {ω : Watch} {z s t : State} {r : Run}

theorem query_kept {a : QueryArgs} {want : Nat} {pool : List Cand} (hk : Kept ω z r.s) (hb : ω.bytes = false) : Kept ω z (r.query a want pool).s := by
  unfold Run.query
  dsimp only
  split
  · exact failWith_kept hk
  have asked : ∀ {far n}, Kept ω z (Run.issueVecs a far want n { r with e := { r.e with wait := .none } }).s := issueVecs_kept hk
  split
  · exact asked
  split
  · split
    · exact block_kept asked
    · exact asked
  split
  · exact asked
  split
  · exact finish_kept asked
  split
  next h => exact coherent_stop_kept asked h
  next h => exact report_kept (coherent_go_kept asked h) hb

theorem fromRemote_kept {sd : Side × Side} {n want : Nat} (hk : Kept ω z r.s) (hb : ω.bytes = false) : Kept ω z (r.fromRemote sd n want).s := by
  unfold Run.fromRemote
  split
  · exact toRemote_kept hk hb
  have asked := issueReads_kept (sd := sd) (t := r.tagPlan) (n := n) (want := want) (a := n + 1) hk
  generalize Run.issueReads sd r.tagPlan n want (n + 1) r = x at asked
  dsimp only
  split
  · exact asked
  split
  · split
    · exact block_kept asked
    · exact asked
  split
  · exact asked
  rw [apply_ite Run.s]
  refine .ite ?_ ?_
  · split
    · exact toRemote_kept (by exact asked) hb
    · exact finish_kept (by exact asked)
  split
  next h => exact coherent_stop_kept (by exact asked) h
  next h =>
    have landed := landRest_kept (side := sd.2) (coherent_go_kept (by exact asked) h) hb
    refine finish_kept ?_
    split
    · exact countCopy_kept landed
    · exact landed

theorem flushStages_kept {b : Bucket} {grp : Nat} {g : Group} {want fuel : Nat} (hk : Kept ω z r.s) (hb : ω.bytes = false) :
    Kept ω z (Run.flushStages b grp g want fuel r).s := by
  induction fuel generalizing r with
  | zero => exact hk
  | succ fuel ih =>
    have next : ∀ {x : Run}, Kept ω z x.s → Kept ω z (if x.e.done || x.e.wait != .none then x else Run.flushStages b grp g want fuel x).s := by
      intro x hk
      split
      · exact hk
      · exact ih hk
    unfold Run.flushStages
    dsimp only
    split
    · split
      · exact ih hk
      · exact next (flushSends_kept hk)
    · split
      · exact block_kept hk
      split
      · exact block_kept hk
      split
      · exact failWith_kept hk
      · exact next (flushAt_kept (reduceShard_kept hk hb))
    · exact next (flushSends_kept hk)
    · rw [apply_ite Run.s, apply_ite Run.s, apply_ite Run.s]
      exact .ite (block_kept hk) (.ite (block_kept hk) (.ite (failWith_kept hk) (next (flushAt_kept (gatherShards_kept hk hb)))))
    · split
      · exact flushEnd_kept hk
      · exact block_kept hk

theorem rewriteList_kept {k : Index} {w : Rewrite} (hk : Kept ω z s) (hb : ω.bytes = false) : Kept ω z (rewriteList s k w).1 := by
  have read : Kept ω z (hbmRead s (k.dir + 32 * w.list) 32).2.2 := hbmRead_kept hk
  unfold rewriteList
  generalize hbmRead s (k.dir + 32 * w.list) 32 = dr at read
  dsimp only
  split
  · exact .first (postErr_kept read)
  have kept := keptEntries_kept (k := k) (w := w) (d := dirEntry dr.2.2 k.dir w.list) (a := (dirEntry dr.2.2 k.dir w.list).length) (a' := 0) (a'' := []) read
  generalize keptEntries k w (dirEntry dr.2.2 k.dir w.list) (dirEntry dr.2.2 k.dir w.list).length 0 dr.2.2 [] = x at kept
  split
  · exact .first (postErr_kept kept)
  split
  · exact .first kept
  · exact .first (landRewrite_kept kept hb)

theorem segmentsOff_kept {c : Nat} {mask : BitVec 4} (hk : Kept ω z s) (hb : ω.bytes = false) : Kept ω z (segmentsOff s c mask) :=
  foldl_kept (fun _ _ hk => Kept.ite hk (segmentOff_kept hk hb)) hk

theorem setSegments_kept {m : Msg} {c : Nat} {mask : BitVec 4} {on : Bool} (hk : Kept ω z s) (hb : ω.bytes = false) : Kept ω z (setSegments s m c mask on).state := by
  unfold setSegments
  dsimp only
  split
  · split
    · exact hk
    · exact segmentOn_kept hk
  split
  · exact refuse_kept hk
  split
  · exact segmentsOff_kept hk hb
  · exact hk

theorem finishSegMsg_kept {h : Held} (hk : Kept ω z s) (hb : ω.bytes = false) : Kept ω z (finishSegMsg s h) := by
  unfold finishSegMsg
  dsimp only
  split
  · exact hk
  split
  · split
    · exact endHeld_kept hk
    · exact hk
  have switched := setSegments_kept (m := h.msg) (c := fld (effPayload h.msg) 4 0) (mask := fb (effPayload h.msg) 8 4) (on := bit (effPayload h.msg) 16) hk hb
  split
  next hd =>
    rw [hd] at switched
    exact endHeld_kept switched
  next hh =>
    rw [hh] at switched
    exact Kept.frame (s := _) switched rfl

theorem stageReset_kept (hk : Kept ω z s) (hb : ω.bytes = false) (hq : ω.quarantine = false) : Kept ω z (stageReset s) := by
  have reset := resetStageLogic_kept (dropOps_kept (tearUpdates_kept hk hb)) hb hq
  unfold stageReset
  dsimp only
  split
  · exact helloAll_kept reset
  · exact reset

theorem controlReset_kept {watchdog : Bool} (hk : Kept ω z s) : Kept ω z (controlReset s watchdog) := by
  have cleared := hk.setErr
    (e := if watchdog then { s.err with queues := [], overflow := satInc s.err.overflow ((List.range 4).map fun i => (tget [] s.err.queues i).length).sum, alertLost := s.err.alertLost || decide (0 < (tget [] s.err.queues 2).length + (tget [] s.err.queues 3).length) }
      else { clearErrors s.err with alertLost := s.err.alertLost || decide (0 < (tget [] s.err.queues 2).length + (tget [] s.err.queues 3).length) })
    (fun _ => by cases watchdog <;> rfl) (fun w => by cases watchdog; exacts [Nat.zero_le _, w])
  unfold controlReset
  dsimp only
  refine setFwStage_kept (foldl_kept (fun _ _ hk => modChan_kept hk) (foldl_kept (fun _ _ hk => endOp_kept hk) (dropHeldWork_kept ?_))) (by decide)
  exact cleared.frame rfl

/-- A message's handler is run on the state after it was taken from its channel. -/
theorem serve_answers {o : OpSpec} {m : Msg} {act : State → Ctx → Answer} (hk : Kept ω z s) (hact : ∀ (s : State) (x : Ctx), Kept ω z s → Kept ω z (act s x).state) :
    Answers ω z (serve o m s act) := by
  unfold serve
  split
  · dsimp only
    split
    · exact .next (finishMsg_kept (dequeue_kept hk))
    · exact .next (settleMsg_kept (hact _ _ (dequeue_kept hk)))
  · exact .next hk

theorem startCmd_answers {ops : List Nat} {c q : Nat} {accept : State → BitVec 512 → Bool} {attempt : Run → Run} (hk : Kept ω z s)
    (hact : ∀ r : Run, Kept ω z r.s → Kept ω z (attempt r).s) : Answers ω z (startCmd ops c q s accept attempt) := by
  unfold startCmd
  split
  · exact .next hk
  split
  · exact .next (store_kept (hact _ (beginCmd_kept hk)))
  · exact .next hk

end Sys2Proof.Machine
end

section
/-! PROOFS. What the messages' handlers and most commands keep of what is watched. -/

namespace Sys2Proof.Machine

variable {ω : Watch} {z s t : State} {r : Run}

theorem requestedStageReset_kept (hk : Kept ω z s) (hb : ω.bytes = false) (hq : ω.quarantine = false) : Kept ω z (requestedStageReset s) := stageReset_kept (abortHeld_kept hk) hb hq

theorem actStageReset_kept (hk : Kept ω z s) (hb : ω.bytes = false) (hq : ω.quarantine = false) : Kept ω z (actStageReset s).state := by
  unfold actStageReset
  split
  · exact refuse_kept hk
  · exact requestedStageReset_kept hk hb hq

theorem finishSegMsgs_kept (hk : Kept ω z s) (hb : ω.bytes = false) : Kept ω z (finishSegMsgs s) := foldl_kept (fun _ _ hk₁ => finishSegMsg_kept hk₁ hb) hk

theorem loadNow_kept {x : Ctx} {opcode : BitVec 16} (hk : Kept ω z s) : Kept ω z (loadNow s x opcode).state := by
  unfold loadNow
  dsimp only
  split
  · exact applyLoad_kept hk
  · exact hk

theorem checkpointOut_kept {m : Msg} {x : Ctx} (hk : Kept ω z s) (he : ω.bytes = true → (ckptArgs x.p).ethernet = true) : Kept ω z (checkpointOut m s x).state := by
  unfold checkpointOut
  dsimp only
  split
  · split
    · split
      · exact abortCkpt_kept hk
      · exact holdFor_kept hk
    · split
      · exact msgPoison_kept (hbmRead_kept hk)
      · exact refuse_kept (hbmRead_kept hk)
      · split
        · exact refuse_kept (hbmRead_kept hk)
        · split
          · exact refuse_kept (hbmRead_kept hk)
          · split
            · split
              · exact abortCkpt_kept (hbmRead_kept hk)
              · exact holdFor_kept (hbmRead_kept hk)
            · split
              · split
                · exact abortCkpt_kept (ckptOf_kept (hbmRead_kept hk))
                · split
                  · exact abortCkpt_kept (ckptOf_kept (hbmRead_kept hk))
                  · exact sendCkpt_kept (ckptOf_kept (hbmRead_kept hk))
              · split
                · exact refuse_kept (ckptOf_kept (hbmRead_kept hk))
                · have hb := unwatched he ‹_›
                  exact hbmWrite_kept (hbmWrite_kept (ckptOf_kept (hbmRead_kept hk)) hb) hb
  · split
    · split
      · exact abortCkpt_kept hk
      · exact holdFor_kept hk
    · exact refuse_kept hk

theorem sendHeader_kept {h : Held} (hk : Kept ω z s) : Kept ω z (sendHeader s h) := by
  unfold sendHeader
  dsimp only
  split
  · exact contHeld_kept (sendCkpt_kept hk)
  · exact contHeld_kept (abortCkpt_kept hk)

theorem checkpointIn_kept {m : Msg} {x : Ctx} (hk : Kept ω z s) (he : ω.bytes = true → (ckptArgs x.p).ethernet = true) : Kept ω z (checkpointIn m s x).state := by
  unfold checkpointIn
  dsimp only
  split
  · exact refuse_kept hk
  · split
    · exact refuse_kept hk
    · split
      · split
        · exact abortCkpt_kept hk
        · split
          · exact abortCkpt_kept hk
          · exact askCkpt_kept hk
      · split
        · exact refuse_kept hk
        · split
          · split
            · exact abortCkpt_kept hk
            · exact holdFor_kept hk
          · split
            · exact corruptImage_kept (scan_kept hk)
            · split
              · exact corruptImage_kept (scan_kept hk)
              · split
                · exact scan_kept hk
                · split
                  · split
                    · exact abortCkpt_kept (scan_kept hk)
                    · exact holdFor_kept (scan_kept hk)
                  · exact landImage_kept (hbmRead_kept (scan_kept hk)) (unwatched he ‹_›)

theorem askImage_kept {h : Held} {i : CkptImage} (hk : Kept ω z s) : Kept ω z (askImage s h i) := by
  unfold askImage
  dsimp only
  split
  · exact contHeld_kept (askCkpt_kept hk)
  · exact contHeld_kept (abortCkpt_kept hk)

theorem ctxOf_p {m : Msg} : (ctxOf s m).p = effPayload m := by
  unfold ctxOf
  split
  · rfl
  · split <;> rfl

theorem retryCkpt_kept {h : Held} (hk : Kept ω z s) (he : ω.bytes = true → (ckptArgs (effPayload h.msg)).ethernet = true ∧ h.arg ≠ 3) :
    Kept ω z (retryCkpt s h) := by
  have ethernet : ω.bytes = true → (ckptArgs (ctxOf s h.msg).p).ethernet = true := fun hb => by rw [ctxOf_p]; exact (he hb).1
  unfold retryCkpt
  dsimp only
  split
  · exact hk
  split
  · exact Kept.ite (contHeld_kept (checkpointOut_kept hk ethernet)) (Kept.ite (sendHeader_kept hk) hk)
  split
  · exact contHeld_kept (checkpointIn_kept hk ethernet)
  · exact contHeld_kept (checkpointIn_kept hk ethernet)
  next harg _ => exact contHeld_kept (takeArrived_kept hk (unwatched (fun hb => (he hb).2) (not_not_intro harg)))
  · exact askImage_kept hk
  · exact hk

theorem applyHeld_kept {h : Held} (hk : Kept ω z s) (hb : ω.bytes = false) : Kept ω z (applyHeld s h) := by
  unfold applyHeld
  dsimp only
  split
  · exact applyHeldRegion_kept hk
  · exact Kept.ite (endHeld_kept (applyLoad_kept hk)) hk
  · exact Kept.ite (endHeld_kept (applyLoad_kept hk)) hk
  · exact Kept.ite hk (endHeld_kept (applyOpt_kept hk))
  · exact Kept.ite hk (endHeld_kept (applyOpt_kept hk))
  · exact Kept.ite (retryCkpt_kept hk (by simp [hb])) hk
  · exact hk

theorem applyStart_kept {h : Held} (hk : Kept ω z s) : Kept ω z (applyStart s h) := endHeld_kept (applyMode_kept hk)

theorem settleTimes_kept (hk : Kept ω z s) : Kept ω z (settleTimes s) := foldl_kept (fun _ _ hk₁ => applyStart_kept hk₁) hk

theorem reachLimit_kept {h : Held} (hk : Kept ω z s) : Kept ω z (reachLimit s h) := by
  unfold reachLimit
  split
  · exact endBusy_kept (releaseRegion_kept (unheld_kept hk))
  · exact endBusy_kept hk
  · exact endBusy_kept hk
  · exact settleFloors_kept (endBusy_kept hk)
  · exact endBusy_kept hk
  · exact endBusy_kept hk
  · exact settleTimes_kept (endBusy_kept hk)
  · exact endBusy_kept (Kept.frame hk rfl)
  · exact abortRest_kept hk
  · exact Kept.ite (endBusy_kept hk) hk
  · exact endReplay_kept hk
  · exact hk

theorem actSecurity_kept {h : Held} {x : Ctx} (hk : Kept ω z s)
    (ha : h.opcode.toNat = 0x0A02 ∨ h.opcode.toNat = 0x0A03 ∨ h.opcode.toNat = 0x0A04 ∨ h.opcode.toNat = 0x0A05 ∨ ω.bytes = false ∧ ω.quarantine = false) :
    Kept ω z (actSecurity h s x).state := by
  unfold actSecurity
  split
  · exact refuse_kept hk
  split
  · exact actChallenge_kept hk
  · exact actUnlock_kept hk
  · exact actUpdate_kept hk
  · split
    · exact refuse_kept hk
    · exact Kept.frame hk rfl
  next hchallenge hunlock hupdate hrollback =>
    obtain ⟨hb, hq⟩ := (((ha.resolve_left hchallenge).resolve_left hunlock).resolve_left hupdate).resolve_left hrollback
    exact actStageReset_kept hk hb hq

theorem serveSecurity_answers {o : OpSpec} {m : Msg} {nonce : BitVec 256} (hk : Kept ω z s)
    (ho : o.code = 0x0A02 ∨ o.code = 0x0A03 ∨ o.code = 0x0A04 ∨ o.code = 0x0A05) : Answers ω z (serveSecurity o m s nonce) := by
  refine serve_answers hk fun s x hk => ?_
  dsimp only
  split
  · exact hk
  · refine actSecurity_kept hk ?_
    rcases ho with h | h | h | h <;> simp [heldOf, h]

theorem loadWeights_kept {m : MatArgs} {a : Actl} {p : Nat} {ch : Nat} (hk : Kept ω z r.s) : Kept ω z (loadWeights m a p ch r).2.s := by
  unfold loadWeights
  dsimp only
  split <;> exact readBlocks_kept hk

theorem loadPanel_kept {m : MatArgs} {a : Actl} {lt : Nat} {p : Nat} {tn : Nat} {nn : Nat} {mr : MatRun} (hk : Kept ω z mr.run.s) : Kept ω z (loadPanel m a lt p tn nn mr).2.2.s := by
  unfold loadPanel
  refine foldl_inv (P := fun x : List Lane × List Lane × Run => Kept ω z x.2.2.s) ?_ hk
  intro _ _ hk₁
  dsimp only
  split
  · refine loadWeights_kept ?_
    split
    · exact loadTile_kept hk₁
    · exact hk₁
  · dsimp only
    split
    · exact loadTile_kept hk₁
    · exact hk₁

theorem matPanel_kept {m : MatArgs} {a : Actl} {c : EpiCfg} {x : BitVec 512} {us : List ArrayUpset} {late : List Nat} {mr : MatRun} {lp : Nat × Nat} (hk : Kept ω z mr.run.s) (hb : ω.bytes = false) : Kept ω z (matPanel m a c x us late mr lp).run.s := by
  unfold matPanel
  split
  · exact hk
  · dsimp only
    split
    · exact readVecs_kept (accStart_kept (loadPanel_kept hk))
    · exact writeGrid_kept (readVecs_kept (accStart_kept (loadPanel_kept hk))) hb

theorem matPanels_kept {m : MatArgs} {a : Actl} {c : EpiCfg} {x : BitVec 512} {us : List ArrayUpset} {late : List Nat} (hk : Kept ω z r.s) (hb : ω.bytes = false) : Kept ω z (matPanels m a c x us late r).run.s := foldl_inv (P := fun x : MatRun => Kept ω z x.run.s) (fun _ _ hk₁ => matPanel_kept hk₁ hb) hk

theorem matWork_kept {m : MatArgs} {c : EpiCfg} {x : BitVec 512} {us : List ArrayUpset} {late : List Nat} (hk : Kept ω z r.s) (hb : ω.bytes = false) : Kept ω z (matWork m c x us late r).run.s := by
  unfold matWork
  refine checked_kept ?_
  split <;> exact matPanels_kept hk hb

theorem attemptMatrix_kept {us : List ArrayUpset} {late : List Nat} (hk : Kept ω z r.s) (hb : ω.bytes = false) : Kept ω z (attemptMatrix us late r).s := by
  unfold attemptMatrix
  dsimp only
  split
  · exact readRec_kept (takeArrays_kept hk)
  · split
    · exact failWith_kept (readRec_kept (takeArrays_kept hk))
    · split
      · exact matWork_kept (readRec_kept (takeArrays_kept hk)) hb
      · exact outsDone_kept (holdBack_kept (tap_kept (matWork_kept (readRec_kept (takeArrays_kept hk)) hb) hb) hb)

theorem attemptEltwise_kept {us : List ArrayUpset} {late : List Nat} (hk : Kept ω z r.s) (hb : ω.bytes = false) : Kept ω z (attemptEltwise us late r).s := by
  unfold attemptEltwise
  dsimp only
  split
  · exact readRec_kept (takeArrays_kept hk)
  · split
    · exact failWith_kept (readRec_kept (takeArrays_kept hk))
    · split
      · exact readVecs_kept (readElts_kept (readRec_kept (takeArrays_kept hk)))
      · exact outsDone_kept (holdBack_kept (tap_kept (flag_kept (localWrite_kept (readVecs_kept (readElts_kept (readRec_kept (takeArrays_kept hk)))) hb)) hb) hb)

theorem attemptFlush_kept {want : Nat} (hk : Kept ω z r.s) (hb : ω.bytes = false) : Kept ω z (attemptFlush want r).s := by
  unfold attemptFlush
  refine withBucket_kept hk ?_
  intro _ _ _
  dsimp only
  split
  · exact byPeer_kept (failWith_kept hk)
  · split
    · split
      · exact finish_kept hk
      · exact block_kept hk
    · exact flushStages_kept hk hb

theorem attemptLate_kept (hk : Kept ω z r.s) (hb : ω.bytes = false) : Kept ω z (attemptLate r).s := finish_kept (foldlRun_kept (fun _ _ hk₁ => putLate_kept hk₁ hb) hk)

theorem attemptQuery_kept {want : Nat} (hk : Kept ω z r.s) (hb : ω.bytes = false) : Kept ω z (attemptQuery want r).s := by
  unfold attemptQuery
  dsimp only
  split
  · exact query_kept hk hb
  · split
    · exact hk
    · exact joinBatch_kept hk

theorem stepQuery_kept {want : Nat} {q : QueryRef} (hk : Kept ω z s) (hb : ω.bytes = false) : Kept ω z (stepQuery want s q) := by
  unfold stepQuery
  split
  · exact hk
  · exact Kept.ite hk (store_kept (attemptQuery_kept (queryRun_kept hk ‹_›) hb))

theorem settleCheckpoints_kept (hk : Kept ω z s) (hb : ω.bytes = false) : Kept ω z (settleCheckpoints s) := foldl_kept (fun _ _ hk₁ => retryCkpt_kept hk₁ (by simp [hb])) hk

theorem foldl_kept_mem {α : Type} {f : State → α → State} {l : List α} (hf : ∀ s a, a ∈ l → Kept ω z s → Kept ω z (f s a)) (hk : Kept ω z s) :
    Kept ω z (l.foldl f s) := by
  induction l generalizing s with
  | nil => exact hk
  | cons a l ih => exact ih (fun s b hb => hf s b (List.mem_cons_of_mem a hb)) (hf s a List.mem_cons_self hk)

theorem sendCheckpoints_kept (hk : Kept ω z s) : Kept ω z (sendCheckpoints s) := by
  refine foldl_kept_mem (fun s h hh hk => retryCkpt_kept hk fun _ => ?_) hk
  have waiting := (List.mem_filter.mp hh).2
  simp only [Bool.and_eq_true, bne_iff_ne] at waiting
  exact ⟨waiting.1.2, waiting.2⟩

theorem deviceErr_kept {y : ErrRec} (hk : Kept ω z s) : Kept ω z (s.deviceErr y) := postErr_kept (contain_kept hk)

theorem detect_kept {a : HwEvent} (hk : Kept ω z s) : Kept ω z (detect s a) := by
  unfold detect
  split
  · exact postErr_kept hk
  · exact deviceErr_kept hk
  · exact spoilPayload_kept hk
  · exact strike_kept hk
  · exact bankConflict_kept hk

theorem ackCkpt_kept {c : BitVec 12} {h : Held} (hk : Kept ω z s) : Kept ω z (ackCkpt s c h) := Kept.ite (sendHeader_kept (endFirmwareOp_kept hk)) (endHeld_kept (endFirmwareOp_kept hk))

theorem runWaiting_kept {a : Nat} (hk : Kept ω z s) (hb : ω.bytes = false) (hq : ω.quarantine = false) : Kept ω z (runWaiting a s) := by
  induction a generalizing s with
  | zero => exact hk
  | succ a ih =>
    unfold runWaiting
    split
    · exact hk
    · split
      · exact hk
      · exact ih (settleMsg_kept (actSecurity_kept (Kept.frame hk rfl) (by simp [hb, hq])))

theorem execOpenSession_answers {m : Msg} {handle : BitVec 32} (hk : Kept ω z s) : Answers ω z (execOpenSession m handle s) := by
  unfold execOpenSession
  split
  · dsimp only
    split
    · exact .next (finishMsg_kept (dequeue_kept hk))
    · exact .next (finishMsg_kept (openSession_kept (dequeue_kept hk)))
  · exact .next hk

theorem execCloseSession_answers {m : Msg} (hk : Kept ω z s) : Answers ω z (execCloseSession m s) := by
  unfold execCloseSession
  refine serve_answers hk ?_
  intro _ _ hk₁
  split
  · exact hk₁
  · exact closeSession_kept hk₁

theorem execAttachChannel_answers {m : Msg} (hk : Kept ω z s) : Answers ω z (execAttachChannel m s) := by
  unfold execAttachChannel
  refine serve_answers hk ?_
  intro _ _ hk₁
  dsimp only
  split
  · exact refuse_kept hk₁
  · split
    · exact refuse_kept hk₁
    · split
      · exact refuse_kept hk₁
      · exact modChan_kept hk₁

theorem execDetachChannel_answers {m : Msg} (hk : Kept ω z s) : Answers ω z (execDetachChannel m s) := by
  unfold execDetachChannel
  refine serve_answers hk ?_
  intro _ _ hk₁
  dsimp only
  split
  · exact refuse_kept hk₁
  · split
    · exact refuse_kept hk₁
    · exact detachChan_kept hk₁

theorem execGetDeviceInfo_answers {m : Msg} (hk : Kept ω z s) : Answers ω z (execGetDeviceInfo m s) := serve_answers hk (fun _ _ hk₁ => hk₁)

theorem execGetCapabilities_answers {m : Msg} (hk : Kept ω z s) : Answers ω z (execGetCapabilities m s) := serve_answers hk (fun _ _ hk₁ => hk₁)

theorem execEcho_answers {m : Msg} (hk : Kept ω z s) : Answers ω z (execEcho m s) := serve_answers hk (fun _ _ hk₁ => hk₁)

theorem execUnknownOpcode_answers {m : Msg} {opcode : BitVec 16} (hk : Kept ω z s) : Answers ω z (execUnknownOpcode m opcode s) := by
  unfold execUnknownOpcode
  split
  · exact .next hk
  · split
    · exact .next (finishMsg_kept (dequeue_kept hk))
    · exact .next hk

theorem execResetRequestStage_answers {m : Msg} (hk : Kept ω z s) (hb : ω.bytes = false) (hq : ω.quarantine = false) : Answers ω z (execResetRequestStage m s) := by
  unfold execResetRequestStage
  split
  · exact .next hk
  · refine serve_answers hk ?_
    intro _ _ hk₁
    split
    · exact refuse_kept hk₁
    · split
      · exact hk₁
      · exact actStageReset_kept hk₁ hb hq

theorem execResetRequestDevice_answers {m : Msg} (hk : Kept ω z s) : Answers ω z (execResetRequestDevice m s) := by
  unfold execResetRequestDevice
  split
  · refine serve_answers hk ?_
    intro _ _ hk₁
    split
    · exact refuse_kept hk₁
    · exact Kept.frame hk₁ rfl
  · exact .next hk

theorem execSetRegion_answers {m : Msg} (hk : Kept ω z s) : Answers ω z (execSetRegion m s) := by
  unfold execSetRegion
  refine serve_answers hk ?_
  intro _ _ hk₁
  split
  · exact refuse_kept hk₁
  · split
    · exact applyRegion_kept hk₁
    · exact modQueue_kept hk₁

theorem execSetCounter_answers {m : Msg} (hk : Kept ω z s) : Answers ω z (execSetCounter m s) := by
  unfold execSetCounter
  refine serve_answers hk ?_
  intro _ _ hk₁
  dsimp only
  split
  · exact refuse_kept hk₁
  · split
    · exact refuse_kept hk₁
    · exact modCore_kept hk₁ (fun _ => modCounter_coreKept)

theorem execSetSegmentPower_answers {m : Msg} (hk : Kept ω z s) (hb : ω.bytes = false) : Answers ω z (execSetSegmentPower m s) := by
  unfold execSetSegmentPower
  refine serve_answers hk ?_
  intro _ _ hk₁
  dsimp only
  split
  · exact refuse_kept hk₁
  · split
    · exact hk₁
    · exact setSegments_kept hk₁ hb

theorem execSegmentZeroed_answers {core : CoreId} {segment : Fin 4} (hk : Kept ω z s) (hb : ω.bytes = false) : Answers ω z (execSegmentZeroed core segment s) := by
  unfold execSegmentZeroed
  split
  · exact .next (finishSegMsgs_kept (modCore_kept hk (fun _ => ⟨id, fun _ => rfl⟩)) hb)
  · exact .next hk

theorem execReserveStore_answers {m : Msg} (hk : Kept ω z s) : Answers ω z (execReserveStore m s) := by
  unfold execReserveStore
  refine serve_answers hk ?_
  intro _ _ hk₁
  dsimp only
  split
  · exact refuse_kept hk₁
  · split
    · exact refuse_kept hk₁
    · exact Kept.frame hk₁ rfl

theorem execGetHbmState_answers {m : Msg} (hk : Kept ω z s) : Answers ω z (execGetHbmState m s) := serve_answers hk (fun _ _ hk₁ => hk₁)

theorem execSetHostWindow_answers {m : Msg} (hk : Kept ω z s) : Answers ω z (execSetHostWindow m s) := by
  unfold execSetHostWindow
  refine serve_answers hk ?_
  intro _ _ hk₁
  dsimp only
  split
  · split
    · exact refuse_kept hk₁
    · split
      · exact refuse_kept hk₁
      · exact Kept.frame hk₁ rfl
  · split
    · exact refuse_kept hk₁
    · split
      · exact refuse_kept hk₁
      · exact Kept.frame hk₁ rfl

theorem execSetStageIdentity_answers {m : Msg} (hk : Kept ω z s) : Answers ω z (execSetStageIdentity m s) := by
  unfold execSetStageIdentity
  refine serve_answers hk ?_
  intro _ _ hk₁
  split
  · exact refuse_kept hk₁
  · exact Kept.frame hk₁ rfl

theorem execSetStageAddress_answers {m : Msg} (hk : Kept ω z s) : Answers ω z (execSetStageAddress m s) := by
  unfold execSetStageAddress
  refine serve_answers hk ?_
  intro _ _ hk₁
  dsimp only
  split
  · split
    · exact Kept.frame hk₁ rfl
    · exact refuse_kept hk₁
  · split
    · exact refuse_kept hk₁
    · exact flushCredits_kept (Kept.frame hk₁ rfl)

theorem execConfigureQueue_answers {m : Msg} (hk : Kept ω z s) : Answers ω z (execConfigureQueue m s) := by
  unfold execConfigureQueue
  refine serve_answers hk ?_
  intro _ _ hk₁
  dsimp only
  split
  · exact refuse_kept hk₁
  · split
    · exact refuse_kept hk₁
    · exact Kept.ite (clearQueue_kept hk₁) (setQueue_kept hk₁)

theorem execConfigureSlot_answers {m : Msg} (hk : Kept ω z s) : Answers ω z (execConfigureSlot m s) := by
  unfold execConfigureSlot
  refine serve_answers hk ?_
  intro _ _ hk₁
  dsimp only
  split
  · exact refuse_kept hk₁
  · split
    · exact refuse_kept hk₁
    · split
      · exact refuse_kept hk₁
      · exact Kept.frame hk₁ rfl

theorem execResetSlots_answers {m : Msg} (hk : Kept ω z s) : Answers ω z (execResetSlots m s) := serve_answers hk (fun _ _ hk₁ => foldl_kept (fun _ _ hk₂ => resetQueue_kept hk₂) hk₁)

theorem execGetQueueState_answers {m : Msg} (hk : Kept ω z s) : Answers ω z (execGetQueueState m s) := serve_answers hk (fun _ _ hk₁ => hk₁)

theorem execCreateRing_answers {m : Msg} (hk : Kept ω z s) : Answers ω z (execCreateRing m s) := by
  unfold execCreateRing
  refine serve_answers hk ?_
  intro _ _ hk₁
  dsimp only
  split
  · exact refuse_kept hk₁
  · split
    · exact refuse_kept hk₁
    · split
      · split
        · exact refuse_kept hk₁
        · exact modQueue_kept hk₁
      · split
        · exact refuse_kept hk₁
        · exact modQueue_kept hk₁

theorem execSubmitBlock_answers {m : Msg} (hk : Kept ω z s) : Answers ω z (execSubmitBlock m s) := serve_answers hk (fun _ _ hk₁ => submitBlock_kept hk₁)

theorem execAbortQueue_answers {m : Msg} {abortStarted : List Nat} (hk : Kept ω z s) : Answers ω z (execAbortQueue m abortStarted s) := by
  unfold execAbortQueue
  refine serve_answers hk ?_
  intro _ _ hk₁
  dsimp only
  split
  · exact refuse_kept hk₁
  · split <;> exact abortQueue_kept hk₁

theorem execSetCompletionRing_answers {m : Msg} (hk : Kept ω z s) : Answers ω z (execSetCompletionRing m s) := by
  unfold execSetCompletionRing
  refine serve_answers hk ?_
  intro _ _ hk₁
  dsimp only
  split
  · exact refuse_kept hk₁
  · split
    · exact refuse_kept hk₁
    · exact modQueue_kept hk₁

theorem execGetRingState_answers {m : Msg} (hk : Kept ω z s) : Answers ω z (execGetRingState m s) := by
  unfold execGetRingState
  refine serve_answers hk ?_
  intro _ _ hk₁
  dsimp only
  split
  · exact refuse_kept hk₁
  · exact hk₁

theorem execLoadMicroprogram_answers {m : Msg} (hk : Kept ω z s) : Answers ω z (execLoadMicroprogram m s) := by
  unfold execLoadMicroprogram
  refine serve_answers hk ?_
  intro _ _ hk₁
  split
  · exact refuse_kept hk₁
  · exact loadNow_kept hk₁

theorem execLoadTable_answers {m : Msg} (hk : Kept ω z s) : Answers ω z (execLoadTable m s) := by
  unfold execLoadTable
  refine serve_answers hk ?_
  intro _ _ hk₁
  split
  · exact refuse_kept hk₁
  · exact loadNow_kept hk₁

theorem execHeldMessageApply_answers {src : MsgSrc} (hk : Kept ω z s) (hb : ω.bytes = false) : Answers ω z (execHeldMessageApply src s) := by
  unfold execHeldMessageApply
  split
  · exact .next hk
  · exact .next (Kept.ite hk (applyHeld_kept hk hb))

theorem execLongRunningLimit_answers {src : MsgSrc} (hk : Kept ω z s) : Answers ω z (execLongRunningLimit src s) := by
  unfold execLongRunningLimit
  split
  · exact .next hk
  · exact .next (reachLimit_kept hk)

theorem execCreateIndex_answers {m : Msg} (hk : Kept ω z s) : Answers ω z (execCreateIndex m s) := by
  unfold execCreateIndex
  refine serve_answers hk ?_
  intro _ _ hk₁
  split
  · exact refuse_kept hk₁
  · dsimp only
    split
    · refine msgPoison_kept ?_
      split
      · exact hbmRead_kept hk₁
      · exact hk₁
    · split
      · split
        · exact refuse_kept (hbmRead_kept hk₁)
        · exact Kept.frame (hbmRead_kept hk₁) rfl
      · split
        · exact refuse_kept hk₁
        · exact Kept.frame hk₁ rfl

theorem execDestroyIndex_answers {m : Msg} (hk : Kept ω z s) : Answers ω z (execDestroyIndex m s) := by
  unfold execDestroyIndex
  refine serve_answers hk ?_
  intro _ _ hk₁
  dsimp only
  split
  · split
    · exact refuse_kept hk₁
    · exact Kept.ite hk₁ (forgetIndex_kept hk₁)
  · split
    · exact refuse_kept hk₁
    · exact Kept.ite hk₁ (forgetIndex_kept hk₁)

theorem execSetReaderFloor_answers {m : Msg} (hk : Kept ω z s) : Answers ω z (execSetReaderFloor m s) := by
  unfold execSetReaderFloor
  refine serve_answers hk ?_
  intro _ _ hk₁
  dsimp only
  split
  · exact refuse_kept hk₁
  · split
    · exact refuse_kept hk₁
    · split
      · exact hk₁
      · exact raiseFloor_kept hk₁

theorem execStartRewrite_answers {m : Msg} (hk : Kept ω z s) : Answers ω z (execStartRewrite m s) := by
  unfold execStartRewrite
  refine serve_answers hk ?_
  intro _ _ hk₁
  dsimp only
  split
  · exact refuse_kept hk₁
  · split
    · exact refuse_kept hk₁
    · split
      · exact answerBusy_kept hk₁
      · exact modIndex_kept hk₁

theorem execGetIndexState_answers {m : Msg} (hk : Kept ω z s) : Answers ω z (execGetIndexState m s) := serve_answers hk (fun _ _ hk₁ => hk₁)

theorem execConfigureOptimizer_answers {m : Msg} (hk : Kept ω z s) : Answers ω z (execConfigureOptimizer m s) := by
  unfold execConfigureOptimizer
  refine serve_answers hk ?_
  intro _ _ hk₁
  split
  · exact refuse_kept hk₁
  · exact optNow_kept hk₁

theorem execSetHyperparameters_answers {m : Msg} (hk : Kept ω z s) : Answers ω z (execSetHyperparameters m s) := by
  unfold execSetHyperparameters
  refine serve_answers hk ?_
  intro _ _ hk₁
  split
  · exact optNow_kept hk₁
  · exact refuse_kept hk₁

theorem execCreateBucket_answers {m : Msg} (hk : Kept ω z s) : Answers ω z (execCreateBucket m s) := by
  unfold execCreateBucket
  refine serve_answers hk ?_
  intro _ _ hk₁
  dsimp only
  split
  · exact refuse_kept hk₁
  · split
    · exact refuse_kept hk₁
    · exact Kept.frame hk₁ rfl

theorem execSetGroup_answers {m : Msg} (hk : Kept ω z s) : Answers ω z (execSetGroup m s) := by
  unfold execSetGroup
  refine serve_answers hk ?_
  intro _ _ hk₁
  dsimp only
  split
  · split
    · exact refuse_kept hk₁
    · split
      · exact refuse_kept hk₁
      · exact Kept.frame (clearBuckets_kept hk₁) rfl
  · split
    · exact refuse_kept hk₁
    · split
      · exact refuse_kept hk₁
      · exact zeroLanding_kept (zeroLanding_kept (Kept.frame (clearBuckets_kept hk₁) rfl))

theorem execTrainPortTrain_answers {m : Msg} (hk : Kept ω z s) : Answers ω z (execTrainPortTrain m s) := by
  unfold execTrainPortTrain
  split
  · exact .next hk
  · refine serve_answers hk ?_
    intro _ _ hk₁
    dsimp only
    split
    · exact refuse_kept hk₁
    · split
      · exact refuse_kept hk₁
      · exact Kept.ite (enterTraining_kept (modPort_kept hk₁)) (modPort_kept hk₁)

theorem execTrainPortDisable_answers {m : Msg} (hk : Kept ω z s) : Answers ω z (execTrainPortDisable m s) := by
  unfold execTrainPortDisable
  split
  · refine serve_answers hk ?_
    intro _ _ hk₁
    split
    · exact refuse_kept hk₁
    · exact disablePort_kept hk₁
  · exact .next hk

theorem execTrainPortRetrain_answers {m : Msg} (hk : Kept ω z s) : Answers ω z (execTrainPortRetrain m s) := by
  unfold execTrainPortRetrain
  split
  · refine serve_answers hk ?_
    intro _ _ hk₁
    dsimp only
    split
    · exact refuse_kept hk₁
    · split
      · exact refuse_kept hk₁
      · exact enterRetrain_kept hk₁
  · exact .next hk

theorem execGetPortState_answers {m : Msg} (hk : Kept ω z s) : Answers ω z (execGetPortState m s) := by
  unfold execGetPortState
  refine serve_answers hk ?_
  intro _ _ hk₁
  split
  · exact refuse_kept hk₁
  · exact hk₁

theorem execSetPort_answers {m : Msg} (hk : Kept ω z s) : Answers ω z (execSetPort m s) := by
  unfold execSetPort
  split
  · exact .next hk
  · refine serve_answers hk ?_
    intro _ _ hk₁
    dsimp only
    split
    · exact refuse_kept hk₁
    · split
      · exact refuse_kept hk₁
      · exact modEth_kept hk₁

theorem execConnect_answers {m : Msg} (hk : Kept ω z s) : Answers ω z (execConnect m s) := by
  unfold execConnect
  split
  · refine serve_answers hk ?_
    intro _ _ hk₁
    dsimp only
    split
    · exact refuse_kept hk₁
    · split
      · exact refuse_kept hk₁
      · exact flushCredits_kept (Kept.frame hk₁ rfl)
  · exact .next hk

theorem execDisconnect_answers {m : Msg} (hk : Kept ω z s) : Answers ω z (execDisconnect m s) := by
  unfold execDisconnect
  split
  · refine serve_answers hk ?_
    intro _ _ hk₁
    dsimp only
    split
    · exact refuse_kept hk₁
    · split
      · exact refuse_kept hk₁
      · exact Kept.frame (failConn_kept hk₁) rfl
  · exact .next hk

theorem execSetPtp_answers {m : Msg} (hk : Kept ω z s) : Answers ω z (execSetPtp m s) := by
  unfold execSetPtp
  split
  · refine serve_answers hk ?_
    intro _ _ hk₁
    split
    · exact refuse_kept hk₁
    · exact modEth_kept hk₁
  · exact .next hk

theorem execGetStatus_answers {m : Msg} (hk : Kept ω z s) : Answers ω z (execGetStatus m s) := by
  unfold execGetStatus
  split
  · refine serve_answers hk ?_
    intro _ _ hk₁
    split
    · exact refuse_kept hk₁
    · exact hk₁
  · exact .next hk

theorem execSetTimeMode_answers {m : Msg} (hk : Kept ω z s) : Answers ω z (execSetTimeMode m s) := by
  unfold execSetTimeMode
  refine serve_answers hk ?_
  intro _ _ hk₁
  split
  · exact refuse_kept hk₁
  · split
    · exact hk₁
    · exact applyMode_kept hk₁

theorem execGetTime_answers {m : Msg} (hk : Kept ω z s) : Answers ω z (execGetTime m s) := serve_answers hk (fun _ _ hk₁ => Kept.frame (takeSource_kept hk₁) rfl)

theorem execScheduleEdge_answers {m : Msg} (hk : Kept ω z s) : Answers ω z (execScheduleEdge m s) := by
  unfold execScheduleEdge
  refine serve_answers hk ?_
  intro _ _ hk₁
  dsimp only
  split
  · exact refuse_kept hk₁
  · split
    · exact fireEdge_kept (Kept.frame hk₁ rfl)
    · exact Kept.frame hk₁ rfl

theorem execCancelEdge_answers {m : Msg} (hk : Kept ω z s) : Answers ω z (execCancelEdge m s) := serve_answers hk (fun _ _ hk₁ => Kept.frame hk₁ rfl)

theorem execReadErrorLog_answers {m : Msg} (hk : Kept ω z s) : Answers ω z (execReadErrorLog m s) := by
  unfold execReadErrorLog
  refine serve_answers hk ?_
  intro _ _ hk₁
  dsimp only
  split
  · exact refuse_kept hk₁
  · split
    · exact hk₁
    · exact Kept.ite (alertRead_kept hk₁) hk₁

theorem execReadTelemetry_answers {m : Msg} (hk : Kept ω z s) : Answers ω z (execReadTelemetry m s) := by
  unfold execReadTelemetry
  refine serve_answers hk ?_
  intro _ _ hk₁
  dsimp only
  split
  · split
    · exact refuse_kept hk₁
    · exact hk₁
  · split
    · exact refuse_kept hk₁
    · exact hk₁

theorem execSetTelemetryRate_answers {m : Msg} (hk : Kept ω z s) : Answers ω z (execSetTelemetryRate m s) := by
  unfold execSetTelemetryRate
  refine serve_answers hk ?_
  intro _ _ hk₁
  split
  · exact refuse_kept hk₁
  · exact Kept.frame hk₁ rfl

theorem execGetSecurityState_answers {m : Msg} (hk : Kept ω z s) : Answers ω z (execGetSecurityState m s) := serve_answers hk (fun _ _ hk₁ => hk₁)

theorem execDebugChallenge_answers {m : Msg} {nonce : BitVec 256} (hk : Kept ω z s) : Answers ω z (execDebugChallenge m nonce s) := serveSecurity_answers hk (by simp [plainOp])

theorem execDebugUnlock_answers {m : Msg} (hk : Kept ω z s) : Answers ω z (execDebugUnlock m s) := serveSecurity_answers hk (by simp [plainOp])

theorem execAdvanceRollback_answers {m : Msg} (hk : Kept ω z s) : Answers ω z (execAdvanceRollback m s) := serveSecurity_answers hk (by simp [plainOp])

theorem execSetReplayLog_answers {m : Msg} (hk : Kept ω z s) (hb : ω.bytes = false) : Answers ω z (execSetReplayLog m s) := serve_answers hk (fun _ _ hk₁ => setReplayLog_kept hk₁ hb)

theorem execReplayStep_answers {m : Msg} (hk : Kept ω z s) (hb : ω.bytes = false) : Answers ω z (execReplayStep m s) := serve_answers hk (fun _ _ hk₁ => replayStep_kept hk₁ hb)

theorem execCheckpointOut_answers {m : Msg} (hk : Kept ω z s) (hb : ω.bytes = false) : Answers ω z (execCheckpointOut m s) := serve_answers hk (fun _ _ hk₁ => checkpointOut_kept hk₁ (by simp [hb]))

theorem execCheckpointIn_answers {m : Msg} (hk : Kept ω z s) (hb : ω.bytes = false) : Answers ω z (execCheckpointIn m s) := serve_answers hk (fun _ _ hk₁ => checkpointIn_kept hk₁ (by simp [hb]))

theorem execAdoptStage_answers {m : Msg} (hk : Kept ω z s) : Answers ω z (execAdoptStage m s) := by
  unfold execAdoptStage
  refine serve_answers hk ?_
  intro _ _ hk₁
  split
  · exact refuse_kept hk₁
  · split
    · exact refuse_kept hk₁
    · exact Kept.frame hk₁ rfl

theorem execSetClockLimits_answers {m : Msg} (hk : Kept ω z s) : Answers ω z (execSetClockLimits m s) := by
  unfold execSetClockLimits
  refine serve_answers hk ?_
  intro _ _ hk₁
  dsimp only
  split
  · exact refuse_kept hk₁
  · exact Kept.frame hk₁ rfl

theorem execSetRipple_answers {m : Msg} (hk : Kept ω z s) : Answers ω z (execSetRipple m s) := by
  unfold execSetRipple
  refine serve_answers hk ?_
  intro _ _ hk₁
  split
  · exact refuse_kept hk₁
  · exact foldl_kept (fun _ _ hk₂ => modCore_kept hk₂ (fun _ => ⟨id, fun _ => rfl⟩)) hk₁

theorem execGetPower_answers {m : Msg} (hk : Kept ω z s) : Answers ω z (execGetPower m s) := serve_answers hk (fun _ _ hk₁ => hk₁)

theorem execGetVersion_answers {y : SpdmReq} (hk : Kept ω z s) : Answers ω z (execGetVersion y s) := spdmAnswer_answers hk (emit_kept (Kept.frame hk rfl))

theorem execSpdmGetCapabilities_answers {y : SpdmReq} (hk : Kept ω z s) : Answers ω z (execSpdmGetCapabilities y s) := spdmAnswer_answers hk (Kept.ite (emit_kept hk) (spdmError_kept hk))

theorem execNegotiateAlgorithms_answers {y : SpdmReq} (hk : Kept ω z s) : Answers ω z (execNegotiateAlgorithms y s) := spdmAnswer_answers hk (Kept.ite (spdmError_kept hk) (Kept.ite (emit_kept (Kept.frame hk rfl)) (spdmError_kept hk)))

theorem execGetDigests_answers {y : SpdmReq} (hk : Kept ω z s) : Answers ω z (execGetDigests y s) := spdmServe_answers hk (emit_kept hk)

theorem execGetCertificate_answers {y : SpdmReq} (hk : Kept ω z s) : Answers ω z (execGetCertificate y s) := spdmServe_answers hk (Kept.ite (spdmError_kept hk) (emit_kept hk))

theorem execChallenge_answers {y : SpdmReq} (hk : Kept ω z s) : Answers ω z (execChallenge y s) := spdmServe_answers hk (emit_kept hk)

theorem execGetMeasurements_answers {y : SpdmReq} (hk : Kept ω z s) : Answers ω z (execGetMeasurements y s) := by
  unfold execGetMeasurements
  refine spdmServe_answers hk ?_
  split
  · exact spdmError_kept hk
  · exact emit_kept hk

theorem execNop_answers {core : CoreId} {queue : QueueId} (hk : Kept ω z s) : Answers ω z (execNop core queue s) := startCmd_answers hk (fun _ hk₁ => attemptNop_kept hk₁)

theorem execWait_answers {core : CoreId} {queue : QueueId} (hk : Kept ω z s) : Answers ω z (execWait core queue s) := startCmd_answers hk (fun _ hk₁ => attemptWait_kept hk₁)

theorem execSignal_answers {core : CoreId} {queue : QueueId} (hk : Kept ω z s) : Answers ω z (execSignal core queue s) := startCmd_answers hk (fun _ hk₁ => attemptSignal_kept hk₁)

theorem execWaitSlot_answers {core : CoreId} {queue : QueueId} (hk : Kept ω z s) : Answers ω z (execWaitSlot core queue s) := startCmd_answers hk (fun _ hk₁ => attemptWaitSlot_kept hk₁)

theorem execReleaseSlot_answers {core : CoreId} {queue : QueueId} (hk : Kept ω z s) : Answers ω z (execReleaseSlot core queue s) := startCmd_answers hk (fun _ hk₁ => attemptReleaseSlot_kept hk₁)

theorem execSendSlot_answers {core : CoreId} {queue : QueueId} {port : PortId} (hk : Kept ω z s) : Answers ω z (execSendSlot core queue port s) := startCmd_answers hk (fun _ hk₁ => attemptSendSlot_kept hk₁)

theorem execMatmul_answers {core : CoreId} {queue : QueueId} {upsets : List ArrayUpset} {late : List Nat} (hk : Kept ω z s) (hb : ω.bytes = false) : Answers ω z (execMatmul core queue upsets late s) := startCmd_answers hk (fun _ hk₁ => attemptMatrix_kept hk₁ hb)

theorem execConv_answers {core : CoreId} {queue : QueueId} {upsets : List ArrayUpset} {late : List Nat} (hk : Kept ω z s) (hb : ω.bytes = false) : Answers ω z (execConv core queue upsets late s) := startCmd_answers hk (fun _ hk₁ => attemptMatrix_kept hk₁ hb)

theorem execEltwise_answers {core : CoreId} {queue : QueueId} {upsets : List ArrayUpset} {late : List Nat} (hk : Kept ω z s) (hb : ω.bytes = false) : Answers ω z (execEltwise core queue upsets late s) := startCmd_answers hk (fun _ hk₁ => attemptEltwise_kept hk₁ hb)

theorem execVecElem_answers {core : CoreId} {queue : QueueId} (hk : Kept ω z s) (hb : ω.bytes = false) : Answers ω z (execVecElem core queue s) := startCmd_answers hk (fun _ hk₁ => attemptVector_kept hk₁ hb)

theorem execVecFunc_answers {core : CoreId} {queue : QueueId} (hk : Kept ω z s) (hb : ω.bytes = false) : Answers ω z (execVecFunc core queue s) := startCmd_answers hk (fun _ hk₁ => attemptVector_kept hk₁ hb)

theorem execVecRowstat_answers {core : CoreId} {queue : QueueId} (hk : Kept ω z s) (hb : ω.bytes = false) : Answers ω z (execVecRowstat core queue s) := startCmd_answers hk (fun _ hk₁ => attemptVector_kept hk₁ hb)

theorem execVecSoftmax_answers {core : CoreId} {queue : QueueId} (hk : Kept ω z s) (hb : ω.bytes = false) : Answers ω z (execVecSoftmax core queue s) := startCmd_answers hk (fun _ hk₁ => attemptVector_kept hk₁ hb)

theorem execVecNorm_answers {core : CoreId} {queue : QueueId} (hk : Kept ω z s) (hb : ω.bytes = false) : Answers ω z (execVecNorm core queue s) := startCmd_answers hk (fun _ hk₁ => attemptVector_kept hk₁ hb)

theorem execTag_answers {core : CoreId} {queue : QueueId} (hk : Kept ω z s) : Answers ω z (execTag core queue s) := startCmd_answers hk (fun _ hk₁ => attemptTag_kept hk₁)

theorem execSaveOpen_answers {core : CoreId} {queue : QueueId} (hk : Kept ω z s) : Answers ω z (execSaveOpen core queue s) := startCmd_answers hk (fun _ hk₁ => attemptOpen_kept hk₁)

theorem execSaveCopy_answers {core : CoreId} {queue : QueueId} (hk : Kept ω z s) (hb : ω.bytes = false) : Answers ω z (execSaveCopy core queue s) := startCmd_answers hk (fun _ hk₁ => attemptSaveCopy_kept hk₁ hb)

theorem execSaveClose_answers {core : CoreId} {queue : QueueId} (hk : Kept ω z s) : Answers ω z (execSaveClose core queue s) := startCmd_answers hk (fun _ hk₁ => attemptClose_kept hk₁)

theorem execRestore_answers {core : CoreId} {queue : QueueId} (hk : Kept ω z s) (hb : ω.bytes = false) : Answers ω z (execRestore core queue s) := startCmd_answers hk (fun _ hk₁ => attemptRestore_kept hk₁ hb)

theorem execTarnQuery_answers {core : CoreId} {queue : QueueId} (hk : Kept ω z s) : Answers ω z (execTarnQuery core queue s) := startCmd_answers hk (fun _ hk₁ => joinBatch_kept hk₁)

theorem execTarnInsert_answers {core : CoreId} {queue : QueueId} (hk : Kept ω z s) (hb : ω.bytes = false) : Answers ω z (execTarnInsert core queue s) := startCmd_answers hk (fun _ hk₁ => attemptInsert_kept hk₁ hb)

theorem execTarnDelete_answers {core : CoreId} {queue : QueueId} {first : List Nat} (hk : Kept ω z s) (hb : ω.bytes = false) : Answers ω z (execTarnDelete core queue first s) := startCmd_answers hk (fun _ hk₁ => attemptDelete_kept (doing_kept hk₁) hb)

theorem execEpochPublish_answers {core : CoreId} {queue : QueueId} (hk : Kept ω z s) : Answers ω z (execEpochPublish core queue s) := startCmd_answers hk (fun _ hk₁ => attemptPublish_kept hk₁)

theorem execBucketAdd_answers {core : CoreId} {queue : QueueId} {first : List Nat} (hk : Kept ω z s) (hb : ω.bytes = false) : Answers ω z (execBucketAdd core queue first s) := startCmd_answers hk (fun _ hk₁ => attemptAdd_kept (doing_kept hk₁) hb)

theorem execBucketFlush_answers {core : CoreId} {queue : QueueId} {port : PortId} (hk : Kept ω z s) (hb : ω.bytes = false) : Answers ω z (execBucketFlush core queue port s) := startCmd_answers hk (fun _ hk₁ => attemptFlush_kept hk₁ hb)

theorem execUpdate_answers {core : CoreId} {queue : QueueId} {first : List Nat} (hk : Kept ω z s) (hb : ω.bytes = false) : Answers ω z (execUpdate core queue first s) := startCmd_answers hk (fun _ hk₁ => attemptUpdate_kept (takeUpdate_kept (doing_kept hk₁)) hb)

theorem execWaitTimeout_answers {core : CoreId} {queue : QueueId} {id : Option Nat} (hk : Kept ω z s) : Answers ω z (execWaitTimeout core queue id s) := by
  unfold execWaitTimeout
  dsimp only
  split
  · split
    · exact .next hk
    · split
      · exact .next (timeoutCmd_kept hk)
      · exact .next hk
  · split
    · exact .next hk
    · split
      · exact .next (timeoutCmd_kept (beginCmd_kept hk))
      · exact .next hk

theorem execConsumerHeadUpdate_answers {core : CoreId} {queue : QueueId} {head : BitVec 32} (hk : Kept ω z s) (hb : ω.bytes = false) : Answers ω z (execConsumerHeadUpdate core queue head s) := by
  unfold execConsumerHeadUpdate
  split
  · exact .next hk
  · split
    · exact .next (postErr_kept hk)
    · exact .next (modQueue_kept (hbmWrite_kept hk hb))

theorem execRampDown_answers {core : CoreId} {array : Fin 4} {ends : Bool} (hk : Kept ω z s) : Answers ω z (execRampDown core array ends s) := .next (modCore_kept hk (fun _ => ⟨id, fun _ => rfl⟩))

theorem execRampGrant_answers (hk : Kept ω z s) : Answers ω z (execRampGrant s) := by
  unfold execRampGrant
  split
  · exact .next hk
  · exact .next (Kept.frame (modCore_kept hk (fun _ => ⟨id, fun _ => rfl⟩)) rfl)

theorem execRendezvousTimeout_answers {index : Fin 16} (hk : Kept ω z s) : Answers ω z (execRendezvousTimeout index s) := by
  unfold execRendezvousTimeout
  split
  · exact .next hk
  · split
    · exact .next hk
    · exact .next (modIndex_kept hk)

theorem execBatchRun_answers {index : Fin 16} {port : PortId} (hk : Kept ω z s) (hb : ω.bytes = false) : Answers ω z (execBatchRun index port s) := by
  unfold execBatchRun
  split
  · exact .next hk
  · split
    · exact .next hk
    · split
      · exact .next (foldl_kept (fun _ _ hk₁ => stepQuery_kept hk₁ hb) hk)
      · split
        · exact .next hk
        · dsimp only
          split
          · exact .next (sendSnoops_kept (foldl_kept (fun _ _ hk₁ => keepLines_kept hk₁) hk))
          · split
            · exact .next hk
            · exact .next (serveHost_kept (foldl_kept (fun _ _ hk₁ => stepQuery_kept hk₁ hb) (streamBatch_kept (foldl_kept (fun _ _ hk₁ => dropLines_kept hk₁) hk))) hb)

theorem execMbxDoorbell_answers {chan : ChanId} {value : BitVec 32} (hk : Kept ω z s) : Answers ω z (execMbxDoorbell chan value s) := byHost_answers hk (ringDoorbell_kept hk)

theorem execChannelReset_answers {chan : ChanId} (hk : Kept ω z s) : Answers ω z (execChannelReset chan s) := byHost_answers hk (resetChan_kept hk)

theorem execEnable_answers {chan : ChanId} {on : Bool} (hk : Kept ω z s) : Answers ω z (execEnable chan on s) := byHost_answers hk (setEnable_kept hk)

theorem execMbxCplHead_answers {chan : ChanId} {value : BitVec 32} (hk : Kept ω z s) : Answers ω z (execMbxCplHead chan value s) := byHost_answers hk (setCplHead_kept hk)

theorem execModerationTimer_answers {chan : ChanId} (hk : Kept ω z s) : Answers ω z (execModerationTimer chan s) := by
  unfold execModerationTimer
  dsimp only
  split
  · exact .next (raise_kept (modChan_kept hk))
  · exact .next hk

theorem execSessionLeaseExpiry_answers {handle : BitVec 32} (hk : Kept ω z s) : Answers ω z (execSessionLeaseExpiry handle s) := by
  unfold execSessionLeaseExpiry
  split
  · exact .next (closeSession_kept hk)
  · exact .next hk

theorem execBootGo_answers {value : BitVec 32} (hk : Kept ω z s) : Answers ω z (execBootGo value s) := byHost_answers hk (Kept.ite (bootGo_kept hk) hk)

theorem execResetCtl_answers {value : BitVec 32} (hk : Kept ω z s) : Answers ω z (execResetCtl value s) := byHost_answers hk (resetKey_kept hk)

theorem execFwIrqStatus_answers {value : BitVec 32} (hk : Kept ω z s) : Answers ω z (execFwIrqStatus value s) := byHost_answers hk (clearIrq_kept hk)

theorem execSpadConflictClr_answers {core : CoreId} {value : BitVec 32} (hk : Kept ω z s) : Answers ω z (execSpadConflictClr core value s) := byHost_answers hk (clearConflicts_kept hk)

theorem execRegisterWrite_answers {bar : Bar} {offset : Nat} {size : Nat} {value : BitVec 64} {poison : Bool} (hk : Kept ω z s) : Answers ω z (execRegisterWrite bar offset size value poison s) := byHost_answers hk (writeRegister_kept hk)

theorem execBar2Read_answers {offset : Nat} {len : Nat} (hk : Kept ω z s) : Answers ω z (execBar2Read offset len s) := by
  unfold execBar2Read
  split
  · exact .next hk
  · split
    · exact .next (emit_kept hk)
    · split
      · exact .next (emit_kept hk)
      · exact .next (emit_kept (hbmRead_kept hk))

theorem execBar2Write_answers {offset : Nat} {data : List Byte} {poison : Bool} (hk : Kept ω z s) (hb : ω.bytes = false) : Answers ω z (execBar2Write offset data poison s) := by
  unfold execBar2Write
  split
  · exact .next hk
  · split
    · exact .next (emit_kept hk)
    · split
      · exact .next (postErr_kept (emit_kept hk))
      · exact .next (hbmWrite_kept hk hb)

theorem execMemRd_answers {line : Nat} {mv : Meta} (hk : Kept ω z s) : Answers ω z (execMemRd line mv s) := .next (hostRead_kept hk)

theorem execMemRdData_answers {line : Nat} {mv : Meta} (hk : Kept ω z s) : Answers ω z (execMemRdData line mv s) := .next (hostRead_kept hk)

theorem execMemInv_answers {line : Nat} (hk : Kept ω z s) : Answers ω z (execMemInv line s) := .next (hostInv_kept hk)

theorem execMemClnEvct_answers {line : Nat} (hk : Kept ω z s) : Answers ω z (execMemClnEvct line s) := .next (hostEvict_kept hk)

theorem execMemWr_answers {line : Nat} {mv : Meta} {data : List Byte} {poison : Bool} (hk : Kept ω z s) (hb : ω.bytes = false) : Answers ω z (execMemWr line mv data poison s) := .next (hostWrite_kept hk hb)

theorem execMemWrPtl_answers {line : Nat} {mv : Meta} {data : List Byte} {byteEnable : List Bool} {poison : Bool} (hk : Kept ω z s) (hb : ω.bytes = false) : Answers ω z (execMemWrPtl line mv data byteEnable poison s) := .next (hostWrite_kept hk hb)

theorem execBiConflict_answers {line : Nat} (hk : Kept ω z s) : Answers ω z (execBiConflict line s) := by
  unfold execBiConflict
  split
  · exact .next hk
  · exact .next (emit_kept (foldl_kept (fun _ _ hk₁ => hostDrop_kept hk₁) (Kept.frame hk rfl)))

theorem execLinkCtl_answers {port : PortId} {f : Frame} (hk : Kept ω z s) : Answers ω z (execLinkCtl port f s) := by
  unfold execLinkCtl
  dsimp only
  split
  · exact .next hk
  · exact .next (drain_kept (Kept.ite (modPort_kept hk) (Kept.ite (replayFrames_kept (modPort_kept hk)) (modPort_kept (modPort_kept hk)))))

theorem execHello_answers {port : PortId} {h : Hello} {l : LinkFields} (hk : Kept ω z s) : Answers ω z (execHello port h l s) := by
  unfold execHello
  dsimp only
  split
  · exact .next hk
  · split
    · exact .next (settlePorts_kept (agreeVersion_kept (modPort_kept (drain_kept (modPort_kept hk)))))
    · split
      · exact .next (rejudge_kept (keepPeer_kept (drain_kept (modPort_kept hk))))
      · exact .next (rejudge_kept (agreeVersion_kept (keepPeer_kept (modPort_kept (drain_kept (modPort_kept hk))))))

theorem execWrite_answers {via : Via} {f : Frame} (hk : Kept ω z s) (hb : ω.bytes = false) : Answers ω z (execWrite via f s) := by
  unfold execWrite
  dsimp only
  split
  · exact .next (acceptFrame_kept hk)
  · split
    · exact .next (respond_kept (acceptFrame_kept hk))
    · split
      · exact .next (landWrite_kept (acceptFrame_kept hk) hb)
      · exact .next (respond_kept (logRefusal_kept (acceptFrame_kept hk)))

theorem execRead_answers {via : Via} {f : Frame} (hk : Kept ω z s) : Answers ω z (execRead via f s) := by
  unfold execRead
  dsimp only
  split
  · exact .next (acceptFrame_kept hk)
  · split
    · exact .next (respond_kept (acceptFrame_kept hk))
    · split
      · exact .next (Kept.ite (respond_kept (acceptFrame_kept hk)) (respond_kept (acceptFrame_kept hk)))
      · exact .next (respond_kept (logRefusal_kept (acceptFrame_kept hk)))

theorem execTime_answers {port : PortId} {t : TimeMsg} {l : LinkFields} (hk : Kept ω z s) : Answers ω z (execTime port t l s) := by
  unfold execTime
  dsimp only
  split
  · exact .next hk
  · split
    · exact .next (modPort_kept (drain_kept (modPort_kept hk)))
    · refine .next ?_
      split
      · exact steer_kept (takeSource_kept (noteRoots_kept (modPort_kept (drain_kept (modPort_kept hk)))))
      · exact takeSource_kept (noteRoots_kept (modPort_kept (drain_kept (modPort_kept hk))))

theorem execRetrainSync_answers {port : PortId} {sessionId : BitVec 32} {l : LinkFields} (hk : Kept ω z s) : Answers ω z (execRetrainSync port sessionId l s) := by
  unfold execRetrainSync
  dsimp only
  split
  · exact .next hk
  · split
    · split
      · exact .next (flushCredits_kept (enterTarget_kept (modPort_kept hk)))
      · exact .next hk
    · split
      · split
        · exact .next (enterTraining_kept (endSession_kept hk))
        · split
          · refine .next ?_
            split
            · exact postErr_kept (flushCredits_kept (enterTarget_kept (modPort_kept hk)))
            · exact flushCredits_kept (enterTarget_kept (modPort_kept hk))
          · exact .next hk
      · exact .next hk

theorem execFrameDrop_answers {port : PortId} (hk : Kept ω z s) : Answers ω z (execFrameDrop port s) := by
  unfold execFrameDrop
  dsimp only
  split
  · exact .next hk
  · exact .next (Kept.ite (discardFrame_kept (modPort_kept hk)) (modPort_kept hk))

theorem execLaneLock_answers {port : PortId} {sessionId : BitVec 32} (hk : Kept ω z s) : Answers ω z (execLaneLock port sessionId s) := by
  unfold execLaneLock
  dsimp only
  split
  · exact .next hk
  · split
    · split
      · exact .next (sendHello_kept (modPort_kept hk))
      · exact .next (offerSession_kept (modPort_kept hk))
    · split
      · exact .next (sendSync_kept (modPort_kept hk))
      · exact .next hk

theorem execLaneUnlock_answers {port : PortId} {lane : Fin 8} (hk : Kept ω z s) : Answers ω z (execLaneUnlock port lane s) := by
  unfold execLaneUnlock
  dsimp only
  split
  · exact .next hk
  · split
    · exact .next (enterTraining_kept hk)
    · split
      · exact .next (modPort_kept hk)
      · exact .next (modPort_kept (enterRetrain_kept hk))

theorem execTrainingAttemptTimeout_answers {port : PortId} (hk : Kept ω z s) : Answers ω z (execTrainingAttemptTimeout port s) := by
  unfold execTrainingAttemptTimeout
  split
  · exact .next (enterTraining_kept hk)
  · exact .next hk

theorem execReequalizationTimeout_answers {port : PortId} (hk : Kept ω z s) : Answers ω z (execReequalizationTimeout port s) := by
  unfold execReequalizationTimeout
  split
  · exact .next (modPort_kept hk)
  · exact .next hk

theorem execReplayRequestRepeat_answers {port : PortId} (hk : Kept ω z s) : Answers ω z (execReplayRequestRepeat port s) := by
  unfold execReplayRequestRepeat
  dsimp only
  split
  · exact .next (askReplay_kept hk)
  · exact .next hk

theorem execLinkLostTimer_answers {port : PortId} (hk : Kept ω z s) : Answers ω z (execLinkLostTimer port s) := by
  unfold execLinkLostTimer
  split
  · exact .next (enterTraining_kept (endSession_kept hk))
  · exact .next hk

theorem execResponseTimer_answers {port : PortId} (hk : Kept ω z s) : Answers ω z (execResponseTimer port s) := by
  unfold execResponseTimer
  split
  · exact .next (enterTraining_kept (endSession_kept hk))
  · exact .next hk

theorem execEndpointWaitTimeout_answers {core : CoreId} {queue : QueueId} {id : Nat} (hk : Kept ω z s) : Answers ω z (execEndpointWaitTimeout core queue id s) := by
  unfold execEndpointWaitTimeout
  split
  · exact .next hk
  · split
    · exact .next (modStarted_kept (dropCmdOps_kept hk))
    · exact .next hk

theorem execTimeFrameTx_answers {port : PortId} (hk : Kept ω z s) : Answers ω z (execTimeFrameTx port s) := by
  unfold execTimeFrameTx
  dsimp only
  split
  · exact .next (emit_kept (takeSource_kept hk))
  · exact .next hk

theorem execV1CreditHold_answers {queue : Fin 2} (hk : Kept ω z s) : Answers ω z (execV1CreditHold queue s) := by
  unfold execV1CreditHold
  split
  · exact .next (flushCredits_kept (Kept.frame hk rfl))
  · exact .next hk

theorem execCnp_answers {conn : BitVec 12} {spill : Bool} (hk : Kept ω z s) : Answers ω z (execCnp conn spill s) := .next (modConn_kept hk)

theorem execRateRecovery_answers {conn : BitVec 12} {spill : Bool} (hk : Kept ω z s) : Answers ω z (execRateRecovery conn spill s) := .next (modConn_kept hk)

theorem execPfcPause_answers {port : Fin 2} {priority : BitVec 3} {on : Bool} (hk : Kept ω z s) : Answers ω z (execPfcPause port priority on s) := by
  unfold execPfcPause
  split
  · exact .next hk
  · exact .next (sendCheckpoints_kept (drainConns_kept (modEth_kept hk)))

theorem execRdmaInbound_answers {conn : BitVec 12} (hk : Kept ω z s) : Answers ω z (execRdmaInbound conn s) := by
  unfold execRdmaInbound
  split
  · exact .next hk
  · split
    · exact .next hk
    · exact .next (emit_kept hk)

theorem execEthernetOtherFrame_answers {port : Fin 2} (hk : Kept ω z s) : Answers ω z (execEthernetOtherFrame port s) := by
  unfold execEthernetOtherFrame
  split
  · exact .next (modEth_kept hk)
  · exact .next hk

theorem execRcRetransmit_answers {conn : BitVec 12} (hk : Kept ω z s) : Answers ω z (execRcRetransmit conn s) := by
  unfold execRcRetransmit
  split
  · exact .next hk
  · split
    · exact .next (retransmit_kept hk)
    · exact .next hk

theorem execConnectionError_answers {conn : BitVec 12} (hk : Kept ω z s) : Answers ω z (execConnectionError conn s) := by
  unfold execConnectionError
  split
  · exact .next hk
  · split
    · exact .next (postErr_kept (failConn_kept (modConn_kept hk)))
    · exact .next hk

theorem execPtpMessage_answers {port : Fin 2} {m : PtpMsg} (hk : Kept ω z s) : Answers ω z (execPtpMessage port m s) := by
  unfold execPtpMessage
  dsimp only
  split
  · split
    · exact .next hk
    · split
      · exact .next (modEth_kept hk)
      · exact .next (askDelay_kept hk)
  · split
    · split
      · exact .next (askDelay_kept hk)
      · exact .next hk
    · exact .next hk
  · split
    · exact .next (modEth_kept hk)
    · exact .next hk

theorem execPpsEdge_answers (hk : Kept ω z s) : Answers ω z (execPpsEdge s) := .next (Kept.ite (markSecond_kept (foldl_kept (fun _ _ hk₁ => applyStart_kept hk₁) hk)) hk)

theorem execReferenceValid_answers (hk : Kept ω z s) : Answers ω z (execReferenceValid s) := .next (Kept.frame hk rfl)

theorem execReferenceLost_answers (hk : Kept ω z s) : Answers ω z (execReferenceLost s) := .next (Kept.ite (postErr_kept (Kept.frame hk rfl)) (Kept.frame hk rfl))

theorem execEdgeFire_answers {edge : Fin 64} (hk : Kept ω z s) : Answers ω z (execEdgeFire edge s) := by
  unfold execEdgeFire
  split
  · exact .next hk
  · exact .next (fireEdge_kept (Kept.ite (Kept.frame hk rfl) hk))

theorem execErrorEventHandle_answers {detected : List HwEvent} (hk : Kept ω z s) : Answers ω z (execErrorEventHandle detected s) := by
  unfold execErrorEventHandle
  split
  · exact .next (handleEvent_kept (foldl_kept (fun _ _ hk₁ => detect_kept hk₁) hk))
  · exact .next hk

theorem execImageCheck_answers {image : Option (List Byte)} (hk : Kept ω z s) : Answers ω z (execImageCheck image s) := by
  unfold execImageCheck
  split
  · exact .next hk
  · dsimp only
    split
    · exact .next (Kept.frame hk rfl)
    · exact .next (bootFailed_kept hk)
    · exact .next (bootFailed_kept hk)

theorem execFuseSense_answers (hk : Kept ω z s) : Answers ω z (execFuseSense s) := by
  unfold execFuseSense
  split
  · exact .next hk
  · exact .next (Kept.ite (setFwStage_kept (Kept.frame hk rfl) (by decide)) (Kept.frame hk rfl))

theorem execPowerOn_answers (hk : Kept ω z s) (hb : ω.bytes = false) (hq : ω.quarantine = false) : Answers ω z (execPowerOn s) := by
  unfold execPowerOn
  split
  · exact .next hk
  · exact .next (fullReset_kept hk hb hq)

theorem execPwrgoodFall_answers (hk : Kept ω z s) (hb : ω.bytes = false) (hq : ω.quarantine = false) : Answers ω z (execPwrgoodFall s) := by
  unfold execPwrgoodFall
  split
  · exact .next (Kept.frame (fullReset_kept hk hb hq) rfl)
  · exact .next hk

theorem execDeviceReset_answers (hk : Kept ω z s) (hb : ω.bytes = false) (hq : ω.quarantine = false) : Answers ω z (execDeviceReset s) := by
  unfold execDeviceReset
  split
  · exact .next (fullReset_kept hk hb hq)
  · exact .next hk

theorem execPowerManagerTick_answers {powerLimit : List (BitVec 16)} {hold : BitVec 8} {avsAcked : Bool} (hk : Kept ω z s) : Answers ω z (execPowerManagerTick powerLimit hold avsAcked s) := by
  unfold execPowerManagerTick
  split
  · exact .next hk
  · refine .next ?_
    split
    · exact postErr_kept (Kept.ite (emit_kept (Kept.frame hk rfl)) (Kept.frame hk rfl))
    · exact Kept.ite (emit_kept (Kept.frame hk rfl)) (Kept.frame hk rfl)

theorem execAvsRetry_answers {acked : Bool} (hk : Kept ω z s) : Answers ω z (execAvsRetry acked s) := by
  unfold execAvsRetry
  split
  · exact .next hk
  · exact .next (emit_kept (Kept.frame hk rfl))

theorem execTelemetrySample_answers {avgW : BitVec 16} {peakW : BitVec 16} {energy : BitVec 64} {temps : List (BitVec 8)} {limiter : List (BitVec 64)} (hk : Kept ω z s) : Answers ω z (execTelemetrySample avgW peakW energy temps limiter s) := by
  unfold execTelemetrySample
  split
  · exact .next hk
  · exact .next (Kept.frame (Kept.frame hk rfl) rfl)

theorem execTelemetrySnapshot_answers (hk : Kept ω z s) (hb : ω.bytes = false) : Answers ω z (execTelemetrySnapshot s) := by
  unfold execTelemetrySnapshot
  split
  · exact .next hk
  · exact .next (Kept.ite (Kept.frame hk rfl) (settleSnapshots_kept (Kept.frame hk rfl) hb))

theorem execThermalThrottle_answers {sensor : Fin 41} {temp : BitVec 8} (hk : Kept ω z s) : Answers ω z (execThermalThrottle sensor temp s) := by
  unfold execThermalThrottle
  split
  · exact .next hk
  · exact .next (Kept.ite (setTemp_kept hk) (Kept.frame (setTemp_kept hk) rfl))

theorem execThermalCritical_answers {sensor : Fin 41} {temp : BitVec 8} (hk : Kept ω z s) : Answers ω z (execThermalCritical sensor temp s) := by
  unfold execThermalCritical
  split
  · exact .next hk
  · exact .next (deviceErr_kept (Kept.frame (setTemp_kept hk) rfl))

theorem execThermalTrip_answers {sensor : Fin 41} {temp : BitVec 8} (hk : Kept ω z s) : Answers ω z (execThermalTrip sensor temp s) := by
  unfold execThermalTrip
  split
  · split
    · exact .next hk
    · exact .next (emit_kept (Kept.frame (setTemp_kept hk) rfl))
  · split
    · exact .next hk
    · exact .next (emit_kept (Kept.frame (setTemp_kept hk) rfl))

theorem execNonceExpiry_answers (hk : Kept ω z s) : Answers ω z (execNonceExpiry s) := .next (Kept.frame hk rfl)

theorem execJtagAccess_answers {i : JtagInstr} (hk : Kept ω z s) : Answers ω z (execJtagAccess i s) := by
  unfold execJtagAccess
  split
  · exact .next (Kept.frame hk rfl)
  · exact .next (Kept.ite hk (emit_kept hk))
  · exact .next hk
  · split
    · exact .next hk
    · exact .next (emit_kept (freshWord_kept hk))
  · exact .next (Kept.ite hk (Kept.frame hk rfl))

theorem execEthernetLinkUp_answers {port : Fin 2} (hk : Kept ω z s) : Answers ω z (execEthernetLinkUp port s) := by
  unfold execEthernetLinkUp
  dsimp only
  split
  · exact .next (sendCheckpoints_kept (drainConns_kept (modEth_kept hk)))
  · exact .next hk

theorem execEthernetLinkDown_answers {port : Fin 2} (hk : Kept ω z s) : Answers ω z (execEthernetLinkDown port s) := .next (modEth_kept hk)

theorem execPcieLinkTrained_answers {width : Nat} {gts : Nat} (hk : Kept ω z s) : Answers ω z (execPcieLinkTrained width gts s) := by
  unfold execPcieLinkTrained
  split
  · exact .next hk
  · exact .next (Kept.frame hk rfl)

theorem execHdmDecoderCommit_answers {base : BitVec 64} {size : BitVec 64} {ways : Nat} (hk : Kept ω z s) : Answers ω z (execHdmDecoderCommit base size ways s) := by
  unfold execHdmDecoderCommit
  split
  · exact .next hk
  · exact .next (Kept.frame hk rfl)

theorem execFetchError_answers {chan : ChanId} (hk : Kept ω z s) : Answers ω z (execFetchError chan s) := by
  unfold execFetchError
  dsimp only
  split
  · exact .next (modChan_kept hk)
  · exact .next hk

theorem execRoceAck_answers {conn : BitVec 12} {kind : RoceAckKind} (hk : Kept ω z s) : Answers ω z (execRoceAck conn kind s) := by
  unfold execRoceAck
  split
  · exact .next hk
  · split
    · exact .next hk
    · split
      · exact .next (foldl_kept (fun _ _ hk₁ => ackCkpt_kept hk₁) (modConn_kept hk))
      · split
        · exact .next (retransmit_kept hk)
        · exact .next hk
      · split
        · exact .next (retransmit_kept hk)
        · exact .next hk

theorem execRdmaReadResponse_answers {conn : BitVec 12} {data : List Byte} (hk : Kept ω z s) (hb : ω.bytes = false) : Answers ω z (execRdmaReadResponse conn data s) := by
  unfold execRdmaReadResponse
  split
  · exact .next hk
  · dsimp only
    split
    · exact .next (contHeld_kept (takeArrived_kept (endFirmwareOp_kept hk) hb))
    · split
      · exact .next (contHeld_kept (corruptImage_kept (endFirmwareOp_kept hk)))
      · exact .next (askImage_kept (endFirmwareOp_kept hk))

theorem execRefreshThreshold_answers {stack : Fin 8} {temp : BitVec 8} (hk : Kept ω z s) : Answers ω z (execRefreshThreshold stack temp s) := by
  unfold execRefreshThreshold
  split
  · exact .next hk
  · exact .next (Kept.frame (setTemp_kept hk) rfl)

end Sys2Proof.Machine
end

section
/-! PROOFS. What the commands that change a watched part, or fold over many, keep of what is watched. -/

namespace Sys2Proof.Machine

variable {ω : Watch} {z s t : State} {r : Run}

theorem Hbm.Kept.ite {g h k : Hbm} {c : Prop} [Decidable c] (hh : g.Kept ω h) (hk : g.Kept ω k) : g.Kept ω (if c then h else k) := by
  split
  · exact hh
  · exact hk

theorem setPower_kept {p : Power} (hk : Kept ω z s) : Kept ω z { s with power := p } := hk.frame rfl

theorem Kept.done {y : Reply} (hk : Kept ω z s) : Kept ω z (Answer.done s y).state := hk

theorem restartDueNow_kept (hk : Kept ω z s) : Kept ω z (restartDueNow s) := by
  unfold restartDueNow
  split
  · have reset : Kept ω z (controlReset s false) := controlReset_kept hk
    generalize controlReset s false = t at reset
    exact setFwStage_kept (reset.same rfl) (by decide)
  · exact hk

theorem attemptDma_kept {want : Nat} (hk : Kept ω z r.s) (hb : ω.bytes = false) : Kept ω z (attemptDma want r).s := by
  have go : ∀ {x : Run} {n : Nat} {sd : Side × Side}, Kept ω z x.s → Kept ω z
      (if sd.1.remote then
        (match x.coherent [] (sideRange sd.2 (min x.e.cursor n) n) with
         | .stop y => y
         | .go y => y.fromRemote sd n want)
      else if sd.2.remote then
        (match x.coherent (sideRange sd.1 (min x.e.cursor n) n) [] with
         | .stop y => y
         | .go y => y.toRemote sd n want)
      else x.inside sd n).s := by
    intro x n sd hk
    split
    · split
      next h => exact coherent_stop_kept hk h
      next h => exact fromRemote_kept (coherent_go_kept hk h) hb
    split
    · split
      next h => exact coherent_stop_kept hk h
      next h => exact toRemote_kept (coherent_go_kept hk h) hb
    · exact inside_kept hk hb
  unfold attemptDma
  dsimp only
  split
  next h =>
    have reserved := reserve_kept (by exact hk) h
    rw [apply_ite Run.s]
    exact .ite (go reserved) reserved
  · exact go (x := { r with e := _ }) hk

theorem execSetCircular_answers {m : Msg} (hk : Kept ω z s) : Answers ω z (execSetCircular m s) := by
  refine serve_answers hk fun s x hk => ?_
  dsimp only
  split
  · exact refuse_kept hk
  split
  · exact refuse_kept hk
  split
  · exact refuse_kept hk
  · exact .done (modCfg_kept hk)

theorem execOpenWindow_answers {m : Msg} (hk : Kept ω z s) : Answers ω z (execOpenWindow m s) := by
  refine serve_answers hk fun s x hk => ?_
  dsimp only
  split
  · exact refuse_kept hk
  · exact .done (modCfg_kept hk)

theorem execCloseWindow_answers {m : Msg} (hk : Kept ω z s) : Answers ω z (execCloseWindow m s) := by
  refine serve_answers hk fun s x hk => ?_
  dsimp only
  split
  · exact refuse_kept hk
  split
  · exact refuse_kept hk
  · exact .done (modCfg_kept hk)

theorem execSetConflictPolicy_answers {m : Msg} (hk : Kept ω z s) : Answers ω z (execSetConflictPolicy m s) := by
  refine serve_answers hk fun s x hk => ?_
  dsimp only
  split
  · exact refuse_kept hk
  split
  · exact refuse_kept hk
  · exact .done (modCfg_kept hk)

theorem execSetSaveMode_answers {m : Msg} (hk : Kept ω z s) : Answers ω z (execSetSaveMode m s) := by
  refine serve_answers hk fun s x hk => ?_
  dsimp only
  split
  · exact refuse_kept hk
  · exact .done (modCfg_kept hk)

theorem execSetCoordinates_answers {m : Msg} (hk : Kept ω z s) : Answers ω z (execSetCoordinates m s) := by
  refine serve_answers hk fun s x hk => ?_
  dsimp only
  split
  · exact refuse_kept hk
  split
  · exact refuse_kept hk
  split
  · exact hk
  split
  · exact refuse_kept hk
  · have placed : ∀ f : Fabric, Kept ω z (State.helloAll { s with fabric := f }) := fun _ => helloAll_kept (hk.frame rfl)
    exact .done (rejudge_kept (.ite (startTraining_kept (placed _)) (placed _)))

theorem execSetWiringMap_answers {m : Msg} (hk : Kept ω z s) : Answers ω z (execSetWiringMap m s) := by
  refine serve_answers hk fun s x hk => ?_
  dsimp only
  split
  · exact refuse_kept hk
  · exact .done (settlePorts_kept (helloAll_kept (hk.frame rfl)))

theorem execSetWiringPolicy_answers {m : Msg} (hk : Kept ω z s) : Answers ω z (execSetWiringPolicy m s) := by
  refine serve_answers hk fun s x hk => ?_
  dsimp only
  split
  · exact refuse_kept hk
  · exact .done (settlePorts_kept (hk.frame rfl))

theorem execSetProfilePolicy_answers {m : Msg} (hk : Kept ω z s) : Answers ω z (execSetProfilePolicy m s) := by
  refine serve_answers hk fun s x hk => ?_
  dsimp only
  split
  · exact refuse_kept hk
  split
  · exact refuse_kept hk
  · exact .done (rejudge_kept (.ite (hk.frame rfl) (helloAll_kept (hk.frame rfl))))

theorem execSetEndpoint_answers {m : Msg} (hk : Kept ω z s) : Answers ω z (execSetEndpoint m s) := by
  refine serve_answers hk fun s x hk => ?_
  dsimp only
  split
  · exact refuse_kept hk
  split
  · exact hk
  split
  · exact refuse_kept hk
  · exact .done (settlePorts_kept (judgeEndpoint_kept (hk.frame rfl)))

theorem execRemoveEndpoint_answers {m : Msg} (hk : Kept ω z s) : Answers ω z (execRemoveEndpoint m s) := by
  refine serve_answers hk fun s x hk => ?_
  dsimp only
  split
  · exact refuse_kept hk
  · have dropped := foldl_kept (l := unsentOwners s (x.f 11 0))
      (f := fun s o => (s.dropCmdOps o.1 o.2.1 o.2.2).modStarted o.1 o.2.1 o.2.2 fun k => { k.fault 0x504 0 with done := true, wait := .none })
      (fun _ _ hk => modStarted_kept (dropCmdOps_kept hk)) hk
    exact .done (wakeEndpoint_kept (settlePorts_kept (dropped.frame rfl)))

theorem execClearError_answers {m : Msg} (hk : Kept ω z s) : Answers ω z (execClearError m s) := by
  refine serve_answers hk fun s x hk => ?_
  dsimp only
  split
  · exact refuse_kept hk
  · refine .done (hk.setErr (fun w => ?_) fun w => ?_)
    · (repeat' split) <;> exact w
    · by_cases hall : x.f 31 0 = 0xFFFFFFFF
      · simp only [if_pos hall]
        (repeat' split) <;> exact w
      · simp only [if_neg hall]
        have few := (List.length_filter_le (fun r : ErrRec => decide (x.f 31 0 < r.seq.toNat)) s.err.ring).trans w
        (repeat' split) <;> exact few

theorem execGetLastGasp_answers {m : Msg} (hk : Kept ω z s) : Answers ω z (execGetLastGasp m s) := by
  refine serve_answers hk fun s x hk => ?_
  have read := hk.setErr (e := if bit x.p 0 then { s.err with alertLatest := false } else { s.err with alertFirst := false })
    (fun w => by split <;> exact w) fun w => by split <;> exact w
  exact .done (.ite (settleAlert_kept read) hk)

theorem execSetPowerState_answers {m : Msg} (hk : Kept ω z s) : Answers ω z (execSetPowerState m s) := by
  refine serve_answers hk fun s x hk => ?_
  dsimp only
  split
  · exact refuse_kept hk
  split
  · exact .done (foldl_kept (fun _ _ hk => modCore_kept hk fun _ => ⟨id, fun _ => rfl⟩) (hk.frame rfl))
  split
  · exact refuse_kept hk
  · refine .done (setPower_kept (foldl_kept (fun _ _ hk => ?_) hk))
    exact modCore_kept hk fun _ => ⟨id, fun _ => rfl⟩

theorem execPatrolScrub_answers (hk : Kept ω z s) : Answers ω z (execPatrolScrub s) := by
  unfold execPatrolScrub
  split
  · exact .next hk
  · have corrected := correctWeak_kept (a := chanAddr (s.hbm.scrubPos % 128) (32 * (s.hbm.scrubPos / 128))) (n := 32) hk
    dsimp only
    generalize correctWeak s (chanAddr (s.hbm.scrubPos % 128) (32 * (s.hbm.scrubPos / 128))) 32 = t at corrected
    refine .next (Kept.setHbm (.ite (postErr_kept (corrected.setHbm (.of_wf (fun w => ?_) rfl))) corrected) ?_)
    · rw [Hbm.wf_iff] at w ⊢
      obtain ⟨hmem, hpoison, hweak, hbroken, hcorrected⟩ := w
      dsimp only
      exact ⟨hmem, tset_wf hpoison, hweak, tset_wf hbroken, hcorrected⟩
    · exact .ite (.of_wf id rfl) (.of_wf id rfl)

theorem execHbmChannelFailure_answers {channel : Fin 128} (hk : Kept ω z s) : Answers ω z (execHbmChannelFailure channel s) := by
  unfold execHbmChannelFailure
  split
  · exact .next hk
  · exact .next (deviceErr_kept (hk.setHbm (.of_wf id rfl)))

theorem execWatchdogTrip_answers {cause : BitVec 4} {hart : BitVec 2} {hartState : BitVec 2048} {handling : Bool} (hk : Kept ω z s) :
    Answers ω z (execWatchdogTrip cause hart hartState handling s) := by
  unfold execWatchdogTrip
  split
  · exact .next hk
  · have tripped := controlReset_kept (watchdog := true) (recordTrip_kept (l := gaspOf s.contain.assertAlert cause hart hartState handling) (assertAlert_kept (contain_kept hk)))
    dsimp only
    generalize controlReset (recordTrip s.contain.assertAlert (gaspOf s.contain.assertAlert cause hart hartState handling)) true = t at tripped
    refine .next (setFwStage_kept (tripped.frame rfl) ?_)
    split <;> decide

theorem execItkanStart_answers (hk : Kept ω z s) : Answers ω z (execItkanStart s) := by
  unfold execItkanStart
  split
  · exact .next hk
  · have faulted := faultChannels_kept hk
    dsimp only
    generalize faultChannels s = t at faulted
    have started : Kept ω z { t with
        boot := { t.boot with fwInstance := t.boot.fwInstance + 1, startReady := false, afterTrip := false }
        mbx := { t.mbx with sessions := [], issued := [], held := [] }
        sec := { t.sec with nonce := none } } :=
      (faulted.setSessions (b := { t.mbx with sessions := [], issued := [], held := [] }) fun _ => Nat.zero_le _).frame rfl
    have staged := setFwStage_kept (v := 3) started (by decide)
    exact .next (.ite (postErr_kept staged) staged)

theorem execHbmTrainingDone_answers {failed : BitVec 128} (hk : Kept ω z s) : Answers ω z (execHbmTrainingDone failed s) := by
  unfold execHbmTrainingDone
  split
  · exact .next hk
  · exact .next (setFwStage_kept (foldl_kept (fun _ _ hk => deviceErr_kept hk) (hk.setHbm (.of_wf id rfl))) (by decide))

theorem execHbmZeroingDone_answers (hk : Kept ω z s) (hb : ω.bytes = false) : Answers ω z (execHbmZeroingDone s) := by
  unfold execHbmZeroingDone
  split
  · exact .next hk
  · have zeroed := hk.setHbm (g := { s.hbm with mem := [], poison := [], weak := [], broken := [] }) ⟨fun w => ?_, by simp [hb]⟩
    · exact .next (becomeReady_kept (zeroed.frame rfl))
    · rw [Hbm.wf_iff] at w ⊢
      exact ⟨rfl, rfl, rfl, rfl, w.2.2.2.2⟩

end Sys2Proof.Machine
end

section
/-! PROOFS. What the operations that go on after a transfer, a snoop or a restart keep of what is watched. -/

namespace Sys2Proof.Machine

variable {ω : Watch} {z s t : State} {r : Run}

theorem attemptAny_kept {want : Nat} (hk : Kept ω z r.s) (hb : ω.bytes = false) : Kept ω z (attemptAny want r).s := by
  unfold attemptAny
  split
  · exact attemptWait_kept hk
  · exact attemptWaitSlot_kept hk
  · exact attemptSendSlot_kept hk
  · exact attemptLate_kept hk hb
  · exact attemptLate_kept hk hb
  · exact attemptLate_kept hk hb
  · exact attemptDma_kept hk hb
  · exact attemptDma_kept hk hb
  · exact attemptDma_kept hk hb
  · exact attemptTag_kept hk
  · exact attemptClose_kept hk
  · exact attemptQuery_kept hk hb
  · exact attemptInsert_kept hk hb
  · exact attemptDelete_kept hk hb
  · exact attemptPublish_kept hk
  · exact attemptAdd_kept hk hb
  · exact attemptFlush_kept hk hb
  · exact attemptUpdate_kept hk hb
  · exact hk

theorem resume_kept {c : Nat} {q : Nat} {id : Nat} {want : Nat} (hk : Kept ω z s) (hb : ω.bytes = false) : Kept ω z (resume s c q id want) := by
  unfold resume
  split
  · exact hk
  · exact Kept.ite hk (store_kept (attemptAny_kept hk hb))

theorem resumeWaiting_kept {p : Wait → Bool} (hk : Kept ω z s) (hb : ω.bytes = false) : Kept ω z (resumeWaiting s p) := foldl_kept (fun _ _ hk₁ => resume_kept hk₁ hb) hk

theorem fillRecorded_kept {e : IngressEntry} {k : MbQueue} (hk : Kept ω z s) (hb : ω.bytes = false) : Kept ω z (fillRecorded s e k) := by
  unfold fillRecorded
  exact resumeWaiting_kept (recordFill_kept (Kept.frame (devWrite_kept hk hb) rfl)) hb

theorem fillDue_kept (hk : Kept ω z s) (hb : ω.bytes = false) : Kept ω z (fillDue s) := by
  unfold fillDue
  split
  · exact hk
  · split
    · exact hk
    · refine foldl_kept ?_ hk
      intro _ _ hk₁
      dsimp only
      split
      · exact hk₁
      · split
        · exact hk₁
        · split
          · exact hk₁
          · exact Kept.ite (replayWaits_kept hk₁) (fillRecorded_kept (Kept.frame hk₁ rfl) hb)

theorem settleReplay_kept (hk : Kept ω z s) (hb : ω.bytes = false) : Kept ω z (settleReplay s) := by
  unfold settleReplay
  split
  · exact hk
  · dsimp only
    split
    · exact admitRecorded_kept (fillDue_kept hk hb) hb
    · split
      · refine Kept.frame ?_ rfl
        split
        · exact scan_kept (admitRecorded_kept (fillDue_kept hk hb) hb)
        · exact replayReply_kept (scan_kept (admitRecorded_kept (fillDue_kept hk hb) hb))
      · exact admitRecorded_kept (fillDue_kept hk hb) hb

theorem settleAll_kept (hk : Kept ω z s) (hb : ω.bytes = false) : Kept ω z (settleAll s) := settleReplay_kept (settleLog_kept (settleAborts_kept (settleFloors_kept hk)) hb) hb

theorem writeSlotDigest_kept {q : Nat} {i : Nat} (hk : Kept ω z s) (hb : ω.bytes = false) : Kept ω z (writeSlotDigest s q i) := by
  unfold writeSlotDigest
  refine resumeWaiting_kept ?_ hb
  refine Kept.frame ?_ rfl
  split
  · exact slotData_kept hk
  · exact record_kept (slotData_kept hk)

theorem dropDigest_kept {q : Nat} {i : Nat} (hk : Kept ω z s) (hb : ω.bytes = false) : Kept ω z (dropDigest s q i) := by
  unfold dropDigest
  exact resumeWaiting_kept (Kept.frame (Kept.frame hk rfl) rfl) hb

theorem writeDigest_kept (hk : Kept ω z s) (hb : ω.bytes = false) : Kept ω z (writeDigest s) := by
  unfold writeDigest
  split
  · exact hk
  · dsimp only
    split
    · exact Kept.frame hk rfl
    · split
      · exact writeSlotDigest_kept (Kept.frame hk rfl) hb
      · exact Kept.ite (dropDigest_kept (Kept.frame hk rfl) hb) (Kept.frame (sendSnoops_kept (Kept.frame hk rfl)) rfl)

theorem resumeDigest_kept (hk : Kept ω z s) (hb : ω.bytes = false) : Kept ω z (resumeDigest s) := by
  unfold resumeDigest
  split
  · exact Kept.ite hk (writeDigest_kept hk hb)
  · exact hk

theorem resumeSnooped_kept (hk : Kept ω z s) (hb : ω.bytes = false) : Kept ω z (resumeSnooped s) := settleReplay_kept (beginReplay_kept (settleLog_kept (resumeDigest_kept (settleCheckpoints_kept (settleSubmits_kept (resumeWaiting_kept hk hb)) hb) hb) hb) hb) hb

theorem landSlot_kept {v : Via} {f : Frame} (hk : Kept ω z s) (hb : ω.bytes = false) : Kept ω z (landSlot s v f) := by
  unfold landSlot
  dsimp only
  split
  · exact respond_kept (logRefusal_kept hk)
  · split
    · exact Kept.ite (respond_kept hk) (settlePfc_kept (sendSnoops_kept (Kept.frame hk rfl)))
    · split
      · exact respond_kept hk
      · split
        · split
          · exact resumeWaiting_kept (respond_kept (advanceSlot_kept (writePieces_kept hk hb))) hb
          · exact respond_kept (advanceSlot_kept (writePieces_kept hk hb))
        · split
          · split
            · exact resumeWaiting_kept (respond_kept (advanceSlot_kept (writePieces_kept hk hb))) hb
            · exact respond_kept (advanceSlot_kept (writePieces_kept hk hb))
          · split
            · exact resumeWaiting_kept (respond_kept (advanceSlot_kept (writePieces_kept hk hb))) hb
            · exact respond_kept (advanceSlot_kept (writePieces_kept hk hb))

theorem rerunSlot_kept {y : HostReq} (hk : Kept ω z s) (hb : ω.bytes = false) : Kept ω z (rerunSlot s y) := by
  unfold rerunSlot
  split
  · exact landSlot_kept hk hb
  · exact hk

theorem releaseLine_kept {line : Nat} (hk : Kept ω z s) (hb : ω.bytes = false) : Kept ω z (releaseLine s line) := settlePfc_kept (serveHost_kept (settleSnapshots_kept (resumeSnooped_kept (foldl_kept (fun _ _ hk₁ => rerunSlot_kept hk₁ hb) (Kept.frame hk rfl)) hb) hb) hb)

theorem resumeOwner_kept {o : OpOwner} (hk : Kept ω z s) (hb : ω.bytes = false) : Kept ω z (resumeOwner s o) := by
  unfold resumeOwner
  split
  · exact resume_kept hk hb
  · exact hk

theorem execCopy_answers {core : CoreId} {queue : QueueId} {port : PortId} (hk : Kept ω z s) (hb : ω.bytes = false) : Answers ω z (execCopy core queue port s) := startCmd_answers hk (fun _ hk₁ => attemptDma_kept hk₁ hb)

theorem execRemoteWrite_answers {core : CoreId} {queue : QueueId} {port : PortId} (hk : Kept ω z s) (hb : ω.bytes = false) : Answers ω z (execRemoteWrite core queue port s) := startCmd_answers hk (fun _ hk₁ => attemptDma_kept hk₁ hb)

theorem execRemoteRead_answers {core : CoreId} {queue : QueueId} {port : PortId} (hk : Kept ω z s) (hb : ω.bytes = false) : Answers ω z (execRemoteRead core queue port s) := startCmd_answers hk (fun _ hk₁ => attemptDma_kept hk₁ hb)

theorem execBiRsp_answers {line : Nat} {rsp : SnoopRsp} (hk : Kept ω z s) (hb : ω.bytes = false) : Answers ω z (execBiRsp line rsp s) := by
  unfold execBiRsp
  split
  · exact .next hk
  · exact .next (releaseLine_kept (track_kept (endSnoop_kept hk)) hb)

theorem execSnoopTimeout_answers {line : Nat} (hk : Kept ω z s) (hb : ω.bytes = false) : Answers ω z (execSnoopTimeout line s) := by
  unfold execSnoopTimeout
  split
  · exact .next hk
  · exact .next (releaseLine_kept (Kept.frame (postErr_kept (endSnoop_kept hk)) rfl) hb)

theorem execHostLinkReset_answers {cause : HostLinkCause} (hk : Kept ω z s) (hb : ω.bytes = false) : Answers ω z (execHostLinkReset cause s) := by
  unfold execHostLinkReset
  split
  · exact .next hk
  · exact .next (settlePfc_kept (settleSnapshots_kept (resumeSnooped_kept (foldl_kept (fun _ _ hk₁ => rerunSlot_kept hk₁ hb) (Kept.frame (resetHostLink_kept (abortWindowCkpts_kept hk)) rfl)) hb) hb))

theorem execSlotWrite_answers {via : Via} {f : Frame} (hk : Kept ω z s) (hb : ω.bytes = false) : Answers ω z (execSlotWrite via f s) := by
  unfold execSlotWrite
  dsimp only
  split
  · exact .next (acceptFrame_kept hk)
  · split
    · exact .next (respond_kept (acceptFrame_kept hk))
    · exact .next (landSlot_kept (acceptFrame_kept hk) hb)

theorem execReadData_answers {via : Via} {f : Frame} (hk : Kept ω z s) (hb : ω.bytes = false) : Answers ω z (execReadData via f s) := by
  unfold execReadData
  dsimp only
  split
  · exact .next (acceptFrame_kept hk)
  · split
    · exact .next (staleResponse_kept (acceptFrame_kept hk))
    · exact .next (resumeOwner_kept (landReadData_kept (acceptFrame_kept hk) hb) hb)

theorem execWriteAck_answers {via : Via} {f : Frame} (hk : Kept ω z s) (hb : ω.bytes = false) : Answers ω z (execWriteAck via f s) := by
  unfold execWriteAck
  dsimp only
  split
  · exact .next (acceptFrame_kept hk)
  · split
    · exact .next (staleResponse_kept (acceptFrame_kept hk))
    · exact .next (resumeOwner_kept (landAck_kept (acceptFrame_kept hk)) hb)

theorem execSlotCredit_answers {via : Via} {f : Frame} (hk : Kept ω z s) (hb : ω.bytes = false) : Answers ω z (execSlotCredit via f s) := by
  unfold execSlotCredit
  dsimp only
  split
  · exact .next (acceptFrame_kept hk)
  · exact .next (resumeWaiting_kept (landCredit_kept (acceptFrame_kept hk)) hb)

theorem execRewriteComplete_answers {index : Fin 16} {list : Nat} (hk : Kept ω z s) (hb : ω.bytes = false) : Answers ω z (execRewriteComplete index list s) := by
  unfold execRewriteComplete
  split
  · exact .next hk
  · split
    · exact .next hk
    · split
      · exact .next hk
      · split
        · exact .next hk
        · refine .next ?_
          refine resumeWaiting_kept ?_ hb
          split
          · exact modIndex_kept (rewriteList_kept hk hb)
          · exact endHeld_kept (modIndex_kept (rewriteList_kept hk hb))

theorem execDigestWritten_answers (hk : Kept ω z s) (hb : ω.bytes = false) : Answers ω z (execDigestWritten s) := .next (serveHost_kept (settleReplay_kept (settleLog_kept (writeDigest_kept hk hb) hb) hb) hb)

end Sys2Proof.Machine
end

section
/-! PROOFS. What the completion of a command, the rollback fuses and so every command keep of what is watched. -/

namespace Sys2Proof.Machine

variable {ω : Watch} {z s t : State} {r : Run}

theorem thenRestart_answers {y : Res} (h : Answers ω z y) : Answers ω z (thenRestart y) := by
  obtain ⟨t, rfl, hk⟩ := h
  exact .next (restartDueNow_kept hk)

theorem execFirmwareUpdate_answers {m : Msg} (hk : Kept ω z s) : Answers ω z (execFirmwareUpdate m s) :=
  thenRestart_answers (serveSecurity_answers hk (by simp [plainOp]))

theorem settleRing_coreKept {k l : Core} {i : Nat} (h : k.Kept ω l) : k.Kept ω (settleRing l i) := by
  unfold settleRing
  split
  · exact h
  · exact h.trans ⟨id, fun _ => rfl⟩

theorem leaveCore_coreKept {k : Core} {q : Nat} {e : Started} : k.Kept ω (leaveCore q e k) := by
  unfold leaveCore
  dsimp only
  split
  · exact ⟨id, fun _ => rfl⟩
  · exact settleRing_coreKept ⟨id, fun _ => rfl⟩

theorem retire_kept {c q : Nat} {e : Started} (hk : Kept ω z s) (hb : ω.bytes = false) : Kept ω z (retire s c q e) := by
  have marked := doneEvent_kept (c := c) (e := e) hk
  unfold retire
  generalize doneEvent s c e = d at marked
  dsimp only
  generalize fillFree c q _ = f
  refine settleAll_kept (breakGroup_kept (Kept.frame (dropQuery_kept (modCore_kept (dropCmdOps_kept (modQueue_kept ?_)) fun _ => leaveCore_coreKept)) rfl)) hb
  have posted : Kept ω z (if stepFault f.status then d.1.postErr (cmdErr d.1 c q f) else d.1) := .ite (postErr_kept marked) marked
  exact .ite (writeRec_kept posted hb) posted

theorem execCommandComplete_answers {core : CoreId} {queue : QueueId} {id : Nat} {port : PortId} (hk : Kept ω z s) (hb : ω.bytes = false) :
    Answers ω z (execCommandComplete core queue id port s) := by
  unfold execCommandComplete
  dsimp only
  split
  · exact .next hk
  have resumed := endQuarantined_kept (c := core.val) (q := queue.val) (id := id) (resume_kept (c := core.val) (q := queue.val) (id := id) (want := port.val) hk hb)
  split
  · exact .next resumed
  split
  · exact .next resumed
  split
  · exact .next (serveHost_kept (retire_kept resumed hb) hb)
  · exact .next (sendSnoops_kept (modStarted_kept resumed))

theorem getLsbD_or_of_left {w : Nat} {a b : BitVec w} {i : Nat} (h : a.getLsbD i = true) : (a ||| b).getLsbD i = true := by
  rw [BitVec.getLsbD_or, h, Bool.true_or]

/-- A programming pulse that reads as blown only adds a fuse. -/
theorem blow_kept {x : Security} {b : BitVec 64} (hk : Kept ω z s) (hf : ω.fuses = false) (hx : x.bank = s.sec.bank) (hr : x.rollback = s.sec.rollback ||| b) :
    Kept ω z { s with sec := x } :=
  { hk with
    bank := hx.trans hk.bank
    blown := fun i w => by
      dsimp only
      rw [hr]
      exact getLsbD_or_of_left (hk.blown i w)
    fuses := by simp [hf] }

theorem execFuseBlown_answers {readsBlown : Bool} (hk : Kept ω z s) (hb : ω.bytes = false) (hq : ω.quarantine = false) (hf : ω.fuses = false) :
    Answers ω z (execFuseBlown readsBlown s) := by
  unfold execFuseBlown
  split
  · exact .next hk
  split
  · have blown : ∀ {n k : Nat}, Kept ω z { s with sec := { s.sec with rollback := s.sec.rollback ||| (1#64 <<< nextFuse s.sec.rollback), pulses := n, mirrorCount := k } } :=
      blow_kept hk hf rfl rfl
    dsimp only
    split
    · exact .next (restartDueNow_kept (runWaiting_kept (endHeld_kept blown) hb hq))
    · exact .next blown
  · dsimp only
    split
    · exact .next (restartDueNow_kept (runWaiting_kept (endHeld_kept (hk.frame rfl)) hb hq))
    · exact .next (hk.frame rfl)


/-- Every command answers a next state that keeps what is watched of it. -/
theorem exec_answers {c : Instr} (hk : Kept ω z s) (hb : ω.bytes = true → storesNothing c = true) (hq : ω.quarantine = true → releases c = false)
    (hf : ω.fuses = true → ∀ b, c ≠ .fuseBlown b) : Answers ω z (exec c s) := by
  cases c with
  | openSession => exact execOpenSession_answers hk
  | closeSession => exact execCloseSession_answers hk
  | attachChannel => exact execAttachChannel_answers hk
  | detachChannel => exact execDetachChannel_answers hk
  | getDeviceInfo => exact execGetDeviceInfo_answers hk
  | getCapabilities => exact execGetCapabilities_answers hk
  | echo => exact execEcho_answers hk
  | unknownOpcode => exact execUnknownOpcode_answers hk
  | resetRequestStage => exact execResetRequestStage_answers hk (unwatched hb Bool.false_ne_true) (unwatched hq Bool.noConfusion)
  | resetRequestDevice => exact execResetRequestDevice_answers hk
  | setRegion => exact execSetRegion_answers hk
  | setCircular => exact execSetCircular_answers hk
  | openWindow => exact execOpenWindow_answers hk
  | closeWindow => exact execCloseWindow_answers hk
  | setCounter => exact execSetCounter_answers hk
  | setConflictPolicy => exact execSetConflictPolicy_answers hk
  | setSegmentPower => exact execSetSegmentPower_answers hk (unwatched hb Bool.false_ne_true)
  | segmentZeroed => exact execSegmentZeroed_answers hk (unwatched hb Bool.false_ne_true)
  | reserveStore => exact execReserveStore_answers hk
  | setSaveMode => exact execSetSaveMode_answers hk
  | getHbmState => exact execGetHbmState_answers hk
  | setHostWindow => exact execSetHostWindow_answers hk
  | setStageIdentity => exact execSetStageIdentity_answers hk
  | setStageAddress => exact execSetStageAddress_answers hk
  | configureQueue => exact execConfigureQueue_answers hk
  | configureSlot => exact execConfigureSlot_answers hk
  | resetSlots => exact execResetSlots_answers hk
  | getQueueState => exact execGetQueueState_answers hk
  | createRing => exact execCreateRing_answers hk
  | submitBlock => exact execSubmitBlock_answers hk
  | abortQueue => exact execAbortQueue_answers hk
  | setCompletionRing => exact execSetCompletionRing_answers hk
  | getRingState => exact execGetRingState_answers hk
  | loadMicroprogram => exact execLoadMicroprogram_answers hk
  | loadTable => exact execLoadTable_answers hk
  | heldMessageApply => exact execHeldMessageApply_answers hk (unwatched hb Bool.false_ne_true)
  | longRunningLimit => exact execLongRunningLimit_answers hk
  | createIndex => exact execCreateIndex_answers hk
  | destroyIndex => exact execDestroyIndex_answers hk
  | setReaderFloor => exact execSetReaderFloor_answers hk
  | startRewrite => exact execStartRewrite_answers hk
  | getIndexState => exact execGetIndexState_answers hk
  | configureOptimizer => exact execConfigureOptimizer_answers hk
  | setHyperparameters => exact execSetHyperparameters_answers hk
  | createBucket => exact execCreateBucket_answers hk
  | setGroup => exact execSetGroup_answers hk
  | setCoordinates => exact execSetCoordinates_answers hk
  | setWiringMap => exact execSetWiringMap_answers hk
  | setWiringPolicy => exact execSetWiringPolicy_answers hk
  | setProfilePolicy => exact execSetProfilePolicy_answers hk
  | setEndpoint => exact execSetEndpoint_answers hk
  | removeEndpoint => exact execRemoveEndpoint_answers hk
  | trainPortTrain => exact execTrainPortTrain_answers hk
  | trainPortDisable => exact execTrainPortDisable_answers hk
  | trainPortRetrain => exact execTrainPortRetrain_answers hk
  | getPortState => exact execGetPortState_answers hk
  | setPort => exact execSetPort_answers hk
  | connect => exact execConnect_answers hk
  | disconnect => exact execDisconnect_answers hk
  | setPtp => exact execSetPtp_answers hk
  | getStatus => exact execGetStatus_answers hk
  | setTimeMode => exact execSetTimeMode_answers hk
  | getTime => exact execGetTime_answers hk
  | scheduleEdge => exact execScheduleEdge_answers hk
  | cancelEdge => exact execCancelEdge_answers hk
  | readErrorLog => exact execReadErrorLog_answers hk
  | clearError => exact execClearError_answers hk
  | getLastGasp => exact execGetLastGasp_answers hk
  | readTelemetry => exact execReadTelemetry_answers hk
  | setTelemetryRate => exact execSetTelemetryRate_answers hk
  | getSecurityState => exact execGetSecurityState_answers hk
  | debugChallenge => exact execDebugChallenge_answers hk
  | debugUnlock => exact execDebugUnlock_answers hk
  | firmwareUpdate => exact execFirmwareUpdate_answers hk
  | advanceRollback => exact execAdvanceRollback_answers hk
  | setReplayLog => exact execSetReplayLog_answers hk (unwatched hb Bool.false_ne_true)
  | replayStep => exact execReplayStep_answers hk (unwatched hb Bool.false_ne_true)
  | checkpointOut => exact execCheckpointOut_answers hk (unwatched hb Bool.false_ne_true)
  | checkpointIn => exact execCheckpointIn_answers hk (unwatched hb Bool.false_ne_true)
  | adoptStage => exact execAdoptStage_answers hk
  | setPowerState => exact execSetPowerState_answers hk
  | setClockLimits => exact execSetClockLimits_answers hk
  | setRipple => exact execSetRipple_answers hk
  | getPower => exact execGetPower_answers hk
  | getVersion r => exact execGetVersion_answers (y := r) hk
  | spdmGetCapabilities => exact execSpdmGetCapabilities_answers hk
  | negotiateAlgorithms => exact execNegotiateAlgorithms_answers hk
  | getDigests => exact execGetDigests_answers hk
  | getCertificate => exact execGetCertificate_answers hk
  | challenge => exact execChallenge_answers hk
  | getMeasurements => exact execGetMeasurements_answers hk
  | nop => exact execNop_answers hk
  | wait => exact execWait_answers hk
  | signal => exact execSignal_answers hk
  | waitSlot => exact execWaitSlot_answers hk
  | releaseSlot => exact execReleaseSlot_answers hk
  | sendSlot => exact execSendSlot_answers hk
  | matmul => exact execMatmul_answers hk (unwatched hb Bool.false_ne_true)
  | conv => exact execConv_answers hk (unwatched hb Bool.false_ne_true)
  | eltwise => exact execEltwise_answers hk (unwatched hb Bool.false_ne_true)
  | vecElem => exact execVecElem_answers hk (unwatched hb Bool.false_ne_true)
  | vecFunc => exact execVecFunc_answers hk (unwatched hb Bool.false_ne_true)
  | vecRowstat => exact execVecRowstat_answers hk (unwatched hb Bool.false_ne_true)
  | vecSoftmax => exact execVecSoftmax_answers hk (unwatched hb Bool.false_ne_true)
  | vecNorm => exact execVecNorm_answers hk (unwatched hb Bool.false_ne_true)
  | copy => exact execCopy_answers hk (unwatched hb Bool.false_ne_true)
  | remoteWrite => exact execRemoteWrite_answers hk (unwatched hb Bool.false_ne_true)
  | remoteRead => exact execRemoteRead_answers hk (unwatched hb Bool.false_ne_true)
  | tag => exact execTag_answers hk
  | saveOpen => exact execSaveOpen_answers hk
  | saveCopy => exact execSaveCopy_answers hk (unwatched hb Bool.false_ne_true)
  | saveClose => exact execSaveClose_answers hk
  | restore => exact execRestore_answers hk (unwatched hb Bool.false_ne_true)
  | tarnQuery => exact execTarnQuery_answers hk
  | tarnInsert => exact execTarnInsert_answers hk (unwatched hb Bool.false_ne_true)
  | tarnDelete => exact execTarnDelete_answers hk (unwatched hb Bool.false_ne_true)
  | epochPublish => exact execEpochPublish_answers hk
  | bucketAdd => exact execBucketAdd_answers hk (unwatched hb Bool.false_ne_true)
  | bucketFlush => exact execBucketFlush_answers hk (unwatched hb Bool.false_ne_true)
  | update => exact execUpdate_answers hk (unwatched hb Bool.false_ne_true)
  | commandComplete => exact execCommandComplete_answers hk (unwatched hb Bool.false_ne_true)
  | waitTimeout => exact execWaitTimeout_answers hk
  | consumerHeadUpdate => exact execConsumerHeadUpdate_answers hk (unwatched hb Bool.false_ne_true)
  | rampDown => exact execRampDown_answers hk
  | rampGrant => exact execRampGrant_answers hk
  | rendezvousTimeout => exact execRendezvousTimeout_answers hk
  | batchRun => exact execBatchRun_answers hk (unwatched hb Bool.false_ne_true)
  | mbxDoorbell => exact execMbxDoorbell_answers hk
  | channelReset => exact execChannelReset_answers hk
  | enable => exact execEnable_answers hk
  | mbxCplHead => exact execMbxCplHead_answers hk
  | moderationTimer => exact execModerationTimer_answers hk
  | sessionLeaseExpiry => exact execSessionLeaseExpiry_answers hk
  | bootGo => exact execBootGo_answers hk
  | resetCtl => exact execResetCtl_answers hk
  | fwIrqStatus => exact execFwIrqStatus_answers hk
  | spadConflictClr => exact execSpadConflictClr_answers hk
  | registerWrite => exact execRegisterWrite_answers hk
  | bar2Read => exact execBar2Read_answers hk
  | bar2Write => exact execBar2Write_answers hk (unwatched hb Bool.false_ne_true)
  | memRd => exact execMemRd_answers hk
  | memRdData => exact execMemRdData_answers hk
  | memInv => exact execMemInv_answers hk
  | memClnEvct => exact execMemClnEvct_answers hk
  | memWr => exact execMemWr_answers hk (unwatched hb Bool.false_ne_true)
  | memWrPtl => exact execMemWrPtl_answers hk (unwatched hb Bool.false_ne_true)
  | biRsp => exact execBiRsp_answers hk (unwatched hb Bool.false_ne_true)
  | biConflict => exact execBiConflict_answers hk
  | snoopTimeout => exact execSnoopTimeout_answers hk (unwatched hb Bool.false_ne_true)
  | hostLinkReset => exact execHostLinkReset_answers hk (unwatched hb Bool.false_ne_true)
  | linkCtl => exact execLinkCtl_answers hk
  | hello => exact execHello_answers hk
  | write => exact execWrite_answers hk (unwatched hb Bool.false_ne_true)
  | read => exact execRead_answers hk
  | slotWrite => exact execSlotWrite_answers hk (unwatched hb Bool.false_ne_true)
  | readData => exact execReadData_answers hk (unwatched hb Bool.false_ne_true)
  | writeAck => exact execWriteAck_answers hk (unwatched hb Bool.false_ne_true)
  | slotCredit => exact execSlotCredit_answers hk (unwatched hb Bool.false_ne_true)
  | time => exact execTime_answers hk
  | retrainSync => exact execRetrainSync_answers hk
  | frameDrop => exact execFrameDrop_answers hk
  | laneLock => exact execLaneLock_answers hk
  | laneUnlock => exact execLaneUnlock_answers hk
  | trainingAttemptTimeout => exact execTrainingAttemptTimeout_answers hk
  | reequalizationTimeout => exact execReequalizationTimeout_answers hk
  | replayRequestRepeat => exact execReplayRequestRepeat_answers hk
  | linkLostTimer => exact execLinkLostTimer_answers hk
  | responseTimer => exact execResponseTimer_answers hk
  | endpointWaitTimeout => exact execEndpointWaitTimeout_answers hk
  | timeFrameTx => exact execTimeFrameTx_answers hk
  | v1CreditHold => exact execV1CreditHold_answers hk
  | cnp => exact execCnp_answers hk
  | rateRecovery => exact execRateRecovery_answers hk
  | pfcPause => exact execPfcPause_answers hk
  | rdmaInbound => exact execRdmaInbound_answers hk
  | ethernetOtherFrame => exact execEthernetOtherFrame_answers hk
  | rcRetransmit => exact execRcRetransmit_answers hk
  | connectionError => exact execConnectionError_answers hk
  | ptpMessage => exact execPtpMessage_answers hk
  | ppsEdge => exact execPpsEdge_answers hk
  | referenceValid => exact execReferenceValid_answers hk
  | referenceLost => exact execReferenceLost_answers hk
  | edgeFire => exact execEdgeFire_answers hk
  | patrolScrub => exact execPatrolScrub_answers hk
  | hbmChannelFailure => exact execHbmChannelFailure_answers hk
  | errorEventHandle => exact execErrorEventHandle_answers hk
  | watchdogTrip => exact execWatchdogTrip_answers hk
  | itkanStart => exact execItkanStart_answers hk
  | imageCheck => exact execImageCheck_answers hk
  | fuseSense => exact execFuseSense_answers hk
  | hbmTrainingDone => exact execHbmTrainingDone_answers hk
  | hbmZeroingDone => exact execHbmZeroingDone_answers hk (unwatched hb Bool.false_ne_true)
  | powerOn => exact execPowerOn_answers hk (unwatched hb Bool.false_ne_true) (unwatched hq Bool.noConfusion)
  | pwrgoodFall => exact execPwrgoodFall_answers hk (unwatched hb Bool.false_ne_true) (unwatched hq Bool.noConfusion)
  | deviceReset => exact execDeviceReset_answers hk (unwatched hb Bool.false_ne_true) (unwatched hq Bool.noConfusion)
  | powerManagerTick => exact execPowerManagerTick_answers hk
  | avsRetry => exact execAvsRetry_answers hk
  | telemetrySample => exact execTelemetrySample_answers hk
  | telemetrySnapshot => exact execTelemetrySnapshot_answers hk (unwatched hb Bool.false_ne_true)
  | thermalThrottle => exact execThermalThrottle_answers hk
  | thermalCritical => exact execThermalCritical_answers hk
  | thermalTrip => exact execThermalTrip_answers hk
  | nonceExpiry => exact execNonceExpiry_answers hk
  | jtagAccess => exact execJtagAccess_answers hk
  | ethernetLinkUp => exact execEthernetLinkUp_answers hk
  | ethernetLinkDown => exact execEthernetLinkDown_answers hk
  | pcieLinkTrained => exact execPcieLinkTrained_answers hk
  | hdmDecoderCommit => exact execHdmDecoderCommit_answers hk
  | fetchError => exact execFetchError_answers hk
  | roceAck => exact execRoceAck_answers hk
  | rdmaReadResponse => exact execRdmaReadResponse_answers hk (unwatched hb Bool.false_ne_true)
  | refreshThreshold => exact execRefreshThreshold_answers hk
  | rewriteComplete => exact execRewriteComplete_answers hk (unwatched hb Bool.false_ne_true)
  | digestWritten => exact execDigestWritten_answers hk (unwatched hb Bool.false_ne_true)
  | fuseBlown => exact execFuseBlown_answers hk (unwatched hb Bool.false_ne_true) (unwatched hq Bool.noConfusion) (unwatched hf fun h => h _ rfl)

end Sys2Proof.Machine
end

section
/-! PROOFS. The invariants of every step (O43 to O48). -/

namespace Sys2Proof.Machine

variable {ω : Watch} {z s t : State} {r : Run}

/-- A step keeps what is watched of the command that it takes. -/
theorem step_kept (h : step s = .next t) (hb : ω.bytes = false) (hq : ω.quarantine = true → ∀ c, s.pending.head? = some c → releases c = false)
    (hf : ω.fuses = true → ∀ b, s.pending.head? ≠ some (.fuseBlown b)) : Kept ω s t := by
  unfold step at h
  split at h
  · cases h
    exact idle_kept .refl hb
  next c rest hpending =>
    have front : s.pending.head? = some c := by rw [hpending, List.head?_cons]
    obtain ⟨u, hu, hk⟩ := exec_answers (ω := ω) (z := s) (c := c) (Kept.refl.frame (s := s) (pending := rest) rfl) (by simp [hb]) (fun w => hq w c front)
      fun w b hc => hf w b (hc ▸ front)
    rw [hu] at h
    cases h
    exact hk

/-- Nothing beyond what every step keeps. -/
def watchNothing : Watch := { quarantine := false, bytes := false, fuses := false }

theorem step_kept_always (h : step s = .next t) : Kept watchNothing s t := step_kept h rfl (fun w => nomatch w) fun w => nomatch w

theorem memory_wf_iff : Memory.wf s = true ↔ s.hbm.wf = true ∧ coresWf s.cores = true := by
  simp only [Memory.wf, coresWf, Bool.and_eq_true, and_assoc]

/-- Settles O44: each part of the memories stays canonical. -/
theorem everyStepKeepsMemoriesCanonical : Obligations.EveryStepKeepsMemoriesCanonical := by
  intro s t hs h
  have kept := step_kept_always h
  rw [memory_wf_iff] at hs ⊢
  exact ⟨kept.hbm.1 hs.1, kept.cores hs.2⟩

/-- Settles O45, by the rules of the event queues, the ring and FW_STAGE. -/
theorem everyStepKeepsErrorStoresBounded : Obligations.EveryStepKeepsErrorStoresBounded := by
  intro s t hstage hqueues hring h
  have kept := step_kept_always h
  exact ⟨kept.stage hstage, kept.queues hqueues, kept.ring hring⟩

/-- Settles O46: only a programming pulse writes the ROLLBACK fuses, and it only adds one. -/
theorem fusesOnceBlownStayBlown : Obligations.FusesOnceBlownStayBlown := by
  intro s t h
  have kept := step_kept_always h
  refine ⟨kept.bank, kept.blown, fun noPulse => ?_⟩
  have watched : Kept { watchNothing with fuses := true } s t := step_kept h rfl (fun w => nomatch w) fun _ => noPulse
  exact watched.fuses rfl

/-- Settles O47: only the resets that reach the stage logic clear the quarantine. -/
theorem quarantineEndsOnlyByReset : Obligations.QuarantineEndsOnlyByReset := by
  intro s t hquarantined noReset h
  have watched : Kept { watchNothing with quarantine := true } s t := step_kept h rfl (fun _ => noReset) fun w => nomatch w
  exact watched.quarantine rfl hquarantined

/-- Settles O48: a session is opened as ADMIN only where none is. -/
theorem atMostOneAdminSession : Obligations.AtMostOneAdminSession := by
  intro s t few h
  exact (step_kept_always h).admin few

/-- Settles O43: no command's handler stops. -/
theorem everyCommandAnswers : Obligations.EveryCommandAnswers := by
  intro c s
  obtain ⟨t, ht, _⟩ := exec_answers (ω := watchNothing) (c := c) (Kept.refl (z := s)) (fun w => nomatch w) (fun w => nomatch w) fun w => nomatch w
  exact ⟨t, ht⟩

end Sys2Proof.Machine
end

section
/-! PROOFS. Commands that store nothing -/

namespace Sys2Proof.Machine

variable {ω : Watch} {z s t u : State} {r : Run}

/-- Clearing a range of indexes leaves every index outside it. -/
theorem tget_tclear {α : Type} {d : α} {t : Tbl α} {lo hi i : Nat} (h : i < lo ∨ hi ≤ i) : tget d (tclear t lo hi) i = tget d t i := by
  induction t with
  | nil => rfl
  | cons e t ih =>
    obtain ⟨k, v⟩ := e
    simp only [tclear, List.filter_cons] at ih ⊢
    split
    · simp only [tget, ih]
    next out =>
      have other : i ≠ k := by
        rintro rfl
        simp only [Bool.or_eq_true, decide_eq_true_eq] at out
        exact out h
      simp only [tget, if_neg other, ih]

/-- What a change of segment power leaves alone: external memory, and every byte that stays usable. -/
structure UsableKept (s t : State) : Prop where
  hbm : t.hbm = s.hbm
  live : ∀ k a, (t.core k).segDead a = false → (s.core k).segDead a = false
  bytes : ∀ k a, (t.core k).segDead a = false → tget 0 (t.core k).spad a = tget 0 (s.core k).spad a

theorem UsableKept.refl : UsableKept s s := ⟨rfl, fun _ _ => id, fun _ _ _ => rfl⟩

theorem UsableKept.trans (h : UsableKept s t) (k : UsableKept t u) : UsableKept s u where
  hbm := k.hbm.trans h.hbm
  live c a l := h.live c a (k.live c a l)
  bytes c a l := (k.bytes c a l).trans (h.bytes c a (k.live c a l))

theorem UsableKept.of_cores (hc : t.cores = s.cores) (hh : t.hbm = s.hbm) : UsableKept s t := by
  have core : ∀ k, t.core k = s.core k := fun k => by rw [State.core, State.core, hc]
  exact ⟨hh, fun k a l => by rwa [core] at l, fun k a _ => by rw [core]⟩

theorem UsableKept.modCore {c : Nat} {f : Core → Core} (h : UsableKept s t)
    (hf : ∀ (k : Core) (a : Nat), (f k).segDead a = false → k.segDead a = false ∧ tget 0 (f k).spad a = tget 0 k.spad a) : UsableKept s (t.modCore c f) := by
  refine h.trans ⟨rfl, fun k a l => ?_, fun k a l => ?_⟩
  · rw [core_modCore] at l
    split at l
    next e => exact e ▸ (hf _ a l).1
    · exact l
  · rw [core_modCore] at l ⊢
    split at l
    next e =>
      rw [if_pos e, (hf _ a l).2, e]
    next e => rw [if_neg e]

theorem segmentOn_usable {c : Nat} {mask : BitVec 4} : UsableKept s (segmentOn s c mask) := by
  refine .modCore .refl fun k a live => ⟨?_, rfl⟩
  simp only [Core.segDead, BitVec.getLsbD_and, BitVec.getLsbD_or, BitVec.getLsbD_not, Bool.or_eq_false_iff] at live ⊢
  obtain ⟨hoff, hzero, hmask⟩ := live
  refine ⟨?_, hzero⟩
  by_contra dead
  rw [Bool.not_eq_false] at dead
  have small := BitVec.lt_of_getLsbD dead
  simp_all

/-- A segment is turned off: only its own bytes go, and it is dead. -/
theorem turnOff_usable {k l : Core} {g a : Nat} (hg : g < 4) (hoff : l.segOff = k.segOff ||| (1#4 <<< g)) (hzero : l.segZeroing = k.segZeroing &&& ~~~(1#4 <<< g))
    (hspad : l.spad = tclear k.spad (g * 0x400000) (g * 0x400000 + 0x400000)) (live : l.segDead a = false) :
    k.segDead a = false ∧ tget 0 l.spad a = tget 0 k.spad a := by
  simp only [Core.segDead, hoff, hzero, BitVec.getLsbD_and, BitVec.getLsbD_or, BitVec.getLsbD_not, BitVec.getLsbD_shiftLeft, BitVec.getLsbD_one, Bool.or_eq_false_iff] at live ⊢
  obtain ⟨⟨hk, hbit⟩, hz⟩ := live
  have other : segOf a ≠ g := by
    rintro rfl
    simp [hg] at hbit
  refine ⟨⟨hk, ?_⟩, ?_⟩
  · by_contra dead
    rw [Bool.not_eq_false] at dead
    have small := BitVec.lt_of_getLsbD dead
    simp_all
    omega
  · rw [hspad]
    apply tget_tclear
    unfold segOf at other
    omega

theorem segmentOff_usable {c g : Nat} (hg : g < 4) : UsableKept s (segmentOff s c g) := by
  unfold segmentOff
  refine foldl_inv (P := fun t => UsableKept s t) (fun t q h => ?_) (.modCore .refl fun k a live => turnOff_usable hg rfl rfl rfl live)
  split
  · exact h
  · exact h.modCore fun _ _ live => ⟨live, rfl⟩

theorem segmentsOff_usable {c : Nat} {mask : BitVec 4} : UsableKept s (segmentsOff s c mask) := by
  have segments : ∀ l : List Nat, (∀ g ∈ l, g < 4) → ∀ t, UsableKept s t →
      UsableKept s (l.foldl (fun s g => if bit (s.core c).segOff g then s else segmentOff s c g) t) := by
    intro l
    induction l with
    | nil => exact fun _ _ h => h
    | cons g l ih =>
      intro small t h
      refine ih (fun x hx => small x (List.mem_cons_of_mem g hx)) _ ?_
      dsimp only
      split
      · exact h
      · exact h.trans (segmentOff_usable (small g List.mem_cons_self))
  exact segments _ (fun g hg => List.mem_range.mp (List.mem_filter.mp hg).1) s .refl

theorem setSegments_usable {m : Msg} {c : Nat} {mask : BitVec 4} {on : Bool} : UsableKept s (setSegments s m c mask on).state := by
  unfold setSegments
  dsimp only
  split
  · split
    · exact .refl
    · exact segmentOn_usable
  split
  · exact .refl
  split
  · exact segmentsOff_usable
  · exact .refl

theorem finishSegMsg_usable {h : Held} : UsableKept s (finishSegMsg s h) := by
  have ended : ∀ {t : State} {y : Reply}, UsableKept t (endHeld t h y) := .of_cores endHeld_cores endHeld_hbm
  unfold finishSegMsg
  dsimp only
  split
  · exact .refl
  split
  · split
    · exact ended
    · exact .refl
  have switched := setSegments_usable (s := s) (m := h.msg) (c := fld (effPayload h.msg) 4 0) (mask := fb (effPayload h.msg) 8 4) (on := bit (effPayload h.msg) 16)
  split
  next hd =>
    rw [hd] at switched
    exact switched.trans ended
  next hh =>
    rw [hh] at switched
    exact switched.trans (.of_cores rfl rfl)

theorem finishSegMsgs_usable : UsableKept s (finishSegMsgs s) :=
  foldl_inv (P := fun t => UsableKept s t) (fun _ _ h => h.trans finishSegMsg_usable) .refl

theorem settleMsg_usable {m : Msg} {op : Nat} {session : BitVec 32} {a : Answer} (h : UsableKept s a.state) : UsableKept s (settleMsg m op session a) := by
  cases a with
  | done t r => exact h.trans (.of_cores finishMsg_cores finishMsg_hbm)
  | hold t g =>
    refine h.trans ?_
    unfold settleMsg
    dsimp only
    split <;> exact .of_cores rfl rfl

theorem serve_usable {o : OpSpec} {m : Msg} {act : State → Ctx → Answer} (hact : ∀ s x, UsableKept s (act s x).state) (h : serve o m s act = .next t) : UsableKept s t := by
  have taken : UsableKept s (dequeue s m.src) := .of_cores dequeue_cores dequeue_hbm
  unfold serve at h
  split at h
  · dsimp only at h
    split at h <;> cases h
    · exact taken.trans (.of_cores finishMsg_cores finishMsg_hbm)
    · exact taken.trans (settleMsg_usable (hact _ _))
  · cases h
    exact .refl

theorem execSetSegmentPower_usable {m : Msg} (h : execSetSegmentPower m s = .next t) : UsableKept s t := by
  refine serve_usable (fun s x => ?_) h
  dsimp only
  split
  · exact .refl
  split
  · exact .refl
  · exact setSegments_usable

theorem execSegmentZeroed_usable {c : CoreId} {g : Fin 4} (h : execSegmentZeroed c g s = .next t) :
    t.hbm = s.hbm ∧ ∀ k a, (t.core k).segDead a = false → tget 0 (t.core k).spad a = tget 0 (s.core k).spad a := by
  unfold execSegmentZeroed at h
  split at h <;> cases h
  · have finished := finishSegMsgs_usable (s := s.modCore c.val fun k => { k with segZeroing := k.segZeroing &&& ~~~(1#4 <<< g.val) })
    refine ⟨finished.hbm, fun k a live => (finished.bytes k a live).trans ?_⟩
    rw [core_modCore]
    split
    next e => rw [e]
    · rfl
  · exact ⟨rfl, fun _ _ _ => rfl⟩

/-- Watched are the bytes only. -/
def watchBytes : Watch := { quarantine := false, bytes := true, fuses := false }

theorem exec_sameBytes {c : Instr} (hc : storesNothing c = true) (h : exec c s = .next t) : sameBytes s t := by
  obtain ⟨u, hu, hk⟩ := exec_answers (ω := watchBytes) (c := c) (Kept.refl (z := s)) (fun _ => hc) (fun w => nomatch w) fun w => nomatch w
  rw [hu] at h
  cases h
  exact ⟨hk.hbm.2 rfl, hk.spads rfl⟩

/-- Settles O51: the bytes that every command which stores nothing keeps, and those that a change of segment power keeps. -/
theorem commandsThatStoreNothingKeepMemory : Obligations.CommandsThatStoreNothingKeepMemory := by
  refine ⟨fun c s t hc h => exec_sameBytes hc h, fun c s t hc h => ?_⟩
  obtain ⟨m, rfl⟩ | ⟨k, g, rfl⟩ := hc
  · have kept := execSetSegmentPower_usable h
    exact ⟨kept.hbm, kept.bytes⟩
  · exact execSegmentZeroed_usable h

end Sys2Proof.Machine
end

section
/-! PROOFS. Query messages -/

namespace Sys2Proof.Machine

variable {s t u : State} {m : Msg}

/-- The state without what completing a message touches. -/
def unreplied (s : State) : State := { s with mbx := Mailbox.init, out := [], irq := Irq.init }

theorem onlyReplies_iff : onlyReplies s t ↔ unreplied t = unreplied s := by
  constructor
  · intro h
    rw [h]
    rfl
  · intro h
    exact congrArg (fun u : State => { u with mbx := t.mbx, out := t.out, irq := t.irq }) h

theorem only_dequeue {src : MsgSrc} : onlyReplies s (dequeue s src) := by
  unfold dequeue
  split <;> rfl

theorem only_detachChan {n : Nat} : onlyReplies s (detachChan s n) := only_chan

theorem settleMsg_only {op : Nat} {session : BitVec 32} {a : Answer} : onlyReplies a.state (settleMsg m op session a) := by
  cases a with
  | done t r => exact finishMsg_only
  | hold t h =>
    unfold settleMsg
    dsimp only
    split <;> rfl

/-- A handler's answer changes only one part of the state, besides what completing a message touches. `F s t` is `t` with that part as in `s`. -/
def HandlerKeeps (F : State → State → State) (s : State) (a : Answer) : Prop := unreplied (F s a.state) = unreplied s

theorem HandlerKeeps.ite {F : State → State → State} {c : Prop} [Decidable c] {a b : Answer} (ha : HandlerKeeps F s a) (hb : HandlerKeeps F s b) :
    HandlerKeeps F s (if c then a else b) := by
  split
  · exact ha
  · exact hb

/-- A message changes, but for its completion, only the part of the state that its handler changes. -/
theorem serve_keeps {F : State → State → State} {o : OpSpec} {act : State → Ctx → Answer} (hF : ∀ s t, unreplied (F s t) = F (unreplied s) (unreplied t))
    (hself : ∀ s, F s s = s) (h : serve o m s act = .next t) (hact : ∀ s x, HandlerKeeps F s (act s x)) : onlyReplies s (F s t) := by
  have taken : unreplied (dequeue s m.src) = unreplied s := onlyReplies_iff.mp only_dequeue
  rw [onlyReplies_iff, hF]
  unfold serve at h
  split at h
  · dsimp only at h
    split at h <;> cases h
    · rw [onlyReplies_iff.mp finishMsg_only, taken, ← hF, hself]
    · rw [onlyReplies_iff.mp settleMsg_only, ← taken, ← hF]
      exact hact _ _
  · cases h
    rw [← hF, hself]

/-- A message whose handler only answers changes only what its completion touches. -/
theorem serve_only {o : OpSpec} {act : State → Ctx → Answer} (h : serve o m s act = .next t) (hact : ∀ s x, onlyReplies s (act s x).state) : onlyReplies s t :=
  serve_keeps (F := fun _ t => t) (fun _ _ => rfl) (fun _ => rfl) h fun s x => onlyReplies_iff.mp (hact s x)

theorem openSession_only {x : Ctx} {want : BitVec 32} : onlyReplies s (openSession s x want).1 := by
  unfold openSession
  dsimp only
  (repeat' split) <;> rfl

theorem execOpenSession_only {want : BitVec 32} (h : execOpenSession m want s = .next t) : onlyReplies s t := by
  unfold execOpenSession at h
  split at h
  · dsimp only at h
    split at h <;> cases h
    · exact only_trans only_dequeue finishMsg_only
    · exact only_trans (only_trans only_dequeue openSession_only) finishMsg_only
  · cases h
    exact only_refl

theorem execUnknownOpcode_only {op : BitVec 16} (h : execUnknownOpcode m op s = .next t) : onlyReplies s t := by
  unfold execUnknownOpcode at h
  split at h
  · cases h
    exact only_refl
  split at h <;> cases h
  · exact only_trans only_dequeue finishMsg_only
  · exact only_refl

theorem execCloseSession_only (h : execCloseSession m s = .next t) : onlyReplies s t := by
  refine serve_only h fun s x => ?_
  split
  · exact only_refl
  · exact closeSession_only

theorem execAttachChannel_only (h : execAttachChannel m s = .next t) : onlyReplies s t := by
  refine serve_only h fun s x => ?_
  dsimp only
  split
  · exact only_refl
  split
  · exact only_refl
  split
  · exact only_refl
  · exact only_chan

theorem execDetachChannel_only (h : execDetachChannel m s = .next t) : onlyReplies s t := by
  refine serve_only h fun s x => ?_
  dsimp only
  split
  · exact only_refl
  split
  · exact only_refl
  · exact only_detachChan

theorem execReadTelemetry_only (h : execReadTelemetry m s = .next t) : onlyReplies s t := by
  refine serve_only h fun s x => ?_
  dsimp only
  split
  · split <;> exact only_refl
  · split <;> exact only_refl

theorem ite_only {c : Prop} [Decidable c] {n : Nat} {r : Reply} : onlyReplies s (if c then refuse s n else .done s r).state := by
  split <;> exact only_refl

theorem execGetStatus_only (h : execGetStatus m s = .next t) : onlyReplies s t := by
  unfold execGetStatus at h
  split at h
  · exact serve_only h fun s x => ite_only
  · cases h
    exact only_refl

/-- Settles O49: a query's handler only answers, and the sessions and channels are part of the mailbox. -/
theorem queriesChangeNothingElse : Obligations.QueriesChangeNothingElse := by
  intro m s t i hi h
  obtain hi | ⟨op, rfl⟩ | ⟨want, rfl⟩ := hi
  · simp only [List.mem_cons, List.not_mem_nil, or_false] at hi
    obtain rfl | rfl | rfl | rfl | rfl | rfl | rfl | rfl | rfl | rfl | rfl | rfl | rfl | rfl | rfl := hi
    · exact serve_only (show execGetDeviceInfo m s = .next t from h) fun _ _ => only_refl
    · exact serve_only (show execGetCapabilities m s = .next t from h) fun _ _ => only_refl
    · exact serve_only (show execEcho m s = .next t from h) fun _ _ => only_refl
    · exact serve_only (show execGetHbmState m s = .next t from h) fun _ _ => only_refl
    · exact serve_only (show execGetQueueState m s = .next t from h) fun _ _ => only_refl
    · exact serve_only (show execGetRingState m s = .next t from h) fun _ _ => ite_only
    · exact serve_only (show execGetIndexState m s = .next t from h) fun _ _ => only_refl
    · exact serve_only (show execGetPortState m s = .next t from h) fun _ _ => ite_only
    · exact execGetStatus_only h
    · exact execReadTelemetry_only h
    · exact serve_only (show execGetSecurityState m s = .next t from h) fun _ _ => only_refl
    · exact serve_only (show execGetPower m s = .next t from h) fun _ _ => only_refl
    · exact execAttachChannel_only h
    · exact execDetachChannel_only h
    · exact execCloseSession_only h
  · exact execUnknownOpcode_only h
  · exact execOpenSession_only h

end Sys2Proof.Machine
end

section
/-! PROOFS. Configuration messages -/

namespace Sys2Proof.Machine

variable {s t u : State} {m : Msg}

/-- Two states agree but for the cores and what completing a message touches, and each core but for what `strip` takes away. -/
structure CoresOnly (strip : Core → Core) (s t : State) : Prop where
  rest : unreplied { t with cores := s.cores } = unreplied s
  cores : ∀ c, strip (t.core c) = strip (s.core c)

namespace CoresOnly

variable {strip : Core → Core}

theorem refl : CoresOnly strip s s := ⟨rfl, fun _ => rfl⟩

theorem trans (h : CoresOnly strip s t) (k : CoresOnly strip t u) : CoresOnly strip s u :=
  ⟨(congrArg (fun v : State => { v with cores := s.cores }) k.rest).trans h.rest, fun c => (k.cores c).trans (h.cores c)⟩

theorem of_only (h : onlyReplies s t) : CoresOnly strip s t := by
  have same := onlyReplies_iff.mp h
  have cores : (unreplied t).cores = (unreplied s).cores := congrArg State.cores same
  exact ⟨congrArg (fun v : State => { v with cores := s.cores }) same, fun c => by rw [State.core, State.core, show t.cores = s.cores from cores]⟩

theorem ite {c : Prop} [Decidable c] {a b : Answer} (ha : CoresOnly strip s a.state) (hb : CoresOnly strip s b.state) : CoresOnly strip s (if c then a else b).state := by
  split
  · exact ha
  · exact hb

theorem done {y : Reply} (h : CoresOnly strip s t) : CoresOnly strip s (Answer.done t y).state := h

theorem hold {y : Held} (h : CoresOnly strip s t) : CoresOnly strip s (Answer.hold t y).state := h

theorem modCore {c : Nat} {f : Core → Core} (hf : ∀ k, strip (f k) = strip k) : CoresOnly strip s (s.modCore c f) := by
  refine ⟨rfl, fun k => ?_⟩
  rw [core_modCore]
  split
  next e => rw [hf, e]
  · rfl

theorem modCfg {c : Nat} {f : CoreCfg → CoreCfg} (hf : ∀ k : Core, strip { k with cfg := f k.cfg } = strip k) : CoresOnly strip s (s.modCfg c f) := modCore hf

theorem modQueue {c q : Nat} {f : CmdQueue → CmdQueue} (hf : ∀ (k : Core) (l : Tbl CmdQueue), strip { k with queues := l } = strip k) : CoresOnly strip s (s.modQueue c q f) :=
  modCore fun k => hf k _

theorem foldl {α : Type} {f : State → α → State} {l : List α} (hf : ∀ s a, CoresOnly strip s (f s a)) : CoresOnly strip s (l.foldl f s) :=
  foldl_inv (P := fun t => CoresOnly strip s t) (fun _ _ h => h.trans (hf _ _)) refl

end CoresOnly

/-- A message whose handler changes the cores changes nothing else, and of each core no more than its handler does. -/
theorem serve_coresOnly {strip : Core → Core} {o : OpSpec} {act : State → Ctx → Answer} (h : serve o m s act = .next t) (hact : ∀ s x, CoresOnly strip s (act s x).state) :
    CoresOnly strip s t := by
  unfold serve at h
  split at h
  · dsimp only at h
    split at h <;> cases h
    · exact .of_only (only_trans only_dequeue finishMsg_only)
    · exact (CoresOnly.of_only only_dequeue).trans ((hact _ _).trans (.of_only settleMsg_only))
  · cases h
    exact .refl

/-- A core without the parts that configuration messages change. -/
def Core.sansCirc (k : Core) : Core := { k with cfg := { k.cfg with circ := [] } }
def Core.sansWindows (k : Core) : Core := { k with cfg := { k.cfg with windows := [] } }
def Core.sansCounters (k : Core) : Core := { k with cfg := { k.cfg with counters := [] }, queues := [] }
def Core.sansStrict (k : Core) : Core := { k with cfg := { k.cfg with strict := [] } }
def Core.sansStreams (k : Core) : Core := { k with cfg := { k.cfg with streams := [] } }
def Core.sansPairs (k : Core) : Core := { k with cfg := { k.cfg with pairs := [] }, queues := [] }
def Core.sansRipple (k : Core) : Core := { k with rippleGap := 0 }
def Core.sansQueues (k : Core) : Core := { k with queues := [] }

theorem setCircular_coresOnly (h : execSetCircular m s = .next t) : CoresOnly Core.sansCirc s t :=
  serve_coresOnly h fun _ _ => .ite .refl (.ite .refl (.ite .refl (.done (.modCfg fun _ => rfl))))

theorem openWindow_coresOnly (h : execOpenWindow m s = .next t) : CoresOnly Core.sansWindows s t :=
  serve_coresOnly h fun _ _ => .ite .refl (.done (.modCfg fun _ => rfl))

theorem closeWindow_coresOnly (h : execCloseWindow m s = .next t) : CoresOnly Core.sansWindows s t :=
  serve_coresOnly h fun _ _ => .ite .refl (.ite .refl (.done (.modCfg fun _ => rfl)))

theorem setCounter_coresOnly (h : execSetCounter m s = .next t) : CoresOnly Core.sansCounters s t :=
  serve_coresOnly h fun _ _ => .ite .refl (.ite .refl (.done (.modCore fun _ => rfl)))

theorem setConflictPolicy_coresOnly (h : execSetConflictPolicy m s = .next t) : CoresOnly Core.sansStrict s t :=
  serve_coresOnly h fun _ _ => .ite .refl (.ite .refl (.done (.modCfg fun _ => rfl)))

theorem setSaveMode_coresOnly (h : execSetSaveMode m s = .next t) : CoresOnly Core.sansStreams s t :=
  serve_coresOnly h fun _ _ => .ite .refl (.done (.modCfg fun _ => rfl))

theorem setRegion_coresOnly (h : execSetRegion m s = .next t) : CoresOnly Core.sansPairs s t := by
  refine serve_coresOnly h fun s x => ?_
  split
  · exact .refl
  split
  · exact .done (.trans (.modCfg fun _ => rfl) (.modQueue fun _ _ => rfl))
  · exact .hold (.modQueue fun _ _ => rfl)

theorem setRipple_coresOnly (h : execSetRipple m s = .next t) : CoresOnly Core.sansRipple s t :=
  serve_coresOnly h fun _ _ => .ite .refl (.done (.foldl fun _ _ => .modCore fun _ => rfl))

theorem setCompletionRing_coresOnly (h : execSetCompletionRing m s = .next t) : CoresOnly Core.sansQueues s t :=
  serve_coresOnly h fun _ _ => .ite .refl (.ite .refl (.done (.modQueue fun _ _ => rfl)))

theorem createRing_coresOnly (h : execCreateRing m s = .next t) : CoresOnly Core.sansQueues s t :=
  serve_coresOnly h fun _ _ => .ite .refl (.ite .refl (.ite .refl (.done (.modQueue fun _ _ => rfl))))

theorem reserveStore_keeps (h : execReserveStore m s = .next t) : onlyReplies s { t with regions := s.regions } :=
  serve_keeps (F := fun s t => { t with regions := s.regions }) (fun _ _ => rfl) (fun _ => rfl) h fun _ _ => .ite rfl (.ite rfl rfl)

theorem setHostWindow_keeps (h : execSetHostWindow m s = .next t) : onlyReplies s { t with host := { t.host with window := s.host.window } } :=
  serve_keeps (F := fun s t => { t with host := { t.host with window := s.host.window } }) (fun _ _ => rfl) (fun _ => rfl) h fun _ _ => .ite rfl (.ite rfl rfl)

theorem setStageIdentity_keeps (h : execSetStageIdentity m s = .next t) : onlyReplies s { t with stage := { t.stage with identity := s.stage.identity } } :=
  serve_keeps (F := fun s t => { t with stage := { t.stage with identity := s.stage.identity } }) (fun _ _ => rfl) (fun _ => rfl) h fun _ _ => .ite rfl rfl

theorem configureSlot_keeps (h : execConfigureSlot m s = .next t) : onlyReplies s { t with stage := { t.stage with slots := s.stage.slots } } := by
  refine serve_keeps (F := fun s t => { t with stage := { t.stage with slots := s.stage.slots } }) (fun _ _ => rfl) (fun _ => rfl) h fun s x => ?_
  dsimp only
  split
  · rfl
  split
  · rfl
  split <;> rfl

theorem optNow_keeps {x : Ctx} {op : BitVec 16} : HandlerKeeps (fun s t => { t with opt := s.opt }) s (optNow s x op) := .ite rfl rfl

theorem configureOptimizer_keeps (h : execConfigureOptimizer m s = .next t) : onlyReplies s { t with opt := s.opt } :=
  serve_keeps (F := fun s t => { t with opt := s.opt }) (fun _ _ => rfl) (fun _ => rfl) h fun _ _ => .ite rfl optNow_keeps

theorem setHyperparameters_keeps (h : execSetHyperparameters m s = .next t) : onlyReplies s { t with opt := s.opt } :=
  serve_keeps (F := fun s t => { t with opt := s.opt }) (fun _ _ => rfl) (fun _ => rfl) h fun _ _ => .ite optNow_keeps rfl

theorem createBucket_keeps (h : execCreateBucket m s = .next t) : onlyReplies s { t with buckets := s.buckets } :=
  serve_keeps (F := fun s t => { t with buckets := s.buckets }) (fun _ _ => rfl) (fun _ => rfl) h fun _ _ => .ite rfl (.ite rfl rfl)

theorem setTelemetryRate_keeps (h : execSetTelemetryRate m s = .next t) : onlyReplies s { t with telem := s.telem } :=
  serve_keeps (F := fun s t => { t with telem := s.telem }) (fun _ _ => rfl) (fun _ => rfl) h fun _ _ => .ite rfl rfl

theorem setClockLimits_keeps (h : execSetClockLimits m s = .next t) :
    onlyReplies s { t with power := { t.power with fmin := s.power.fmin, fmax := s.power.fmax, cap := s.power.cap } } :=
  serve_keeps (F := fun s t => { t with power := { t.power with fmin := s.power.fmin, fmax := s.power.fmax, cap := s.power.cap } }) (fun _ _ => rfl) (fun _ => rfl) h fun _ _ => .ite rfl rfl

theorem clearError_keeps (h : execClearError m s = .next t) : onlyReplies s { t with err := s.err } :=
  serve_keeps (F := fun s t => { t with err := s.err }) (fun _ _ => rfl) (fun _ => rfl) h fun _ _ => .ite rfl rfl

theorem cancelEdge_keeps (h : execCancelEdge m s = .next t) : onlyReplies s { t with edges := s.edges } :=
  serve_keeps (F := fun s t => { t with edges := s.edges }) (fun _ _ => rfl) (fun _ => rfl) h fun _ _ => rfl

theorem setPort_keeps (h : execSetPort m s = .next t) : onlyReplies s { t with eth := { t.eth with ports := s.eth.ports } } := by
  unfold execSetPort at h
  split at h
  · cases h
    rfl
  exact serve_keeps (F := fun s t => { t with eth := { t.eth with ports := s.eth.ports } }) (fun _ _ => rfl) (fun _ => rfl) h fun _ _ => .ite rfl (.ite rfl rfl)

theorem setPtp_keeps (h : execSetPtp m s = .next t) : onlyReplies s { t with eth := { t.eth with ports := s.eth.ports } } := by
  unfold execSetPtp at h
  split at h
  · exact serve_keeps (F := fun s t => { t with eth := { t.eth with ports := s.eth.ports } }) (fun _ _ => rfl) (fun _ => rfl) h fun _ _ => .ite rfl rfl
  · cases h
    rfl

/-- The time state with what a choice of the source changes, and the late mask, as in another. -/
def TimeState.sourcedAs (a b : TimeState) : TimeState :=
  { b with source := a.source, hops := a.hops, rootCoord := a.rootCoord, state := a.state, goodOffsets := a.goodOffsets, lateMask := a.lateMask }

theorem takeSource_keeps : { takeSource s with clock := s.clock.sourcedAs (takeSource s).clock } = s := by
  unfold takeSource
  split
  · rfl
  split <;> rfl

theorem getTime_keeps (h : execGetTime m s = .next t) : onlyReplies s { t with clock := s.clock.sourcedAs t.clock } := by
  refine serve_keeps (F := fun s t => { t with clock := s.clock.sourcedAs t.clock }) (fun _ _ => rfl) (fun _ => rfl) h fun s x => ?_
  exact congrArg unreplied takeSource_keeps

theorem getTime_only (h : execGetTime m s = .next t) : onlyReplies s { t with clock := s.clock }
    ∧ t.clock = { s.clock with source := t.clock.source, hops := t.clock.hops, rootCoord := t.clock.rootCoord, state := t.clock.state, goodOffsets := t.clock.goodOffsets, lateMask := t.clock.lateMask } := by
  have sourced := onlyReplies_iff.mp (getTime_keeps h)
  have clock : s.clock.sourcedAs t.clock = s.clock := congrArg State.clock sourced
  constructor
  · exact onlyReplies_iff.mpr (congrArg (fun u : State => { u with clock := s.clock }) sourced)
  · exact congrArg (fun c : TimeState => { c with source := t.clock.source, hops := t.clock.hops, rootCoord := t.clock.rootCoord, state := t.clock.state, goodOffsets := t.clock.goodOffsets, lateMask := t.clock.lateMask }) clock

/-- Settles O50, message by message. -/
theorem configurationMessagesKeepTheRest : Obligations.ConfigurationMessagesKeepTheRest := by
  intro m s t
  refine ⟨fun h => ?_, fun h => ?_, fun h => ?_, fun h => ?_, fun h => ?_, fun h => ?_, fun h => ?_, fun h => ?_, fun h => ?_, fun h => ?_,
    reserveStore_keeps, setHostWindow_keeps, setStageIdentity_keeps, configureSlot_keeps, configureOptimizer_keeps, setHyperparameters_keeps, createBucket_keeps,
    setTelemetryRate_keeps, setClockLimits_keeps, clearError_keeps, cancelEdge_keeps, getTime_only, setPort_keeps, setPtp_keeps⟩
  · obtain ⟨rest, cores⟩ := setCircular_coresOnly h
    exact ⟨onlyReplies_iff.mpr rest, fun c => congrArg (fun k : Core => { k with cfg := { k.cfg with circ := (t.core c).cfg.circ } }) (cores c)⟩
  · obtain ⟨rest, cores⟩ := openWindow_coresOnly h
    exact ⟨onlyReplies_iff.mpr rest, fun c => congrArg (fun k : Core => { k with cfg := { k.cfg with windows := (t.core c).cfg.windows } }) (cores c)⟩
  · obtain ⟨rest, cores⟩ := closeWindow_coresOnly h
    exact ⟨onlyReplies_iff.mpr rest, fun c => congrArg (fun k : Core => { k with cfg := { k.cfg with windows := (t.core c).cfg.windows } }) (cores c)⟩
  · obtain ⟨rest, cores⟩ := setCounter_coresOnly h
    exact ⟨onlyReplies_iff.mpr rest, fun c => congrArg (fun k : Core => { k with cfg := { k.cfg with counters := (t.core c).cfg.counters }, queues := (t.core c).queues }) (cores c)⟩
  · obtain ⟨rest, cores⟩ := setConflictPolicy_coresOnly h
    exact ⟨onlyReplies_iff.mpr rest, fun c => congrArg (fun k : Core => { k with cfg := { k.cfg with strict := (t.core c).cfg.strict } }) (cores c)⟩
  · obtain ⟨rest, cores⟩ := setSaveMode_coresOnly h
    exact ⟨onlyReplies_iff.mpr rest, fun c => congrArg (fun k : Core => { k with cfg := { k.cfg with streams := (t.core c).cfg.streams } }) (cores c)⟩
  · obtain ⟨rest, cores⟩ := setRegion_coresOnly h
    exact ⟨onlyReplies_iff.mpr rest, fun c => congrArg (fun k : Core => { k with cfg := { k.cfg with pairs := (t.core c).cfg.pairs }, queues := (t.core c).queues }) (cores c)⟩
  · obtain ⟨rest, cores⟩ := setRipple_coresOnly h
    exact ⟨onlyReplies_iff.mpr rest, fun c => congrArg (fun k : Core => { k with rippleGap := (t.core c).rippleGap }) (cores c)⟩
  · obtain ⟨rest, cores⟩ := setCompletionRing_coresOnly h
    exact ⟨onlyReplies_iff.mpr rest, fun c => congrArg (fun k : Core => { k with queues := (t.core c).queues }) (cores c)⟩
  · obtain ⟨rest, cores⟩ := createRing_coresOnly h
    exact ⟨onlyReplies_iff.mpr rest, fun c => congrArg (fun k : Core => { k with queues := (t.core c).queues }) (cores c)⟩

end Sys2Proof.Machine
end

section
/-! PROOFS. Register writes -/

namespace Sys2Proof.Machine

variable {s t : State}

/-- A command that waits for endpoint 0, of which no entry exists, and has transmitted nothing. -/
def endpointWaiter : Started :=
  { startedOf CmdQueue.init { seq := 0, start := 0, cmds := [], absent := [], nStarted := 0, nDone := 0, seed := 0, step := 0, client := 0 } 0x31 with wait := .endpoint 0 }

/-- The command's operation, whose frame is still queued. -/
def queuedOp : NetOp := { tag := 0, gen := 0, via := .port 0, endpoint := 0, owner := .cmd 0 0 0, kind := .write, frames := 1, acked := 0, sent := 0, bytes := 64 }

/-- A state in which the wait for the endpoint can end while the command's operation is outstanding. -/
def waitingState : State :=
  { State.reset with
    cores := [(0, { Core.init with queues := [(0, { CmdQueue.init with started := [endpointWaiter] })] })]
    net := { State.reset.net with ops := [queuedOp] } }

/-- The wait ends, and the operation's tag returns. -/
theorem endpointWaitTimeout_waitingState : ∃ t, exec (.endpointWaitTimeout 0 0 0) waitingState = .next t ∧ t.net.ops = [] := ⟨_, rfl, by decide⟩

/-- Refutes O56: where a command's operation is outstanding and has transmitted nothing, the end of its wait for an endpoint takes back the operation's tag too, so not only the queues of the command's core change. -/
theorem not_registerWritesKeepTheRest : ¬ Obligations.RegisterWritesKeepTheRest := by
  intro h
  obtain ⟨t, ht, hops⟩ := endpointWaitTimeout_waitingState
  obtain ⟨-, -, -, -, -, -, -, -, -, -, -, -, timeout⟩ := h waitingState t
  have net : t.net.ops = [queuedOp] := congrArg (fun u : State => u.net.ops) (timeout 0 0 0 ht).1
  rw [hops] at net
  cases net

end Sys2Proof.Machine
end

section
/-! PROOFS. Writes of the memories -/

namespace Sys2Proof.Machine

variable {s t : State}

/-! What a run of bytes reads as once it is put into a table. -/

/-- A table after the performed bytes of a run are put at consecutive addresses. -/
def putBytes (m : Tbl Byte) (a : Nat) (bs : List Bt) : Tbl Byte :=
  (bs.zipIdx a).foldl (fun m x => if x.1.got then tset 0 m x.2 x.1.val else m) m

theorem putBytes_cons {m : Tbl Byte} {a : Nat} {b : Bt} {bs : List Bt} :
    putBytes m a (b :: bs) = putBytes (if b.got then tset 0 m a b.val else m) (a + 1) bs := rfl

/-- Every address outside the run reads as before. -/
theorem tget_putBytes_outside {m : Tbl Byte} {a x : Nat} {bs : List Bt} (hx : x < a ∨ a + bs.length ≤ x) : tget 0 (putBytes m a bs) x = tget 0 m x := by
  induction bs generalizing m a with
  | nil => rfl
  | cons b bs ih =>
    rw [List.length_cons] at hx
    rw [putBytes_cons, ih (by omega)]
    split
    · exact tget_tset_ne (by omega)
    · rfl

/-- A performed byte reads as its value. -/
theorem tget_putBytes_of_got {m : Tbl Byte} {a i : Nat} {bs : List Bt} (h : i < bs.length) (hg : bs[i].got = true) : tget 0 (putBytes m a bs) (a + i) = bs[i].val := by
  induction bs generalizing m a i with
  | nil => exact absurd h (Nat.not_lt_zero _)
  | cons b bs ih =>
    rw [putBytes_cons]
    cases i with
    | zero =>
      rw [List.getElem_cons_zero] at hg
      rw [tget_putBytes_outside (by omega), List.getElem_cons_zero, if_pos hg, Nat.add_zero, tget_tset_same]
    | succ i =>
      have := ih (m := if b.got then tset 0 m a b.val else m) (a := a + 1) (Nat.lt_of_succ_lt_succ h) hg
      rwa [Nat.add_right_comm, Nat.add_assoc] at this

/-! The pieces of a run. -/

theorem pieces_nil {α : Type} {w fuel a : Nat} : pieces w fuel a ([] : List α) = [] := by
  cases fuel <;> rfl

/-- A piece is not empty, and lies within its run. -/
theorem pieces_within {α : Type} {w fuel a : Nat} {xs : List α} {p : Nat × List α} (hw : 0 < w) (hp : p ∈ pieces w fuel a xs) :
    a ≤ p.1 ∧ 0 < p.2.length ∧ p.1 + p.2.length ≤ a + xs.length := by
  induction fuel generalizing a xs with
  | zero => exact absurd hp List.not_mem_nil
  | succ fuel ih =>
    have inWord : a % w < w := Nat.mod_lt _ hw
    rw [pieces] at hp
    split at hp
    next => exact absurd hp List.not_mem_nil
    next some =>
    have some : 0 < xs.length := List.length_pos_iff.mpr fun none => some (List.isEmpty_iff.mpr none)
    rcases List.mem_cons.mp hp with rfl | rest
    · simp only [List.length_take]
      omega
    · -- the rest of the run is empty where the first piece takes all of it
      by_cases more : w - a % w ≤ xs.length
      · obtain ⟨lo, pos, hi⟩ := ih rest
        rw [List.length_drop] at hi
        omega
      · rw [List.drop_eq_nil_of_le (by omega), pieces_nil] at rest
        exact absurd rest List.not_mem_nil

theorem putBytes_append {m : Tbl Byte} {a : Nat} {bs cs : List Bt} : putBytes m a (bs ++ cs) = putBytes (putBytes m a bs) (a + bs.length) cs := by
  unfold putBytes
  rw [List.zipIdx_append, List.foldl_append]

/-- A run of which nothing is performed puts nothing. -/
theorem putBytes_of_not_live {m : Tbl Byte} {a : Nat} {bs : List Bt} (h : (bs.any fun b => b.got) = false) : putBytes m a bs = m := by
  induction bs generalizing m a with
  | nil => rfl
  | cons b bs ih =>
    obtain ⟨head, rest⟩ := Bool.or_eq_false_iff.mp h
    rw [putBytes_cons, if_neg (Bool.eq_false_iff.mp head), ih rest]

/-- The pieces of a run put one by one put the run, where the fuel bounds them. -/
theorem foldl_pieces_putBytes {w : Nat} (hw : 0 < w) {fuel a : Nat} {bs : List Bt} {m : Tbl Byte} (hf : bs.length + a % w < w * fuel) :
    (pieces w fuel a bs).foldl (fun m p => putBytes m p.1 p.2) m = putBytes m a bs := by
  induction fuel generalizing a bs m with
  | zero => omega
  | succ fuel ih =>
    have inWord : a % w < w := Nat.mod_lt _ hw
    rw [pieces]
    split
    next empty => rw [List.isEmpty_iff.mp empty]; rfl
    dsimp only
    rw [List.foldl_cons]
    by_cases one : bs.length ≤ w - a % w
    · rw [List.take_of_length_le one, List.drop_eq_nil_of_le one, pieces_nil]
      rfl
    · have aligned : (a + (w - a % w)) % w = 0 := by
        rw [← Nat.mod_add_mod, Nat.add_sub_cancel' inWord.le, Nat.mod_self]
      rw [ih (by rw [aligned, List.length_drop]; rw [Nat.mul_succ] at hf; omega)]
      conv_rhs => rw [← List.take_append_drop (w - a % w) bs, putBytes_append, List.length_take, min_eq_left (by omega)]

/-! Writes of external memory. -/

@[simp] theorem correctWeak_failed {a n : Nat} : (correctWeak s a n).hbm.failed = s.hbm.failed := by
  unfold correctWeak
  exact foldl_keeps (g := fun s : State => s.hbm.failed) (fun _ _ => by rw [postErr_hbm]) _ _

@[simp] theorem readWord_mem {i : Nat} : (readWord s i).hbm.mem = s.hbm.mem := by
  unfold readWord Hbm.countBroken
  dsimp only
  split <;> exact correctWeak_mem

@[simp] theorem readWord_failed {i : Nat} : (readWord s i).hbm.failed = s.hbm.failed := by
  unfold readWord Hbm.countBroken
  dsimp only
  split <;> exact correctWeak_failed

/-- What a piece of a write makes of external memory: nothing where it is dropped, or discarded in a failed channel; else its performed bytes are put. -/
theorem hbmWriteWord_mem {dropped : Nat → Nat → Bool} {w : Wr} {p : Nat × List Bt} :
    (hbmWriteWord dropped w p).s.hbm.mem = if dropped p.1 p.2.length || w.s.hbm.failedAt p.1 then w.s.hbm.mem else putBytes w.s.hbm.mem p.1 p.2 := by
  unfold hbmWriteWord
  dsimp only
  cases dead : !(p.2.any fun b => b.got)
  case true => rw [Bool.not_eq_true', ← Bool.not_eq_true] at dead; simp [putBytes_of_not_live (Bool.eq_false_iff.mpr dead)]
  case false =>
  cases dropped p.1 p.2.length
  case true => rfl
  cases w.s.hbm.failedAt p.1
  case true => rfl
  simp only [Bool.or_false, Bool.false_eq_true, if_false, apply_ite State.hbm, apply_ite Hbm.mem, readWord_mem, ite_self]
  rfl

theorem hbmWriteWord_failed {dropped : Nat → Nat → Bool} {w : Wr} {p : Nat × List Bt} : (hbmWriteWord dropped w p).s.hbm.failed = w.s.hbm.failed := by
  unfold hbmWriteWord
  dsimp only
  split
  · rfl
  · split
    · rfl
    · simp only [apply_ite State.hbm, apply_ite Hbm.failed, readWord_failed, ite_self]
/-- The words of a write, one after the other. -/
def hbmWords (dropped : Nat → Nat → Bool) (s : State) (a : Nat) (bs : List Bt) : Wr :=
  (pieces 32 (bs.length / 32 + 2) a bs).foldl (hbmWriteWord dropped) { s := s, lost := none, part := none }

/-- A piece of a write is dropped where it meets an armed ring entry (R102). -/
def droppedFor (s : State) (a n : Nat) (x k : Nat) : Bool := ((armedRanges s).filter fun r => overlaps r.1 r.2 a n).any fun r => overlaps r.1 r.2 x k

theorem hbmWrite_hbm {a : Nat} {bs : List Bt} : (hbmWrite s a bs).s.hbm = (hbmWords (droppedFor s a bs.length) s a bs).s.hbm := by
  unfold hbmWrite
  dsimp only
  split
  · rfl
  · rw [postErr_hbm]
    rfl

/-- A write leaves every byte outside its run. -/
theorem tget_hbmWrite_outside {a x : Nat} {bs : List Bt} (hx : x < a ∨ a + bs.length ≤ x) :
    tget 0 (hbmWrite s a bs).s.hbm.mem x = tget 0 s.hbm.mem x := by
  have steps : ∀ (l : List (Nat × List Bt)) (w : Wr), (∀ p ∈ l, a ≤ p.1 ∧ p.1 + p.2.length ≤ a + bs.length) →
      tget 0 (l.foldl (hbmWriteWord (droppedFor s a bs.length)) w).s.hbm.mem x = tget 0 w.s.hbm.mem x := by
    intro l
    induction l with
    | nil => exact fun _ _ => rfl
    | cons p l ih =>
      intro w inside
      have first := inside p List.mem_cons_self
      rw [List.foldl_cons, ih _ fun q hq => inside q (List.mem_cons_of_mem _ hq), hbmWriteWord_mem]
      split
      · rfl
      · exact tget_putBytes_outside (by omega)
  rw [hbmWrite_hbm]
  exact steps _ _ fun p hp => by
    obtain ⟨lo, -, hi⟩ := pieces_within (by decide) hp
    exact ⟨lo, hi⟩

theorem overlaps_comm {a la b lb : Nat} : overlaps a la b lb = overlaps b lb a la := by
  simp only [overlaps]
  grind

/-- A write that meets no armed ring entry and no failed channel puts its performed bytes. -/
theorem hbmWrite_mem_of_free {a : Nat} {bs : List Bt} (hr : hits a bs.length (armedRanges s) = false) (hf : ∀ i, i < bs.length → s.hbm.failedAt (a + i) = false) :
    (hbmWrite s a bs).s.hbm.mem = putBytes s.hbm.mem a bs := by
  have free : ∀ x k, droppedFor s a bs.length x k = false := by
    have none : ((armedRanges s).filter fun r => overlaps r.1 r.2 a bs.length) = [] := by
      rw [List.filter_eq_nil_iff]
      intro r hmem
      rw [overlaps_comm]
      exact List.any_eq_false.mp hr r hmem
    intro x k
    rw [droppedFor, none]
    rfl
  have steps : ∀ (l : List (Nat × List Bt)) (w : Wr), w.s.hbm.failed = s.hbm.failed → (∀ p ∈ l, s.hbm.failedAt p.1 = false) →
      (l.foldl (hbmWriteWord (droppedFor s a bs.length)) w).s.hbm.mem = l.foldl (fun m p => putBytes m p.1 p.2) w.s.hbm.mem := by
    intro l
    induction l with
    | nil => exact fun _ _ _ => rfl
    | cons p l ih =>
      intro w same live
      have here : w.s.hbm.failedAt p.1 = false := by
        have := live p List.mem_cons_self
        rwa [Hbm.failedAt, same]
      rw [List.foldl_cons, ih _ (hbmWriteWord_failed.trans same) fun q hq => live q (List.mem_cons_of_mem _ hq), hbmWriteWord_mem, free, here]
      rfl
  rw [hbmWrite_hbm, hbmWords, steps _ _ rfl fun p hp => ?_, foldl_pieces_putBytes (by decide) (by omega)]
  obtain ⟨lo, pos, hi⟩ := pieces_within (by decide) hp
  rw [← Nat.add_sub_cancel' lo]
  exact hf _ (by omega)

/-! Writes of a scratchpad. -/

/-- What a piece of a write makes of a scratchpad: nothing in a segment that is off or being zeroed; else its performed bytes are put. -/
theorem spadWriteWord_spad {w : SpadWr} {p : Nat × List Bt} : (spadWriteWord w p).core.spad = if w.core.segDead p.1 then w.core.spad else putBytes w.core.spad p.1 p.2 := by
  unfold spadWriteWord
  dsimp only
  cases dead : !(p.2.any fun b => b.got)
  case true => rw [Bool.not_eq_true', ← Bool.not_eq_true] at dead; simp [putBytes_of_not_live (Bool.eq_false_iff.mpr dead)]
  case false =>
  cases w.core.segDead p.1
  case true => rfl
  case false => rfl

theorem spadWriteWord_segDead {w : SpadWr} {p : Nat × List Bt} : (spadWriteWord w p).core.segDead = w.core.segDead := by
  unfold spadWriteWord
  dsimp only
  split
  · rfl
  · split <;> rfl

/-- What a write of a core's scratchpad stores, as its words one after the other. -/
def spadWords (k : Core) (a : Nat) (bs : List Bt) : SpadWr :=
  (pieces 4 (bs.length / 4 + 2) a bs).foldl spadWriteWord { core := k, parity := none, dead := none }

theorem spadWrite_core {c k a : Nat} {bs : List Bt} : (spadWrite s c a bs).1.core k = if k = c then (spadWords (s.core c) a bs).core else s.core k := tget_tset

/-- A write leaves every byte outside its run, and every other core's. -/
theorem tget_spadWrite_outside {c k a x : Nat} {bs : List Bt} (hx : k = c → x < a ∨ a + bs.length ≤ x) :
    tget 0 ((spadWrite s c a bs).1.core k).spad x = tget 0 (s.core k).spad x := by
  have steps : ∀ (l : List (Nat × List Bt)) (w : SpadWr), (∀ p ∈ l, x < p.1 ∨ p.1 + p.2.length ≤ x) →
      tget 0 (l.foldl spadWriteWord w).core.spad x = tget 0 w.core.spad x := by
    intro l
    induction l with
    | nil => exact fun _ _ => rfl
    | cons p l ih =>
      intro w out
      rw [List.foldl_cons, ih _ fun q hq => out q (List.mem_cons_of_mem _ hq), spadWriteWord_spad]
      split
      · rfl
      · exact tget_putBytes_outside (out p List.mem_cons_self)
  rw [spadWrite_core]
  split
  next same =>
    subst same
    refine steps _ _ fun p hp => ?_
    obtain ⟨lo, -, hi⟩ := pieces_within (by decide) hp
    have := hx rfl
    omega
  next => rfl

/-- A write to usable segments puts its performed bytes. -/
theorem spadWrite_spad_of_usable {c a : Nat} {bs : List Bt} (hs : ∀ i, i < bs.length → (s.core c).segDead (a + i) = false) :
    ((spadWrite s c a bs).1.core c).spad = putBytes (s.core c).spad a bs := by
  have steps : ∀ (l : List (Nat × List Bt)) (w : SpadWr), (∀ p ∈ l, w.core.segDead p.1 = false) →
      (l.foldl spadWriteWord w).core.spad = l.foldl (fun m p => putBytes m p.1 p.2) w.core.spad := by
    intro l
    induction l with
    | nil => exact fun _ _ => rfl
    | cons p l ih =>
      intro w live
      rw [List.foldl_cons, ih _ (fun q hq => by rw [spadWriteWord_segDead]; exact live q (List.mem_cons_of_mem _ hq)), spadWriteWord_spad,
        if_neg (Bool.eq_false_iff.mp (live p List.mem_cons_self)), List.foldl_cons]
  rw [spadWrite_core, if_pos rfl, spadWords, steps _ _ fun p hp => ?_, foldl_pieces_putBytes (by decide) (by omega)]
  obtain ⟨lo, pos, hi⟩ := pieces_within (by decide) hp
  rw [← Nat.add_sub_cancel' lo]
  exact hs _ (by omega)

/-! The host's writes through its window. -/

theorem outside_iff {x a n : Nat} : outside x a n = true ↔ x < a ∨ a + n ≤ x := by simp [outside]

theorem Kept.sameBytes (hk : Kept watchBytes s t) : sameBytes s t := ⟨hk.hbm.2 rfl, hk.spads rfl⟩

@[simp] theorem markBytes_length {m : Bool} {bs : List Byte} : (markBytes m bs).length = bs.length := List.length_map _

/-- Two states have the same scratchpads, and the same bytes of external memory outside a run, where there is one. -/
def SameOutside (a : Option Nat) (n : Nat) (s t : State) : Prop :=
  (∀ c, (t.core c).spad = (s.core c).spad) ∧ ∀ x, (∀ w, a = some w → outside x w n = true) → tget 0 t.hbm.mem x = tget 0 s.hbm.mem x

theorem SameOutside.of_sameBytes {a : Option Nat} {n : Nat} (h : sameBytes s t) : SameOutside a n s t :=
  ⟨h.2, fun _ _ => by rw [h.1]⟩

theorem SameOutside.trans {u : State} {a : Option Nat} {n : Nat} (h : SameOutside a n s t) (k : SameOutside a n t u) : SameOutside a n s u :=
  ⟨fun c => (k.1 c).trans (h.1 c), fun x hx => (k.2 x hx).trans (h.2 x hx)⟩

theorem SameOutside.hbmWrite {a n : Nat} {bs : List Bt} (hn : bs.length = n) : SameOutside (some a) n s (hbmWrite s a bs).s :=
  ⟨fun c => by rw [State.core, hbmWrite_cores]; rfl, fun x hx => tget_hbmWrite_outside (hn ▸ outside_iff.mp (hx a rfl))⟩

theorem hostWrite_sameOutside {i : Instr} {line : Nat} {mv : Meta} {bs : List Bt} : SameOutside (lineAddr s line) bs.length s (hostWrite s i line mv bs) := by
  unfold hostWrite
  split
  next => exact .of_sameBytes (Kept.sameBytes .refl)
  next a there =>
  dsimp only
  rw [there]
  have admitted : Kept watchBytes s (if s.snooped line then (s, none) else admitReq s line (mv == .s)).1 := by
    split
    · exact .refl
    · exact admitReq_kept .refl
  split
  next => exact .of_sameBytes (holdReq_kept admitted).sameBytes
  next =>
  refine (SameOutside.of_sameBytes admitted.sameBytes).trans ((SameOutside.hbmWrite rfl).trans (.of_sameBytes (Kept.sameBytes ?_)))
  refine emit_kept ?_
  cases mv with
  | i => exact track_kept (crossLine_kept .refl)
  | s => exact track_kept .refl
  | a => exact .refl

theorem execBar2Write_sameOutside {o : Nat} {data : List Byte} {p : Bool} (h : execBar2Write o data p s = .next t) :
    SameOutside (inWindow s o data.length) data.length s t := by
  unfold execBar2Write at h
  split at h
  · cases h
    exact .of_sameBytes (Kept.sameBytes .refl)
  · split at h
    · cases h
      exact .of_sameBytes (Kept.sameBytes (emit_kept .refl))
    · split at h <;> cases h
      next => exact .of_sameBytes (Kept.sameBytes (postErr_kept (emit_kept .refl)))
      next there =>
        rw [there]
        exact .hbmWrite markBytes_length

/-- Settles O55: the words of a write put their bytes one after the other, and the host's writes are writes of external memory. -/
theorem memoryWritesStoreTheirBytes : Obligations.MemoryWritesStoreTheirBytes := by
  refine fun s a bs => ⟨fun x hx => tget_hbmWrite_outside (outside_iff.mp hx), fun hr hf i h got => ?_, fun c x hx => tget_spadWrite_outside fun _ => outside_iff.mp hx,
    fun c hs i h got => ?_, fun o data p t h => execBar2Write_sameOutside h, fun line mv data p t h => ?_⟩
  · rw [hbmWrite_mem_of_free hr hf, tget_putBytes_of_got h got]
  · rw [spadWrite_spad_of_usable hs, tget_putBytes_of_got h got]
  · cases h
    have kept := hostWrite_sameOutside (s := s) (i := .memWr line mv data p) (line := line) (mv := mv) (bs := markBytes p (padTo 64 data))
    rwa [markBytes_length] at kept

end Sys2Proof.Machine
end

section
/-! PROOFS. A tap outside external memory -/

namespace Sys2Proof.Machine

variable {r : Run}

/-- An ELTWISE of one product whose epilogue taps stream 0, by the record at logical address 0x4000. -/
def tapDesc : BitVec 512 := 0x12#512 ||| 0x1000#512 <<< 288 ||| 1#512 <<< 487 ||| 128#512 <<< 495

/-- The block of the command. -/
def tapBlock : Block := { seq := 0, start := 0, cmds := [tapDesc], absent := [], nStarted := 0, nDone := 0, seed := 0, step := 0, client := 1 }

/-- A state in which stream 0 of core 0 is open over a store region that lies in the scratchpad of core 1, where one byte is set. -/
def tapState : State :=
  { State.reset with
    boot := { Boot.init with fwStage := 6, needTrain := false }
    power := { Power.init with perst := false }
    regions := [(0, (0x8001000000, 0x1000))]
    cores := [
      (0, { Core.init with
        cfg := { CoreCfg.init with pairs := [(0, some { logical := 0, size := 0x1000000, base := 0, rd := true, wr := true })] }
        spad := [(0x401C, 1)]
        records := [(0, some { queue := 0, region := 0, offset := 0, blocks := 1, used := 0, coding := 2, view := 0, written := 0 })]
        queues := [(0, { CmdQueue.init with
          ring := some { base := 0x10000, log2 := 12, waitLimit := 24, quota := 1024 }
          cpl := some { base := 0x80000, log2 := 8, vector := 127, headAddr := 0x90000, written := 0, head := 0 }
          armed := [tapBlock] })] }),
      (1, { Core.init with spad := [(0, 1)] })] }

theorem runDevWrite_s {a : Nat} {bs : List Bt} : (r.devWrite a bs).s = (devWrite (r.fabric bs).2.s a (r.fabric bs).1).1 := faults_s

theorem fabric_of_no_strikes {bs : List Bt} (h : r.s.strikes = []) : r.fabric bs = (bs, r) := by
  unfold Run.fabric State.struck
  rw [h]
  dsimp only [List.find?_nil]
  split <;> rfl

theorem devWrite_of_spad {s : State} {a c x : Nat} {bs : List Bt} (h : placeOf a = .spad c x) : (devWrite s a bs).1 = (spadWrite s c x bs).1 := by
  rw [devWrite, h]

/-- The bytes that a tap stores first, in the scratchpad where its region lies: those of the output. -/
theorem append_firstByte {stream c : Nat} {l : Actl} {b : Byte} {bs : List Byte} {bf : Bool} {x : SaveRec} (hx : r.k.saveRec stream = some x) (hc : x.coding = 2)
    (hf : appendFault r stream 1 bf = none) (hn : bs.length < 4096)
    (hp : placeOf ((recRange r.s x.region x.offset x.used x.coding.toNat).1 + (recRange r.s x.region x.offset x.used x.coding.toNat).2) = .spad c 0)
    (hs : (r.s.core c).segOff = 0 ∧ (r.s.core c).segZeroing = 0) (hk : r.s.strikes = []) :
    tget 0 ((r.append stream l (cleanBytes (b :: bs)) bf).s.core c).spad 0 = b := by
  have len : (cleanBytes (b :: bs)).length = bs.length + 1 := List.length_map _
  have one : ceilDiv (cleanBytes (b :: bs)).length 4096 = 1 := by
    rw [len, ceilDiv]
    omega
  have whole : chunksOf 4096 ((cleanBytes (b :: bs)).length / 4096 + 1) (cleanBytes (b :: bs)) = [cleanBytes (b :: bs)] := by
    rw [chunksOf, if_neg (by simp [cleanBytes]), List.take_of_length_le (by omega), List.drop_eq_nil_of_le (by omega)]
    cases (cleanBytes (b :: bs)).length / 4096 <;> rfl
  have live : ∀ y, (r.s.core c).segDead y = false := fun y => by simp [Core.segDead, hs]
  simp only [Run.append, one, hf, whole, List.foldl_cons, List.foldl_nil, appendBlock, hx, if_pos hc]
  change tget 0 (spadOf (State.setRec _ _ _ _).cores c) 0 = b
  rw [State.setRec, modCore_spad, runDevWrite_s, fabric_of_no_strikes hk]
  dsimp only
  rw [devWrite_of_spad hp]
  · exact (congrArg (fun m => tget 0 m 0) (spadWrite_spad_of_usable fun _ _ => live _)).trans (tget_putBytes_of_got (i := 0) (by simp [cleanBytes]) rfl)
  · exact fun _ => rfl

/-- The first byte of a tap, in the scratchpad where its region lies. -/
theorem tap_firstByte {c : Nat} {p : EpiCfg} {l : Actl} {w : BitVec 512} {b : Byte} {bs : List Byte} {x : SaveRec} (ht : p.tap = true)
    (hx : r.k.saveRec (fld w 322 320) = some x) (hc : x.coding = 2) (hf : appendFault r (fld w 322 320) 1 (p.fmt == 1) = none) (hn : bs.length < 4096)
    (hp : placeOf ((recRange r.s x.region x.offset x.used x.coding.toNat).1 + (recRange r.s x.region x.offset x.used x.coding.toNat).2) = .spad c 0)
    (hs : (r.s.core c).segOff = 0 ∧ (r.s.core c).segZeroing = 0) (hk : r.s.strikes = []) :
    tget 0 ((r.tap p w l (b :: bs)).s.core c).spad 0 = b := by
  rw [Run.tap, if_pos ht]
  exact append_firstByte hx hc hf hn hp hs hk

/-- No vector is read where neither the bias nor the scale names one. -/
theorem readVecs_of_unused {c : EpiCfg} {x : BitVec 512} {lo n : Nat} (hb : c.bias = false) (hs : c.scale = 0) :
    r.readVecs c x lo n = (some { first := lo, bias := [], scale := [] }, r) := by
  simp [Run.readVecs, hb, hs]

/-! An ELTWISE without upsets and late outputs, step by step. -/

/-- The epilogue of an ELTWISE. -/
def eltEpi (r : Run) : EpiCfg := epiCfg (fb (cmdBody r.e.desc) 320 64)

/-- The operands of an ELTWISE, and the run that has read them. -/
def eltRead (r : Run) : List (Option FV × Option FV) × Run :=
  let b := cmdBody r.e.desc
  readElts r.actl (fld b 18 16) (fld b 22 20) (fld b 119 96) (fld b 151 128) (eltCount b) ((takeArrays r).readRec (eltEpi r)).2

/-- The vectors of its epilogue, and the run that has read them too. -/
def eltVecs (r : Run) (x : BitVec 512) : Option EpiVecs × Run := (eltRead r).2.readVecs (eltEpi r) x 0 (eltCount (cmdBody r.e.desc))

/-- Its outputs. -/
def eltOuts (r : Run) (x : BitVec 512) (v : EpiVecs) : List EpiOut :=
  (epiGrid (eltVecs r x).2.k (eltVecs r x).2.e r.actl [] (eltEpi r) x v 0 0
    [((eltRead r).1.map (eltProduct r.actl)).zipIdx.map fun p => (drainErr [] 0 p.2 p.1.1, p.1.2)]).flatten

/-- The run that has written its outputs and comes to the tap. -/
def eltWritten (r : Run) (x : BitVec 512) (v : EpiVecs) : Run :=
  ((eltVecs r x).2.localWrite (fld (cmdBody r.e.desc) 183 160) (fld (cmdBody r.e.desc) 183 160) (outBytes (eltEpi r).fmt (eltOuts r x v))).flag
    (dueFlags [] 0 (eltOuts r x v))

theorem outsDone_s : r.outsDone.s = r.s := by
  unfold Run.outsDone
  split <;> rfl

/-- What an ELTWISE without upsets and late outputs leaves is what its tap leaves. -/
theorem attemptEltwise_s {x : BitVec 512} {v : EpiVecs} (hrec : ((takeArrays r).readRec (eltEpi r)).1 = some x)
    (hdrop : dropTooFar (eltEpi r) x 1 (eltCount (cmdBody r.e.desc)) = false) (hvecs : (eltVecs r x).1 = some v) :
    (attemptEltwise [] [] r).s = ((eltWritten r x v).tap (eltEpi r) x r.actl ((eltOuts r x v).flatMap fun o => leBytes (fmtBytes (eltEpi r).fmt) o.tap)).s := by
  unfold eltEpi at hrec hdrop
  unfold eltVecs eltRead eltEpi at hvecs
  unfold attemptEltwise
  dsimp only at hvecs ⊢
  simp only [hrec, hdrop, hvecs, Bool.false_eq_true, if_false]
  rw [outsDone_s, List.eraseDups_nil, List.filter_nil, List.map_nil]
  unfold eltWritten eltOuts eltVecs eltRead eltEpi
  dsimp only [Run.holdBack, List.foldl_nil]

/-! The command at work. -/

/-- The run of the command as its work begins. -/
def tapRun : Run := entered 0 0 tapState tapBlock tapDesc

/-- The vectors that the command's epilogue has read: none. -/
def noVecs : EpiVecs := { first := 0, bias := [], scale := [] }

/-- The tap is stored into the scratchpad of core 1. -/
theorem execEltwise_tapState : ∃ t, exec (.eltwise 0 0 [] []) tapState = .next t ∧ tget 0 (t.core 1).spad 0 = 0 := by
  have begins : starts 0x12 (0 : CoreId).val (0 : QueueId).val tapState (arraysAccept (0 : CoreId).val (0 : QueueId).val) tapBlock tapDesc = true := by decide +kernel
  have hrec : ((takeArrays tapRun).readRec (eltEpi tapRun)).1 = some (1#512 <<< 224) := by decide +kernel
  have hdrop : dropTooFar (eltEpi tapRun) (1#512 <<< 224) 1 (eltCount (cmdBody tapRun.e.desc)) = false := by decide +kernel
  have hvecs : (eltVecs tapRun (1#512 <<< 224)).1 = some noVecs := congrArg Prod.fst (readVecs_of_unused (by decide +kernel) (by decide +kernel))
  have stream : (eltWritten tapRun (1#512 <<< 224) noVecs).k.saveRec (fld (1#512 <<< 224) 322 320) =
      some { queue := 0, region := 0, offset := 0, blocks := 1, used := 0, coding := 2, view := 0, written := 0 } := by decide +kernel
  have image : ((eltOuts tapRun (1#512 <<< 224) noVecs).flatMap fun o => leBytes (fmtBytes (eltEpi tapRun).fmt) o.tap) = [0, 0, 0, 0] := by decide +kernel
  have answer : exec (.eltwise 0 0 [] []) tapState = stored (attemptEltwise [] [] tapRun) := by
    show execEltwise 0 0 [] [] tapState = _
    unfold execEltwise
    exact startCmd_starts begins
  refine ⟨_, answer, ?_⟩
  have first := tap_firstByte (c := 1) (p := eltEpi tapRun) (l := tapRun.actl) (b := 0) (bs := [0, 0, 0]) (by decide +kernel) stream rfl (by decide +kernel) (by decide) (by decide +kernel) (by decide +kernel)
    (by decide +kernel)
  rw [← image, ← attemptEltwise_s hrec hdrop hvecs] at first
  rwa [sameBytes_store.2]

/-- Refutes O52: a tap is stored where its store region lies, and no state of the model rules out a region in the scratchpad of another core. -/
theorem not_arithmeticStoresOnlyItsOutputs : ¬ Obligations.ArithmeticStoresOnlyItsOutputs := by
  intro h
  obtain ⟨t, ht, stored⟩ := execEltwise_tapState
  have others := ((h 0 0 [] [] tapState t tapBlock tapDesc 0 (by decide +kernel)).2.1 ht).2.1
  have kept : tget 0 (t.core 1).spad 0 = 1 := by
    rw [others 1 (by decide)]
    decide +kernel
  exact absurd (kept.symm.trans stored) (by decide)

end Sys2Proof.Machine
end

section
/-! PROOFS. Where a run's accesses go -/

namespace Sys2Proof.Machine

variable {s t u : State} {r v w : Run} {x : Place}

/-! The places that a write leaves alone. -/

theorem outside_of_le {a lo m n : Nat} (h : outside a lo n = true) (hm : m ≤ n) : outside a lo m = true := by
  rw [outside_iff] at h ⊢
  omega

theorem outside_zero {a lo : Nat} : outside a lo 0 = true := by
  rw [outside_iff]
  omega

theorem apart_of_le {a m n : Nat} (h : apart x a n = true) (hm : m ≤ n) : apart x a m = true := by
  unfold apart at h ⊢
  split <;> simp_all only
  · exact outside_of_le h hm
  · rw [Bool.or_eq_true] at h ⊢
    exact h.imp_right fun o => outside_of_le o hm

theorem apartOwn_of_le {c a m n : Nat} (h : apartOwn x c a n = true) (hm : m ≤ n) : apartOwn x c a m = true := by
  unfold apartOwn at h ⊢
  split
  · simp only [Bool.or_eq_true] at h ⊢
    exact h.imp_right fun o => outside_of_le o hm
  · rfl

theorem apartOwn_zero {c a : Nat} : apartOwn x c a 0 = true := by
  unfold apartOwn
  split <;> simp only [outside_zero, Bool.or_true]

theorem sameBytes.byteAt (h : sameBytes s t) : byteAt t x = byteAt s x := by
  cases x with
  | hbm a => exact congrArg (fun m => tget 0 m a) h.1
  | spad c a => exact congrArg (fun m => tget 0 m a) (h.2 c)
  | nowhere => rfl

theorem byteAt_hbmWrite {a : Nat} {bs : List Bt} (h : ∀ y, x = .hbm y → outside y a bs.length = true) : byteAt (hbmWrite s a bs).s x = byteAt s x := by
  cases x with
  | hbm y => exact tget_hbmWrite_outside (outside_iff.mp (h y rfl))
  | spad c y => exact congrArg (fun l => tget 0 (spadOf l c) y) hbmWrite_cores
  | nowhere => rfl

theorem byteAt_spadWrite {c a : Nat} {bs : List Bt} (h : apartOwn x c a bs.length = true) : byteAt (spadWrite s c a bs).1 x = byteAt s x := by
  cases x with
  | hbm y => rfl
  | spad k y =>
    refine tget_spadWrite_outside fun same => outside_iff.mp ?_
    subst same
    simpa [apartOwn] using h
  | nowhere => rfl

theorem byteAt_devWrite {a : Nat} {bs : List Bt} (h : apart x a bs.length = true) : byteAt (devWrite s a bs).1 x = byteAt s x := by
  unfold devWrite
  unfold apart at h
  split
  next p hp =>
    refine byteAt_hbmWrite fun y hy => ?_
    subst hy
    simpa only [hp] using h
  next c p hp =>
    refine byteAt_spadWrite ?_
    unfold apartOwn
    split
    · simpa only [hp] using h
    · rfl
  next => rfl

/-- A write of no byte stores nothing. -/
theorem sameBytes_devWrite_nil {a : Nat} : sameBytes s (devWrite s a []).1 := by
  unfold devWrite
  split
  next p hp =>
    refine ⟨?_, fun c => congrArg (fun l => spadOf l c) hbmWrite_cores⟩
    rw [hbmWrite_hbm]
    rfl
  next c p hp =>
    refine ⟨rfl, fun k => ?_⟩
    rw [spadWrite_core]
    split
    next same => rw [same]; rfl
    next => rfl
  next => exact ⟨rfl, fun _ => rfl⟩

/-! Runs whose accesses go to the same places. -/

/-- Two runs agree in what says where their accesses go: the core, the queue, the ring's place and every core's configuration. -/
structure Run.Bound (r w : Run) : Prop where
  core : w.core = r.core
  queue : w.queue = r.queue
  ringAt : w.e.ringAt = r.e.ringAt
  cfg : ∀ c, (w.s.core c).cfg = (r.s.core c).cfg

theorem Run.Bound.refl : r.Bound r := ⟨rfl, rfl, rfl, fun _ => rfl⟩

theorem Run.Bound.trans (h : r.Bound v) (k : v.Bound w) : r.Bound w :=
  ⟨k.core.trans h.core, k.queue.trans h.queue, k.ringAt.trans h.ringAt, fun c => (k.cfg c).trans (h.cfg c)⟩

theorem Run.Bound.k_cfg (h : r.Bound w) : w.k.cfg = r.k.cfg := by
  rw [Run.k, h.core]
  exact h.cfg _

/-- They agree in their progress too: the bytes under way and the cursor. -/
structure Run.Still (r w : Run) : Prop extends r.Bound w where
  buf : w.e.buf = r.e.buf
  cursor : w.e.cursor = r.e.cursor

theorem Run.Still.refl : Run.Still r r := ⟨.refl, rfl, rfl⟩

theorem Run.Still.trans (h : r.Still v) (k : v.Still w) : r.Still w := ⟨h.toBound.trans k.toBound, k.buf.trans h.buf, k.cursor.trans h.cursor⟩

/-- A run whose state has the same cores, and whose command has not moved. -/
theorem Run.Still.of_cores {t : State} {e : Started} (hc : t.cores = r.s.cores) (hr : e.ringAt = r.e.ringAt) (hb : e.buf = r.e.buf) (hn : e.cursor = r.e.cursor) :
    r.Still { r with s := t, e := e } :=
  ⟨⟨rfl, rfl, hr, fun c => congrArg (fun l => (tget Core.init l c).cfg) hc⟩, hb, hn⟩

theorem fault_still {st detail : Nat} : r.Still (r.fault st detail) := by
  unfold Run.fault Started.faultS Started.fault
  split <;> exact .of_cores rfl rfl rfl rfl

theorem foldlRun_still {α : Type} {f : Run → α → Run} (hf : ∀ (r : Run) (a : α), r.Still (f r a)) {l : List α} : r.Still (l.foldl f r) :=
  foldl_inv (P := fun w => r.Still w) (fun w a h => h.trans (hf w a)) .refl

theorem faults_still {l : List (Nat × Nat)} : r.Still (r.faults l) := foldlRun_still fun _ _ => fault_still

theorem finish_still : r.Still r.finish := .of_cores rfl rfl rfl rfl

theorem failWith_still {st detail : Nat} : r.Still (r.failWith st detail) := fault_still.trans finish_still

theorem block_still {y : Wait} : r.Still (r.block y) := .of_cores rfl rfl rfl rfl

theorem flag_still {f : Flags} : r.Still (r.flag f) := .of_cores rfl rfl rfl rfl

theorem struck_cores {o : Option (Nat × Nat × Nat)} : (s.struck o).2.cores = s.cores := by
  unfold State.struck
  split
  · rfl
  · dsimp only
    split <;> rfl

theorem fabric_still {bs : List Bt} : r.Still (r.fabric bs).2 := by
  unfold Run.fabric
  split
  · exact .refl
  · dsimp only
    split
    · exact (Run.Still.of_cores struck_cores rfl rfl rfl).trans fault_still
    · exact .of_cores struck_cores rfl rfl rfl

theorem fabric_length {bs : List Bt} : (r.fabric bs).1.length = bs.length := by
  unfold Run.fabric
  split
  · rfl
  · dsimp only
    split
    · exact List.length_map _
    · rfl

theorem localRead_still {base a n : Nat} : r.Still (r.localRead base a n).2 := by
  unfold Run.localRead
  refine Run.Still.trans ?_ faults_still
  have fresh : ∀ p : Prop, ∀ [Decidable p], r.Still (if p then { r with s := { r.s with fresh := r.s.fresh + 1 } } else r) := fun p _ => by
    split
    · exact .of_cores rfl rfl rfl rfl
    · exact .refl
  dsimp only
  split
  · exact (fresh _).trans fault_still
  · exact fresh _

theorem memRead_still {a n : Nat} : r.Still (r.memRead a n).2 := (Run.Still.of_cores devRead_cores rfl rfl rfl).trans faults_still

theorem devRead_still {a n : Nat} : r.Still (r.devRead a n).2 := memRead_still.trans fabric_still

theorem spadWords_cfg {k : Core} {a : Nat} {bs : List Bt} : (spadWords k a bs).core.cfg = k.cfg := by
  refine foldl_keeps (g := fun w : SpadWr => w.core.cfg) (fun w p => ?_) _ _
  unfold spadWriteWord
  dsimp only
  split
  · rfl
  · split <;> rfl

theorem spadWrite_cfg {c k a : Nat} {bs : List Bt} : ((spadWrite s c a bs).1.core k).cfg = (s.core k).cfg := by
  rw [spadWrite_core]
  split
  next same => rw [spadWords_cfg, same]
  next => rfl

theorem devWrite_cfg {a k : Nat} {bs : List Bt} : ((devWrite s a bs).1.core k).cfg = (s.core k).cfg := by
  unfold devWrite
  split
  · exact congrArg (fun l => (tget Core.init l k).cfg) hbmWrite_cores
  · exact spadWrite_cfg
  · rfl

theorem memPut_still {a : Nat} {bs : List Bt} : r.Still (r.memPut a bs).1 :=
  Run.Still.trans (v := { r with s := (devWrite r.s a bs).1 }) ⟨⟨rfl, rfl, rfl, fun _ => devWrite_cfg⟩, rfl, rfl⟩ faults_still

theorem localPut_still {base a : Nat} {bs : List Bt} : r.Still (r.localPut base a bs).1 := by
  unfold Run.localPut
  split
  · exact .refl
  · refine Run.Still.trans ?_ faults_still
    have put : ∀ p : Nat, r.Still { r with s := (spadWrite r.s r.core p (bs.take (xlatPart r.k.cfg r.queue base a bs.length true).1)).1 } := fun p =>
      ⟨⟨rfl, rfl, rfl, fun _ => spadWrite_cfg⟩, rfl, rfl⟩
    split
    · exact (put _).trans fault_still
    · exact put _

/-! What the writes of a run leave alone. -/

theorem byteAt_memPut {a : Nat} {bs : List Bt} (h : apart x a bs.length = true) : byteAt (r.memPut a bs).1.s x = byteAt r.s x := by
  unfold Run.memPut
  dsimp only
  rw [faults_s]
  exact byteAt_devWrite h

theorem fabric_sameBytes {bs : List Bt} : sameBytes r.s (r.fabric bs).2.s := (fabric_kept .refl).sameBytes

theorem byteAt_runDevWrite {a : Nat} {bs : List Bt} (h : apart x a bs.length = true) : byteAt (r.devWrite a bs).s x = byteAt r.s x := by
  unfold Run.devWrite Run.devPut
  rw [byteAt_memPut (by rwa [fabric_length])]
  exact fabric_sameBytes.byteAt

theorem xlatPart_le {g : CoreCfg} {q base a n : Nat} {b : Bool} : (xlatPart g q base a n b).1 ≤ n := by
  unfold xlatPart
  split
  · exact Nat.zero_le _
  · exact Nat.min_le_left _ _

/-- A shorter access goes to the same place, and to no more of it. -/
theorem xlatPart_mono {g : CoreCfg} {q base a m n : Nat} {b : Bool} (h : m ≤ n) :
    (xlatPart g q base a m b).2 = (xlatPart g q base a n b).2 ∧ (xlatPart g q base a m b).1 ≤ (xlatPart g q base a n b).1 := by
  unfold xlatPart
  split
  · exact ⟨rfl, Nat.le_refl _⟩
  · exact ⟨rfl, by dsimp only; omega⟩

theorem byteAt_localPut {base a : Nat} {bs : List Bt}
    (h : apartOwn x r.core (xlatPart r.k.cfg r.queue base a bs.length true).2 (xlatPart r.k.cfg r.queue base a bs.length true).1 = true) :
    byteAt (r.localPut base a bs).1.s x = byteAt r.s x := by
  unfold Run.localPut
  split
  · rfl
  · have put := byteAt_spadWrite (s := r.s) (bs := bs.take (xlatPart r.k.cfg r.queue base a bs.length true).1) (apartOwn_of_le h (List.length_take_le _ _))
    dsimp only
    rw [faults_s]
    split <;> exact put

end Sys2Proof.Machine
end

section
/-! PROOFS. What a transfer reads, and its place -/

namespace Sys2Proof.Machine

variable {s t u : State} {r v w : Run} {x : Place}

/-! What a read delivers. -/

theorem spans_total {k fuel a n : Nat} : ((spans k fuel a n).map Prod.snd).sum ≤ n := by
  induction fuel generalizing a n with
  | zero => exact Nat.zero_le _
  | succ fuel ih =>
    rw [spans]
    split
    · exact Nat.zero_le _
    · have rest := ih (a := a + min n (k - a % k)) (n := n - min n (k - a % k))
      simp only [List.map_cons, List.sum_cons]
      omega

/-- Bytes read row by row are as many as the rows are long. -/
theorem flatMap_rows_length {α : Type} {l : List (Nat × Nat)} {f : Nat × Nat → List α} (hf : ∀ p, (f p).length = p.2) : (l.flatMap f).length = (l.map Prod.snd).sum := by
  rw [List.length_flatMap]
  exact congrArg List.sum (List.map_congr_left fun p _ => hf p)

theorem hbmRead_length {a n : Nat} : (hbmRead s a n).1.length ≤ n := by
  unfold hbmRead
  dsimp only
  rw [flatMap_rows_length fun p => by rw [List.length_map, List.length_range]]
  exact spans_total

theorem spadRead_length {c a n : Nat} : (spadRead s c a n).bytes.length ≤ n := by
  unfold spadRead
  dsimp only
  rw [flatMap_rows_length fun p => by split <;> rw [List.length_map, List.length_range]]
  exact spans_total

theorem devRead_length {a n : Nat} : (devRead s a n).1.length ≤ n := by
  unfold devRead
  split
  · exact hbmRead_length
  · exact spadRead_length
  · exact Nat.zero_le _

theorem localRead_length {base a n : Nat} : (r.localRead base a n).1.length ≤ n := by
  have part := xlatPart_le (g := r.k.cfg) (q := r.queue) (base := base) (a := a) (n := n) (b := false)
  have read := spadRead_length (s := r.s) (c := r.core) (a := (xlatPart r.k.cfg r.queue base a n false).2) (n := (xlatPart r.k.cfg r.queue base a n false).1)
  unfold Run.localRead freeBytes
  dsimp only
  rw [List.length_append, List.length_map, List.length_range]
  omega

theorem wrapSpans_total {g : Circ} {o n : Nat} : ((wrapSpans g o n).map Prod.snd).sum = n := by
  simp only [wrapSpans, List.map_cons, List.map_nil, List.sum_cons, List.sum_nil]
  omega

theorem sum_filter_pos {l : List (Nat × Nat)} : ((l.filter fun p => p.2 != 0).map Prod.snd).sum = (l.map Prod.snd).sum := by
  induction l with
  | nil => rfl
  | cons p l ih =>
    rw [List.filter_cons]
    split
    · rw [List.map_cons, List.map_cons, List.sum_cons, List.sum_cons, ih]
    next none =>
      rw [List.map_cons, List.sum_cons, ih]
      simp_all

theorem ringPart_total {i pos n : Nat} : ((r.ringPart i pos n).map Prod.snd).sum = n := by
  simp only [Run.ringPart, ringSpans]
  rw [sum_filter_pos, List.map_append, List.sum_append, wrapSpans_total, wrapSpans_total]
  omega

theorem readSide_length {side : Side} {pos n : Nat} : (r.readSide side pos n).1.length ≤ n := by
  unfold Run.readSide
  split
  · exact localRead_length
  next i =>
    have parts : ∀ (l : List (Nat × Nat)) (acc : List Bt × Run), (l.foldl (fun acc p =>
        let d := acc.2.localRead (r.circ i).start p.1 p.2
        (acc.1 ++ d.1, d.2)) acc).1.length ≤ acc.1.length + (l.map Prod.snd).sum := by
      intro l
      induction l with
      | nil => exact fun _ => Nat.le_refl _
      | cons p l ih =>
        intro acc
        refine (ih _).trans ?_
        have := localRead_length (r := acc.2) (base := (r.circ i).start) (a := p.1) (n := p.2)
        simp only [List.length_append, List.map_cons, List.sum_cons]
        omega
    have := parts (r.ringPart i pos n) ([], r)
    rwa [ringPart_total, List.length_nil, Nat.zero_add] at this
  · exact devRead_length
  · exact Nat.zero_le _

theorem carry_length {sd : Side × Side} {keep : Bool} {bs : List Bt} : (r.carry sd keep bs).1.length = bs.length := by
  have travelled : ∀ side, (travel side bs).length = bs.length := by
    intro side
    unfold travel
    split
    · split
      · rfl
      · exact List.length_map _
    · exact List.length_map _
  have chosen : (if keep then bs else travel sd.1 bs).length = bs.length := by
    split
    · rfl
    · exact travelled _
  unfold Run.carry
  dsimp only
  split
  · rw [fabric_length, chosen]
  · exact chosen

/-! What is under way. -/

@[simp] theorem bufBytes_nil : bufBytes [] = [] := rfl

theorem bufBytes_one {p : BufPart} : bufBytes [p] = (p.bytes.zip p.marks).map fun x => { val := x.1, mark := x.2, got := true } := List.append_nil _

theorem bufBytes_bufPart_length {pos : Nat} {bs : List Bt} : (bufBytes [bufPart pos bs]).length = bs.length := by
  rw [bufBytes_one, List.length_map, List.length_zip]
  simp [bufPart, vals]

/-! The steps of a transfer that store nothing. -/

theorem tagGate_still {slot addr : Nat} {full : Bool} (h : r.tagGate slot addr full = some w) : r.Still w := by
  unfold Run.tagGate at h
  split at h
  · cases h
    exact failWith_still
  · split at h <;> cases h
    exact block_still

theorem gates_still {sd : Side × Side} {t : TagPlan} {pos k : Nat} : r.Still (r.gates sd t pos k).1 := by
  have gate : ∀ (acc : Run × Bool) (slot addr : Nat) (full : Bool), r.Still acc.1 → r.Still (if !acc.2 then acc
      else match acc.1.tagGate slot addr full with
        | some x => (x, false)
        | none => ({ acc.1 with e := { acc.1.e with granted := acc.1.e.granted ++ [(slot, full)] } }, true)).1 := by
    intro acc slot addr full h
    split
    · exact h
    · split
      next stops => exact h.trans (tagGate_still stops)
      next => exact h.trans (.of_cores rfl rfl rfl rfl)
  unfold Run.gates
  dsimp only
  split
  · refine foldl_inv (P := fun x : Run × Bool => r.Still x.1) (fun acc y h => gate _ _ _ _ h) ?_
    split
    · exact foldl_inv (P := fun x : Run × Bool => r.Still x.1) (fun acc y h => gate _ _ _ _ h) .refl
    · exact .refl
  · split
    · exact foldl_inv (P := fun x : Run × Bool => r.Still x.1) (fun acc y h => gate _ _ _ _ h) .refl
    · exact .refl

theorem readSide_still {side : Side} {pos n : Nat} : r.Still (r.readSide side pos n).2 := by
  unfold Run.readSide
  split
  · exact localRead_still
  · refine foldl_inv (P := fun x : List Bt × Run => r.Still x.2) ?_ .refl
    exact fun _ _ h => h.trans localRead_still
  · exact memRead_still
  · exact .refl

theorem carry_still {sd : Side × Side} {keep : Bool} {bs : List Bt} : r.Still (r.carry sd keep bs).2 := by
  unfold Run.carry
  dsimp only
  split
  · exact fabric_still
  · exact .refl

theorem setTags_cfg {k : Core} {l : List Nat} {b : Bool} : (k.setTags l b).cfg = k.cfg := by
  unfold Core.setTags
  split <;> rfl

theorem modCore_still {c : Nat} {f : Core → Core} (hf : ∀ k, (f k).cfg = k.cfg) : r.Still { r with s := r.s.modCore c f } := by
  refine ⟨⟨rfl, rfl, rfl, fun k => ?_⟩, rfl, rfl⟩
  dsimp only
  rw [core_modCore]
  split
  next same => rw [same, hf]
  next => rfl

theorem setSlots_still {xs : List (Nat × Nat)} {b : Bool} : r.Still (r.setSlots xs b) := foldlRun_still fun r y => modCore_still fun k => by
  split
  · rfl
  · exact setTags_cfg

theorem tagEffects_still {sd : Side × Side} {t : TagPlan} {stop n : Nat} : r.Still (r.tagEffects sd t stop n) := by
  have consumed : r.Still (if t.consume then r.setSlots (r.left sd.1 false stop n) false else r) := by
    split
    · exact setSlots_still
    · exact .refl
  unfold Run.tagEffects
  dsimp only
  split
  · exact consumed.trans setSlots_still
  · exact consumed

theorem coherent_go_still {reads writes : List (Nat × Nat)} (h : r.coherent reads writes = .go w) : r.Still w := by
  unfold Run.coherent at h
  dsimp only at h
  split at h
  · split at h <;> cases h
    · exact .refl
    · exact .of_cores rfl rfl rfl rfl
  · split at h <;> cases h

/-! The place of a transfer. -/

/-- Where a run's accesses go depends on its context only. -/
theorem Run.Bound.phys (h : r.Bound w) {side : Side} {b : Bool} {pos n : Nat} : w.phys side b pos n = r.phys side b pos n := by
  unfold Run.phys Run.ringPart Run.circ
  rw [h.k_cfg, h.core, h.queue, h.ringAt]

/-- A place is none that the bytes of a transfer's side can go to. -/
def Run.Spares (r : Run) (side : Side) (n : Nat) (x : Place) : Prop :=
  ∀ pos, pos < n → (∀ p ∈ sideRange side pos n, Machine.apart x p.1 p.2 = true) ∧ ∀ p ∈ r.phys side true pos (n - pos), apartOwn x p.1 p.2.1 p.2.2 = true

theorem Run.Bound.spares {side : Side} {n : Nat} (h : r.Bound w) (hs : r.Spares side n x) : w.Spares side n x := by
  unfold Run.Spares at hs ⊢
  simpa only [h.phys] using hs

/-- The part of the scratchpad that a write to a ring side or to a local one goes to is one of the side's parts. -/
theorem apartOwn_of_part {base a m n : Nat} {l : List (Nat × Nat)} (hl : (a, n) ∈ l) (hm : m ≤ n)
    (h : ∀ p ∈ (l.map fun p => (r.core, (xlatPart r.k.cfg r.queue base p.1 p.2 true).2, (xlatPart r.k.cfg r.queue base p.1 p.2 true).1)).filter (fun y => y.2.2 != 0),
      apartOwn x p.1 p.2.1 p.2.2 = true) :
    apartOwn x r.core (xlatPart r.k.cfg r.queue base a m true).2 (xlatPart r.k.cfg r.queue base a m true).1 = true := by
  obtain ⟨same, le⟩ := xlatPart_mono (g := r.k.cfg) (q := r.queue) (base := base) (a := a) (b := true) hm
  rw [same]
  refine apartOwn_of_le ?_ le
  by_cases none : (xlatPart r.k.cfg r.queue base a n true).1 = 0
  · rw [none]
    exact apartOwn_zero
  · exact h _ (List.mem_filter.mpr ⟨List.mem_map.mpr ⟨_, hl, rfl⟩, by simpa using none⟩)

theorem wrapSpans_mono {g : Circ} {o m n : Nat} (h : m ≤ n) {p : Nat × Nat} (hp : p ∈ wrapSpans g o m) : ∃ k, (p.1, k) ∈ wrapSpans g o n ∧ p.2 ≤ k := by
  simp only [wrapSpans, List.mem_cons, List.not_mem_nil, or_false] at hp ⊢
  rcases hp with rfl | rfl
  · exact ⟨_, .inl rfl, by dsimp only; omega⟩
  · exact ⟨_, .inr rfl, by dsimp only; omega⟩

/-- The parts of fewer bytes of a ring begin where the parts of more bytes do. -/
theorem ringPart_mono {i pos m n : Nat} (h : m ≤ n) {p : Nat × Nat} (hp : p ∈ r.ringPart i pos m) : ∃ k, (p.1, k) ∈ r.ringPart i pos n ∧ p.2 ≤ k := by
  simp only [Run.ringPart, ringSpans, List.mem_filter, List.mem_append, bne_iff_ne, ne_eq] at hp ⊢
  obtain ⟨here, some⟩ := hp
  rcases here with a | a
  · obtain ⟨k, hk, le⟩ := wrapSpans_mono (n := min n (2 ^ 32 - (r.e.ringAt.getD 0 + BitVec.ofNat 32 pos).toNat)) (by omega) a
    exact ⟨k, ⟨.inl hk, by omega⟩, le⟩
  · obtain ⟨k, hk, le⟩ := wrapSpans_mono (n := n - min n (2 ^ 32 - (r.e.ringAt.getD 0 + BitVec.ofNat 32 pos).toNat)) (by omega) a
    exact ⟨k, ⟨.inr hk, by omega⟩, le⟩

end Sys2Proof.Machine
end

section
/-! PROOFS. A transfer inside the device -/

namespace Sys2Proof.Machine

variable {s t u : State} {r v w : Run} {x : Place}

/-! A transfer inside the device. -/

theorem writeSide_still {side : Side} {pos : Nat} {bs : List Bt} : r.Still (r.writeSide side pos bs).1 := by
  unfold Run.writeSide
  split
  · exact localPut_still
  · exact foldl_inv (P := fun acc : (Run × Bool) × List Bt => r.Still acc.1.1) (fun _ _ h => h.trans localPut_still) .refl
  · exact memPut_still
  · exact .refl

theorem ringPart_zero {i pos : Nat} : r.ringPart i pos 0 = [] := by
  simp [Run.ringPart, ringSpans, wrapSpans]

/-- A write of no byte stores nothing. -/
theorem writeSide_nil {side : Side} {pos : Nat} : sameBytes r.s (r.writeSide side pos []).1.s := by
  unfold Run.writeSide
  split
  · exact ⟨rfl, fun _ => rfl⟩
  · rw [List.length_nil, ringPart_zero]
    exact ⟨rfl, fun _ => rfl⟩
  · unfold Run.memPut
    dsimp only
    rw [faults_s]
    exact sameBytes_devWrite_nil
  · exact ⟨rfl, fun _ => rfl⟩

/-- A write in parts of the scratchpad leaves the places that every part spares. -/
theorem byteAt_localPuts {base : Nat} {l : List (Nat × Nat)} {bs : List Bt}
    (h : ∀ p ∈ l, ∀ m, m ≤ p.2 → apartOwn x r.core (xlatPart r.k.cfg r.queue base p.1 m true).2 (xlatPart r.k.cfg r.queue base p.1 m true).1 = true) :
    byteAt (l.foldl (fun (acc : (Run × Bool) × List Bt) p =>
      let d := acc.1.1.localPut base p.1 (acc.2.take p.2)
      ((d.1, acc.1.2 && d.2), acc.2.drop p.2)) ((r, true), bs)).1.1.s x = byteAt r.s x := by
  have parts : ∀ (l : List (Nat × Nat)) (acc : (Run × Bool) × List Bt), r.Still acc.1.1 →
      (∀ p ∈ l, ∀ m, m ≤ p.2 → apartOwn x r.core (xlatPart r.k.cfg r.queue base p.1 m true).2 (xlatPart r.k.cfg r.queue base p.1 m true).1 = true) →
      byteAt (l.foldl (fun (acc : (Run × Bool) × List Bt) p =>
        let d := acc.1.1.localPut base p.1 (acc.2.take p.2)
        ((d.1, acc.1.2 && d.2), acc.2.drop p.2)) acc).1.1.s x = byteAt acc.1.1.s x := by
    intro l
    induction l with
    | nil => exact fun _ _ _ => rfl
    | cons p l ih =>
      intro acc still h
      have here := h p List.mem_cons_self _ (List.length_take_le p.2 acc.2)
      rw [← still.core, ← still.toBound.k_cfg, ← still.queue] at here
      exact (ih _ (still.trans localPut_still) fun q hq => h q (List.mem_cons_of_mem _ hq)).trans (byteAt_localPut here)
  exact parts l _ .refl h

/-- A write within a transfer's side leaves the places that the side spares. -/
theorem byteAt_writeSide {side : Side} {pos n : Nat} {bs : List Bt} (hs : r.Spares side n x) (hn : pos + bs.length ≤ n) :
    byteAt (r.writeSide side pos bs).1.s x = byteAt r.s x := by
  cases bs with
  | nil => exact writeSide_nil.byteAt
  | cons b bs =>
  rw [List.length_cons] at hn
  obtain ⟨dev, own⟩ := hs pos (by omega)
  unfold Run.writeSide
  split
  next a => exact byteAt_localPut (apartOwn_of_part (List.mem_singleton.mpr rfl) (by rw [List.length_cons]; omega) own)
  next i =>
    refine byteAt_localPuts fun p hp m hm => ?_
    obtain ⟨k, hk, le⟩ := ringPart_mono (n := n - pos) (by rw [List.length_cons]; omega) hp
    exact apartOwn_of_part hk (hm.trans le) own
  next a => exact byteAt_memPut (apart_of_le (dev _ (List.mem_singleton.mpr rfl)) (by dsimp only [List.length_cons]; omega))
  next => rfl

/-- What a run keeps in a transfer inside the device: where its accesses go, the bytes of a place, and, until it ends, that its cursor bounds the bytes under way. -/
structure Run.Moves (x : Place) (r w : Run) : Prop extends r.Bound w where
  byte : byteAt w.s x = byteAt r.s x
  held : w.e.done = false → (bufBytes w.e.buf).length ≤ w.e.cursor

theorem Run.Moves.trans (h : r.Moves x v) (k : v.Moves x w) : r.Moves x w := ⟨h.toBound.trans k.toBound, k.byte.trans h.byte, k.held⟩

/-- A still run that stores nothing moves. -/
theorem Run.Still.moves (h : r.Still w) (hb : sameBytes r.s w.s) (hr : (bufBytes r.e.buf).length ≤ r.e.cursor) : r.Moves x w :=
  ⟨h.toBound, hb.byteAt, fun _ => by rwa [h.buf, h.cursor]⟩

/-- Bytes put up to a place of a side leave the places that the side spares, and no more of them stay under way than there are. -/
theorem putLines_spares {side : Side} {stop lim n : Nat} {bs : List Bt} (hs : r.Spares side n x) (hn : stop ≤ n) (hb : (bufBytes r.e.buf).length + bs.length ≤ stop) :
    r.Bound (r.putLines side stop lim bs).1 ∧ byteAt (r.putLines side stop lim bs).1.s x = byteAt r.s x
      ∧ (bufBytes (r.putLines side stop lim bs).1.e.buf).length ≤ stop := by
  unfold Run.putLines
  dsimp only
  rw [← List.length_append] at hb
  generalize bufBytes r.e.buf ++ bs = all at hb
  generalize hrest : (if lim ≤ stop then 0 else min all.length (r.inLine side stop)) = rest
  have few : rest ≤ all.length := by
    rw [← hrest]
    split
    · exact Nat.zero_le _
    · exact Nat.min_le_left _ _
  have still := writeSide_still (r := r) (side := side) (pos := stop - all.length) (bs := all.take (all.length - rest))
  refine ⟨⟨still.core, still.queue, still.ringAt, still.cfg⟩, byteAt_writeSide hs (by rw [List.length_take]; omega), ?_⟩
  split
  · exact Nat.zero_le _
  · rw [bufBytes_bufPart_length, List.length_drop]
    omega

theorem putLines_cursor {side : Side} {stop lim : Nat} {bs : List Bt} : (r.putLines side stop lim bs).1.e.cursor = r.e.cursor := writeSide_still.cursor

/-- One chunk of a transfer leaves the places that its destination spares. -/
theorem chunk_moves {sd : Side × Side} {t : TagPlan} {n : Nat} (hs : r.Spares sd.2 n x) (hb : (bufBytes r.e.buf).length ≤ r.e.cursor) (hc : r.e.cursor ≤ n) :
    r.Moves x (r.chunk sd false t n) ∧ (r.chunk sd false t n).e.cursor ≤ n := by
  unfold Run.chunk
  dsimp only
  generalize hk : min (n - r.e.cursor) _ = k
  have most : k ≤ n - r.e.cursor := by
    rw [← hk]
    exact Nat.min_le_left _ _
  have gated := gates_still (r := r) (sd := sd) (t := t) (pos := r.e.cursor) (k := k)
  have gatedBytes : sameBytes r.s (r.gates sd t r.e.cursor k).1.s := (gates_kept .refl).sameBytes
  generalize r.gates sd t r.e.cursor k = g at gated gatedBytes
  split
  · exact ⟨gated.moves gatedBytes hb, by rwa [gated.cursor]⟩
  · have read := gated.trans (readSide_still (side := sd.1) (pos := r.e.cursor) (n := k))
    have readBytes := sameBytes_trans gatedBytes (readSide_kept (side := sd.1) (pos := r.e.cursor) (n := k) .refl).sameBytes
    have readLen := readSide_length (r := g.1) (side := sd.1) (pos := r.e.cursor) (n := k)
    generalize g.1.readSide sd.1 r.e.cursor k = d at read readBytes readLen
    have carried := read.trans (carry_still (sd := sd) (keep := false) (bs := d.1.takeWhile fun b => b.got))
    have carriedBytes := sameBytes_trans readBytes (carry_kept (sd := sd) (keep := false) (bs := d.1.takeWhile fun b => b.got) .refl).sameBytes
    have carriedLen := (carry_length (r := d.2) (sd := sd) (keep := false) (bs := d.1.takeWhile fun b => b.got)).trans_le ((List.takeWhile_sublist _).length_le.trans readLen)
    generalize d.2.carry sd false (d.1.takeWhile fun b => b.got) = c at carried carriedBytes carriedLen
    rw [if_neg Bool.false_ne_true]
    obtain ⟨bound, byte, held⟩ := putLines_spares (lim := if decide (c.1.length < k) = true then r.e.cursor + c.1.length else n) (bs := c.1) (stop := r.e.cursor + c.1.length)
      (carried.spares hs) (by omega) (by rw [carried.buf]; omega)
    have moved : r.Bound (c.2.putLines sd.2 (r.e.cursor + c.1.length) (if decide (c.1.length < k) = true then r.e.cursor + c.1.length else n) c.1).1 := carried.toBound.trans bound
    have spared := byte.trans carriedBytes.byteAt
    have cursor := (putLines_cursor (side := sd.2) (stop := r.e.cursor + c.1.length) (lim := if decide (c.1.length < k) = true then r.e.cursor + c.1.length else n) (bs := c.1)).trans carried.cursor
    generalize c.2.putLines sd.2 _ _ c.1 = w at moved spared cursor held
    split
    · exact ⟨⟨moved.trans finish_still.toBound, spared, fun ends => nomatch ends⟩, by change w.1.e.cursor ≤ n; omega⟩
    next long =>
      have all : c.1.length = k := by
        simp only [Bool.or_eq_true, decide_eq_true_eq, not_or] at long
        omega
      have tagged := tagEffects_still (r := w.1) (sd := sd) (t := t) (stop := r.e.cursor + k) (n := n)
      have taggedBytes : sameBytes w.1.s (w.1.tagEffects sd t (r.e.cursor + k) n).s := (tagEffects_kept .refl).sameBytes
      refine ⟨⟨moved.trans ⟨tagged.core, tagged.queue, tagged.ringAt, tagged.cfg⟩, taggedBytes.byteAt.trans spared, fun _ => ?_⟩, ?_⟩
      · change (bufBytes (w.1.tagEffects sd t (r.e.cursor + k) n).e.buf).length ≤ r.e.cursor + k
        rw [tagged.buf]
        omega
      · change r.e.cursor + k ≤ n
        omega

/-- A transfer, chunk by chunk, leaves the places that its destination spares. -/
theorem byteAt_chunks {sd : Side × Side} {t : TagPlan} {n fuel : Nat} (hs : r.Spares sd.2 n x) (hb : (bufBytes r.e.buf).length ≤ r.e.cursor) (hc : r.e.cursor ≤ n) :
    byteAt (Run.chunks sd false t n fuel r).s x = byteAt r.s x := by
  induction fuel generalizing r with
  | zero => rfl
  | succ fuel ih =>
    obtain ⟨moves, within⟩ := chunk_moves (t := t) hs hb hc
    unfold Run.chunks
    split
    · rfl
    · dsimp only
      split
      · exact moves.byte
      next goes =>
        have going : (r.chunk sd false t n).e.done = false := by
          simp only [Bool.or_eq_true, not_or] at goes
          exact Bool.eq_false_iff.mpr goes.1
        exact (ih (moves.spares hs) (moves.held going) within).trans moves.byte

end Sys2Proof.Machine
end

section
/-! PROOFS. A transfer at its start -/

namespace Sys2Proof.Machine

variable {s t u : State} {r v w : Run} {x : Place}

/-! A transfer at its start. -/

theorem coherent_go_bytes {reads writes : List (Nat × Nat)} (h : r.coherent reads writes = .go w) : sameBytes r.s w.s := (coherent_go_kept .refl h).sameBytes

theorem coherent_stop_bytes {reads writes : List (Nat × Nat)} (h : r.coherent reads writes = .stop w) : sameBytes r.s w.s := (coherent_stop_kept .refl h).sameBytes

/-- A transfer inside the device leaves the places that its destination spares. -/
theorem byteAt_inside {sd : Side × Side} {n : Nat} (hs : r.Spares sd.2 n x) (hb : (bufBytes r.e.buf).length ≤ r.e.cursor) (hc : r.e.cursor ≤ n) :
    byteAt (r.inside sd n).s x = byteAt r.s x := by
  unfold Run.inside
  split
  next h => exact (coherent_stop_bytes h).byteAt
  next w h =>
    have still := coherent_go_still h
    have chunked := (byteAt_chunks (t := w.tagPlan) (fuel := 2 * (n / 2048 + 8)) (still.spares hs) (by rwa [still.buf, still.cursor]) (by rwa [still.cursor])).trans
      (coherent_go_bytes h).byteAt
    dsimp only
    split
    · exact chunked
    · exact (countCopy_kept (ω := watchBytes) .refl).sameBytes.byteAt.trans chunked

/-- What is kept under way stores nothing. -/
theorem chunk_keep_bytes {sd : Side × Side} {t : TagPlan} {n : Nat} : sameBytes r.s (r.chunk sd true t n).s := by
  unfold Run.chunk
  dsimp only
  generalize min (n - r.e.cursor) _ = k
  have gated : Kept watchBytes r.s (r.gates sd t r.e.cursor k).1.s := gates_kept .refl
  generalize r.gates sd t r.e.cursor k = g at gated
  have carried : Kept watchBytes r.s ((g.1.readSide sd.1 r.e.cursor k).2.carry sd true ((g.1.readSide sd.1 r.e.cursor k).1.takeWhile fun b => b.got)).2.s :=
    carry_kept (readSide_kept gated)
  generalize (g.1.readSide sd.1 r.e.cursor k).2.carry sd true _ = c at carried
  split
  · exact gated.sameBytes
  · rw [if_pos rfl]
    split
    · exact (finish_kept carried).sameBytes
    · exact (advance_kept (tagEffects_kept (by exact carried))).sameBytes

theorem chunks_keep_bytes {sd : Side × Side} {t : TagPlan} {n fuel : Nat} : sameBytes r.s (Run.chunks sd true t n fuel r).s := by
  induction fuel generalizing r with
  | zero => exact ⟨rfl, fun _ => rfl⟩
  | succ fuel ih =>
    unfold Run.chunks
    split
    · exact ⟨rfl, fun _ => rfl⟩
    · dsimp only
      split
      · exact chunk_keep_bytes
      · exact sameBytes_trans chunk_keep_bytes ih

theorem toRemote_bytes {sd : Side × Side} {n want : Nat} : sameBytes r.s (r.toRemote sd n want).s := by
  have same : sameBytes r.s r.s := ⟨rfl, fun _ => rfl⟩
  have sent : ∀ {w : Run} {b : Bool}, sameBytes r.s w.s → sameBytes r.s (if w.e.done || decide (w.e.cursor < n) then w else w.sendKept sd.2 n want b).s := fun {w b} h => by
    split
    · exact h
    · exact sameBytes_trans h (sendKept_kept .refl).sameBytes
  unfold Run.toRemote
  split
  · split <;> exact same
  · split
    · exact same
    · dsimp only
      split
      · exact sent same
      · exact sent chunks_keep_bytes

theorem issueRead_buf {sd : Side × Side} {t : TagPlan} {n want : Nat} : (r.issueRead sd t n want).e.buf = r.e.buf := by
  unfold Run.issueRead
  dsimp only
  split
  · exact failWith_still.buf
  · rfl
  · generalize min (n - r.e.cursor) _ = k
    have gated := (gates_still (r := r) (sd := sd) (t := { t with src := false }) (pos := r.e.cursor) (k := k)).buf
    generalize r.gates sd { t with src := false } r.e.cursor k = g at gated
    split
    · rw [← gated]
      unfold Run.sendRead
      split <;> rfl
    · split <;> exact gated

theorem issueReads_buf {sd : Side × Side} {t : TagPlan} {n want fuel : Nat} : (Run.issueReads sd t n want fuel r).e.buf = r.e.buf := by
  induction fuel generalizing r with
  | zero => rfl
  | succ fuel ih =>
    unfold Run.issueReads
    split
    · rfl
    · dsimp only
      split
      · exact issueRead_buf
      · exact ih.trans issueRead_buf

theorem sameBytes_ite {p : Prop} [Decidable p] (ht : sameBytes s t) (hu : sameBytes s u) : sameBytes s (if p then t else u) := by
  split
  · exact ht
  · exact hu

/-- What has nothing under way lands nothing. -/
theorem landRest_of_empty {side : Side} (h : r.e.buf = []) : sameBytes r.s (r.landRest side).s := by
  rw [Run.landRest, h]
  exact ⟨rfl, fun _ => rfl⟩

/-- A transfer from another chip that holds no byte stores none. -/
theorem fromRemote_bytes {sd : Side × Side} {n want : Nat} (hb : r.e.buf = []) : sameBytes r.s (r.fromRemote sd n want).s := by
  have asked : Kept watchBytes r.s (Run.issueReads sd r.tagPlan n want (n + 1) r).s := issueReads_kept .refl
  have empty := (issueReads_buf (r := r) (sd := sd) (t := r.tagPlan) (n := n) (want := want) (fuel := n + 1)).trans hb
  unfold Run.fromRemote
  split
  · exact toRemote_bytes
  dsimp only
  generalize Run.issueReads sd r.tagPlan n want (n + 1) r = w at asked empty
  have issued := asked.sameBytes
  split
  · exact issued
  split
  · split <;> exact issued
  split
  · exact issued
  rw [apply_ite Run.s]
  refine sameBytes_ite ?_ ?_
  · split
    · exact sameBytes_trans issued (toRemote_bytes (r := { w with e := { w.e with path := none } }))
    · exact issued
  split
  next h => exact (coherent_stop_kept (by exact asked) h).sameBytes
  next y h =>
    have landed := sameBytes_trans (coherent_go_kept (by exact asked) h).sameBytes (landRest_of_empty (side := sd.2) ((coherent_go_still h).buf.trans empty))
    change sameBytes r.s (if (y.landRest sd.2).e.delivered n then (y.landRest sd.2).countCopy sd.2 n else y.landRest sd.2).s
    rw [apply_ite Run.s]
    exact sameBytes_ite (sameBytes_trans landed (countCopy_kept .refl).sameBytes) landed

/-! COPY, REMOTE_WRITE and REMOTE_READ. -/

/-- What a reservation leaves alone. -/
theorem reserve_bytes {n : Nat} (h : r.reserve n = some w) : sameBytes r.s w.s := (reserve_kept .refl h).sameBytes

theorem reserve_progress {n : Nat} (h : r.reserve n = some w) : w.e.buf = r.e.buf ∧ w.e.cursor = r.e.cursor := by
  unfold Run.reserve at h
  split at h
  · cases h
  · split at h
    · cases h
    · split at h
      · cases h
        have still := fault_still (r := r) (st := 0x300) (detail := (openDetail r.core r.queue r.e 0x300).toNat)
        exact ⟨still.buf, still.cursor⟩
      · split at h <;> cases h <;> exact ⟨rfl, rfl⟩

/-- A transfer as it starts: remote or not, it has nothing under way. -/
def Run.transfer (r : Run) (sd : Side × Side) (n want : Nat) : Run :=
  if sd.1.remote then
    (match r.coherent [] (sideRange sd.2 (min r.e.cursor n) n) with
     | .stop x => x
     | .go r => r.fromRemote sd n want)
  else if sd.2.remote then
    (match r.coherent (sideRange sd.1 (min r.e.cursor n) n) [] with
     | .stop x => x
     | .go r => r.toRemote sd n want)
  else r.inside sd n

/-- DMA at work is its transfer, once its ring's bytes are reserved. -/
theorem attemptDma_eq {want : Nat} : attemptDma want r =
    (let r' : Run := { r with e := { r.e with wait := .none } }
     let n := dmaLen r.e.desc
     let sd := dmaSides r.s r.core r.e.desc
     match r'.reserve n with
     | some w => if w.e.wait = .none then w.transfer sd n want else w
     | none => r'.transfer sd n want) := rfl

/-- A remote transfer that starts stores nothing. -/
theorem transfer_bytes_of_remote {sd : Side × Side} {n want : Nat} (hb : r.e.buf = []) (hr : sd.1.remote = true ∨ sd.2.remote = true) :
    sameBytes r.s (r.transfer sd n want).s := by
  unfold Run.transfer
  split
  · split
    next h => exact coherent_stop_bytes h
    next h => exact sameBytes_trans (coherent_go_bytes h) (fromRemote_bytes ((coherent_go_still h).buf.trans hb))
  next inner =>
    rw [if_pos (hr.resolve_left inner)]
    split
    next h => exact coherent_stop_bytes h
    next h => exact sameBytes_trans (coherent_go_bytes h) toRemote_bytes

/-- A transfer that starts leaves the places that its destination spares. -/
theorem byteAt_transfer {sd : Side × Side} {n want : Nat} (hs : r.Spares sd.2 n x) (hb : r.e.buf = []) (hc : r.e.cursor = 0) :
    byteAt (r.transfer sd n want).s x = byteAt r.s x := by
  by_cases remote : sd.1.remote = true ∨ sd.2.remote = true
  · exact (transfer_bytes_of_remote hb remote).byteAt
  · rw [not_or] at remote
    rw [Run.transfer, if_neg remote.1, if_neg remote.2]
    exact byteAt_inside hs (by rw [hb]; exact Nat.zero_le _) (by rw [hc]; exact Nat.zero_le _)

/-- A COPY that starts leaves the places that its destination spares. -/
theorem byteAt_attemptDma {want : Nat} (hw : r.e.wait = .none) (hb : r.e.buf = []) (hc : r.e.cursor = 0)
    (hs : ((r.reserve (dmaLen r.e.desc)).getD r).Spares (dmaSides r.s r.core r.e.desc).2 (dmaLen r.e.desc) x) :
    byteAt (attemptDma want r).s x = byteAt r.s x := by
  have same : ({ r with e := { r.e with wait := .none } } : Run) = r := by rw [← hw]
  rw [attemptDma_eq]
  dsimp only
  rw [same]
  split
  next w h =>
    rw [h] at hs
    obtain ⟨buf, cursor⟩ := reserve_progress h
    split
    · exact (byteAt_transfer hs (buf.trans hb) (cursor.trans hc)).trans (reserve_bytes h).byteAt
    · exact (reserve_bytes h).byteAt
  next h =>
    rw [h] at hs
    exact byteAt_transfer hs hb hc

end Sys2Proof.Machine
end

section
/-! PROOFS. Remote transfers store nothing at their start -/

namespace Sys2Proof.Machine

variable {s t u : State} {r v w : Run} {x : Place} {c q : Nat} {b : Block} {d : BitVec 512}

/-! A transfer one of whose sides admission refuses. -/

/-- A transfer stores nothing: its destination takes no byte, or its source gives none and none is under way. -/
def Run.Idle (r : Run) (sd : Side × Side) : Prop := sd.2 = .bad ∨ sd.1 = .bad ∧ r.e.buf = []

theorem Run.Still.idle {sd : Side × Side} (h : r.Still w) (hi : r.Idle sd) : w.Idle sd := hi.imp_right fun i => ⟨i.1, h.buf.trans i.2⟩

/-- Putting no byte, or putting bytes to no place, stores nothing, and leaves nothing under way where nothing was. -/
theorem putLines_idle {sd : Side × Side} {stop lim : Nat} {bs : List Bt} (hi : r.Idle sd) (hb : sd.1 = .bad → bs = []) :
    sameBytes r.s (r.putLines sd.2 stop lim bs).1.s ∧ (r.putLines sd.2 stop lim bs).1.Idle sd := by
  rcases hi with bad | ⟨bad, none⟩
  · rw [bad]
    exact ⟨⟨rfl, fun _ => rfl⟩, .inl bad⟩
  · unfold Run.putLines
    dsimp only
    rw [none, hb bad]
    refine ⟨?_, .inr ⟨bad, if_pos ?_⟩⟩
    · rw [bufBytes_nil, List.append_nil, List.take_nil]
      exact writeSide_nil
    · split
      · rfl
      · exact Nat.zero_min _

theorem carry_nil {sd : Side × Side} {keep : Bool} : (r.carry sd keep []).1 = [] := List.eq_nil_of_length_eq_zero carry_length

theorem chunk_idle {sd : Side × Side} {t : TagPlan} {n : Nat} (hi : r.Idle sd) : sameBytes r.s (r.chunk sd false t n).s ∧ (r.chunk sd false t n).Idle sd := by
  unfold Run.chunk
  dsimp only
  generalize min (n - r.e.cursor) _ = k
  have gated := gates_still (r := r) (sd := sd) (t := t) (pos := r.e.cursor) (k := k)
  have gatedBytes : sameBytes r.s (r.gates sd t r.e.cursor k).1.s := (gates_kept .refl).sameBytes
  generalize r.gates sd t r.e.cursor k = g at gated gatedBytes
  split
  · exact ⟨gatedBytes, gated.idle hi⟩
  · have given : sd.1 = .bad → (g.1.readSide sd.1 r.e.cursor k).1 = [] := fun bad => by rw [bad]; rfl
    have read := gated.trans (readSide_still (side := sd.1) (pos := r.e.cursor) (n := k))
    have readBytes := sameBytes_trans gatedBytes (readSide_kept (side := sd.1) (pos := r.e.cursor) (n := k) .refl).sameBytes
    generalize g.1.readSide sd.1 r.e.cursor k = d at read readBytes given
    have carried := read.trans (carry_still (sd := sd) (keep := false) (bs := d.1.takeWhile fun b => b.got))
    have carriedBytes := sameBytes_trans readBytes (carry_kept (sd := sd) (keep := false) (bs := d.1.takeWhile fun b => b.got) .refl).sameBytes
    have carriedNone : sd.1 = .bad → (d.2.carry sd false (d.1.takeWhile fun b => b.got)).1 = [] := fun bad => by rw [given bad]; exact carry_nil
    generalize d.2.carry sd false (d.1.takeWhile fun b => b.got) = c at carried carriedBytes carriedNone
    rw [if_neg Bool.false_ne_true]
    obtain ⟨putBytes, idle⟩ := putLines_idle (stop := r.e.cursor + c.1.length) (lim := if decide (c.1.length < k) = true then r.e.cursor + c.1.length else n)
      (carried.idle hi) carriedNone
    generalize c.2.putLines sd.2 _ _ c.1 = w at putBytes idle
    have stored := sameBytes_trans carriedBytes putBytes
    split
    · exact ⟨stored, idle⟩
    · exact ⟨sameBytes_trans stored (tagEffects_kept .refl).sameBytes, (tagEffects_still (r := w.1) (sd := sd) (t := t) (stop := r.e.cursor + k) (n := n)).idle idle⟩

theorem chunks_idle {sd : Side × Side} {t : TagPlan} {n fuel : Nat} (hi : r.Idle sd) : sameBytes r.s (Run.chunks sd false t n fuel r).s := by
  induction fuel generalizing r with
  | zero => exact ⟨rfl, fun _ => rfl⟩
  | succ fuel ih =>
    obtain ⟨bytes, idle⟩ := chunk_idle (t := t) (n := n) hi
    unfold Run.chunks
    split
    · exact ⟨rfl, fun _ => rfl⟩
    · dsimp only
      split
      · exact bytes
      · exact sameBytes_trans bytes (ih idle)

theorem inside_idle {sd : Side × Side} {n : Nat} (hi : r.Idle sd) : sameBytes r.s (r.inside sd n).s := by
  unfold Run.inside
  split
  next h => exact coherent_stop_bytes h
  next w h =>
    have chunked := sameBytes_trans (coherent_go_bytes h) (chunks_idle (t := w.tagPlan) (n := n) (fuel := 2 * (n / 2048 + 8)) ((coherent_go_still h).idle hi))
    dsimp only
    split
    · exact chunked
    · exact sameBytes_trans chunked (countCopy_kept .refl).sameBytes

/-- A side of a REMOTE transfer lies in another chip, or admission refuses it. -/
theorem dmaSides_remote {core : Nat} (h : cmdOp d = 0x31 ∨ cmdOp d = 0x32) :
    (dmaSides s core d).1.remote = true ∨ (dmaSides s core d).2.remote = true ∨ (dmaSides s core d).1 = .bad ∨ (dmaSides s core d).2 = .bad := by
  unfold dmaSides
  dsimp only
  rcases h with op | op
  · simp only [op, if_true]
    by_cases space : fld (cmdBody d) 65 64 = 0
    · exact .inr (.inl (by rw [if_pos space]; rfl))
    · exact .inr (.inr (.inr (if_neg space)))
  · simp only [op, if_true]
    by_cases space : fld (cmdBody d) 63 62 = 0
    · exact .inl (by rw [if_pos space]; rfl)
    · exact .inr (.inr (.inl (if_neg space)))

theorem transfer_bytes_of_bad {sd : Side × Side} {n want : Nat} (hb : r.e.buf = []) (hr : sd.1.remote = true ∨ sd.2.remote = true ∨ sd.1 = .bad ∨ sd.2 = .bad) :
    sameBytes r.s (r.transfer sd n want).s := by
  by_cases remote : sd.1.remote = true ∨ sd.2.remote = true
  · exact transfer_bytes_of_remote hb remote
  · obtain ⟨near, far⟩ := not_or.mp remote
    rw [Run.transfer, if_neg near, if_neg far]
    exact inside_idle (((hr.resolve_left near).resolve_left far).elim (fun bad => .inr ⟨bad, hb⟩) .inl)

/-- A REMOTE transfer that starts stores nothing. -/
theorem attemptDma_bytes {want : Nat} (hw : r.e.wait = .none) (hb : r.e.buf = []) (h : cmdOp r.e.desc = 0x31 ∨ cmdOp r.e.desc = 0x32) :
    sameBytes r.s (attemptDma want r).s := by
  have same : ({ r with e := { r.e with wait := .none } } : Run) = r := by rw [← hw]
  have sides := dmaSides_remote (s := r.s) (core := r.core) h
  rw [attemptDma_eq]
  dsimp only
  rw [same]
  split
  next w h =>
    split
    · exact sameBytes_trans (reserve_bytes h) (transfer_bytes_of_bad ((reserve_progress h).1.trans hb) sides)
    · exact reserve_bytes h
  next h => exact transfer_bytes_of_bad hb sides

/-! A command at its start. -/

/-- A command that may start is attempted, or nothing happens. -/
theorem startCmd_cases {ops : List Nat} {accept : State → BitVec 512 → Bool} {attempt : Run → Run} (hn : nextCmd (s.queue c q) = some (b, d))
    (h : startCmd ops c q s accept attempt = .next t) : t = s ∨ ops.contains (cmdOp d) = true ∧ t = (attempt (entered c q s b d)).store := by
  unfold startCmd at h
  rw [hn] at h
  dsimp only at h
  split at h
  next ok =>
    cases h
    simp only [Bool.and_eq_true] at ok
    exact .inr ⟨ok.1.1.1, rfl⟩
  next => cases h; exact .inl rfl

theorem entered_bytes : sameBytes s (entered c q s b d).s := sameBytes_beginCmd

/-- What an attempt leaves of a place, the command that starts leaves of it. -/
theorem byteAt_startCmd {ops : List Nat} {accept : State → BitVec 512 → Bool} {attempt : Run → Run} (hn : nextCmd (s.queue c q) = some (b, d))
    (h : startCmd ops c q s accept attempt = .next t) (ha : byteAt (attempt (entered c q s b d)).s x = byteAt (entered c q s b d).s x) : byteAt t x = byteAt s x := by
  rcases startCmd_cases hn h with rfl | ⟨-, rfl⟩
  · rfl
  · rw [sameBytes_store.byteAt, ha, entered_bytes.byteAt]

theorem execCopy_spares {core : CoreId} {queue : QueueId} {port : PortId} (hn : nextCmd (s.queue core.val queue.val) = some (b, d)) (h : exec (.copy core queue port) s = .next t)
    (hs : (((entered core.val queue.val s b d).reserve (dmaLen d)).getD (entered core.val queue.val s b d)).Spares (dmaSides (entered core.val queue.val s b d).s core.val d).2 (dmaLen d) x) :
    byteAt t x = byteAt s x := byteAt_startCmd hn (show execCopy core queue port s = .next t from h) (byteAt_attemptDma rfl rfl rfl hs)

theorem execRemote_bytes {core : CoreId} {queue : QueueId} {port : PortId} {i : Instr} (hi : i ∈ [Instr.remoteWrite core queue port, .remoteRead core queue port])
    (hn : nextCmd (s.queue core.val queue.val) = some (b, d)) (h : exec i s = .next t) : sameBytes s t := by
  have starts : ∀ op, op = 0x31 ∨ op = 0x32 → startCmd [op] core.val queue.val s anyTime (attemptDma port.val) = .next t → sameBytes s t := by
    intro op remote h
    rcases startCmd_cases hn h with rfl | ⟨is, rfl⟩
    · exact ⟨rfl, fun _ => rfl⟩
    · have code : cmdOp d = op := by simpa using is
      exact sameBytes_trans (sameBytes_trans entered_bytes (attemptDma_bytes rfl rfl (code ▸ remote))) sameBytes_store
  simp only [List.mem_cons, List.not_mem_nil, or_false] at hi
  rcases hi with rfl | rfl
  · exact starts _ (.inl rfl) h
  · exact starts _ (.inr rfl) h

end Sys2Proof.Machine
end

section
/-! PROOFS. RESTORE, TARN_INSERT and TARN_DELETE -/

namespace Sys2Proof.Machine

variable {s t u : State} {r v w : Run} {x : Place} {c q : Nat} {b : Block} {d : BitVec 512}

/-! RESTORE, TARN_INSERT and TARN_DELETE at their start. -/

theorem runDevRead_bytes {a n : Nat} : sameBytes r.s (r.devRead a n).2.s := (runDevRead_kept .refl).sameBytes

theorem restoreBlock_still {a : Actl} {coding addr index : Nat} : r.Still (restoreBlock a coding addr index r).2 := by
  unfold restoreBlock
  split
  · exact devRead_still
  · dsimp only
    generalize (if coding = 0 then Option.map _ _ else _ : Option (List Byte × Flags)) = got
    cases got with
    | some y => exact devRead_still.trans (devRead_still.trans flag_still)
    | none => exact devRead_still.trans (devRead_still.trans fault_still)

theorem restoreBlocks_still {a : Actl} {coding base n i : Nat} : r.Still (restoreBlocks a coding base n i r).2 := by
  induction n generalizing r i with
  | zero => exact .refl
  | succ n ih => exact restoreBlock_still.trans ih

/-- A RESTORE leaves the places outside its destination. -/
theorem byteAt_attemptRestore
    (h : let p := xlatPart r.k.cfg r.queue (r.field 183 160) (r.field 183 160) (r.field 63 32) true
      apartOwn x r.core p.2 p.1 = true) :
    byteAt (attemptRestore r).s x = byteAt r.s x := by
  unfold attemptRestore
  dsimp only
  split
  · rfl
  · generalize hd : restoreBlocks _ _ _ _ _ r = y
    have still : r.Still y.2 := hd ▸ restoreBlocks_still
    have bytes : sameBytes r.s y.2.s := hd ▸ (restoreBlocks_kept .refl).sameBytes
    refine (byteAt_localPut ?_).trans bytes.byteAt
    obtain ⟨same, le⟩ := xlatPart_mono (g := r.k.cfg) (q := r.queue) (base := r.field 183 160) (a := r.field 183 160) (b := true) (List.length_take_le (r.field 63 32) y.1)
    rw [still.k_cfg, still.queue, still.core, same]
    exact apartOwn_of_le h le

theorem coherent_go_eq {reads writes : List (Nat × Nat)} (hl : r.e.lines = []) (h : r.coherent reads writes = .go w) : w = r := by
  unfold Run.coherent at h
  dsimp only at h
  rw [hl] at h
  split at h
  · cases h
    rfl
  · split at h <;> cases h

/-- What a TARN command does to its index, it does. -/
theorem byteAt_tarnWrite {onList : Bool} {f : Index → Nat → Run} (hf : ∀ k, r.s.index (r.field 11 8) = some k → byteAt (f k (r.field 39 16)).s x = byteAt r.s x) :
    byteAt (r.tarnWrite onList f).s x = byteAt r.s x := by
  unfold Run.tarnWrite
  dsimp only
  split
  · rfl
  next k hk =>
    split
    · rfl
    · split
      · exact hf k hk
      · split
        · rfl
        · split
          · rfl
          · split
            · rfl
            · exact hf k hk

theorem chunksOf_length_le {α : Type} {n fuel m : Nat} {l : List α} (hl : l.length ≤ m * n) : (chunksOf n fuel l).length ≤ m := by
  induction fuel generalizing l m with
  | zero => exact Nat.zero_le _
  | succ fuel ih =>
    rw [chunksOf]
    split
    · exact Nat.zero_le _
    next some =>
      have : 0 < l.length := List.length_pos_iff.mpr fun none => some (List.isEmpty_iff.mpr none)
      obtain ⟨m, rfl⟩ : ∃ k, m = k + 1 := ⟨m - 1, by cases m <;> omega⟩
      have rest := ih (l := l.drop n) (m := m) (by rw [List.length_drop]; rw [Nat.succ_mul] at hl; omega)
      rw [List.length_cons]
      omega

theorem mem_chunksOf_length_le {α : Type} {n fuel : Nat} {l y : List α} (hy : y ∈ chunksOf n fuel l) : y.length ≤ n := by
  induction fuel generalizing l with
  | zero => cases hy
  | succ fuel ih =>
    rw [chunksOf] at hy
    split at hy
    · cases hy
    · rcases List.mem_cons.mp hy with rfl | rest
      · exact List.length_take_le _ _
      · exact ih rest

theorem chunksOf_fuel_length {α : Type} {n fuel : Nat} {l : List α} : (chunksOf n fuel l).length ≤ fuel := by
  induction fuel generalizing l with
  | zero => exact Nat.le_refl _
  | succ fuel ih =>
    rw [chunksOf]
    split
    · exact Nat.zero_le _
    · rw [List.length_cons]
      exact Nat.succ_le_succ ih

theorem flatMap_length_le {α β : Type} {f : α → List β} {k : Nat} {l : List α} (hf : ∀ y ∈ l, (f y).length ≤ k) : (l.flatMap f).length ≤ l.length * k := by
  rw [List.length_flatMap]
  exact (List.sum_le_card_nsmul _ _ fun m hm => by
    obtain ⟨y, hy, rfl⟩ := List.mem_map.mp hm
    exact hf y hy).trans_eq (by rw [List.length_map, smul_eq_mul])

theorem leBytes_length {n v : Nat} : (leBytes n v).length = n := by
  induction n generalizing v with
  | zero => rfl
  | succ n ih => rw [leBytes, List.length_cons, ih]

@[simp] theorem cleanBytes_length {bs : List Byte} : (cleanBytes bs).length = bs.length := List.length_map _

theorem entryImage_length {width : BitVec 2} {epoch : BitVec 32} {bs : List Bt} (h : bs.length ≤ entryBytes width) : (entryImage width epoch bs).length ≤ entryBytes width := by
  unfold entryImage
  dsimp only
  rw [List.length_append, List.length_map, List.length_zip, List.length_take, List.length_drop]
  omega

theorem byteAt_attemptInsert (hw : r.e.wait = .none) (hc : r.e.cursor = 0) (hl : r.e.lines = [])
    (h : ∀ k, r.s.index (r.field 11 8) = some k →
      let n := r.field 55 40 + 1
      let e := (r.dirRead k (r.field 39 16)).1
      apart x (e.log + e.length * entryBytes k.width) (n * entryBytes k.width) = true ∧ apart x (e.tomb + 4 * e.length) (4 * n) = true
        ∧ apart x (k.dir + 32 * r.field 39 16 + 12) 4 = true) :
    byteAt (attemptInsert r).s x = byteAt r.s x := by
  have same : ({ r with e := { r.e with wait := .none } } : Run) = r := by rw [← hw]
  unfold attemptInsert
  rw [same]
  refine byteAt_tarnWrite fun k hk => ?_
  obtain ⟨log, tomb, dir⟩ := h k hk
  dsimp only
  split
  next y hy => exact (coherent_stop_bytes hy).byteAt
  next y hy =>
    obtain rfl := coherent_go_eq hl hy
    have read : sameBytes y.s (y.dirRead k (y.field 39 16)).2.s := runDevRead_bytes
    split
    · exact read.byteAt
    · have source := sameBytes_trans read (runDevRead_bytes (a := y.field 167 128) (n := (y.field 55 40 + 1) * entryBytes k.width))
      split
      · exact source.byteAt
      · change byteAt (Run.devWrite _ _ _).s x = _
        rw [byteAt_runDevWrite (by rwa [cleanBytes_length, leBytes_length]),
          byteAt_runDevWrite (by rwa [cleanBytes_length, List.length_replicate]), byteAt_runDevWrite (apart_of_le log ?_)]
        · exact source.byteAt
        · exact (flatMap_length_le fun y hy => entryImage_length (mem_chunksOf_length_le hy)).trans (Nat.mul_le_mul_right _ chunksOf_fuel_length)

/-- A stamp leaves the places outside its tombstone. -/
theorem byteAt_stamp {k : Index} {e : DirEntry} {item j : Nat} {acc : Nat × Run} (h : apart x (e.tomb + 4 * j) 4 = true) :
    byteAt (Run.stamp k e item acc j).2.s x = byteAt acc.2.s x := by
  have read := sameBytes_trans (runDevRead_bytes (r := acc.2) (a := e.log + j * entryBytes k.width + sketchBytes k.width) (n := 32))
    (runDevRead_bytes (a := e.tomb + 4 * j) (n := 4))
  unfold Run.stamp
  dsimp only
  split
  · dsimp only
    rw [byteAt_runDevWrite (by rwa [cleanBytes_length, vecBytes, leBytes_length])]
    exact read.byteAt
  · exact read.byteAt

theorem byteAt_attemptDelete (hw : r.e.wait = .none) (hc : r.e.cursor = 0)
    (h : ∀ k, r.s.index (r.field 11 8) = some k →
      let e := (r.dirRead k (r.field 39 16)).1
      ∀ j ∈ r.e.first, j < e.length → apart x (e.tomb + 4 * j) 4 = true) :
    byteAt (attemptDelete r).s x = byteAt r.s x := by
  have same : ({ r with e := { r.e with wait := .none } } : Run) = r := by rw [← hw]
  unfold attemptDelete
  rw [same]
  refine byteAt_tarnWrite fun k hk => ?_
  have spared := h k hk
  have read : sameBytes r.s (r.dirRead k (r.field 39 16)).2.s := runDevRead_bytes
  have stamped : ∀ (js : List Nat) (acc : Nat × Run), (∀ j ∈ js, apart x ((r.dirRead k (r.field 39 16)).1.tomb + 4 * j) 4 = true) →
      byteAt (js.foldl (Run.stamp k (r.dirRead k (r.field 39 16)).1 (r.field 103 64)) acc).2.s x = byteAt acc.2.s x := by
    intro js
    induction js with
    | nil => exact fun _ _ => rfl
    | cons j js ih => exact fun acc hj => (ih _ fun i hi => hj i (List.mem_cons_of_mem _ hi)).trans (byteAt_stamp (hj j List.mem_cons_self))
  have stored := (stamped ((List.range (r.dirRead k (r.field 39 16)).1.length).filter fun j => decide (r.e.cursor = 1) || r.e.first.contains j) (0, (r.dirRead k (r.field 39 16)).2) fun j hj => by
    simp only [hc, List.mem_filter, List.mem_range, Nat.zero_ne_one, decide_false, Bool.false_or, List.contains_iff_mem] at hj
    exact spared j hj.2 hj.1).trans read.byteAt
  dsimp only
  split <;> exact stored

end Sys2Proof.Machine
end

section
/-! PROOFS. BUCKET_ADD, and rows of an array -/

namespace Sys2Proof.Machine

variable {s t u : State} {r v w : Run} {x : Place} {c q : Nat} {b : Block} {d : BitVec 512}

/-! Results that are written block by block. -/

/-- A part of a block's results spares a place. -/
def BufPart.Spares (p : BufPart) (x : Place) : Prop := apart x p.off (bufBytes [p]).length = true

theorem byteAt_putPart {p : BufPart} (h : p.Spares x) : byteAt (r.putPart p).s x = byteAt r.s x := by
  unfold Run.putPart
  exact byteAt_runDevWrite h

theorem byteAt_putParts {ps : List BufPart} (h : ∀ p ∈ ps, p.Spares x) : byteAt (r.putParts ps).s x = byteAt r.s x := by
  unfold Run.putParts
  induction ps generalizing r with
  | nil => rfl
  | cons p ps ih => exact (ih fun q hq => h q (List.mem_cons_of_mem _ hq)).trans (byteAt_putPart (h p List.mem_cons_self))

/-- The blocks that are put leave the places that their parts spare. -/
theorem byteAt_putBlocks {first : Nat → Bool} {bs : List (List BufPart)} (h : ∀ i ps, bs[i]? = some ps → first i = true → ∀ p ∈ ps, p.Spares x) :
    byteAt (r.putBlocks first bs).s x = byteAt r.s x := by
  have put : ∀ (l : List (List BufPart × Nat)) (r : Run), (∀ y ∈ l, ∀ p ∈ y.1, p.Spares x) → byteAt (l.foldl (fun r y => r.putParts y.1) r).s x = byteAt r.s x := by
    intro l
    induction l with
    | nil => exact fun _ _ => rfl
    | cons y l ih => exact fun r hl => (ih _ fun z hz => hl z (List.mem_cons_of_mem _ hz)).trans (byteAt_putParts (hl y List.mem_cons_self))
  unfold Run.putBlocks
  refine put _ r fun y hy => ?_
  obtain ⟨here, now⟩ := List.mem_filter.mp hy
  exact h y.2 y.1 (List.mem_zipIdx_iff_getElem?.mp here) now

theorem noteParts_spares {n : BlockNote} {ps : List BufPart} (h : ∀ p ∈ ps, p.Spares x) : ∀ p ∈ noteParts n ps, p.Spares x := by
  have noted : ∀ {p : BufPart} {m : Option BlockNote}, p.Spares x → BufPart.Spares { p with note := m } x := fun hp => by
    unfold BufPart.Spares at hp ⊢
    rw [bufBytes_one] at hp ⊢
    exact hp
  cases ps with
  | nil => exact fun _ hp => nomatch hp
  | cons q qs =>
    intro p hp
    rcases List.mem_cons.mp hp with rfl | rest
    · exact noted (h q List.mem_cons_self)
    · obtain ⟨y, hy, rfl⟩ := List.mem_map.mp rest
      exact noted (h y (List.mem_cons_of_mem _ hy))

/-! BUCKET_ADD at its start. -/

theorem byteAt_withBucket {f : Bucket → Nat → Group → Run} (hf : ∀ k, r.s.bucket (bucketOf r.e.desc) = some k → ∀ i g, byteAt (f k i g).s x = byteAt r.s x) :
    byteAt (r.withBucket f).s x = byteAt r.s x := by
  unfold Run.withBucket
  split
  · rfl
  next k hk =>
    split
    · rfl
    · split
      · rfl
      · exact hf k hk _ _

theorem wordsOf_length_le {n m : Nat} {bs : List Bt} (h : bs.length ≤ m * n) : (wordsOf n bs).length ≤ m := by
  unfold wordsOf
  rw [List.length_map]
  exact chunksOf_length_le (by rwa [vals, List.length_map])

theorem bytesOfWords_length {n : Nat} {ws : List Nat} : (bytesOfWords n ws).length ≤ ws.length * n := by
  unfold bytesOfWords
  rw [cleanBytes_length]
  exact flatMap_length_le fun _ _ => leBytes_length.le

/-- The part of a line lies in the line. -/
theorem addLine_spares {k : Bucket} {a : Actl} {fresh : Bool} {sf src at' j n : Nat} (h : apart x (at' + j * k.elem) (n * k.elem) = true) :
    ∀ p ∈ (addLine k a fresh sf src at' r j n).1, p.Spares x := by
  unfold addLine
  dsimp only
  refine noteParts_spares fun p hp => ?_
  obtain rfl := List.mem_singleton.mp hp
  unfold BufPart.Spares
  rw [bufBytes_bufPart_length]
  refine apart_of_le h (bytesOfWords_length.trans (Nat.mul_le_mul_right _ ?_))
  rw [List.length_map, List.length_map, List.length_zipIdx]
  exact wordsOf_length_le localRead_length

/-- One line of a BUCKET_ADD joins the blocks. -/
def addStep (k : Bucket) (a : Actl) (fresh : Bool) (sf src at' : Nat) (acc : List (List BufPart) × Run) (l : Nat × Nat) : List (List BufPart) × Run :=
  let d := addLine k a fresh sf src at' acc.2 l.1 l.2
  (acc.1 ++ [d.1], d.2)

/-- The blocks of a BUCKET_ADD are its lines. -/
theorem foldl_addStep {k : Bucket} {a : Actl} {fresh : Bool} {sf src at' : Nat} {ls : List (Nat × Nat)} {acc : List (List BufPart) × Run} :
    sameBytes acc.2.s (ls.foldl (addStep k a fresh sf src at') acc).2.s ∧
    ∃ bs, (ls.foldl (addStep k a fresh sf src at') acc).1 = acc.1 ++ bs ∧
      ∀ (i : Nat) ps, bs[i]? = some ps → ∃ (l : Nat × Nat) (r : Run), ls[i]? = some l ∧ ps = (addLine k a fresh sf src at' r l.1 l.2).1 := by
  induction ls generalizing acc with
  | nil => exact ⟨⟨rfl, fun _ => rfl⟩, [], (List.append_nil _).symm, fun _ _ h => nomatch h⟩
  | cons l ls ih =>
    obtain ⟨bytes, bs, list, lines⟩ := ih (acc := addStep k a fresh sf src at' acc l)
    refine ⟨sameBytes_trans (addLine_kept (a := a) .refl).sameBytes bytes, (addLine k a fresh sf src at' acc.2 l.1 l.2).1 :: bs, list.trans (List.append_cons _ _ _).symm, ?_⟩
    intro i ps hi
    cases i with
    | zero => exact ⟨l, acc.2, rfl, (Option.some.inj hi).symm⟩
    | succ i => exact lines i ps hi

/-- The blocks of a BUCKET_ADD, and the run that has read what they need. -/
def addBlocks (r : Run) (k : Bucket) : List (List BufPart) × Run :=
  (addLines k (k.addr + r.field 63 32 * k.elem) (r.field 95 64 + 1)).foldl
    (addStep k (actlOf (fb (cmdBody r.e.desc) 0 8)) (decide (r.field 20 20 = 1)) (r.field 21 21) (r.field 119 96) (k.addr + r.field 63 32 * k.elem)) ([], r)

theorem byteAt_attemptAdd (hc : r.e.cursor = 0) (hl : r.e.lines = [])
    (h : ∀ k, r.s.bucket (bucketOf r.e.desc) = some k →
      let a := k.addr + r.field 63 32 * k.elem
      ∀ i ∈ r.e.first, ∀ l, (addLines k a (r.field 95 64 + 1))[i]? = some l → apart x (a + l.1 * k.elem) (l.2 * k.elem) = true) :
    byteAt (attemptAdd r).s x = byteAt r.s x := by
  unfold attemptAdd
  refine byteAt_withBucket fun k hk _ _ => ?_
  have spared := h k hk
  dsimp only at spared ⊢
  rw [if_neg (by rw [hc]; decide)]
  split
  next y hy => exact (coherent_stop_bytes hy).byteAt
  next y hy =>
    obtain rfl := coherent_go_eq hl hy
    split
    · exact ((localRead_kept .refl).sameBytes).byteAt
    · obtain ⟨bytes, bs, list, lines⟩ := foldl_addStep (k := k) (a := actlOf (fb (cmdBody y.e.desc) 0 8)) (fresh := decide (y.field 20 20 = 1)) (sf := y.field 21 21)
        (src := y.field 119 96) (at' := k.addr + y.field 63 32 * k.elem) (ls := addLines k (k.addr + y.field 63 32 * k.elem) (y.field 95 64 + 1)) (acc := ([], y))
      have put : byteAt ((addBlocks y k).2.putBlocks y.e.first.contains (addBlocks y k).1).s x = byteAt y.s x := by
        refine (byteAt_putBlocks fun i ps hi now => ?_).trans bytes.byteAt
        rw [addBlocks, list, List.nil_append] at hi
        obtain ⟨l, z, hl, rfl⟩ := lines i ps hi
        exact addLine_spares (spared i (List.contains_iff_mem.mp now) l hl)
      rw [apply_ite Run.s]
      split <;> exact put

/-! UPDATE at its start. -/

theorem encodeBs8_length {a : Actl} {l : List (FV × Flags)} (h : l.length ≤ 32) : (encodeBs8 a l).1.length ≤ 33 := by
  unfold encodeBs8
  dsimp only
  have both : ∀ (p : Prop) [Decidable p] (y z : List Byte × Flags), y.1.length ≤ 33 → z.1.length ≤ 33 → (if p then y else z).1.length ≤ 33 := by
    intro p _ y z hy hz
    split
    · exact hy
    · exact hz
  refine both _ _ _ ?_ ?_
  · exact Nat.le_refl _
  · simp only [List.length_append, List.length_map, List.length_singleton]
    omega

theorem encodeBs8u_length {a : Actl} {l : List (FV × Flags)} (h : l.length ≤ 32) : (encodeBs8u a l).1.length ≤ 33 := by
  unfold encodeBs8u
  dsimp only
  split
  · rw [List.length_replicate]
  · simp only [List.length_append, List.length_map, List.length_singleton]
    omega

/-- A row of up to 32 elements fits its part of an array. -/
theorem encodeRow_length {a : Actl} {fmt base i : Nat} {nx : Bool} {l : List (FV × Flags)} (h : l.length ≤ 32) :
    (encodeRow a fmt nx l).1.length ≤ (arrayPart fmt base i l.length).2 := by
  have one : ∀ f : List (FV × Flags) → List Byte × Flags, (∀ y, y.length ≤ 32 → (f y).1.length ≤ 33) →
      (((chunksOf 32 (l.length / 32 + 1) l).map f).flatMap fun b => b.1).length ≤ 33 := by
    intro f hf
    rw [List.flatMap_map]
    refine (flatMap_length_le (k := 33) fun y hy => hf y (mem_chunksOf_length_le hy)).trans ?_
    have := chunksOf_length_le (n := 32) (fuel := l.length / 32 + 1) (m := 1) h
    omega
  unfold encodeRow arrayPart
  dsimp only
  split
  next is =>
    rw [if_pos (.inl is)]
    exact one _ fun _ => encodeBs8_length
  next not5 =>
    split
    next is =>
      rw [if_pos (.inr is)]
      exact one _ fun _ => encodeBs8u_length
    next not6 =>
      rw [if_neg (not_or.mpr ⟨not5, not6⟩)]
      exact (flatMap_length_le fun y _ => leBytes_length.le).trans_eq (by rw [List.length_map])

theorem momentRow_length {a : Actl} {code base i : Nat} {bs8 : Bool} {l : List FV} (h : l.length ≤ 32) :
    (momentRow a bs8 code l).1.length ≤ (arrayPart (if bs8 then code else 0) base i l.length).2 := by
  unfold momentRow
  split
  · exact (encodeRow_length (by rwa [List.length_map])).trans_eq (by rw [List.length_map])
  · exact (flatMap_length_le (k := 4) fun y _ => leBytes_length.le)

end Sys2Proof.Machine
end

section
/-! PROOFS. UPDATE, and what transfers leave alone -/

namespace Sys2Proof.Machine

variable {s t u : State} {r v w : Run} {x : Place} {c q : Nat} {b : Block} {d : BitVec 512}

/-- The arrays that an UPDATE writes, each with its format code. -/
def updArrays (u : UpdArgs) (o : OptSlot) : List (Nat × Nat) :=
  let k := optCodes o
  [(k.1, u.param), (k.2.2.1, u.m)] ++ (if optUsesV o then [(k.2.2.2, u.v)] else []) ++ (if o.copyFmt != 0 then [(o.copyFmt.toNat, u.copy)] else [])
    ++ (if u.clear then [(k.2.1, u.grad)] else [])

/-- A part on its way lies in its part of an array. -/
def BufPart.Within (p : BufPart) (y : Nat × Nat) : Prop := p.off = y.1 ∧ (bufBytes [p]).length ≤ y.2

theorem BufPart.Within.spares {p : BufPart} {y : Nat × Nat} (h : p.Within y) (ha : apart x y.1 y.2 = true) : p.Spares x := by
  obtain ⟨off, len⟩ := h
  rw [BufPart.Spares, off]
  exact apart_of_le ha len

theorem updPart_within {code base i n : Nat} {mark : Bool} {row : List Byte × Flags} (h : row.1.length ≤ (arrayPart code base i n).2) :
    (updPart code base i n mark row).1.Within (arrayPart code base i n) := by
  refine ⟨rfl, ?_⟩
  rw [bufBytes_one, List.length_map, List.length_zip, updPart, List.length_map, Nat.min_self]
  exact h

/-- What a block of up to 32 elements writes lies in its parts of the command's arrays. -/
theorem updateBlock_within {u : UpdArgs} {o : OptSlot} {a : Actl} {i n : Nat} (hn : n ≤ 32) :
    ∀ p ∈ (updateBlock u o a i n r).1.writes, ∃ y ∈ updArrays u o, p.Within (arrayPart y.1 y.2 i n) := by
  unfold updateBlock
  dsimp only
  generalize hes : List.map _ (List.range n) = es
  have len : es.length = n := by rw [← hes, List.length_map, List.length_range]
  have few : es.length ≤ 32 := len.trans_le hn
  have codes : (optCodes o).2.2.1 = (if o.bs8 then 5 else 0) ∧ (optCodes o).2.2.2 = (if o.bs8 then 6 else 0) := ⟨rfl, rfl⟩
  intro p hp
  simp only [List.map_append, List.mem_append, List.map_cons, List.map_nil, List.mem_cons, List.not_mem_nil, or_false, or_assoc] at hp
  simp only [updArrays, List.mem_append, List.mem_cons, List.not_mem_nil, or_false, or_assoc]
  rcases hp with rfl | rfl | hv | hcopy | hclear
  · refine ⟨_, .inl rfl, updPart_within ?_⟩
    exact (encodeRow_length (by rwa [List.length_map])).trans_eq (by rw [List.length_map, len])
  · refine ⟨_, .inr (.inl rfl), updPart_within ?_⟩
    rw [codes.1]
    exact (momentRow_length (by rwa [List.length_map])).trans_eq (by rw [List.length_map, len])
  · split at hv
    next uses =>
      obtain rfl := List.mem_singleton.mp hv
      refine ⟨_, .inr (.inr (.inl (by rw [if_pos uses]; exact List.mem_singleton.mpr rfl))), updPart_within ?_⟩
      rw [codes.2]
      exact (momentRow_length (by rwa [List.length_map])).trans_eq (by rw [List.length_map, len])
    next => cases hv
  · split at hcopy
    next uses =>
      obtain rfl := List.mem_singleton.mp hcopy
      refine ⟨_, .inr (.inr (.inr (.inl (by rw [if_pos uses]; exact List.mem_singleton.mpr rfl)))), updPart_within ?_⟩
      exact (encodeRow_length (by rwa [List.length_map])).trans_eq (by rw [List.length_map, len])
    next => cases hcopy
  · split at hclear
    next uses =>
      obtain rfl := List.mem_singleton.mp hclear
      refine ⟨_, .inr (.inr (.inr (.inr (by rw [if_pos uses]; exact List.mem_singleton.mpr rfl)))), updPart_within ?_⟩
      have plain : ¬ ((optCodes o).2.1 = 5 ∨ (optCodes o).2.1 = 6) := by
        dsimp only [optCodes]
        split <;> decide
      rw [List.length_replicate, arrayPart, if_neg plain]
    next => cases hclear

/-- What the blocks of an UPDATE write lies in their parts of the command's arrays. -/
theorem updateBlocks_within {u : UpdArgs} {o : OptSlot} {a : Actl} {fuel i j : Nat} {ps : List BufPart} (h : (updateBlocks u o a fuel i r).1[j]? = some ps) :
    i + 32 * j < u.count ∧ ((∀ y ∈ updArrays u o, let p := arrayPart y.1 y.2 (i + 32 * j) (min 32 (u.count - (i + 32 * j))); apart x p.1 p.2 = true) → ∀ p ∈ ps, p.Spares x) := by
  induction fuel generalizing i j r with
  | zero => cases h
  | succ fuel ih =>
    unfold updateBlocks at h
    split at h
    · cases h
    next more =>
    cases j with
    | zero =>
      cases h
      refine ⟨by omega, fun apart => noteParts_spares fun p hp => ?_⟩
      obtain ⟨y, hy, within⟩ := updateBlock_within (Nat.min_le_left _ _) p hp
      exact within.spares (apart y hy)
    | succ j =>
      have step : i + 32 + 32 * j = i + 32 * (j + 1) := by omega
      exact step ▸ ih h

theorem byteAt_attemptUpdate (hw : r.e.wait = .none) (hc : r.e.cursor = 0) (hl : r.e.lines = [])
    (h : ∀ i ∈ r.e.first, 32 * i < (updArgs r.e.desc).count → ∀ y ∈ updArrays (updArgs r.e.desc) (r.s.optSlot (updArgs r.e.desc).slot),
      let p := arrayPart y.1 y.2 (32 * i) (min 32 ((updArgs r.e.desc).count - 32 * i))
      apart x p.1 p.2 = true) :
    byteAt (attemptUpdate r).s x = byteAt r.s x := by
  have same : ({ r with e := { r.e with wait := .none } } : Run) = r := by rw [← hw]
  unfold attemptUpdate
  dsimp only
  rw [if_neg (by rw [hc]; decide)]
  split
  · rfl
  · split
    next y hy => exact (coherent_stop_kept (ω := watchBytes) (by exact .refl) hy).sameBytes.byteAt
    next y hy =>
      obtain rfl := (coherent_go_eq (r := { r with e := { r.e with wait := .none } }) hl hy).trans same
      have put : ∀ {bs : List (List BufPart) × Run}, updateBlocks (updArgs y.e.desc) (y.s.optSlot (updArgs y.e.desc).slot) (actlOf (updArgs y.e.desc).actl)
          ((updArgs y.e.desc).count / 32 + 1) 0 y = bs → byteAt (bs.2.putBlocks y.e.first.contains bs.1).s x = byteAt y.s x := by
        rintro _ rfl
        refine (byteAt_putBlocks fun i ps hi now => ?_).trans (updateBlocks_kept .refl).sameBytes.byteAt
        obtain ⟨below, within⟩ := updateBlocks_within (x := x) hi
        rw [Nat.zero_add] at below within
        exact within (h i (List.contains_iff_mem.mp now) below)
      rw [apply_ite Run.s]
      split <;> exact put rfl

/-! The commands. -/

/-- Settles O53: each command through the writes of its attempt, which its fields place. -/
theorem transfersStoreOnlyIntoTheirTargets : Obligations.TransfersStoreOnlyIntoTheirTargets := by
  unfold Obligations.TransfersStoreOnlyIntoTheirTargets
  intro core queue first s t b d x
  dsimp only
  intro hn
  refine ⟨fun port h hs => execCopy_spares hn h hs, fun port i hi h => execRemote_bytes hi hn h, fun h hs => ?_, fun h hs => ?_, fun h hs => ?_, fun h hs => ?_, fun h hs => ?_⟩
  · exact byteAt_startCmd hn (show execRestore core queue s = .next t from h) (byteAt_attemptRestore hs)
  · refine byteAt_startCmd hn (show execUpdate core queue first s = .next t from h) ?_
    exact byteAt_attemptUpdate (r := takeUpdate ((entered core.val queue.val s b d).doing first)) rfl rfl rfl hs
  · refine byteAt_startCmd hn (show execTarnInsert core queue s = .next t from h) (byteAt_attemptInsert rfl rfl rfl fun k hk => ?_)
    have spared := hs k hk
    simp only [Bool.and_eq_true, and_assoc] at spared
    exact spared
  · exact byteAt_startCmd hn (show execTarnDelete core queue first s = .next t from h) (byteAt_attemptDelete rfl rfl hs)
  · exact byteAt_startCmd hn (show execBucketAdd core queue first s = .next t from h) (byteAt_attemptAdd rfl rfl hs)

end Sys2Proof.Machine
end

section
/-! PROOFS. Frames that write, and frames that read -/

namespace Sys2Proof.Machine

variable {s t u : State} {x : Place} {v : Via} {f : Frame} {w : Target}

/-! Frames that write, and frames that read. -/

theorem Answers.sameBytes {r : Res} (h : Answers watchBytes s r) (ht : r = .next t) : sameBytes s t := by
  obtain ⟨u, rfl, kept⟩ := h
  cases ht
  exact kept.sameBytes

theorem inboundBytes_length {poison : Bool} {bs : List Byte} : (inboundBytes s poison bs).1.length = bs.length := by
  unfold inboundBytes
  split
  next none => rw [List.isEmpty_iff.mp none]; rfl
  next => exact markBytes_length

theorem frameTarget_core {n : Nat} (h : frameTarget s f n = some w) : w.core = f.core.toNat := by
  unfold frameTarget at h
  dsimp only at h
  split at h
  · cases h
  · split at h
    · obtain ⟨y, hy, rfl⟩ := Option.map_eq_some_iff.mp h
      unfold boardWindow at hy
      obtain ⟨z, -, rfl⟩ := Option.map_eq_some_iff.mp hy
      rfl
    · obtain ⟨y, -, rfl⟩ := Option.map_eq_some_iff.mp h
      rfl

/-- What a WRITE that lands stores: its payload at its target. -/
theorem landWrite_bytes : (landWrite s v f w).hbm.mem = s.hbm.mem
    ∧ ∀ c a, (c = w.core → outside a w.addr f.payload.length = true) → tget 0 ((landWrite s v f w).core c).spad a = tget 0 (s.core c).spad a := by
  unfold landWrite
  dsimp only
  have inbound : sameBytes s (inboundBytes s f.poison f.payload).2.2 := (inboundBytes_kept .refl).sameBytes
  have len := inboundBytes_length (s := s) (poison := f.poison) (bs := f.payload)
  generalize inboundBytes s f.poison f.payload = d at inbound len
  split
  · have kept : sameBytes s (respond s v f 6 0x302 0 []) := (respond_kept .refl).sameBytes
    exact ⟨kept.1, fun c a _ => congrArg (fun m => tget 0 m a) (kept.2 c)⟩
  · have mem : (spadWrite d.2.2 w.core w.addr d.1).1.hbm.mem = s.hbm.mem := inbound.1
    have stored : ∀ c a, (c = w.core → outside a w.addr f.payload.length = true) → tget 0 ((spadWrite d.2.2 w.core w.addr d.1).1.core c).spad a = tget 0 (s.core c).spad a :=
      fun c a h => (tget_spadWrite_outside fun same => by rw [len]; exact outside_iff.mp (h same)).trans (congrArg (fun m => tget 0 m a) (inbound.2 c))
    generalize spadWrite d.2.2 w.core w.addr d.1 = y at mem stored
    have rest : ∀ {z : State}, Kept watchBytes y.1 z → z.hbm.mem = s.hbm.mem
        ∧ ∀ c a, (c = w.core → outside a w.addr f.payload.length = true) → tget 0 (z.core c).spad a = tget 0 (s.core c).spad a := fun hk =>
      ⟨hk.sameBytes.1.trans mem, fun c a h => (congrArg (fun m => tget 0 m a) (hk.sameBytes.2 c)).trans (stored c a h)⟩
    have noted : Kept watchBytes y.1 (if isCollective y.1 f w then noteLanding y.1 f w else y.1) := .ite (noteLanding_kept .refl) .refl
    generalize (if isCollective y.1 f w then noteLanding y.1 f w else y.1) = z at noted
    have counted : Kept watchBytes y.1 (if w.win.ctrEn then z.arrive w.core w.win.counter.toNat f.payload.length f.last else z) := .ite (arrive_kept noted) noted
    exact rest (respond_kept (.ite (publish_kept counted) counted))

theorem execWrite_bytes (h : execWrite v f s = .next t) : t.hbm.mem = s.hbm.mem
    ∧ ∀ c a, (c ≠ f.core.toNat ∨ ∀ w, frameTarget (acceptFrame s v 2 f).1 f f.payload.length = some w → outside a w.addr f.payload.length = true) →
      tget 0 (t.core c).spad a = tget 0 (s.core c).spad a := by
  have accepted : Kept watchBytes s (acceptFrame s v 2 f).1 := acceptFrame_kept .refl
  have quiet : ∀ {z : State}, Kept watchBytes s z → z.hbm.mem = s.hbm.mem
      ∧ ∀ c a, (c ≠ f.core.toNat ∨ ∀ w, frameTarget (acceptFrame s v 2 f).1 f f.payload.length = some w → outside a w.addr f.payload.length = true) →
        tget 0 (z.core c).spad a = tget 0 (s.core c).spad a := fun hk => ⟨hk.sameBytes.1, fun c a _ => congrArg (fun m => tget 0 m a) (hk.sameBytes.2 c)⟩
  unfold execWrite at h
  dsimp only at h
  split at h
  · cases h
    exact quiet accepted
  · split at h
    · cases h
      exact quiet (respond_kept accepted)
    · split at h
      next w _ there =>
        cases h
        obtain ⟨mem, stored⟩ := landWrite_bytes (s := (acceptFrame s v 2 f).1) (v := v) (f := f) (w := w)
        refine ⟨mem.trans accepted.sameBytes.1, fun c a ha => (stored c a fun same => ?_).trans (congrArg (fun m => tget 0 m a) (accepted.sameBytes.2 c))⟩
        exact (ha.resolve_left fun other => other (same.trans (frameTarget_core there))) w there
      next =>
        cases h
        exact quiet (respond_kept (logRefusal_kept accepted))

/-! Frames that fill a slot. -/

theorem byteAt_writePieces {base : Nat} {poison : Bool} {ps : List InPiece} (h : ∀ p ∈ ps, apart x (base + p.off) p.bytes.length = true) :
    byteAt (writePieces s base poison ps).1 x = byteAt s x := by
  have put : ∀ (hit : Bool) (l : List InPiece) (acc : State × List Nat), (∀ p ∈ l, apart x (base + p.off) p.bytes.length = true) →
      byteAt (l.foldl (fun acc p => let w := devWrite acc.1 (base + p.off) (markBytes (poison || hit) p.bytes); (w.1, acc.2 ++ w.2.map fun x => x.1)) acc).1 x = byteAt acc.1 x := by
    intro hit l
    induction l with
    | nil => exact fun _ _ => rfl
    | cons p l ih =>
      exact fun acc hl => (ih _ fun q hq => hl q (List.mem_cons_of_mem _ hq)).trans (byteAt_devWrite (by rw [markBytes_length]; exact hl p List.mem_cons_self))
  unfold writePieces
  dsimp only
  refine (put _ ps _ h).trans ?_
  split
  · rfl
  · exact ((struck_kept .refl).sameBytes).byteAt

/-- What filling a slot stores, before the commands that it lets go on: the pieces at their places. -/
theorem landSlot_bytes : ∃ g, (landSlot s v f = g ∨ landSlot s v f = resumeWaiting g fun w => w == .program) ∧
    ∀ y : Place, (∀ z, slotCheck s f.queue.toNat f.slot.toNat f = some z → ∀ p ∈ z.pieces, apart y (slotAddr z.k f.slot.toNat + p.off) p.bytes.length = true) → byteAt g y = byteAt s y := by
  have quiet : ∀ {g : State}, Kept watchBytes s g → ∀ y : Place, (∀ z, slotCheck s f.queue.toNat f.slot.toNat f = some z →
      ∀ p ∈ z.pieces, apart y (slotAddr z.k f.slot.toNat + p.off) p.bytes.length = true) → byteAt g y = byteAt s y := fun hk _ _ => hk.sameBytes.byteAt
  unfold landSlot
  dsimp only
  split
  next => exact ⟨_, .inl rfl, quiet (respond_kept (logRefusal_kept .refl))⟩
  next z hz =>
    split
    · exact ⟨_, .inl rfl, quiet (.ite (respond_kept .refl) (settlePfc_kept (sendSnoops_kept (Kept.frame .refl rfl))))⟩
    · split
      · exact ⟨_, .inl rfl, quiet (respond_kept .refl)⟩
      · have stored : ∀ y : Place, (∀ z, slotCheck s f.queue.toNat f.slot.toNat f = some z → ∀ p ∈ z.pieces, apart y (slotAddr z.k f.slot.toNat + p.off) p.bytes.length = true) →
            byteAt (writePieces s (slotAddr z.k f.slot.toNat) f.poison z.pieces).1 y = byteAt s y := fun y hy => byteAt_writePieces (hy z hz)
        generalize writePieces s (slotAddr z.k f.slot.toNat) f.poison z.pieces = w at stored
        generalize hg : respond (advanceSlot w.1 f.queue.toNat f.slot.toNat z f _) v f 6 _ 0 [] = g
        have kept : Kept watchBytes w.1 g := hg ▸ respond_kept (advanceSlot_kept .refl)
        refine ⟨g, ?_, fun y hy => kept.sameBytes.byteAt.trans (stored y hy)⟩
        split
        · exact .inr rfl
        · exact .inl rfl

theorem execSlotWrite_bytes (h : execSlotWrite v f s = .next t) : ∃ g, (t = g ∨ t = resumeWaiting g fun w => w == .program) ∧
    ∀ y : Place, (∀ z, slotCheck (acceptFrame s v 4 f).1 f.queue.toNat f.slot.toNat f = some z →
      ∀ p ∈ z.pieces, apart y (slotAddr z.k f.slot.toNat + p.off) p.bytes.length = true) → byteAt g y = byteAt s y := by
  have accepted : Kept watchBytes s (acceptFrame s v 4 f).1 := acceptFrame_kept .refl
  unfold execSlotWrite at h
  dsimp only at h
  split at h
  · cases h
    exact ⟨_, .inl rfl, fun _ _ => accepted.sameBytes.byteAt⟩
  · split at h <;> cases h
    · exact ⟨_, .inl rfl, fun _ _ => (respond_kept accepted).sameBytes.byteAt⟩
    · obtain ⟨g, ends, stored⟩ := landSlot_bytes (s := (acceptFrame s v 4 f).1) (v := v) (f := f)
      exact ⟨g, ends, fun y hy => (stored y hy).trans accepted.sameBytes.byteAt⟩

/-- Settles O54: a WRITE through its landing, a READ through what it keeps, a SLOT_WRITE through its pieces. -/
theorem linkWritesStayInTheirWindow : Obligations.LinkWritesStayInTheirWindow :=
  fun _ _ _ _ => ⟨fun h => execWrite_bytes h, fun h => (execRead_answers .refl).sameBytes h, fun h => execSlotWrite_bytes h⟩

end Sys2Proof.Machine
end

section
/-! PROOFS. Steps, the reset state and the empty queue -/

namespace Sys2Proof.Machine

variable {s : State}

/-- Settles O1: `step` matches on the queue. -/
theorem stepRunsFrontCommand : Obligations.StepRunsFrontCommand := fun _ _ _ => rfl

/-- With no request of the host held, serving the host does nothing. -/
theorem serveHost_of_nil (h : s.host.waiting = []) : serveHost s = s := by
  simp [serveHost, h]

/-- What passing a nanosecond leaves: the clock's tick and the power hold. -/
theorem endHold_advanceGtc : endHold (advanceGtc s)
    = { s with
        clock := if s.boot.pwrgood && !s.power.thermtrip then s.clock.tick else s.clock
        power := { s.power with holdLeft := s.power.holdLeft - 1 } } := by
  unfold endHold advanceGtc
  split
  case isTrue h => rw [if_pos (by exact h)]
  case isFalse h => rw [if_neg (by exact h)]

/-- On an empty queue the block idles. -/
theorem step_of_nil (h : s.pending = []) : step s = .next (idle s) := by
  simp [step, h]

/-- Evaluating a doorbell leaves the host side alone. -/
theorem foldl_evalDoorbell_host (l : List Nat) : (l.foldl evalDoorbell s).host = s.host :=
  foldl_keeps (g := fun s : State => s.host) (fun _ _ => by simp) _ _

/-- Settles O2, by what INIT's end does in the stage that the firmware is in. -/
theorem emptyQueueOnlyPassesTime : Obligations.EmptyQueueOnlyPassesTime := by
  refine ⟨fun t ht => by simp [TimeState.tick, ht], fun s hp hw => ?_⟩
  simp only [step_of_nil hp, idle, endHold_advanceGtc]
  refine ⟨fun h => ?_, fun h hn => ?_, fun h hn => ?_⟩
  · rw [endInit, if_neg (by exact h), serveHost_of_nil (by exact hw)]
  · rw [endInit, if_pos (by exact h), if_pos (by exact hn), serveHost_of_nil (by simpa using hw)]
  · rw [endInit, if_pos (by exact h), if_neg (by simp [hn]), becomeReady, evalDoorbells,
      serveHost_of_nil (by rw [foldl_evalDoorbell_host]; simpa using hw)]

/-- Settles O3, by evaluating the bounds on the reset state. -/
theorem resetStateIsSafe : Obligations.ResetStateIsSafe := by
  unfold Obligations.ResetStateIsSafe Safe
  decide

/-- Settles O4: every table of the reset state is empty, so each reads its default. -/
theorem resetLeavesTheStatedValues : Obligations.ResetLeavesTheStatedValues := by
  unfold Obligations.ResetLeavesTheStatedValues
  refine ⟨rfl, rfl, rfl, rfl, rfl, rfl, fun c q => ⟨rfl, rfl, rfl, rfl⟩, fun c i => rfl, fun c a => ⟨rfl, rfl⟩, fun c i => rfl, fun c i => rfl, fun c i => rfl,
    fun c i => rfl, fun q => rfl, rfl, fun n => ⟨rfl, rfl⟩, fun c => rfl, fun c => ⟨rfl, rfl⟩, rfl, rfl, rfl, rfl, rfl, ?_⟩
  decide

end Sys2Proof.Machine
end

section
/-! PROOFS. Session messages -/

namespace Sys2Proof.Machine

variable {m : Msg} {s u : State} {o : OpSpec} {act : State → Ctx → Answer}

/-- An accepted message whose handler finishes completes with the handler's reply. -/
theorem serve_done {r : Reply} (ha : accepts o m s = true) (h : act (begun m s) (view m s) = .done u r) :
    serve o m s act = replied m o.code u r := by
  rw [serve_accepted ha, h]; rfl

/-- An accepted message that its handler holds stays in progress. -/
theorem serve_held {k : Held} (ha : accepts o m s = true) (h : act (begun m s) (view m s) = .hold u k) :
    serve o m s act = kept m u k := by
  rw [serve_accepted ha, h]; rfl

/-- The channel that a handler sees is the message's. -/
theorem view_chan_of_src {n : ChanId} (h : m.src = .chan n) : (view m s).chan = n.val := by
  unfold view ctxOf
  rw [h]
  dsimp only
  split <;> rfl

/-- A field of the low bits of a word is the field's value. -/
theorem fld_ofNat {w v hi lo : Nat} (h : hi < w) : fld (BitVec.ofNat w v) hi lo = v / 2 ^ lo % 2 ^ (hi + 1 - lo) := by
  unfold fld
  rw [BitVec.toNat_ofNat, Nat.shiftRight_eq_div_pow]
  rcases Nat.lt_or_ge hi lo with hl | hl
  · rw [show hi + 1 - lo = 0 by omega, pow_zero, Nat.mod_one, Nat.mod_one]
  · obtain ⟨k, rfl⟩ : ∃ k, w = lo + (hi + 1 - lo) + k := ⟨w - (hi + 1), by omega⟩
    rw [Nat.add_assoc lo, Nat.pow_add 2 lo, Nat.mod_mul_right_div_self, Nat.pow_add, Nat.mod_mul_right_mod]

/-- The state in which a session with this handle and these terms has been opened on a channel. -/
def sessionOpened (u : State) (x : Ctx) (n : Nat) (h : BitVec 32) (rev : BitVec 16) : State :=
  ({ u with mbx := { u.mbx with
      sessions := u.mbx.sessions ++ [{ handle := h, privilege := BitVec.ofNat 8 (x.f 39 32), rev := rev, clientId := fb x.p 64 64, leaseMs := fb x.p 128 32 }]
      issued := u.mbx.issued ++ [h] } } : State).modChan n fun c => { c with session := h }

/-- OPEN_SESSION on a free channel, with a known revision, opens a session with a fresh handle. -/
theorem openSession_granted {x : Ctx} {want : BitVec 32} {rev : BitVec 16} (hs : (u.chan x.chan).session = 0) (hp : x.f 39 32 ≤ 2)
    (hg : grantRev (x.f 15 0) (x.f 31 16) = some rev) (ha : ¬(x.f 39 32 = 2 ∧ u.mbx.sessions.any (fun y => y.privilege == 2) = true))
    (hf : freshHandle u want ≠ 0) :
    openSession u x want = (sessionOpened u x x.chan (freshHandle u want) rev, freshHandle u want,
      .val 0 (openReply (sessionOpened u x x.chan (freshHandle u want) rev) rev (freshHandle u want))) := by
  unfold openSession
  simp only [hs, bne_self_eq_false, Bool.false_eq_true, if_false, Nat.not_lt.mpr hp, hg, if_neg ha, if_neg hf]
  rfl

/-- OPEN_SESSION that may begin and is not refused opens the session. -/
theorem execOpenSession_opens {want : BitVec 32} (hd : canDequeue s m.src = true) (hr : refusal (begun m s) opOpen false m = none) :
    execOpenSession m want s = .next (finishMsg (openSession (begun m s) (view m s) want).1 m 0x0101 (openSession (begun m s) (view m s) want).2.1
      (openSession (begun m s) (view m s) want).2.2) := by
  simp only [execOpenSession, hd, if_true]
  rw [show refusal (dequeue s m.src) opOpen false m = none from hr]
  rfl

/-- An opcode that no message has is answered with the status of its path. -/
theorem execUnknownOpcode_answered {op : BitVec 16} (ho : opcodes.contains op.toNat = false) (hd : canDequeue s m.src = true) :
    execUnknownOpcode m op s = replied m op.toNat (begun m s) (.st (match m.src with | .chan _ => 0x200 | .mctp _ _ => 0x203)) := by
  simp only [execUnknownOpcode, ho, hd, Bool.false_eq_true, if_false, if_true]
  rfl

/-- The payload of GET_DEVICE_INFO. -/
def deviceInfo (u : State) : Nat :=
  u.fwVersion.toNat + 0xB1 * 2 ^ 32 + 24 * 2 ^ 40 + 384 * 2 ^ 48 + u.sec.bank.serial.toNat * 2 ^ 64 + u.boot.fwInstance.toNat * 2 ^ 128 + u.fabric.coord.toNat * 2 ^ 160

/-- The fields of the payload of GET_DEVICE_INFO. -/
theorem deviceInfo_fields : fld (BitVec.ofNat 384 (deviceInfo u)) 31 0 = u.fwVersion.toNat ∧ fld (BitVec.ofNat 384 (deviceInfo u)) 47 40 = 24
    ∧ fld (BitVec.ofNat 384 (deviceInfo u)) 63 48 = 384 ∧ fld (BitVec.ofNat 384 (deviceInfo u)) 127 64 = u.sec.bank.serial.toNat
    ∧ fld (BitVec.ofNat 384 (deviceInfo u)) 159 128 = u.boot.fwInstance.toNat ∧ fld (BitVec.ofNat 384 (deviceInfo u)) 207 160 = u.fabric.coord.toNat := by
  have version := u.fwVersion.isLt
  have serial := u.sec.bank.serial.isLt
  have count := u.boot.fwInstance.isLt
  have coord := u.fabric.coord.isLt
  simp only [fld_ofNat (by decide : (31 : Nat) < 384), fld_ofNat (by decide : (47 : Nat) < 384), fld_ofNat (by decide : (63 : Nat) < 384),
    fld_ofNat (by decide : (127 : Nat) < 384), fld_ofNat (by decide : (159 : Nat) < 384), fld_ofNat (by decide : (207 : Nat) < 384), deviceInfo]
  norm_num only at *
  refine ⟨?_, ?_, ?_, ?_, ?_, ?_⟩ <;> omega

/-- Settles O5, handler by handler. -/
theorem sessionMessagesTakeEffect : Obligations.SessionMessagesTakeEffect := by
  intro m s u x
  refine ⟨fun n want rev hn hd hr hs hp hg ha hf => ?_, fun ha => ⟨fun hb => ?_, fun hb => ?_⟩, fun ha hc hst hse => ?_, fun ha hc hse => ?_,
    fun ha => ⟨deviceInfo u, ?_, deviceInfo_fields⟩, fun ha => ?_, fun ha => ?_,
    fun n op hn ho hd => ?_, fun path t op hn ho hd => ?_⟩
  · have hx : x.chan = n.val := view_chan_of_src hn
    show execOpenSession m want s = _
    rw [execOpenSession_opens hd hr, openSession_granted (by rw [hx]; exact hs) hp hg ha hf, hx]
    rfl
  · show execCloseSession m s = _
    exact serve_done ha (if_neg (not_not.mpr hb))
  · show execCloseSession m s = _
    exact serve_held ha (if_pos hb)
  · show execAttachChannel m s = _
    refine serve_done ha ?_
    show (if x.f 5 0 = x.chan then _ else _) = _
    rw [if_neg hc, hst, hse]
    rfl
  · show execDetachChannel m s = _
    refine serve_done ha ?_
    show (if x.f 5 0 = x.chan then _ else _) = _
    rw [if_neg hc, hse, bne_self_eq_false, if_neg Bool.false_ne_true]
    rfl
  · show execGetDeviceInfo m s = _
    exact serve_done ha rfl
  · show execGetCapabilities m s = _
    exact serve_done ha rfl
  · show execEcho m s = _
    exact serve_done ha rfl
  · show execUnknownOpcode m op s = _
    rw [execUnknownOpcode_answered ho hd, hn]
  · show execUnknownOpcode m op s = _
    rw [execUnknownOpcode_answered ho hd, hn]

end Sys2Proof.Machine
end

section
/-! PROOFS. Resets -/

namespace Sys2Proof.Machine

variable {m : Msg} {s u : State}

/-- A lookup sees the message's payload. -/
theorem view_f {hi lo : Nat} : (view m s).f hi lo = fld (effPayload m) hi lo := by
  unfold Ctx.f
  rw [view_p]

@[simp] theorem tearPart_clock {p : BufPart} : (tearPart s p).clock = s.clock := by unfold tearPart; dsimp only; split <;> simp
@[simp] theorem tearPart_sec {p : BufPart} : (tearPart s p).sec = s.sec := by unfold tearPart; dsimp only; split <;> simp
@[simp] theorem tearPart_host {p : BufPart} : (tearPart s p).host = s.host := by unfold tearPart; dsimp only; split <;> simp
@[simp] theorem tearPart_power {p : BufPart} : (tearPart s p).power = s.power := by unfold tearPart; dsimp only; split <;> simp
@[simp] theorem tearPart_fabric {p : BufPart} : (tearPart s p).fabric = s.fabric := by unfold tearPart; dsimp only; split <;> simp

@[simp] theorem tearUpdates_clock : (tearUpdates s).clock = s.clock := foldl_keeps (g := State.clock) (fun _ _ => tearPart_clock) _ _
@[simp] theorem tearUpdates_sec : (tearUpdates s).sec = s.sec := foldl_keeps (g := State.sec) (fun _ _ => tearPart_sec) _ _
@[simp] theorem tearUpdates_host : (tearUpdates s).host = s.host := foldl_keeps (g := State.host) (fun _ _ => tearPart_host) _ _
@[simp] theorem tearUpdates_power : (tearUpdates s).power = s.power := foldl_keeps (g := State.power) (fun _ _ => tearPart_power) _ _
@[simp] theorem tearUpdates_fabric : (tearUpdates s).fabric = s.fabric := foldl_keeps (g := State.fabric) (fun _ _ => tearPart_fabric) _ _

/-- Where every started UPDATE is done, no write is torn. -/
theorem tearUpdates_of_done (h : ∀ e ∈ s.allStarted, cmdOp e.2.2.desc = 0x70 → e.2.2.done = true) : tearUpdates s = s := by
  have none_left : (s.allStarted.filter fun e => cmdOp e.2.2.desc == 0x70 && !e.2.2.done) = [] := by
    rw [List.filter_eq_nil_iff]
    intro e he
    by_cases hop : cmdOp e.2.2.desc = 0x70
    · simp [hop, h e he hop]
    · simp [hop]
  rw [tearUpdates, none_left]
  rfl

/-- What dropping the network's operations keeps: everything but the network, the ports and the connections. -/
theorem dropOps_keeps {α : Type} (g : State → α) (op : ∀ (s : State) (t : Nat), g (s.endOp t) = g s)
    (port : ∀ (s : State) p f, (∀ q : Port, (f q) = { q with queued := (f q).queued }) → g (s.modPort p f) = g s)
    (eth : ∀ (s : State) e, g { s with eth := e } = g s) : g (dropOps s) = g s := by
  unfold dropOps
  dsimp only
  rw [eth, foldl_keeps (g := g) _ _ _, foldl_keeps (g := g) _ _ _]
  · exact fun _ _ => op _ _
  · intro t p
    split
    · rfl
    · exact port _ _ _ fun _ => rfl

/-- Dropping operations keeps the endpoints, as it only empties queues of ports. -/
theorem dropOps_endpoints : (dropOps s).fabric.endpoints = s.fabric.endpoints :=
  dropOps_keeps (fun s => s.fabric.endpoints) (fun _ _ => rfl) (fun _ _ _ _ => rfl) (fun _ _ => rfl)

theorem dropOps_clock : (dropOps s).clock = s.clock := dropOps_keeps State.clock (fun _ _ => rfl) (fun _ _ _ _ => rfl) (fun _ _ => rfl)
theorem dropOps_sec : (dropOps s).sec = s.sec := dropOps_keeps State.sec (fun _ _ => rfl) (fun _ _ _ _ => rfl) (fun _ _ => rfl)
theorem dropOps_host : (dropOps s).host = s.host := dropOps_keeps State.host (fun _ _ => rfl) (fun _ _ _ _ => rfl) (fun _ _ => rfl)
theorem dropOps_power : (dropOps s).power = s.power := dropOps_keeps State.power (fun _ _ => rfl) (fun _ _ _ _ => rfl) (fun _ _ => rfl)
theorem dropOps_hbm : (dropOps s).hbm = s.hbm := dropOps_keeps State.hbm (fun _ _ => rfl) (fun _ _ _ _ => rfl) (fun _ _ => rfl)
theorem dropOps_err : (dropOps s).err = s.err := dropOps_keeps State.err (fun _ _ => rfl) (fun _ _ _ _ => rfl) (fun _ _ => rfl)

/-- A stage reset is the reset of the stage logic, seen through any part of the state that HELLO keeps. -/
theorem stageReset_through {α : Type} (g : State → α) (hello : ∀ s : State, g s.helloAll = g s) :
    g (stageReset s) = g (resetStageLogic (dropOps (tearUpdates s))) := by
  unfold stageReset
  dsimp only
  split
  · exact hello _
  · rfl

/-- What the reset of the stage logic keeps, a stage reset keeps of the state with its writes torn and its operations dropped. -/
theorem stageReset_keeps {α : Type} (g : State → α) (hello : ∀ s : State, g s.helloAll = g s) (logic : ∀ s : State, g (resetStageLogic s) = g s) :
    g (stageReset s) = g (dropOps (tearUpdates s)) := (stageReset_through g hello).trans (logic _)

/-- What a stage reset leaves and keeps. -/
theorem stageReset_reaches : let t := stageReset s
    t.cores = [] ∧ t.stage = Stage.init ∧ t.regions = [] ∧ t.opt = [] ∧ t.tarn = [] ∧ t.groups = [] ∧ t.buckets = [] ∧ t.boot.quarantined = false
      ∧ t.clock = s.clock ∧ t.sec = s.sec ∧ t.host = s.host ∧ t.power = s.power ∧ t.fabric.endpoints = s.fabric.endpoints
      ∧ ((∀ e ∈ s.allStarted, cmdOp e.2.2.desc = 0x70 → e.2.2.done = true) → t.hbm = s.hbm ∧ t.err = s.err) := by
  refine ⟨stageReset_through State.cores fun _ => helloAll_cores, stageReset_through State.stage fun _ => helloAll_stage,
    stageReset_through State.regions fun _ => helloAll_regions, stageReset_through State.opt fun _ => helloAll_opt,
    stageReset_through State.tarn fun _ => helloAll_tarn, stageReset_through State.groups fun _ => helloAll_groups,
    stageReset_through State.buckets fun _ => helloAll_buckets, stageReset_through (fun s => s.boot.quarantined) fun _ => congrArg Boot.quarantined helloAll_boot,
    (stageReset_keeps State.clock (fun _ => helloAll_clock) fun _ => rfl).trans (dropOps_clock.trans tearUpdates_clock),
    (stageReset_keeps State.sec (fun _ => helloAll_sec) fun _ => rfl).trans (dropOps_sec.trans tearUpdates_sec),
    (stageReset_keeps State.host (fun _ => helloAll_host) fun _ => rfl).trans (dropOps_host.trans tearUpdates_host),
    (stageReset_keeps State.power (fun _ => helloAll_power) fun _ => rfl).trans (dropOps_power.trans tearUpdates_power),
    (stageReset_keeps (fun s => s.fabric.endpoints) (fun _ => congrArg Fabric.endpoints helloAll_fabric) fun _ => rfl).trans (dropOps_endpoints.trans (congrArg Fabric.endpoints tearUpdates_fabric)), fun h => ⟨?_, ?_⟩⟩
  · rw [stageReset_keeps State.hbm (fun _ => helloAll_hbm) fun _ => rfl, tearUpdates_of_done h]
    exact dropOps_hbm
  · rw [stageReset_keeps State.err (fun _ => helloAll_err) fun _ => rfl, tearUpdates_of_done h]
    exact dropOps_err

/-- Releasing the alert touches the error state's alert bit and what is sent, and nothing else. -/
theorem releaseAlert_eq : s.releaseAlert = { s with err := { s.err with alert := false }, out := s.releaseAlert.out } := by
  unfold State.releaseAlert
  split
  · rfl
  · next h =>
    have : s.err.alert = false := by simpa using h
    rw [← this]

/-- What a full reset leaves. -/
theorem fullReset_reaches (powerOn : Bool) : let t := fullReset s powerOn
    t.cores = [] ∧ t.stage = Stage.init ∧ t.regions = [] ∧ t.mbx = Mailbox.init ∧ t.fabric = Fabric.init ∧ t.host = HostIf.init ∧ t.irq = Irq.init
      ∧ t.boot.fwStage = 0 ∧ t.boot.quarantined = false ∧ t.sec.bank = s.sec.bank ∧ t.sec.rollback = s.sec.rollback ∧ t.sec.debugOpened = false
      ∧ (powerOn = false → t.sec.failures = s.sec.failures ∧ t.boot.bootAddr = s.boot.bootAddr ∧ t.err.lgFirst = s.err.lgFirst ∧ t.err.lgLatest = s.err.lgLatest)
      ∧ (powerOn = true → t.sec.failures = 0 ∧ t.boot.bootAddr = 0 ∧ t.err.lgFirst = none ∧ t.err.lgLatest = none) := by
  unfold fullReset
  rw [releaseAlert_eq]
  refine ⟨rfl, rfl, rfl, rfl, rfl, rfl, rfl, rfl, rfl, rfl, rfl, rfl, fun h => ?_, fun h => ?_⟩
  · subst h; exact ⟨rfl, rfl, rfl, rfl⟩
  · subst h; exact ⟨rfl, rfl, rfl, rfl⟩

/-- Settles O6: each reset is one of the resets of the model, and `stageReset_reaches` and `fullReset_reaches` say what they leave. -/
theorem resetsReachTheirDomains : Obligations.ResetsReachTheirDomains := by
  refine ⟨fun m s => ⟨fun ha hf hx hh hb => ?_, fun ha hf hb => ?_, fun ha hf hh => ?_, fun hr hc => ?_, fun hp => ?_, fun hp => ?_, fullReset_reaches⟩,
    fun s => stageReset_reaches⟩
  · show execResetRequestStage m s = _
    rw [execResetRequestStage, if_neg (by omega)]
    refine serve_done ha ?_
    rw [if_neg (by rw [view_f]; omega), hb, if_neg Bool.false_ne_true, actStageReset, hx, hh]
    rfl
  · show execResetRequestStage m s = _
    rw [execResetRequestStage, if_neg (by omega)]
    refine serve_held ha ?_
    rw [if_neg (by rw [view_f]; omega), hb, if_pos rfl]
  · show execResetRequestDevice m s = _
    rw [execResetRequestDevice, if_pos hf]
    refine serve_done ha ?_
    rw [hh, if_neg Bool.false_ne_true]
  · show execDeviceReset s = _
    rw [execDeviceReset, hr, hc]; rfl
  · show execPowerOn s = _
    rw [execPowerOn, hp]; rfl
  · show execPwrgoodFall s = _
    rw [execPwrgoodFall, hp]; rfl

end Sys2Proof.Machine
end

section
/-! PROOFS. Scratchpad messages -/

namespace Sys2Proof.Machine

variable {m : Msg} {s u : State}

/-- A core's change depends on what the core holds only. -/
theorem modCore_congr {c : Nat} {f g : Core → Core} (h : f (s.core c) = g (s.core c)) : s.modCore c f = s.modCore c g := by
  unfold State.modCore tmod
  rw [show f (tget Core.init s.cores c) = g (tget Core.init s.cores c) from h]

/-- A cleared range of a table reads the default. -/
theorem tget_tclear_inside {α : Type} {d : α} {t : Tbl α} {lo hi i : Nat} (hl : lo ≤ i) (hh : i < hi) : tget d (tclear t lo hi) i = d := by
  induction t with
  | nil => rfl
  | cons e t ih =>
    obtain ⟨k, v⟩ := e
    unfold tclear at ih ⊢
    rw [List.filter_cons]
    split
    · next hk =>
      have : i ≠ k := by
        rintro rfl
        simp at hk
        omega
      rw [tget, if_neg this, ih]
    · exact ih

/-- Clearing the listed segments' tags clears the tags of those segments and no other. -/
theorem tget_clearSegments {b : BitVec 4} {n : Nat} (l : List Nat) : ∀ t : Tbl Bool,
    tget false (l.foldl (fun t g => if bit b g then tclear t (2048 * g) (2048 * (g + 1)) else t) t) n
      = if n / 2048 ∈ l ∧ bit b (n / 2048) = true then false else tget false t n := by
  induction l with
  | nil => intro t; simp
  | cons g l ih =>
    intro t
    rw [List.foldl_cons, ih]
    by_cases hg : n / 2048 = g
    · subst hg
      by_cases hb : bit b (n / 2048) = true
      · simp [hb, tget_tclear_inside (d := false) (t := t) (show 2048 * (n / 2048) ≤ n by omega) (show n < 2048 * (n / 2048 + 1) by omega)]
      · simp [hb]
    · by_cases hb : bit b g = true
      · rw [if_pos hb, tget_tclear (by omega)]
        simp [hg]
      · rw [if_neg hb]
        simp [hg]

/-- Turning segments on starts their zeroing, and clears the tags of those that were off. -/
theorem segmentOn_tags {c : Nat} {mask : BitVec 4} :
    ∃ tags, (∀ n, tget false tags n = if bit ((s.core c).segOff &&& mask) (n / 2048) then false else tget false (s.core c).tags n)
      ∧ segmentOn s c mask = s.modCore c fun k => { k with segOff := k.segOff &&& ~~~mask, segZeroing := k.segZeroing ||| (k.segOff &&& mask), tags := tags } := by
  refine ⟨(List.range 4).foldl (fun t g => if bit ((s.core c).segOff &&& mask) g then tclear t (2048 * g) (2048 * (g + 1)) else t) (s.core c).tags,
    fun n => ?_, modCore_congr rfl⟩
  rw [tget_clearSegments]
  by_cases hb : bit ((s.core c).segOff &&& mask) (n / 2048) = true
  · have : n / 2048 < 4 := Nat.lt_of_not_ge fun h => by rw [bit, BitVec.getLsbD_of_ge _ _ h] at hb; exact Bool.false_ne_true hb
    simp [hb, this]
  · simp [hb]

/-- SET_REGION with good fields takes effect where nothing of its queue has started and no earlier message waits; else it is held. -/
theorem execSetRegion_good (ha : accepts (plainOp 0x0201 1 [(383, 120), (95, 88), (63, 57), (31, 18), (15, 14), (11, 10), (7, 5)]) m s = true)
    (hr : regionRefusal (begun m s) (view m s) = none) :
    (((begun m s).queue ((view m s).f 4 0) ((view m s).f 9 8)).started = [] → (begun m s).behind (heldOf 0x0201 m 0) = false →
      execSetRegion m s = replied m 0x0201 (applyRegion (begun m s) (view m s)) .ok)
    ∧ (((begun m s).queue ((view m s).f 4 0) ((view m s).f 9 8)).started ≠ [] ∨ (begun m s).behind (heldOf 0x0201 m 0) = true →
      execSetRegion m s = kept m ((begun m s).modQueue ((view m s).f 4 0) ((view m s).f 9 8) fun k => { k with hold := true }) (heldOf 0x0201 m 0)) := by
  refine ⟨fun hs hb => serve_done ha ?_, fun hw => serve_held ha ?_⟩
  · simp only [hr, hs, hb, List.isEmpty_nil, Bool.not_false, Bool.and_self, if_true]
  · simp only [hr]
    rw [if_neg]
    rcases hw with hw | hw
    · simp [hw]
    · simp [hw]

/-- SET_SEGMENT_POWER of a core, first for its object, does what `setSegments` says. -/
theorem execSetSegmentPower_first (ha : accepts (plainOp 0x0207 1 [(383, 17), (15, 12), (7, 5)]) m s = true) (hc : (view m s).f 4 0 < 24)
    (hb : (begun m s).behind (heldOf 0x0207 m 0) = false) {a : Answer}
    (h : setSegments (begun m s) m ((view m s).f 4 0) (fb (view m s).p 8 4) (bit (view m s).p 16) = a) :
    execSetSegmentPower m s = .next (settleMsg m 0x0207 m.session a) := by
  rw [execSetSegmentPower, serve_accepted ha]
  simp only [coreOk, hc, hb, decide_true, Bool.not_true, Bool.false_eq_true, if_false, h]
  rfl

/-- Settles O7, handler by handler. -/
theorem scratchpadMessagesTakeEffect : Obligations.ScratchpadMessagesTakeEffect := by
  intro m s
  dsimp only
  refine ⟨execSetRegion_good, fun ha hc hu => ⟨fun h0 => ?_, fun hz hs he he' hle hd hin => ?_⟩, fun ha hc hb hs hz hle hcl hfree => ?_, fun ha hc hn => ?_,
    fun ha hc hn => exec_setCounter_taken ha hc hn, fun ha hc hcap => exec_setConflictPolicy_taken ha hc hcap, fun ha hc => ⟨fun hb => ?_, fun hb => ⟨fun hoff hheld => ?_, fun hon h0 h1 => ?_, fun hon h01 => ?_⟩⟩,
    fun core g hz => ?_⟩
  · show execSetCircular m s = _
    refine serve_done ha ?_
    simp only [coreOk, hc, hu, h0, decide_true, bne_self_eq_false, Bool.not_true, Bool.false_and, Bool.false_eq_true, if_false, if_true]
  · show execSetCircular m s = _
    refine serve_done ha ?_
    simp only [coreOk, hc, hu, hs, he', hd, hin, if_neg hz, beq_false_of_ne he, decide_eq_false (Nat.not_lt.mpr hle), decide_true, bne_self_eq_false, Bool.or_self,
      Bool.not_true, Bool.and_false, Bool.false_eq_true, if_false]
  · show execOpenWindow m s = _
    refine serve_done ha ?_
    refine if_neg ?_
    simp only [coreOk, hc, hb, hs, hfree, beq_false_of_ne hz, decide_eq_false (Nat.not_lt.mpr hle), decide_true, bne_self_eq_false, Bool.not_true, Bool.or_self, Bool.false_or,
      Bool.or_false, Option.isSome_none]
    exact fun clash => Bool.false_ne_true (hcl.symm.trans clash)
  · show execCloseWindow m s = _
    refine serve_done ha ?_
    simp only [coreOk, hc, hn, decide_true, Bool.not_true, Bool.false_eq_true, if_false]
  · show execSetSegmentPower m s = _
    refine serve_held ha ?_
    simp only [coreOk, hc, hb, decide_true, Bool.not_true, Bool.false_eq_true, if_false, if_true]
  · show execSetSegmentPower m s = _
    rw [execSetSegmentPower_first ha hc hb rfl, setSegments, hoff, if_neg Bool.false_ne_true, hheld, if_neg Bool.false_ne_true]
    split <;> rfl
  · show execSetSegmentPower m s = _
    rw [execSetSegmentPower_first ha hc hb rfl, setSegments, hon, if_pos rfl, if_pos ⟨h1, h0⟩]
    rfl
  · obtain ⟨tags, htags, heq⟩ := segmentOn_tags (s := begun m s) (c := (view m s).f 4 0) (mask := fb (view m s).p 8 4)
    refine ⟨tags, htags, ?_⟩
    show execSetSegmentPower m s = _
    rw [execSetSegmentPower_first ha hc hb rfl, setSegments, hon, if_pos rfl, if_neg (fun h => h01 h.symm), heq]
    rfl
  · show execSegmentZeroed core g s = _
    rw [execSegmentZeroed, if_pos hz]

end Sys2Proof.Machine
end

section
/-! PROOFS. External-memory messages -/

namespace Sys2Proof.Machine

variable {m : Msg} {s u : State}

/-- A number of `n` digits of `w` bits is below the power after its last digit. -/
theorem digits_lt {w : Nat} {d : Nat → Nat} (h : ∀ q, d q < 2 ^ w) (n : Nat) : ((List.range n).map fun q => d q * 2 ^ (w * q)).sum < 2 ^ (w * n) := by
  induction n with
  | zero => simp
  | succ n ih =>
    rw [List.range_succ, List.map_append, List.sum_append, List.map_singleton, List.sum_singleton, Nat.mul_succ, Nat.pow_add]
    calc _ < 2 ^ (w * n) + d n * 2 ^ (w * n) := by omega
      _ = (d n + 1) * 2 ^ (w * n) := by ring
      _ ≤ 2 ^ w * 2 ^ (w * n) := Nat.mul_le_mul_right _ (h n)
      _ = _ := Nat.mul_comm _ _

/-- A digit of a number of `n` digits of `w` bits, whatever stands above them. -/
theorem digit_of_digits {w : Nat} {d : Nat → Nat} (h : ∀ q, d q < 2 ^ w) {n k : Nat} (hk : k < n) (r : Nat) :
    (((List.range n).map fun q => d q * 2 ^ (w * q)).sum + r * 2 ^ (w * n)) / 2 ^ (w * k) % 2 ^ w = d k := by
  induction n generalizing r with
  | zero => omega
  | succ n ih =>
    have shift : 2 ^ (w * (n + 1)) = 2 ^ w * 2 ^ (w * n) := by rw [Nat.mul_succ, Nat.pow_add, Nat.mul_comm]
    have tail : ((List.range (n + 1)).map fun q => d q * 2 ^ (w * q)).sum + r * 2 ^ (w * (n + 1))
        = ((List.range n).map fun q => d q * 2 ^ (w * q)).sum + (d n + r * 2 ^ w) * 2 ^ (w * n) := by
      rw [List.range_succ, List.map_append, List.sum_append, List.map_singleton, List.sum_singleton, shift]
      ring
    rw [tail]
    rcases Nat.lt_or_ge k n with hlt | hge
    · exact ih hlt _
    · obtain rfl : k = n := by omega
      rw [Nat.add_mul_div_right _ _ (Nat.two_pow_pos _), Nat.div_eq_of_lt (digits_lt h k), Nat.zero_add, Nat.add_mul_mod_self_right, Nat.mod_eq_of_lt (h k)]

/-- A bit of a number as a word's bit. -/
theorem bit_ofNat {w v i : Nat} (h : i < w) : bit (BitVec.ofNat w v) i = decide (v / 2 ^ i % 2 = 1) := by
  rw [bit, BitVec.getLsbD_ofNat, decide_eq_true h, Bool.true_and, Nat.testBit_eq_decide_div_mod_eq]

/-- The corrected-error counts of the stacks, as GET_HBM_STATE packs them. -/
def correctedSum (u : State) : Nat := ((List.range 8).map fun q => (tget 0 u.hbm.corrected q).toNat * 2 ^ (32 * q)).sum

/-- The payload of GET_HBM_STATE. -/
def hbmState (u : State) : Nat := correctedSum u + u.hbm.scrubPasses.toNat * 2 ^ 256 + u.hbm.uncorrected.toNat * 2 ^ 288 + stackOk u.hbm * 2 ^ 320

/-- The bit of a stack without a failed channel. -/
def stackBit (h : Hbm) (q : Nat) : Nat := if fld h.failed (16 * q + 15) (16 * q) = 0 then 1 else 0

theorem stackBit_lt (h : Hbm) (q : Nat) : stackBit h q < 2 ^ 1 := by unfold stackBit; split <;> decide

theorem stackOk_eq (h : Hbm) : stackOk h = ((List.range 8).map fun q => stackBit h q * 2 ^ (1 * q)).sum := by
  unfold stackOk
  congr 1
  refine List.map_congr_left fun q _ => ?_
  unfold stackBit
  split <;> simp

/-- The fields of the payload of GET_HBM_STATE. -/
theorem hbmState_fields : fld (BitVec.ofNat 384 (hbmState u)) 287 256 = u.hbm.scrubPasses.toNat ∧ fld (BitVec.ofNat 384 (hbmState u)) 319 288 = u.hbm.uncorrected.toNat
    ∧ (∀ q, q < 8 → fld (BitVec.ofNat 384 (hbmState u)) (32 * q + 31) (32 * q) = (tget 0 u.hbm.corrected q).toNat)
    ∧ (∀ q, q < 8 → (bit (BitVec.ofNat 384 (hbmState u)) (320 + q) = true ↔ fld u.hbm.failed (16 * q + 15) (16 * q) = 0)) := by
  have passes := u.hbm.scrubPasses.isLt
  have lost := u.hbm.uncorrected.isLt
  have low : correctedSum u < 2 ^ 256 := digits_lt (fun q => (tget 0 u.hbm.corrected q).isLt) 8
  refine ⟨?_, ?_, fun q hq => ?_, fun q hq => ?_⟩
  · rw [fld_ofNat (by decide), hbmState]
    simp only [Nat.reduceSub, Nat.reduceAdd] at *
    omega
  · rw [fld_ofNat (by decide), hbmState]
    simp only [Nat.reduceSub, Nat.reduceAdd] at *
    omega
  · rw [fld_ofNat (by omega), show 32 * q + 31 + 1 - 32 * q = 32 by omega]
    have := digit_of_digits (fun q => (tget 0 u.hbm.corrected q).isLt) hq (u.hbm.scrubPasses.toNat + u.hbm.uncorrected.toNat * 2 ^ 32 + stackOk u.hbm * 2 ^ 64)
    rw [← this, hbmState, correctedSum]
    congr 2
    simp only [Nat.add_mul, Nat.mul_assoc, ← Nat.pow_add, Nat.add_assoc, Nat.reduceAdd, Nat.reduceMul]
  · rw [bit_ofNat (by omega)]
    have top : hbmState u / 2 ^ (320 + q) = stackOk u.hbm / 2 ^ q := by
      rw [Nat.pow_add, ← Nat.div_div_eq_div_mul]
      congr 1
      rw [hbmState]
      norm_num only at *
      omega
    have digit := digit_of_digits (stackBit_lt u.hbm) hq 0
    rw [Nat.zero_mul, Nat.add_zero, ← stackOk_eq, Nat.one_mul, Nat.pow_one] at digit
    rw [top, digit, stackBit, decide_eq_true_iff]
    split <;> simp [*]

/-- Settles O8, handler by handler. -/
theorem memoryMessagesTakeEffect : Obligations.MemoryMessagesTakeEffect := by
  intro m s
  dsimp only
  refine ⟨fun ha hs hb ho => ⟨fun h0 => ?_, fun hz hin hr hw => ?_⟩, fun ha hc h3 hv hcap => ?_, fun ha => ⟨hbmState (begun m s), ?_, hbmState_fields⟩,
    fun ha hs hle hb hcom => ⟨fun h0 hb0 => ?_, fun hz hin hh => ?_⟩⟩
  · show execReserveStore m s = _
    refine serve_done ha ?_
    simp only [hb, ho, h0, bne_self_eq_false, Bool.false_and, Bool.or_self, Bool.false_eq_true, if_false, if_true]
  · show execReserveStore m s = _
    refine serve_done ha ?_
    simp only [hs, hb, ho, hin, hr, hw, if_neg hz, bne_self_eq_false, Bool.not_true, Bool.or_self, Bool.and_false, Bool.false_eq_true, if_false]
  · show execSetSaveMode m s = _
    refine serve_done ha ?_
    have narrow : ((view m s).f 17 16 == 1 && !(view m s).has capNarrow) = false := by
      rw [Bool.and_eq_false_imp]
      exact fun h => by rw [hcap (by simpa using h)]; rfl
    simp only [coreOk, hc, beq_false_of_ne h3, beq_false_of_ne hv, narrow, decide_true, Bool.not_true, Bool.or_self, Bool.false_eq_true, if_false]
  · show execGetHbmState m s = _
    exact serve_done ha rfl
  · show execSetHostWindow m s = _
    refine serve_done ha ?_
    simp only [hb0, h0, hcom, decide_eq_false (Nat.not_lt.mpr (Nat.zero_le _)), Nat.zero_mod, bne_self_eq_false, Bool.or_self, Bool.false_eq_true, if_false, if_true]
  · show execSetHostWindow m s = _
    refine serve_done ha ?_
    simp only [hs, hb, hin, hh, hcom, if_neg hz, decide_eq_false (Nat.not_lt.mpr hle), bne_self_eq_false, Bool.not_true, Bool.or_self, Bool.false_eq_true, if_false]

end Sys2Proof.Machine
end

section
/-! PROOFS. Stage and ring messages -/

namespace Sys2Proof.Machine

variable {m : Msg} {s u : State}

/-- Settles O9, handler by handler. -/
theorem stageMessagesTakeEffect : Obligations.StageMessagesTakeEffect := by
  intro m s
  dsimp only
  refine ⟨fun ha hq => ?_, fun ha => ⟨fun hclear hz => ?_, fun hset h0 hle hself => ?_⟩, fun ha hfree => ⟨fun hclear => ?_, fun hset h0 hle hs hd hc hr => ?_⟩,
    fun k ha hq hi hst => ?_, fun ha => ?_, fun k ha hq => ?_⟩
  · show execSetStageIdentity m s = _
    refine serve_done ha ?_
    rw [hq, if_neg Bool.false_ne_true]
  · show execSetStageAddress m s = _
    refine serve_done ha ?_
    simp only [hclear, hz, if_true]
  · show execSetStageAddress m s = _
    refine serve_done ha ?_
    simp only [hset, hself, decide_eq_false (Nat.not_lt.mpr hle), decide_eq_false h0, Bool.or_self, Bool.false_eq_true, if_false]
  · show execConfigureQueue m s = _
    refine serve_done ha ?_
    simp only [hclear, hfree, Bool.not_true, Bool.false_and, Bool.false_eq_true, if_false, if_true]
  · show execConfigureQueue m s = _
    refine serve_done ha ?_
    have core : ((queueOf (view m s)).inSpad && !coreOk (queueOf (view m s)).core) = false := by
      rw [Bool.and_eq_false_imp]
      exact fun h => by rw [coreOk, decide_eq_true (hc h)]; rfl
    simp only [hset, hfree, hs, hr, core, beq_false_of_ne h0, decide_eq_false (Nat.not_lt.mpr hle), decide_eq_false (Nat.not_lt.mpr hd), bne_self_eq_false, Bool.or_self,
      Bool.not_true, Bool.and_false, Bool.false_eq_true, if_false]
  · show execConfigureSlot m s = _
    refine serve_done ha ?_
    simp only [hq, hst, if_neg (Nat.not_le.mpr hi), bne_self_eq_false, Bool.false_eq_true, if_false]
  · show execResetSlots m s = _
    exact serve_done ha rfl
  · show execGetQueueState m s = _
    refine serve_done ha ?_
    simp only [hq]

/-- A message that a quarantined device refuses is accepted only outside quarantine (R608). -/
theorem quarantined_of_accepts {o : OpSpec} (hq : o.quar = false) (h : accepts o m s = true) : (begun m s).boot.quarantined = false := by
  have none_left : refusal (begun m s) o true m = none := by
    simp only [accepts, Bool.and_eq_true, Option.isNone_iff_eq_none] at h
    exact h.2
  by_contra hc
  rw [Bool.not_eq_false] at hc
  unfold refusal at none_left
  simp only [hc, hq, Bool.not_false, Bool.and_self, if_true] at none_left
  split at none_left
  · split at none_left
    · cases none_left
    · split at none_left <;> cases none_left
  · split at none_left <;> cases none_left

/-- Settles O10, handler by handler. -/
theorem ringMessagesTakeEffect : Obligations.RingMessagesTakeEffect := by
  intro m s
  dsimp only
  refine ⟨fun ha hf harm hcpl hquota => ?_, fun r ha href hlen hring hsn hrd hadm => ?_, fun ids ha hc hst => ?_, fun ids ha hc hst => ?_,
    fun ha hc h8 h20 hv hb hin hh hin' harm => ?_, fun ha hc => ?_⟩
  · show execCreateRing m s = _
    refine serve_done ha ?_
    have cpl : ((begun m s).queue ((view m s).f 4 0) ((view m s).f 9 8)).cpl.isNone = false := by
      rw [Option.isNone_eq_false_iff, Option.isSome_iff_ne_none]; exact hcpl
    simp only [hf, harm, cpl, if_neg (Nat.not_lt.mpr hquota), List.isEmpty_nil, Bool.not_true, Bool.or_self, Bool.false_eq_true, if_false]
  · show execSubmitBlock m s = _
    refine serve_done ha ?_
    simp only [submitBlock, href, quarantined_of_accepts rfl ha, if_neg (Nat.not_le.mpr hlen), hring, hsn, hrd, hadm, List.isEmpty_nil, Bool.not_true, Bool.false_eq_true, if_false]
  · show execAbortQueue m ids s = _
    refine serve_done ha ?_
    simp only [coreOk, hc, hst, decide_true, Bool.not_true, Bool.false_eq_true, if_false, List.isEmpty_nil, if_true]
  · show execAbortQueue m ids s = _
    refine serve_held ha ?_
    simp only [coreOk, hc, decide_true, Bool.not_true, Bool.false_eq_true, if_false, List.isEmpty_iff, if_neg hst]
  · show execSetCompletionRing m s = _
    refine serve_done ha ?_
    have vector : (decide (63 < (view m s).f 30 24) && (view m s).f 30 24 != 127) = false := by
      rcases hv with hv | hv
      · rw [decide_eq_false (Nat.not_lt.mpr hv), Bool.false_and]
      · rw [hv]; rfl
    simp only [coreOk, hc, hb, hin, hh, hin', harm, vector, decide_eq_false (Nat.not_lt.mpr h8), decide_eq_false (Nat.not_lt.mpr h20), decide_true, List.isEmpty_nil,
      bne_self_eq_false, Bool.not_true, Bool.or_self, Bool.false_eq_true, if_false]
  · show execGetRingState m s = _
    refine serve_done ha ?_
    simp only [coreOk, hc, decide_true, Bool.not_true, Bool.false_eq_true, if_false]

end Sys2Proof.Machine
end

section
/-! PROOFS. Held messages and loads -/

namespace Sys2Proof.Machine

variable {m : Msg} {s u : State} {h : Held} {src : MsgSrc}

/-- A load whose slot is free and that no earlier message precedes is applied. -/
theorem loadNow_free {x : Ctx} {op : BitVec 16} (hf : loadFree s op x.p = true) (hb : s.behind (heldOf op.toNat x.m 0) = false) :
    loadNow s x op = .done (applyLoad s op x.p x.m.req) .ok := by
  simp only [loadNow, hf, hb, Bool.not_false, Bool.and_self, if_true]

/-- A load whose slot is in use, or that an earlier message precedes, is held. -/
theorem loadNow_held {x : Ctx} {op : BitVec 16} (hw : loadFree s op x.p = false ∨ s.behind (heldOf op.toNat x.m 0) = true) :
    loadNow s x op = .hold s (heldOf op.toNat x.m 0) := by
  rw [loadNow, if_neg]
  rcases hw with hw | hw <;> simp [hw]

/-- A good LOAD_MICROPROGRAM is what `loadNow` makes of it. -/
theorem execLoadMicroprogram_good (ha : accepts { plainOp 0x0410 1 [(383, 30)] with cap := some capMicro, buf := true } m s = true) (hp : m.ptr = true)
    (hl : msgReqLen m = 1088) (hok : microOk m.req = true) :
    execLoadMicroprogram m s = .next (settleMsg m 0x0410 m.session (loadNow (begun m s) (view m s) 0x0410)) := by
  rw [execLoadMicroprogram, serve_accepted ha]
  simp only [view_m, hp, hl, hok, bne_self_eq_false, Bool.not_true, Bool.or_self, Bool.false_eq_true, if_false]
  rfl

/-- A good LOAD_TABLE is what `loadNow` makes of it. -/
theorem execLoadTable_good (ha : accepts { plainOp 0x0411 1 [(383, 96), (31, 29)] with cap := some capTables, buf := true } m s = true) (hp : m.ptr = true)
    (hl : msgReqLen m = 16384) (hok : ((tableImage m.req).all fun b => leNat (b.drop 12) == 0) = true) :
    execLoadTable m s = .next (settleMsg m 0x0411 m.session (loadNow (begun m s) (view m s) 0x0411)) := by
  rw [execLoadTable, serve_accepted ha]
  simp only [view_m, hp, hl, hok, bne_self_eq_false, Bool.not_true, Bool.or_self, Bool.false_eq_true, if_false]
  rfl

/-- The message held for a source is of that source. -/
theorem src_of_heldBy (hh : s.heldBy src = some h) : h.src = src := by
  have := List.find?_some hh
  simpa using this

/-- The first held message for its object is applied. -/
theorem execHeldMessageApply_first (hh : s.heldBy src = some h) (hb : s.behind h = false) : execHeldMessageApply src s = .next (applyHeld s h) := by
  simp only [execHeldMessageApply, hh, hb, Bool.false_eq_true, if_false]

/-- A held message at its limit ends as `reachLimit` says. -/
theorem execLongRunningLimit_held (hh : s.heldBy src = some h) : execLongRunningLimit src s = .next (reachLimit s h) := by
  simp only [execLongRunningLimit, hh]

/-- A held load is applied once its slot is free. -/
theorem applyHeld_load {op : Nat} (hop : op = 0x0410 ∨ op = 0x0411) (ho : h.opcode = BitVec.ofNat 16 op) (hf : loadFree s h.opcode (effPayload h.msg) = true) :
    applyHeld s h = endHeld (applyLoad s h.opcode (effPayload h.msg) h.msg.req) h .ok := by
  rw [ho] at hf ⊢
  rcases hop with rfl | rfl
  · simp only [applyHeld, ho]; exact if_pos hf
  · simp only [applyHeld, ho]; exact if_pos hf

/-- A held optimizer message is applied once its slot is free. -/
theorem applyHeld_opt {op : Nat} (hop : op = 0x0601 ∨ op = 0x0602) (ho : h.opcode = BitVec.ofNat 16 op) (hf : slotUsed s (fld (effPayload h.msg) 3 0) = false) :
    applyHeld s h = endHeld (applyOpt s h.opcode (effPayload h.msg)) h .ok := by
  have hn : ¬slotUsed s (fld (effPayload h.msg) 3 0) = true := by rw [hf]; exact Bool.false_ne_true
  rcases hop with rfl | rfl
  · simp only [applyHeld, ho]; exact if_neg hn
  · simp only [applyHeld, ho]; exact if_neg hn

theorem ctxOf_f {hi lo : Nat} : (ctxOf s m).f hi lo = fld (effPayload m) hi lo := by
  unfold Ctx.f ctxOf
  split
  · rfl
  · split <;> rfl

/-- A held SET_REGION is applied once nothing of its queue has started. -/
theorem applyHeld_region (ho : h.opcode = 0x0201) (hs : (s.queue (fld (effPayload h.msg) 4 0) (fld (effPayload h.msg) 9 8)).started = [])
    (hr : regionRefusal (s.unheld h.src) (ctxOf s h.msg) = none) :
    applyHeld s h = endHeld (applyRegion (s.unheld h.src) (ctxOf s h.msg)) h .ok := by
  simp only [applyHeld, ho]
  show applyHeldRegion s h = _
  simp only [applyHeldRegion, ctxOf_f, hs, hr, List.isEmpty_nil, Bool.not_true, Bool.false_eq_true, if_false]

/-- Settles O11. -/
theorem heldMessagesTakeEffect : Obligations.HeldMessagesTakeEffect := by
  intro m s
  dsimp only
  refine ⟨fun ha hp hl hok => ⟨fun hf hb => ?_, fun hw => ?_⟩, fun ha hp hl hok => ⟨fun hf hb => ?_, fun hw => ?_⟩, fun src h hh =>
    ⟨fun hb => ?_, fun op hop ho hb hf => ?_, fun op hop ho hb hf => ?_, fun ho hb hs hr => ?_, fun op hop ho => ?_, fun ho => ?_, fun ho => ?_, fun ho => ?_⟩⟩
  · show execLoadMicroprogram m s = _
    rw [execLoadMicroprogram_good ha hp hl hok, loadNow_free hf (by rw [view_m]; exact hb), view_m]
    rfl
  · show execLoadMicroprogram m s = _
    rw [execLoadMicroprogram_good ha hp hl hok, loadNow_held (by rw [view_m]; exact hw), view_m]
    rfl
  · show execLoadTable m s = _
    rw [execLoadTable_good ha hp hl hok, loadNow_free hf (by rw [view_m]; exact hb), view_m]
    rfl
  · show execLoadTable m s = _
    rw [execLoadTable_good ha hp hl hok, loadNow_held (by rw [view_m]; exact hw), view_m]
    rfl
  · show execHeldMessageApply src s = _
    simp only [execHeldMessageApply, hh, hb, if_true]
  · show execHeldMessageApply src s = _
    rw [execHeldMessageApply_first hh hb, applyHeld_load hop ho hf]
  · show execHeldMessageApply src s = _
    rw [execHeldMessageApply_first hh hb, applyHeld_opt hop ho hf]
  · show execHeldMessageApply src s = _
    obtain rfl := src_of_heldBy hh
    rw [execHeldMessageApply_first hh hb, applyHeld_region ho hs hr]
  · show execLongRunningLimit src s = _
    rw [execLongRunningLimit_held hh]
    simp only [List.mem_cons, List.not_mem_nil, or_false] at hop
    rcases hop with rfl | rfl | rfl | rfl <;> simp only [reachLimit, ho] <;> rfl
  · show execLongRunningLimit src s = _
    rw [execLongRunningLimit_held hh]
    simp only [reachLimit, ho]
    rfl
  · show execLongRunningLimit src s = _
    rw [execLongRunningLimit_held hh]
    simp only [reachLimit, ho]
    rfl
  · show execLongRunningLimit src s = _
    obtain rfl := src_of_heldBy hh
    rw [execLongRunningLimit_held hh]
    simp only [reachLimit, ho]
    rfl

end Sys2Proof.Machine
end

section
/-! PROOFS. Tarn, group and fabric messages -/

namespace Sys2Proof.Machine

variable {m : Msg} {s u : State}

/-- Settles O12, handler by handler. -/
theorem tarnMessagesTakeEffect : Obligations.TarnMessagesTakeEffect := by
  intro m s
  dsimp only
  refine ⟨fun ha hfree hd hin hbad => ?_, fun ha hst => ⟨fun hnone => ?_, fun k hk hrw => ?_⟩, fun k ha hk hlo hhi => ⟨fun hw => ?_, fun hw => ?_⟩,
    fun k ha hk hl h0 hle htomb hlog hin hself hhits hrw hcount => ?_, fun ha => ?_⟩
  · show execCreateIndex m s = _
    refine serve_done ha ?_
    simp only [hfree, Option.isSome_none, Bool.false_eq_true, if_false, hin, if_true, hd, hbad]
  · show execDestroyIndex m s = _
    refine serve_done ha ?_
    simp only [hst, hnone, Bool.or_self, Bool.false_eq_true, if_false, Option.isNone_none, if_true]
  · show execDestroyIndex m s = _
    refine serve_done ha ?_
    simp only [hst, hk, hrw, List.isEmpty_nil, Bool.not_true, Bool.or_self, Bool.false_eq_true, if_false, Option.isNone_some]
  · show execSetReaderFloor m s = _
    refine serve_done ha ?_
    simp only [hk, if_neg (not_or.mpr ⟨Nat.not_lt.mpr hlo, Nat.not_lt.mpr hhi⟩), hw, Bool.false_eq_true, if_false]
    rfl
  · show execSetReaderFloor m s = _
    refine serve_held ha ?_
    simp only [hk, if_neg (not_or.mpr ⟨Nat.not_lt.mpr hlo, Nat.not_lt.mpr hhi⟩), hw, if_true]
  · show execStartRewrite m s = _
    refine serve_held ha ?_
    simp only [hk, htomb, hlog, hin, hself, hhits, hrw, beq_false_of_ne h0, decide_eq_false (Nat.not_le.mpr hl), decide_eq_false (Nat.not_lt.mpr hle),
      decide_eq_false (Nat.not_le.mpr hcount), bne_self_eq_false, Bool.not_true, Bool.or_self, Bool.false_eq_true, if_false]
  · show execGetIndexState m s = _
    exact serve_done ha rfl

/-! SET_GROUP with no rank. -/

/-- A device that serves requests on channel 0 in an ADMIN session, with group 15 set and one request waiting. -/
def groupDevice : State :=
  { State.reset with
    boot := { Boot.init with fwStage := 6, needTrain := false }
    host := { HostIf.init with linkUp := true, cxl := true }
    power := { Power.init with perst := false }
    groups := [(15, some { ranks := [], selfRank := 0, core := 0, queue := 0, coreA := 0, winA := 0, coreB := 0, winB := 0, flushCount := 0, broken := false, landed := [] })]
    mbx := { Mailbox.init with
      chans := [(0, { Channel.init with enabled := true, state := 1, session := 7, reqBase := 4096, cplBase := 8192, reqTail := 1 })]
      sessions := [{ handle := 7, privilege := 2, rev := 0x0302, clientId := 1, leaseMs := 0 }]
      issued := [7] } }

/-- SET_GROUP of group 15 with COUNT 0, whose pointer block names a request buffer of no bytes at a nonzero address. -/
def clearGroupMsg : Msg :=
  { src := .chan 0, requestId := 1, session := 7, ptr := true, payloadLen := 48, hdrReserved := 0, payload := BitVec.ofNat 384 (4096 + 15 * 2 ^ 256),
    extra := [], req := [], reqError := false, rspError := false, cplError := false }

/-- SET_GROUP with COUNT 0 whose pointer block has a request address is refused. -/
theorem execSetGroup_address (ha : accepts { plainOp 0x0611 1 [(383, 62), (55, 53), (47, 46), (39, 37), (31, 26), (23, 21), (7, 4)] with buf := true } m s = true)
    (hn : (view m s).f 15 8 = 0) (hr : noRequest m = false) : execSetGroup m s = replied m 0x0611 (begun m s) (.st 0x201) := by
  refine serve_done ha ?_
  simp only [hn, view_m, hr, if_true, Bool.not_false, Bool.or_true]
  rfl

/-- Refutes O13: SET_GROUP with COUNT 0 and a request length of 0 is refused where its pointer block still holds a request address, so the group stays. -/
theorem not_updateAndGroupMessagesTakeEffect : ¬ Obligations.UpdateAndGroupMessagesTakeEffect := by
  intro h
  obtain ⟨-, -, -, group⟩ := h clearGroupMsg groupDevice
  have ha : accepts { plainOp 0x0611 1 [(383, 62), (55, 53), (47, 46), (39, 37), (31, 26), (23, 21), (7, 4)] with buf := true } clearGroupMsg groupDevice = true := by
    decide +kernel
  have hn : (view clearGroupMsg groupDevice).f 15 8 = 0 := by decide +kernel
  have cleared := (group ha rfl (by decide +kernel) (by decide +kernel)).1 hn
  have refused := execSetGroup_address ha hn (by decide +kernel)
  have same := congrArg (fun r : Res => match r with | .next t => t.groups | _ => []) (refused.symm.trans cleared)
  simp only [replied, finishMsg_groups] at same
  revert same
  decide +kernel

/-- Settles O14, handler by handler. -/
theorem fabricMessagesTakeEffect : Obligations.FabricMessagesTakeEffect := by
  intro m s
  dsimp only
  refine ⟨fun ha => ⟨fun hm => ?_, fun hm hok hnew hports => ?_⟩, fun ha hp hl hle hok => ?_, fun ha h3 hcap => ?_, fun ha hok h1 h2 hq => ?_,
    fun ha hbad => ⟨fun hself hfree => ?_, fun hself hsame => ?_, fun hself hch hq => ?_⟩, fun ha hself haddr hun => ?_⟩
  · show execSetCoordinates m s = _
    refine serve_done ha ?_
    simp only [hm, Bool.not_false, if_true]
    rfl
  · show execSetCoordinates m s = _
    refine serve_done ha ?_
    have free : ((begun m s).coordSet && !((List.range 18).all fun p => ((begun m s).port p).state == 0)) = false := by
      rcases hports with hp | hp
      · rw [hp, Bool.false_and]
      · rw [Bool.and_eq_false_imp]
        intro _
        rw [List.all_eq_true.mpr fun p hq => by rw [hp p (List.mem_range.mp hq)]; rfl]
        rfl
    simp only [hm, hok, if_neg hnew, free, Bool.not_true, Bool.false_eq_true, if_false]
    cases (begun m s).fabric.coordEver <;> rfl
  · show execSetWiringMap m s = _
    refine serve_done ha ?_
    simp only [view_m, hp, hl, hok, decide_eq_false (Nat.not_lt.mpr hle), bne_self_eq_false, Bool.not_true, Bool.or_self, Bool.false_eq_true, if_false]
  · show execSetWiringPolicy m s = _
    refine serve_done ha ?_
    have known : ((view m s).f 1 0 != 0 && !(view m s).has capAdopt) = false := by
      rw [Bool.and_eq_false_imp]
      exact fun h => by rw [hcap (by simpa using h)]; rfl
    simp only [beq_false_of_ne h3, known, Bool.or_self, Bool.false_eq_true, if_false]
  · show execSetProfilePolicy m s = _
    refine serve_done ha ?_
    have m1 : (bit (fb (view m s).p 0 5) 0 && !(view m s).has capM1) = false := by
      rw [Bool.and_eq_false_imp]
      exact fun h => by rw [h1 h]; rfl
    have m2 : ((bit (fb (view m s).p 0 5) 1 || bit (fb (view m s).p 0 5) 2) && !(view m s).has capM2) = false := by
      rw [Bool.and_eq_false_imp]
      exact fun h => by rw [h2 h]; rfl
    simp only [hok, m1, m2, hq, Bool.not_true, Bool.or_self, Bool.false_eq_true, if_false]
  · show execSetEndpoint m s = _
    refine serve_done ha ?_
    have idle : (changesSelf (begun m s) ((view m s).f 11 0) (endpointOf (view m s)) && (begun m s).anyQueue) = false := by
      rw [changesSelf, hself, if_neg Bool.false_ne_true]
      rcases hfree with h | h <;> rw [h]
      · exact Bool.false_and _
      · exact Bool.and_false _
    simp only [hbad, hself, idle, Bool.false_and, Bool.false_eq_true, if_false]
  · show execSetEndpoint m s = _
    refine serve_done ha ?_
    simp only [hbad, hself, hsame, Bool.not_false, Bool.and_self, Bool.false_eq_true, if_false, if_true]
  · show execSetEndpoint m s = _
    refine serve_done ha ?_
    simp only [hbad, hself, hch, hq, Bool.not_true, Bool.and_false, Bool.true_and, Bool.false_eq_true, if_false]
  · show execRemoveEndpoint m s = _
    refine serve_done ha ?_
    simp only [hself, hun, Bool.false_or, List.foldl_nil]
    exact if_neg fun addressed => Bool.false_ne_true (haddr.symm.trans addressed)

end Sys2Proof.Machine
end

section
/-! PROOFS. Port, Ethernet, time and log messages -/

namespace Sys2Proof.Machine

variable {m : Msg} {s u : State}

/-- A port's change depends on what the port holds only. -/
theorem modPort_congr {p : Nat} {f g : Port → Port} (h : f (s.port p) = g (s.port p)) : s.modPort p f = s.modPort p g := by
  unfold State.modPort tmod
  rw [show f (tget Port.init s.fabric.ports p) = g (tget Port.init s.fabric.ports p) from h]

/-- Settles O15, handler by handler. -/
theorem portMessagesTakeEffect : Obligations.PortMessagesTakeEffect := by
  intro m s
  dsimp only
  refine ⟨fun ha hact hok hst => ?_, fun ha hact hok => ?_, fun ha hact hok hst => ?_, fun ha hp => ?_⟩
  · show execTrainPortTrain m s = _
    rw [execTrainPortTrain, hact, if_neg (by decide)]
    refine serve_done ha ?_
    simp only [hok, hst, Nat.reduceEqDiff, decide_false, bne_self_eq_false, Bool.not_true, Bool.or_self, Bool.false_eq_true, if_false]
    rfl
  · show execTrainPortDisable m s = _
    rw [execTrainPortDisable, if_pos hact]
    refine serve_done ha ?_
    simp only [hok, Bool.not_true, Bool.false_eq_true, if_false]
  · show execTrainPortRetrain m s = _
    rw [execTrainPortRetrain, if_pos hact]
    refine serve_done ha ?_
    have enters : enterRetrain (begun m s) ((view m s).f 4 0) = (begun m s).modPort ((view m s).f 4 0) fun pt =>
        { pt with state := 3, lanes := 0, lostTimer := true, counts := { pt.counts with retrains := satInc pt.counts.retrains 1 } } := by
      refine modPort_congr ?_
      rw [hst, beq_self_eq_true, Bool.or_true]
    simp only [hok, hst, enters, bne_self_eq_false, Bool.not_true, Bool.false_eq_true, if_false]
  · show execGetPortState m s = _
    refine serve_done ha ?_
    rw [if_neg (Nat.not_le.mpr hp)]

/-- Settles O16, action by action. -/
theorem ethernetMessagesTakeEffect : Obligations.EthernetMessagesTakeEffect := by
  intro m s
  dsimp only
  refine ⟨fun ha hact hl h0 hne hfree => ?_, fun ha hact hl hok hcap hfree => ?_, fun ha hact hl hfree => ?_, fun ha hact hl => ?_, fun ha hact hl => ?_⟩
  · show execSetPort m s = _
    rw [execSetPort, hact, if_neg (by decide)]
    refine serve_done ha ?_
    have free : (portCarries (begun m s) ((view m s).f 8 8)
        && !onlyEnable (portOf (ethRecord (view m s)) ((begun m s).ethPort ((view m s).f 8 8))) ((begun m s).ethPort ((view m s).f 8 8))) = false := by
      rcases hfree with h | h <;> rw [h]
      · exact Bool.false_and _
      · exact Bool.and_false _
    simp only [hl, h0, beq_false_of_ne hne, free, bne_self_eq_false, Bool.not_true, Bool.or_self, Bool.false_eq_true, if_false]
  · show execConnect m s = _
    rw [execConnect, if_pos hact]
    refine serve_done ha ?_
    have known : (bit (ethRecord (view m s)) 113 && !(view m s).has capRoceInput) = false := by
      rw [Bool.and_eq_false_imp]
      exact fun h => by rw [hcap h]; rfl
    simp only [hl, hok, known, hfree, Option.isSome_none, Bool.not_true, Bool.or_self, Bool.false_eq_true, if_false]
  · show execDisconnect m s = _
    rw [execDisconnect, if_pos hact]
    refine serve_done ha ?_
    simp only [hl, hfree, Option.isSome_none, Bool.not_true, Bool.false_eq_true, if_false]
  · show execSetPtp m s = _
    rw [execSetPtp, if_pos hact]
    refine serve_done ha ?_
    simp only [hl, Bool.not_true, Bool.false_eq_true, if_false]
  · show execGetStatus m s = _
    rw [execGetStatus, if_pos hact]
    refine serve_done ha ?_
    simp only [hl, Bool.not_true, Bool.false_eq_true, if_false]

/-! Time messages and events. -/

/-- A start in the past gives no mode. -/
theorem applyMode_past {p : BitVec 384} (hr : fld p 1 0 = 1 ∨ bit p 2 = true) (hv : (fb p 64 64 : BitVec 64).toNat < s.clock.gtc.toNat) :
    applyMode s p = (s, .val 0x201 s.clock.gtc.toNat) := by
  unfold applyMode
  by_cases hm : fld p 1 0 = 1
  · rw [if_pos hm, if_pos hv]
  · rw [if_neg hm, if_pos (hr.resolve_left hm), if_pos hv]

theorem applyMode_referenced {p : BitVec 384} (hm : fld p 1 0 = 1) (hv : s.clock.gtc.toNat ≤ (fb p 64 64 : BitVec 64).toNat) :
    applyMode s p = (setMode (stepGtc s (fb p 64 64)) refMode, .ok) := by
  rw [applyMode, if_pos hm, if_neg (Nat.not_lt.mpr hv)]

theorem applyMode_root {p : BitVec 384} (hm : fld p 1 0 ≠ 1) (hr : bit p 2 = true) (hv : s.clock.gtc.toNat ≤ (fb p 64 64 : BitVec 64).toNat) :
    applyMode s p = (setMode (stepGtc s (fb p 64 64)) (freeMode true), .ok) := by
  rw [applyMode, if_neg hm, if_pos hr, if_neg (Nat.not_lt.mpr hv)]

theorem applyMode_free {p : BitVec 384} (hm : fld p 1 0 ≠ 1) (hr : bit p 2 = false) : applyMode s p = (setMode s (freeMode false), .ok) := by
  rw [applyMode, if_neg hm, hr, if_neg Bool.false_ne_true]

theorem applyStart_of {h : Held} {t : State} {r : Reply} (ha : applyMode s (effPayload h.msg) = (t, r)) : applyStart s h = endHeld t h r := by
  rw [applyStart, ha]

/-- Taking the source leaves the GTC and the late mask. -/
theorem takeSource_clock : (takeSource s).clock.gtc = s.clock.gtc ∧ (takeSource s).clock.lateMask = s.clock.lateMask := by
  unfold takeSource
  split
  · exact ⟨rfl, rfl⟩
  · split <;> exact ⟨rfl, rfl⟩

/-- The payload of GET_TIME. -/
def timeReply (t : TimeState) : Nat :=
  t.gtc.toNat + t.mode.toNat * 2 ^ 64 + t.state.toNat * 2 ^ 66 + t.source.toNat * 2 ^ 80 + t.hops.toNat * 2 ^ 88 + t.offset.toNat * 2 ^ 96 + t.lateMask.toNat * 2 ^ 128

theorem timeReply_fields {t : TimeState} : fld (BitVec.ofNat 384 (timeReply t)) 63 0 = t.gtc.toNat ∧ fld (BitVec.ofNat 384 (timeReply t)) 191 128 = t.lateMask.toNat := by
  have gtc := t.gtc.isLt
  have mode := t.mode.isLt
  have state := t.state.isLt
  have source := t.source.isLt
  have hops := t.hops.isLt
  have offset := t.offset.isLt
  have late := t.lateMask.isLt
  rw [fld_ofNat (by decide), fld_ofNat (by decide), timeReply]
  simp only [Nat.reduceSub, Nat.reduceAdd] at *
  omega

/-- Adding to a counter of a core adds with saturation, and what is waiting sees it. -/
theorem addEvent_events {c i n : Nat} : tget 0 ((addEvent s c i n).1.core c).events i = (satAdd32 (tget 0 (s.core c).events i) n).1 := by
  unfold addEvent
  dsimp only
  rw [core_modCore, if_pos rfl]
  exact tget_tset_same

/-- What an edge that fires leaves: its counter one higher, its next time, and the clock with, if late, its bit of the late mask. -/
theorem fireEdge_leaves {i : Nat} {e : Edge} {late : Bool} (he : s.edge i = some e) :
    tget 0 ((fireEdge s i late).core e.core).events e.event = (satAdd32 (tget 0 (s.core e.core).events e.event) 1).1
      ∧ (fireEdge s i late).edge i = nextEdge e s.clock.gtc
      ∧ (fireEdge s i late).clock = if late then { s.clock with lateMask := s.clock.lateMask ||| (1#64 <<< i) } else s.clock := by
  unfold fireEdge
  rw [he]
  dsimp only
  split
  · refine ⟨?_, ?_, ?_⟩
    · rw [← addEvent_events]
      simp [State.core]
    · simp [State.edge, tget_tset_same]
    · simp
  · refine ⟨?_, ?_, ?_⟩
    · rw [← addEvent_events]
      rfl
    · simp [State.edge, tget_tset_same]
    · simp

theorem satAdd32_max : (satAdd32 (0xFFFFFFFF : BitVec 32) 1).1 = 0xFFFFFFFF := by decide

theorem satAdd32_one {x : BitVec 32} (h : x ≠ 0xFFFFFFFF) : (satAdd32 x 1).1 = x + 1 := by
  have below : x.toNat + 1 ≤ 0xFFFFFFFF := by bv_omega
  rw [satAdd32, if_pos below]
  bv_omega

/-- SET_TIME_MODE, at once and first for the time, does what `applyMode` says. -/
theorem execSetTimeMode_now (ha : accepts (plainOp 0x0801 2 [(383, 128), (63, 3)]) m s = true) (hbad : timeModeBad (view m s) = false) (hm : (view m s).f 1 0 ≠ 1)
    (hb : (begun m s).behind (heldOf 0x0801 m 0) = false) {t : State} {r : Reply} (h : applyMode (begun m s) (view m s).p = (t, r)) :
    execSetTimeMode m s = replied m 0x0801 t r := by
  refine serve_done ha ?_
  simp only [hbad, hm, hb, h, decide_false, Bool.or_self, Bool.false_eq_true, if_false]

/-- SET_TIME_MODE waits for its PPS edge, or behind an earlier one. -/
theorem execSetTimeMode_held (ha : accepts (plainOp 0x0801 2 [(383, 128), (63, 3)]) m s = true) (hbad : timeModeBad (view m s) = false)
    (hw : (view m s).f 1 0 = 1 ∨ (begun m s).behind (heldOf 0x0801 m 0) = true) : execSetTimeMode m s = kept m (begun m s) (heldOf 0x0801 m 0) := by
  refine serve_held ha ?_
  simp only [hbad, Bool.false_eq_true, if_false]
  rw [if_pos]
  rcases hw with h | h <;> simp [h]

/-- An edge event whose time has come fires the edge. -/
theorem execEdgeFire_due {i : Fin 64} {e : Edge} (he : s.edge i.val = some e) (ht : e.time.toNat ≤ s.clock.gtc.toNat) :
    execEdgeFire i s = .next (fireEdge s i.val false) := by
  simp only [execEdgeFire, he, if_neg (Nat.not_lt.mpr ht)]

/-- Settles O17: the modes by `applyMode`'s cases, an edge's firing by `fireEdge_leaves`. -/
theorem timeCommandsTakeEffect : Obligations.TimeCommandsTakeEffect := by
  refine ⟨fun m s => ?_, fun s => ?_⟩
  · dsimp only
    refine ⟨fun ha hbad => ⟨fun hm => execSetTimeMode_held ha hbad (.inl hm), fun hm hb => execSetTimeMode_held ha hbad (.inr hb), fun hm hb hr hv => ?_, fun hm hb hr => ?_⟩,
      fun ha => ⟨timeReply (takeSource (begun m s)).clock, ?_, ?_⟩, fun ha hc => ⟨fun ht => ?_, fun ht => ?_⟩, fun ha => ?_⟩
    · exact execSetTimeMode_now ha hbad (by omega) hb (applyMode_root (by change (view m s).f 1 0 ≠ 1; omega) hr hv)
    · exact execSetTimeMode_now ha hbad (by omega) hb (applyMode_free (by change (view m s).f 1 0 ≠ 1; omega) hr)
    · show execGetTime m s = _
      exact serve_done ha rfl
    · rw [← (takeSource_clock (s := begun m s)).1, ← (takeSource_clock (s := begun m s)).2]
      exact timeReply_fields
    · show execScheduleEdge m s = _
      refine serve_done ha ?_
      simp only [coreOk, hc, if_neg (Nat.not_lt.mpr ht), decide_true, Bool.not_true, Bool.false_eq_true, if_false]
    · show execScheduleEdge m s = _
      refine serve_done ha ?_
      simp only [coreOk, hc, if_pos ht, decide_true, Bool.not_true, Bool.false_eq_true, if_false]
    · show execCancelEdge m s = _
      exact serve_done ha rfl
  · refine ⟨fun hc => ?_, fun h => ⟨fun hm hv => applyStart_of (applyMode_referenced hm hv), fun hm hr hv => applyStart_of (applyMode_root hm hr hv),
      fun hm hr => applyStart_of (applyMode_free hm hr), fun hr hv => applyStart_of (applyMode_past hr hv)⟩, fun h => if_neg h, fun hm hst => if_pos ⟨hm, hst⟩,
      fun hm => ?_, fun hm => ?_, fun hm hst => ?_, fun hm => ?_, fun i e he ht => ⟨fireEdge s i.val false, ?_, ?_⟩⟩
    · show execPpsEdge s = _
      rw [execPpsEdge, if_pos hc]
    · show execReferenceValid s = _
      rw [execReferenceValid, if_pos hm]
    · show execReferenceValid s = _
      rw [execReferenceValid, hm]; rfl
    · show execReferenceLost s = _
      rw [execReferenceLost]
      simp only [hm, ne_eq, hst, not_false_eq_true, and_self, if_true]
    · show execReferenceLost s = _
      have other : ¬s.clock.mode = 1 := by rw [hm]; decide
      simp only [execReferenceLost, other, false_and, if_false]
    · exact execEdgeFire_due he ht
    · obtain ⟨hev, hnext, hclock⟩ := fireEdge_leaves (late := false) he
      exact ⟨fun hx => hev.trans (satAdd32_one hx), fun hx => hev.trans (by rw [hx]; exact satAdd32_max), hnext, hclock⟩

/-- A message from a channel is not a management message. -/
theorem view_mgmt_of_src {n : ChanId} (h : m.src = .chan n) : (view m s).mgmt = false := by
  rw [Ctx.mgmt, view_chan_of_src h]
  exact beq_false_of_ne (by omega)

/-- Settles O18, handler by handler. -/
theorem logMessagesTakeEffect : Obligations.LogMessagesTakeEffect := by
  intro m s
  dsimp only
  refine ⟨fun n hn ha hb => ?_, fun ha hack hlatch => ?_, fun n hn ha => ?_, fun n hn ha hp h0 => ?_, fun ha hbad => ?_⟩
  · show execReadErrorLog m s = _
    refine serve_done ha ?_
    simp only [view_mgmt_of_src hn, hb, Bool.false_and, Bool.false_eq_true, if_false]
  · show execClearError m s = _
    refine serve_done ha ?_
    have ack : ((view m s).f 31 0 != 0xFFFFFFFF && decide ((begun m s).err.nextSeq.toNat ≤ (view m s).f 31 0)) = false := by
      rcases hack with h | h
      · rw [h]; rfl
      · rw [decide_eq_false (Nat.not_le.mpr h), Bool.and_false]
    have latch : (bit (view m s).p 32 && decide (74 < (view m s).f 75 64)) = false := by
      rw [Bool.and_eq_false_imp]
      exact fun h => decide_eq_false (Nat.not_lt.mpr (hlatch h))
    simp only [ack, latch, Bool.or_self, Bool.false_eq_true, if_false]
  · show execGetLastGasp m s = _
    refine serve_done ha ?_
    exact congrArg (fun t => Answer.done t _) (if_neg (by rw [view_mgmt_of_src hn]; exact Bool.false_ne_true))
  · show execReadTelemetry m s = _
    refine serve_done ha ?_
    simp only [view_mgmt_of_src hn, view_m, hp, h0, bne_self_eq_false, Bool.not_true, Bool.or_self, Bool.false_eq_true, if_false]
  · show execSetTelemetryRate m s = _
    refine serve_done ha ?_
    simp only [hbad, Bool.false_eq_true, if_false]

end Sys2Proof.Machine
end

section
/-! PROOFS. Security messages -/

namespace Sys2Proof.Machine

variable {m : Msg} {s u : State} {o : OpSpec} {nonce : BitVec 256}

/-! Security messages while no other one executes. -/

/-- A security message that begins while none executes is acted on. -/
theorem serveSecurity_acts (ha : accepts o m s = true) (hb : securityBusy (begun m s) = false) :
    serveSecurity o m s nonce = .next (settleMsg m o.code m.session (actSecurity { heldOf o.code m 0 with nonce := nonce } (begun m s) (view m s))) := by
  rw [serveSecurity, serve_accepted ha]
  simp only [hb, Bool.false_eq_true, if_false]

/-- Outside quarantine DEBUG_CHALLENGE is acted on. -/
theorem actSecurity_challenge {h : Held} {x : Ctx} (hq : s.boot.quarantined = false) (ho : h.opcode = 0x0A02) :
    actSecurity h s x = .done (actChallenge h.nonce s).1 (actChallenge h.nonce s).2 := by
  simp only [actSecurity, hq, Bool.false_and, Bool.false_eq_true, if_false, ho]
  rfl

/-- Outside quarantine DEBUG_UNLOCK is acted on. -/
theorem actSecurity_unlock {h : Held} {x : Ctx} (hq : s.boot.quarantined = false) (ho : h.opcode = 0x0A03) :
    actSecurity h s x = .done (actUnlock x s).1 (actUnlock x s).2 := by
  simp only [actSecurity, hq, Bool.false_and, Bool.false_eq_true, if_false, ho]
  rfl

/-- Outside quarantine FIRMWARE_UPDATE is acted on. -/
theorem actSecurity_update {h : Held} {x : Ctx} (hq : s.boot.quarantined = false) (ho : h.opcode = 0x0A04) :
    actSecurity h s x = .done (actUpdate x s).1 (actUpdate x s).2 := by
  simp only [actSecurity, hq, Bool.false_and, Bool.false_eq_true, if_false, ho]
  rfl

/-- Outside quarantine an ADVANCE_ROLLBACK that is not refused stays in progress. -/
theorem actSecurity_rollback {h : Held} {x : Ctx} (hq : s.boot.quarantined = false) (ho : h.opcode = 0x0A05) (hr : rollbackRefusal x s = none) :
    actSecurity h s x = .hold { s with sec := { s.sec with pulses := 0 } } { h with arg := x.f 7 0 } := by
  simp only [actSecurity, hq, Bool.false_and, Bool.false_eq_true, if_false, ho]
  change (match rollbackRefusal x s with | some st => refuse s st | none => _) = _
  rw [hr]

/-- A debug unlock by password, while the lock is reversible and failures are left. -/
theorem actUnlock_password {x : Ctx} (hp : x.m.ptr = false) (hf : unlockFormatOk x = true) (hl : debugLevel s.sec.bank = 1) (h8 : s.sec.failures < 8)
    (h0 : s.sec.bank.debugPwHash ≠ 0) (hs : sha384 (vecBytes s.sec.bank.serial ++ (vecBytes x.p).drop 16) = s.sec.bank.debugPwHash.toNat) :
    actUnlock x s = unlocked s 1 := by
  simp only [actUnlock, hl, hf, hp, if_neg h0, if_pos hs, if_neg (Nat.not_le.mpr h8), Nat.reduceEqDiff, Bool.not_true, Bool.false_eq_true, if_false]

/-- A debug unlock by key, while the lock is reversible and failures are left. -/
theorem actUnlock_key {x : Ctx} {n : BitVec 256} (hp : x.m.ptr = true) (hf : unlockFormatOk x = true) (hl : debugLevel s.sec.bank = 1) (h8 : s.sec.failures < 8)
    (h0 : s.sec.bank.debugKeyHash ≠ 0) (hn : s.sec.nonce = some n) (hs : sha384 (slice x.m.req 0 97) = s.sec.bank.debugKeyHash.toNat)
    (hv : ecdsaVerify (slice x.m.req 0 97) (vecBytes n ++ vecBytes s.sec.bank.serial) (slice x.m.req 128 96) = true) :
    actUnlock x s = unlocked { s with sec := { s.sec with nonce := none } } 2 := by
  simp only [actUnlock, hl, hf, hp, if_neg h0, hn, hs, hv, if_neg (Nat.not_le.mpr h8), Nat.reduceEqDiff, Bool.not_true, Bool.and_self, beq_self_eq_true,
    Bool.false_eq_true, if_false, if_true]

/-- An image that passes its checks is taken, and the restart falls due. -/
theorem actUpdate_taken {x : Ctx} (hp : x.m.ptr = true) (ha : anyArmed s = false) (hl : anyHeld s longRunning = false) (hi : imageReason s x.m.req = none) :
    actUpdate x s = ({ s with boot := { s.boot with restartDue := true, bootAddr := BitVec.ofNat 64 (fld x.m.payload 63 12 * 4096) } },
        .val 0 (sliceNat x.m.req 8 4 + sliceNat x.m.req 12 4 % 256 * 2 ^ 32)) := by
  simp only [actUpdate, hp, ha, hl, hi, Bool.not_true, Bool.or_self, Bool.false_eq_true, if_false]

theorem popCount_le {n : Nat} (x : BitVec n) : popCount x ≤ n :=
  (List.length_filter_le _ _).trans (Nat.le_of_eq List.length_range)

theorem debugLevel_le (b : FuseBank) : debugLevel b ≤ 2 := by
  unfold debugLevel
  split
  · exact Nat.le_refl 2
  · split <;> decide

/-- The part of GET_SECURITY_STATE's payload above the rollback count, in units of 2^24. -/
def securityHigh (u : State) : Nat :=
  u.svn.toNat % 256 + (if u.sec.bank.ownerKeyHash = 0 then 0 else 2 ^ 8) + (if u.sec.bank.debugPwHash = 0 then 0 else 2 ^ 9)
    + (if u.sec.bank.debugKeyHash = 0 then 0 else 2 ^ 10) + (if (match u.boot.image with | none => false | some i => i.ownerSigned) then 2 ^ 11 else 0)
    + u.sec.failures % 256 * 2 ^ 16 + leNat ((shaBytes u.sec.bank.cert).take 32) * 2 ^ 40

/-- The payload of GET_SECURITY_STATE: the debug level, whether debug is opened and how, the rollback count, and the rest. -/
def securityState (u : State) : Nat :=
  debugLevel u.sec.bank + (if u.sec.debugOpened then 2 ^ 8 else 0) + u.sec.reopenMethod.toNat * 2 ^ 9 + u.rollbackCount * 2 ^ 16 + securityHigh u * 2 ^ 24

/-- GET_SECURITY_STATE answers the security state. -/
theorem execGetSecurityState_reports (ha : accepts (queryOp 0x0A01 0 []) m s = true) :
    execGetSecurityState m s = replied m 0x0A01 (begun m s) (.val 0 (securityState (begun m s))) := by
  refine serve_done ha ?_
  refine congrArg (fun v => Answer.done (begun m s) (.val 0 v)) ?_
  unfold securityState securityHigh
  simp only [Nat.add_mul, ite_mul, Nat.zero_mul, Nat.mul_assoc, ← Nat.pow_add, Nat.add_assoc, Nat.reduceAdd] <;> rfl

theorem securityState_fields : fld (BitVec.ofNat 384 (securityState u)) 1 0 = debugLevel u.sec.bank ∧ fld (BitVec.ofNat 384 (securityState u)) 23 16 = u.rollbackCount
    ∧ bit (BitVec.ofNat 384 (securityState u)) 8 = u.sec.debugOpened := by
  have level := debugLevel_le u.sec.bank
  have count : u.rollbackCount ≤ 64 := popCount_le _
  have method := u.sec.reopenMethod.isLt
  rw [fld_ofNat (by decide), fld_ofNat (by decide), bit_ofNat (by decide), securityState]
  generalize securityHigh u = high
  cases u.sec.debugOpened
  · simp only [Nat.reduceSub, Nat.reduceAdd, Bool.false_eq_true, if_false, decide_eq_false_iff_not] at *
    omega
  · simp only [Nat.reduceSub, Nat.reduceAdd, if_true, decide_eq_true_eq] at *
    omega

/-- Settles O19: the messages by `actSecurity`, the events and JTAG by their definitions. -/
theorem securityCommandsTakeEffect : Obligations.SecurityCommandsTakeEffect := by
  intro m s
  dsimp only
  refine ⟨fun ha => ⟨securityState (begun m s), execGetSecurityState_reports ha, securityState_fields⟩, fun nonce ha hb hl => ?_, fun ha hb hp hf hl h8 h0 hs => ?_,
    fun nonce ha hb hp hf hl h8 h0 hn hs hv => ?_, fun ha hb hp harm hheld hi => ?_, fun ha hb hr => ?_, fun h hh hlt => ?_, rfl, fun low => rfl, fun hlow i hi => ?_,
    fun hhigh => ⟨?_, rfl, fun hd on => ⟨?_, ?_⟩, fun hd on => ?_, fun hd => ⟨s.freshWord.1, ?_⟩⟩⟩
  · show execDebugChallenge m nonce s = _
    rw [execDebugChallenge, serveSecurity_acts ha hb, actSecurity_challenge (quarantined_of_accepts rfl ha) rfl]
    simp only [actChallenge, if_neg hl]
    rfl
  · show execDebugUnlock m s = _
    rw [execDebugUnlock, serveSecurity_acts ha hb, actSecurity_unlock (quarantined_of_accepts rfl ha) rfl, actUnlock_password (by rw [view_m]; exact hp) hf hl h8 h0 hs]
    rfl
  · show execDebugUnlock m s = _
    rw [execDebugUnlock, serveSecurity_acts ha hb, actSecurity_unlock (quarantined_of_accepts rfl ha) rfl,
      actUnlock_key (by rw [view_m]; exact hp) hf hl h8 h0 hn (by rw [view_m]; exact hs) (by rw [view_m]; exact hv)]
    rfl
  · show execFirmwareUpdate m s = _
    rw [execFirmwareUpdate, serveSecurity_acts ha hb, actSecurity_update (quarantined_of_accepts rfl ha) rfl,
      actUpdate_taken (by rw [view_m]; exact hp) harm hheld (by rw [view_m]; exact hi), view_m]
    rfl
  · show execAdvanceRollback m s = _
    rw [execAdvanceRollback, serveSecurity_acts ha hb, actSecurity_rollback (quarantined_of_accepts rfl ha) rfl hr]
    rfl
  · show execFuseBlown true s = _
    simp only [execFuseBlown, hh, if_true]
    exact if_neg (Nat.not_le.mpr hlt)
  · show execJtagAccess i s = _
    cases i with
    | trst low => exact absurd rfl (hi low)
    | idcode => simp only [execJtagAccess, hlow, if_true]
    | bypass => rfl
    | debug => simp only [execJtagAccess, hlow, Bool.true_or, if_true]
    | trace on => simp only [execJtagAccess, hlow, Bool.true_or, if_true]
  · show execJtagAccess .idcode s = _
    simp only [execJtagAccess, hhigh, Bool.false_eq_true, if_false]
  · show execJtagAccess .debug s = _
    simp only [execJtagAccess, hd, Bool.not_false, Bool.or_true, if_true]
  · show execJtagAccess (.trace on) s = _
    simp only [execJtagAccess, hd, Bool.not_false, Bool.or_true, if_true]
  · show execJtagAccess (.trace on) s = _
    simp only [execJtagAccess, hhigh, hd, Bool.not_true, Bool.or_self, Bool.false_eq_true, if_false]
  · show execJtagAccess .debug s = _
    simp only [execJtagAccess, hhigh, hd, Bool.not_true, Bool.or_self, Bool.false_eq_true, if_false]
    rfl

end Sys2Proof.Machine
end

section
/-! PROOFS. Overturn messages -/

namespace Sys2Proof.Machine

variable {m : Msg} {s t v : State} {x : Ctx}

/-- SET_REPLAY_LOG whose range list the device may read, and reads: it opens the step, or waits for its digests. -/
theorem setReplayLog_read {rs : List (Nat × Nat)} (hin : inHbm (logArgs x.p).addr (16 * (logArgs x.p).count) = true)
    (hs : snoopsFor s (logArgs x.p).addr (16 * (logArgs x.p).count) false = []) (hd : (hbmRead s (logArgs x.p).addr (16 * (logArgs x.p).count)).2.1 = none)
    (hr : logRanges (hbmRead s (logArgs x.p).addr (16 * (logArgs x.p).count)).2.2 x = some rs) :
    setReplayLog m s x =
      let v := (hbmRead s (logArgs x.p).addr (16 * (logArgs x.p).count)).2.2
      if rs.isEmpty && logReady v then .done (openStep v.closeStep (logArgs x.p) rs) .ok
      else .hold { v with ovt := { v.ovt with jobs := v.ovt.jobs ++ rs.map fun r => .range r.1 r.2 } }
        { heldOf 0x0B01 m 0 with body := v.hbmBytes (logArgs x.p).addr (16 * (logArgs x.p).count) } := by
  simp only [setReplayLog, hin, hs, hd, hr, if_true, List.isEmpty_nil, Bool.not_true, Bool.false_eq_true, if_false]

/-- A checkpoint's range list that the device may read, and reads. -/
theorem checkpointOut_read {rs : List (Nat × Nat)} {d : List Bt × Option Nat × State} (hin : inHbm (ckptArgs x.p).addr (16 * (ckptArgs x.p).count) = true)
    (hrs : rangeList s (ckptArgs x.p).addr (ckptArgs x.p).count = some rs)
    (hs : snoopsFor s (ckptArgs x.p).addr (16 * (ckptArgs x.p).count) false = []) (hd : hbmRead s (ckptArgs x.p).addr (16 * (ckptArgs x.p).count) = d) (hn : d.2.1 = none)
    (h0 : (ckptArgs x.p).count ≠ 0) (h64 : (ckptArgs x.p).count ≤ 64) (hall : (rs.all fun r => inHbm r.1 r.2) = true)
    (hmed : mediumOk d.2.2 (ckptArgs x.p) (imageLen (rs.map fun r => r.2)) = true) (harm : anyArmed d.2.2 = false)
    (hl : ((rs.flatMap fun r => snoopsFor d.2.2 r.1 r.2 false) ++ ckptLines d.2.2 (ckptArgs x.p) (imageLen (rs.map fun r => r.2)) true) = []) :
    checkpointOut m s x =
      let i := ckptOf d.2.2 rs
      if (ckptArgs x.p).ethernet then
        match i.2.2.conn (ckptArgs x.p).conn.toNat with
        | none => abortCkpt i.2.2 false
        | some k => if k.error then abortCkpt i.2.2 false else sendCkpt m i.2.2 (ckptArgs x.p).conn k i.1 ((ckptArgs x.p).offset + 4096) 1 0 (vals i.2.1)
      else
        match i.2.2.host.window with
        | none => refuse i.2.2 0x201
        | some w => .done (hbmWrite (hbmWrite i.2.2 (w.1 + (ckptArgs x.p).offset + 4096) i.2.1).s (w.1 + (ckptArgs x.p).offset) (cleanBytes (imageHeader i.1))).s .ok := by
  have good : ¬((ckptArgs x.p).count = 0 ∨ 64 < (ckptArgs x.p).count ∨ (rs.all fun r => inHbm r.1 r.2) = false ∨ mediumOk d.2.2 (ckptArgs x.p) (imageLen (rs.map fun r => r.2)) = false) := by
    rw [hall, hmed]
    simp [h0, h64]
  simp only [checkpointOut, hin, if_true, hrs, hs, hd, hn, if_neg good, harm, hl, List.isEmpty_nil, Bool.true_eq_false, and_false, if_false, Bool.not_true, Bool.false_eq_true] <;> rfl

/-- The firmware's transfer leaves where its connection sends and a tag is free. -/
theorem addFirmwareOp_tagged {conn : BitVec 12} {kind : OpKind} {n tag : Nat} (h : s.freeTag 24 = some tag) :
    s.addFirmwareOp conn kind n
      = some (s.addOp { tag := tag, gen := s.tagGen tag, via := .conn conn, endpoint := 0, owner := .firmware, kind := kind, frames := 1, acked := 0, sent := 1, bytes := n }) := by
  rw [State.addFirmwareOp, h]
  rfl

theorem error_of_connSends {k : Conn} {ty : Nat} (h : connSends s k ty = true) : k.error = false := by
  simp only [connSends, Bool.and_eq_true, Bool.not_eq_true'] at h
  exact h.1.1.1

/-- A message held over a connection names that connection. -/
theorem conn_of_ckptOn {c : BitVec 12} {op : BitVec 16} {h : Held} (hh : (ckptOn s c op).head? = some h) : (ckptArgs (effPayload h.msg)).conn = c := by
  have mem := List.mem_of_mem_head? hh
  simp only [ckptOn, ckptOver, List.mem_filter, Bool.and_eq_true, beq_iff_eq] at mem
  exact mem.1.2.2

/-- CHECKPOINT_IN that may begin over Ethernet asks for its header and range table. -/
theorem checkpointIn_asks {k : Conn} {tag : Nat} (h0 : (ckptArgs x.p).count = 0) (ha : (ckptArgs x.p).addr = 0) (he : (ckptArgs x.p).ethernet = true)
    (hmed : mediumOk s (ckptArgs x.p) 4096 = true) (hk : s.conn (ckptArgs x.p).conn.toNat = some k) (hc : connSends s k 2 = true) (harm : anyArmed s = false)
    (htag : s.freeTag 24 = some tag) :
    checkpointIn m s x =
      let t := s.addOp { tag := tag, gen := s.tagGen tag, via := .conn (ckptArgs x.p).conn, endpoint := 0, owner := .firmware, kind := .read 0 headLen, frames := 1, acked := 0, sent := 1, bytes := headLen }
      .hold (((t.emit (.rdmaRead (ckptArgs x.p).conn.toNat (k.remoteVa + BitVec.ofNat 64 (ckptArgs x.p).offset) headLen)).packets (ckptArgs x.p).conn.toNat false 0).modConn
        (ckptArgs x.p).conn.toNat fun k => { k with sentReq := k.sentReq + ceilDiv headLen 4096 }) (heldOf 0x0B04 m 1) := by
  have good : ¬((ckptArgs x.p).count ≠ 0 ∨ (ckptArgs x.p).addr ≠ 0 ∨ mediumOk s (ckptArgs x.p) 4096 = false) := by
    rw [hmed]; simp [h0, ha]
  simp only [checkpointIn, if_neg good, harm, he, hk, error_of_connSends hc, askCkpt, hc, addFirmwareOp_tagged htag, Bool.false_eq_true, if_false, if_true]
  rfl

/-- CHECKPOINT_IN through the host window lands the image that it reads. -/
theorem checkpointIn_lands {w : Nat × Nat} {i : CkptImage} (h0 : (ckptArgs x.p).count = 0) (ha : (ckptArgs x.p).addr = 0) (he : (ckptArgs x.p).ethernet = false)
    (hw : s.host.window = some w) (hmed : mediumOk s (ckptArgs x.p) 4096 = true) (harm : anyArmed s = false)
    (hfirst : ckptLines s (ckptArgs x.p) (min headLen (w.2 - (ckptArgs x.p).offset)) false = [])
    (hv : s.scan [(w.1 + (ckptArgs x.p).offset, 4096)] = v) (hi : (imageAt fun j => v.hbmByte (w.1 + (ckptArgs x.p).offset + j)) = some i)
    (hlen : (ckptArgs x.p).offset + imageLen (i.ranges.map fun r => r.len) ≤ w.2) (hslot : anySlotUsed v = false)
    (hl : (ckptLines v (ckptArgs x.p) (imageLen (i.ranges.map fun r => r.len)) false ++ (i.ranges.flatMap fun r => snoopsFor v r.addr r.len true)) = []) :
    checkpointIn m s x = landImage (hbmRead v (w.1 + (ckptArgs x.p).offset + 4096) (imageLen (i.ranges.map fun r => r.len) - 4096)).2.2 x i
      (hbmRead v (w.1 + (ckptArgs x.p).offset + 4096) (imageLen (i.ranges.map fun r => r.len) - 4096)).1 := by
  have good : ¬((ckptArgs x.p).count ≠ 0 ∨ (ckptArgs x.p).addr ≠ 0 ∨ mediumOk s (ckptArgs x.p) 4096 = false) := by
    rw [hmed]; simp [h0, ha]
  simp only [checkpointIn, if_neg good, harm, he, hw, hfirst, hv, hi, if_neg (Nat.not_lt.mpr hlen), hslot, imageLines, hl, List.isEmpty_nil, Bool.not_true, Bool.false_eq_true, if_false]

/-- Settles O20, message by message. -/
theorem overturnCommandsTakeEffect : Obligations.OverturnCommandsTakeEffect := by
  intro m s
  dsimp only
  refine ⟨fun rs ha hin hs hd hr => ⟨fun hnil hready => ?_, fun hne => ?_⟩, fun r v ha hl hr hcl hov hab hpay harm hid hdiff => ?_,
    fun rs w ha hin hrs hs hd h0 h64 hall heth hw hmed harm hl => ?_, fun rs k tag ha hin hrs hs hd h0 h64 hall heth hmed hk hc harm hl htag => ?_,
    fun w i ha h0 haddr heth hw hmed harm hfirst hi hlen hslot hl => ?_, fun k tag ha h0 haddr heth hmed hk hc harm htag => ?_,
    fun conn data h hh => ⟨fun i himg => ⟨fun hslot hl => ?_, fun hslot => ?_⟩, fun i k himg hk hi => ?_⟩, fun i ha hc hq hp hst => ?_, rfl⟩
  · show execSetReplayLog m s = _
    refine serve_done ha ?_
    rw [setReplayLog_read hin hs hd hr]
    simp only [hnil, hready, List.isEmpty_nil, Bool.and_self, if_true]
  · show execSetReplayLog m s = _
    refine serve_held ha ?_
    rw [setReplayLog_read hin hs hd hr]
    simp only [List.isEmpty_eq_false_iff.mpr hne, Bool.false_and, Bool.false_eq_true, if_false]
  · show execReplayStep m s = _
    refine serve_held ha ?_
    have isolated : (bit (view m s).p 0 && !r.payloads) = false := by
      rw [Bool.and_eq_false_imp]
      exact fun h => by rw [hpay h]; rfl
    simp only [replayStep, hl, hr, hcl, hov, hab, isolated, harm, hid, hdiff, List.isEmpty_nil, bne_self_eq_false, Bool.not_true, Bool.or_self, Bool.false_eq_true, if_false]
  · show execCheckpointOut m s = _
    refine serve_done ha ?_
    rw [checkpointOut_read hin hrs hs rfl hd h0 h64 hall hmed harm hl]
    simp only [heth, hw, Bool.false_eq_true, if_false]
  · show execCheckpointOut m s = _
    refine serve_held ha ?_
    have noLines : ckptLines (hbmRead (begun m s) (ckptArgs (view m s).p).addr (16 * (ckptArgs (view m s).p).count)).2.2 (ckptArgs (view m s).p) (imageLen (rs.map fun r => r.2)) true = [] := by
      unfold ckptLines
      split
      · rfl
      · rw [if_pos heth]
    rw [checkpointOut_read hin hrs hs rfl hd h0 h64 hall hmed harm (by rw [hl, noLines]; rfl)]
    simp only [heth, hk, error_of_connSends hc, sendCkpt, hc, addFirmwareOp_tagged htag, Bool.false_eq_true, if_false, if_true]
  · show execCheckpointIn m s = _
    rw [execCheckpointIn, serve_accepted ha, checkpointIn_lands h0 haddr heth hw hmed harm hfirst rfl hi hlen hslot hl]
    rfl
  · show execCheckpointIn m s = _
    refine serve_held ha ?_
    rw [checkpointIn_asks h0 haddr heth hmed hk hc harm htag]
  · show execRdmaReadResponse conn data s = _
    simp only [execRdmaReadResponse, hh, himg, takeArrived, hslot, hl, List.isEmpty_nil, Bool.not_true, Bool.false_eq_true, if_false]
  · show execRdmaReadResponse conn data s = _
    simp only [execRdmaReadResponse, hh, himg, takeArrived, hslot, if_true]
  · show execRdmaReadResponse conn data s = _
    simp only [execRdmaReadResponse, hh, himg, hi, askImage, conn_of_ckptOn hh, hk]
  · show execAdoptStage m s = _
    refine serve_done ha ?_
    simp only [hc, hq, hp, hst, bne_self_eq_false, Bool.or_self, Bool.false_eq_true, if_false]

end Sys2Proof.Machine
end

section
/-! PROOFS. Power messages and SPDM requests -/

namespace Sys2Proof.Machine

variable {m : Msg} {s u : State}

/-- A core whose arrays are all gated, as in STANDBY. -/
def gateArrays (k : Core) : Core :=
  { k with arrays := (List.range 4).foldl (fun t i => tmod ArrayState.init t i fun a => { a with gated := 0xF, rampUp := false, rampDown := false }) k.arrays }

/-- Every array gated. -/
def allGated (s : State) : State := allCores.foldl (fun t c => t.modCore c gateArrays) s

/-- The device in STANDBY. -/
def enterStandby (s : State) : State := { allGated s with power := { (allGated s).power with standby := true, clock := [] } }

/-- What a core's change keeps, gating every array keeps. -/
theorem allGated_keeps {α : Type} (g : State → α) (h : ∀ s c, g (s.modCore c gateArrays) = g s) : g (allGated s) = g s := foldl_keeps (g := g) h _ _

theorem enterStandby_power : (enterStandby s).power = { s.power with standby := true, clock := [] } :=
  congrArg (fun p : Power => { p with standby := true, clock := [] }) (allGated_keeps State.power fun _ _ => rfl)

/-- What gating keeps and the power state is no part of, STANDBY keeps. -/
theorem enterStandby_keeps {α : Type} (g : State → α) (h : ∀ s c, g (s.modCore c gateArrays) = g s) (hp : ∀ (s : State) p, g { s with power := p } = g s) :
    g (enterStandby s) = g s := (hp _ _).trans (allGated_keeps g h)

/-- STANDBY keeps of a core what gating its arrays keeps. -/
theorem enterStandby_core {α : Type} (g : Core → α) (h : ∀ k, g (gateArrays k) = g k) (c : Nat) : g ((enterStandby s).core c) = g (s.core c) := by
  refine enterStandby_keeps (fun s : State => g (s.core c)) (fun s k => ?_) fun _ _ => rfl
  rw [core_modCore]
  split
  · next hk => rw [h, hk]
  · rfl

/-- The fields of GET_POWER's payload whose parts are words of the device. -/
theorem powerReply_fields (hf : u.fastest < 2 ^ 16) (hs : u.slowest < 2 ^ 16) : fld (BitVec.ofNat 384 (powerReply u)) 63 0 = u.power.energy.toNat
    ∧ fld (BitVec.ofNat 384 (powerReply u)) 79 64 = u.power.avgW.toNat ∧ fld (BitVec.ofNat 384 (powerReply u)) 95 80 = u.power.peakW.toNat
    ∧ fld (BitVec.ofNat 384 (powerReply u)) 111 96 = u.power.cap.toNat ∧ fld (BitVec.ofNat 384 (powerReply u)) 159 144 = u.power.mv.toNat := by
  have energy := u.power.energy.isLt
  have average := u.power.avgW.isLt
  have peak := u.power.peakW.isLt
  have cap := u.power.cap.isLt
  have mv := u.power.mv.isLt
  have high : ∃ h, powerReply u = u.power.energy.toNat + u.power.avgW.toNat * 2 ^ 64 + u.power.peakW.toNat * 2 ^ 80 + u.power.cap.toNat * 2 ^ 96 + u.fastest * 2 ^ 112
      + u.slowest * 2 ^ 128 + u.power.mv.toNat * 2 ^ 144 + h * 2 ^ 160 := by
    refine ⟨hottest u 0 41 + (tget 0 u.power.temps (hottest u 0 33)).toNat * 2 ^ 8 + (tget 0 u.power.temps (hottest u 33 8)).toNat * 2 ^ 16
      + (if u.power.standby then 2 ^ 24 else 0) + throttleBits u * 2 ^ 32, ?_⟩
    unfold powerReply
    simp only [Nat.add_mul, ite_mul, Nat.zero_mul, Nat.mul_assoc, ← Nat.pow_add, Nat.add_assoc, Nat.reduceAdd]
  obtain ⟨h, hh⟩ := high
  rw [hh, fld_ofNat (by decide), fld_ofNat (by decide), fld_ofNat (by decide), fld_ofNat (by decide), fld_ofNat (by decide)]
  simp only [Nat.reduceSub, Nat.reduceAdd] at *
  refine ⟨?_, ?_, ?_, ?_, ?_⟩ <;> omega

/-- A request of the negotiated version, in order and for slot 0, is answered. -/
theorem spdmServe_passes {r : SpdmReq} {t : State} (hr : s.ready = true) (hv : r.version = 0x13) (hn : s.sec.spdmReady = true) (h0 : r.slot = 0) :
    spdmServe r s t = .next t := by
  simp only [spdmServe, spdmAnswer, hr, hv, hn, h0, ne_eq, not_true_eq_false, Bool.not_true, Bool.false_eq_true, if_false, if_true]

/-- Settles O22, request by request. -/
theorem spdmRequestsAreAnswered : Obligations.SpdmRequestsAreAnswered := by
  intro r s hr
  refine ⟨?_, fun hv hsv => ⟨?_, fun hh ha => ?_⟩, fun hv hn => ⟨?_, fun h0 hc => ?_, fun h0 => ?_, fun h0 hsig hop => ?_, fun h0 hsig h1 h5 => ?_, fun h0 hsig hop => ?_,
    fun h0 hsig h1 h5 => ?_⟩⟩
  · show execGetVersion r s = _
    simp only [execGetVersion, spdmAnswer, hr, if_true]
  · show execSpdmGetCapabilities r s = _
    simp only [execSpdmGetCapabilities, spdmAnswer, hr, hv, hsv, and_self, if_true]
  · show execNegotiateAlgorithms r s = _
    simp only [execNegotiateAlgorithms, spdmAnswer, hr, hv, hsv, hh, ha, ne_eq, not_true_eq_false, or_self, Bool.and_self, if_false, if_true]
  · exact spdmServe_passes hr hv hn rfl
  · show execGetCertificate r s = _
    rw [execGetCertificate, spdmServe_passes hr hv hn h0, if_neg (Nat.not_lt.mpr hc)]
  · exact spdmServe_passes hr hv hn h0
  · show execGetMeasurements r s = _
    rw [execGetMeasurements, spdmServe_passes hr hv hn h0, hop, hsig]
    rfl
  · show execGetMeasurements r s = _
    rw [execGetMeasurements, spdmServe_passes hr hv hn h0, hsig]
    simp only [show ¬r.measOp.toNat = 0 by omega, show ¬r.measOp.toNat = 255 by omega, h5, if_false, if_true, Bool.false_eq_true]
  · show execGetMeasurements r s = _
    rw [execGetMeasurements, spdmServe_passes hr hv hn h0, hop, hsig]
    rfl
  · show execGetMeasurements r s = _
    rw [execGetMeasurements, spdmServe_passes hr hv hn h0, hsig]
    simp only [show ¬r.measOp.toNat = 0 by omega, show ¬r.measOp.toNat = 255 by omega, h5, if_false, if_true, List.flatMap_cons, List.flatMap_nil, List.append_nil, List.singleton_append]

theorem mhz_lt (c : Nat) : s.mhz c < 2 ^ 16 := (tget 800 s.power.clock c).isLt

/-- Some clock is the fastest one, or none is. -/
theorem fastest_lt : s.fastest < 2 ^ 16 := by
  unfold State.fastest
  suffices h : ∀ (l : List Nat) (a : Nat), a < 2 ^ 16 → l.foldl (fun a c => max a (s.mhz c)) a < 2 ^ 16 from h allCores 0 (by decide)
  intro l
  induction l with
  | nil => exact fun a ha => ha
  | cons c l ih => exact fun a ha => ih _ (max_lt ha (mhz_lt c))

theorem slowest_lt : s.slowest < 2 ^ 16 := by
  unfold State.slowest
  suffices h : ∀ (l : List Nat) (a : Nat), a < 2 ^ 16 → l.foldl (fun a c => min a (s.mhz c)) a < 2 ^ 16 from h allCores 1800 (by decide)
  intro l
  induction l with
  | nil => exact fun a ha => ha
  | cons c l ih => exact fun a ha => ih _ ((min_le_left _ _).trans_lt ha)

/-- Settles O21, message by message. -/
theorem powerMessagesTakeEffect : Obligations.PowerMessagesTakeEffect := by
  intro m s
  dsimp only
  refine ⟨fun ha => ⟨fun h0 => ?_, fun h1 harm => ?_⟩, fun ha hcap hlim => ?_, fun ha h0 => ?_, fun ha => ⟨powerReply (begun m s), ?_, powerReply_fields fastest_lt slowest_lt⟩⟩
  · show execSetPowerState m s = _
    refine serve_done ha ?_
    simp only [h0, Nat.not_lt_zero, if_false, if_true]
  · refine ⟨enterStandby (begun m s), ?_, enterStandby_power, enterStandby_keeps State.hbm (fun _ _ => rfl) fun _ _ => rfl,
      enterStandby_keeps State.stage (fun _ _ => rfl) fun _ _ => rfl, enterStandby_keeps State.err (fun _ _ => rfl) fun _ _ => rfl,
      fun c => ⟨enterStandby_core Core.spad (fun _ => rfl) c, enterStandby_core Core.queues (fun _ => rfl) c, enterStandby_core Core.events (fun _ => rfl) c⟩⟩
    show execSetPowerState m s = _
    refine serve_done ha ?_
    simp only [h1, harm, Nat.lt_irrefl, Nat.one_ne_zero, Bool.false_eq_true, if_false]
    rfl
  · show execSetClockLimits m s = _
    refine serve_done ha ?_
    have cap : ((view m s).f 79 64 != 0 && (decide ((view m s).f 79 64 < 400) || decide (1150 < (view m s).f 79 64))) = false := by
      rcases hcap with h | ⟨h, h'⟩
      · rw [h]; rfl
      · rw [decide_eq_false (Nat.not_lt.mpr h), decide_eq_false (Nat.not_lt.mpr h'), Bool.or_self, Bool.and_false]
    have limits : ((view m s).f 23 0 != 0 && !((view m s).f 47 32 % 25 == 0 && (view m s).f 63 48 % 25 == 0 && decide (800 ≤ (view m s).f 47 32)
        && decide ((view m s).f 47 32 ≤ (view m s).f 63 48) && decide ((view m s).f 63 48 ≤ 1800))) = false := by
      rcases hlim with h | ⟨hlo, hhi, h1, h2, h3⟩
      · rw [h]; rfl
      · simp only [hlo, hhi, h1, h2, h3, beq_self_eq_true, decide_true, Bool.and_self, Bool.not_true, Bool.and_false]
    simp only [cap, limits, Bool.or_self, Bool.false_eq_true, if_false]
  · show execSetRipple m s = _
    refine serve_done ha ?_
    rw [if_neg h0]
  · show execGetPower m s = _
    exact serve_done ha rfl

end Sys2Proof.Machine
end

section
/-! PROOFS. Control commands and SEND_SLOT -/

namespace Sys2Proof.Machine

variable {s : State} {r : Run} {b : Block} {d : BitVec 512} {c q : Nat}

/-- A fault that taints no data is the plain fault. -/
theorem faultS_eq_fault {e : Started} {st detail : Nat} (h : st ≠ 0x400 ∧ st ≠ 0x401 ∧ st ≠ 0x402 ∧ st ≠ 0x403) : e.faultS st detail = e.fault st detail := by
  obtain ⟨h0, h1, h2, h3⟩ := h
  have clean : (e.suspect || st == 0x400 || st == 0x401 || st == 0x402 || st == 0x403) = (e.fault st detail).suspect := by
    rw [beq_false_of_ne h0, beq_false_of_ne h1, beq_false_of_ne h2, beq_false_of_ne h3, Bool.or_false, Bool.or_false, Bool.or_false, Bool.or_false]
    unfold Started.fault
    split <;> rfl
  rw [Started.faultS, clean]

/-- A WAIT whose condition is decided ends with it. -/
theorem attemptWait_over {x : Nat × Nat} (h : waitEnd r.k r.e.desc = some x) : attemptWait r = { r with e := r.e.over x } := by
  rw [attemptWait, h]

/-- A WAIT whose condition has not come waits. -/
theorem attemptWait_blocked (h : waitEnd r.k r.e.desc = none) : attemptWait r = r.block .program := by
  rw [attemptWait, h]

/-- A WAIT that ends with success is done. -/
theorem over_ok : ({ r with e := r.e.over (0, 0) } : Run) = r.finish := rfl

/-- A WAIT on an overflowed counter ends with ARRIVAL_OVERFLOW. -/
theorem over_overflow {i : Nat} : ({ r with e := r.e.over (0x307, i) } : Run) = r.failWith 0x307 i := by
  unfold Run.failWith Run.fault
  rw [faultS_eq_fault (by decide)]
  rfl

/-- SIGNAL in its set form sets its event counter. -/
theorem attemptSignal_set (h : r.field 16 16 = 1) : attemptSignal r
    = Run.finish { r with s := r.s.modCore (r.field 4 0) fun k => ({ k with events := tset 0 k.events (r.field 13 8) (fb (cmdBody r.e.desc) 32 32) } : Core).settle } := by
  rw [attemptSignal, if_pos h]

/-- The upper word of a command's body as a number and as a word. -/
theorem fb_toNat {n : Nat} {x : BitVec n} : (fb x 32 32 : BitVec 32).toNat = fld x 63 32 := by
  rw [fb, fld, BitVec.extractLsb'_toNat]

/-- SIGNAL in its add form adds to its event counter. -/
theorem attemptSignal_add (h : r.field 16 16 = 0)
    (hs : (tget 0 (r.s.core (r.field 4 0)).events (r.field 13 8)).toNat + (fb (cmdBody r.e.desc) 32 32 : BitVec 32).toNat < 2 ^ 32) : attemptSignal r
    = Run.finish { r with s := r.s.modCore (r.field 4 0) fun k =>
        ({ k with events := tset 0 k.events (r.field 13 8) (tget 0 (r.s.core (r.field 4 0)).events (r.field 13 8) + fb (cmdBody r.e.desc) 32 32) } : Core).settle } := by
  have sum : satAdd32 (tget 0 (r.s.core (r.field 4 0)).events (r.field 13 8)) (r.field 63 32)
      = (tget 0 (r.s.core (r.field 4 0)).events (r.field 13 8) + fb (cmdBody r.e.desc) 32 32, false) := by
    rw [show r.field 63 32 = (fb (cmdBody r.e.desc) 32 32 : BitVec 32).toNat from fb_toNat.symm, satAdd32, if_pos (by omega), BitVec.ofNat_add, BitVec.ofNat_toNat, BitVec.ofNat_toNat,
      BitVec.setWidth_eq, BitVec.setWidth_eq]
  rw [attemptSignal, if_neg (by omega)]
  simp only [addEvent, sum, Bool.false_eq_true, if_false]

/-- Settles O23, command by command. -/
theorem controlCommandsDoTheirWork : Obligations.ControlCommandsDoTheirWork := by
  intro core queue s b d
  dsimp only
  have entry : (entered core.val queue.val s b d).e.desc = d := rfl
  have field (hi lo : Nat) : (entered core.val queue.val s b d).field hi lo = fld (cmdBody d) hi lo := rfl
  generalize hr : entered core.val queue.val s b d = r at entry field ⊢
  have runs {op : Nat} {attempt : Run → Run} (h : starts op core.val queue.val s anyTime b d = true) : startCmd [op] core.val queue.val s anyTime attempt = stored (attempt r) :=
    hr ▸ startCmd_starts h
  refine ⟨fun h => runs h, fun h => ⟨fun h0 hle => ?_, fun h0 hlt => ?_, fun h0 hov hle => ?_, fun h0 hov => ?_⟩, fun h => ⟨fun hset => ?_, fun hadd hsum => ?_⟩,
    fun h hthere => ⟨fun hq hst hmb hdig => ?_, fun hq hst => ?_, fun hq hst => ?_, fun hq hst => ?_⟩, fun h hthere hmb => ⟨fun hq hst hiso => ?_, fun hq hst => ?_⟩⟩
  · show execWait core queue s = _
    rw [execWait, runs h, attemptWait_over (x := (0, 0)) (by rw [entry]; simp only [waitEnd, if_pos h0, if_pos hle]), over_ok]
  · show execWait core queue s = _
    rw [execWait, runs h, attemptWait_blocked (by rw [entry]; simp only [waitEnd, if_pos h0, if_neg (Nat.not_le.mpr hlt)])]
  · show execWait core queue s = _
    rw [execWait, runs h, attemptWait_over (x := (0, 0)) (by rw [entry]; simp only [waitEnd, if_neg h0, hov, if_pos hle, Bool.false_eq_true, if_false]), over_ok]
  · show execWait core queue s = _
    rw [execWait, runs h, attemptWait_over (x := (0x307, fld (cmdBody d) 15 8)) (by rw [entry]; simp only [waitEnd, if_neg h0, hov, if_true]), over_overflow]
  · show execSignal core queue s = _
    rw [execSignal, runs h, attemptSignal_set (by rw [field]; exact hset), field, field, entry]
  · show execSignal core queue s = _
    rw [execSignal, runs h, attemptSignal_add (by rw [field]; exact hadd) (by rw [field, field, entry]; exact hsum), field, field, entry]
  · show execWaitSlot core queue s = _
    rw [execWaitSlot, runs h]
    simp only [attemptWaitSlot, field, entry, hthere, hst, hmb, hdig, if_pos hq, bne_self_eq_false, Bool.not_true, Bool.false_eq_true, if_false]
  · show execWaitSlot core queue s = _
    rw [execWaitSlot, runs h]
    simp only [attemptWaitSlot, field, entry, hthere, if_pos hq, bne_iff_ne.mpr hst, Bool.not_true, Bool.false_eq_true, if_false, if_true]
  · show execWaitSlot core queue s = _
    rw [execWaitSlot, runs h]
    simp only [attemptWaitSlot, field, entry, hthere, hst, if_neg (Nat.not_lt.mpr hq), Bool.not_true, Bool.false_eq_true, if_false, if_true]
  · show execWaitSlot core queue s = _
    rw [execWaitSlot, runs h]
    simp only [attemptWaitSlot, field, entry, hthere, if_neg hst, if_neg (Nat.not_lt.mpr hq), Bool.not_true, Bool.false_eq_true, if_false]
  · show execReleaseSlot core queue s = _
    rw [execReleaseSlot, runs h]
    have open' : State.isolated { r.s with stage := r.s.stage.modSlot (fld (cmdBody d) 1 0) (fld (cmdBody d) 15 8) fun x => { x.empty with gen := x.gen + 1 } } = false := hiso
    simp only [attemptReleaseSlot, field, entry, hthere, hst, hmb, open', if_pos hq, bne_self_eq_false, Bool.not_true, Bool.or_self, Bool.false_eq_true, if_false]
  · show execReleaseSlot core queue s = _
    rw [execReleaseSlot, runs h]
    simp only [attemptReleaseSlot, field, entry, hthere, hst, hmb, if_neg (Nat.not_lt.mpr hq), bne_self_eq_false, Bool.not_true, Bool.or_self, Bool.false_eq_true, if_false]

/-- A send whose slot is SENDING, outside a replay, with a path, a credit, a tag and no snoop to wait for leaves under its credit. -/
theorem sendOn_launches {k : MbQueue} {i want p tag rs : Nat} {a : StageAddr} {via : Via} {gen : BitVec 16} {r2 r' : Run} (hrep : r.s.ovt.replay = none)
    (ha : r.s.stage.receiver q = some a) (h2 : r.fixProfile ((r.s.endpoint a.endpoint.toNat).bind fun e => e.profile) = r2) (hg : gateOf r2.s (some a.endpoint.toNat) want = .go via p)
    (hrs : fld (cmdBody r2.e.desc) 63 32 % a.peerInSlots = rs) (hc : (r2.s.stage.rslot q rs).credit = some gen) (ht : r2.s.freeTag r2.core = some tag)
    (hco : r2.coherent [(slotAddr k i, slotExpected k (r2.s.stage.slot q i))] [] = .go r') :
    r.sendOn k q i want = r'.launch k q i tag via a.endpoint.toNat rs gen ((r'.e.profile.map BitVec.toNat).getD p) := by
  simp only [Run.sendOn, hrep, ha, h2, hg, hrs, hc, ht, hco]

/-- A command's slot becomes SENDING, and the command notes that it has begun. -/
def Run.sending (r : Run) (q i : Nat) : Run := { r.modSlot q i fun x => { x with state := 4, counter := 0 } with e := { r.e with cursor := 1 } }

/-- A SEND_SLOT that begins on a slot with its data makes it SENDING and goes on. -/
theorem attemptSendSlot_begins {k : MbQueue} {want : Nat} (h0 : r.e.cursor = 0) (hk : r.s.stage.queue (r.field 1 0) = some k)
    (hthere : slotThere r.s (r.field 1 0) (r.field 15 8) = true) (hst : (r.s.stage.slot (r.field 1 0) (r.field 15 8)).state = 3)
    (hmb : (r.s.stage.slot (r.field 1 0) (r.field 15 8)).mb = fb (cmdBody r.e.desc) 32 32) :
    attemptSendSlot want r = (({ r with e := { r.e with wait := .none } } : Run).sending (r.field 1 0) (r.field 15 8)).sendOn k (r.field 1 0) (r.field 15 8) want := by
  simp only [attemptSendSlot, hk, hthere, hst, hmb, h0, OfNat.zero_ne_ofNat, zero_ne_one, bne_self_eq_false, Bool.not_true, Bool.or_self, Bool.false_eq_true, if_false]
  rfl

/-- Settles O24: the command begins, and goes on as `sendOn_launches` says. -/
theorem sendSlotSendsUnderItsCredit : Obligations.SendSlotSendsUnderItsCredit := by
  intro core queue port s b d k a gen via p tag r' q i r0 r1 r2 rs h hk hthere hst hmb hrep ha hg hc ht hco
  show execSendSlot core queue port s = _
  rw [execSendSlot, startCmd_starts h, attemptSendSlot_begins rfl hk hthere hst hmb]
  exact congrArg stored (sendOn_launches (r := r1) hrep ha rfl hg rfl hc ht hco)

end Sys2Proof.Machine
end

section
/-! PROOFS. Matrix commands -/

namespace Sys2Proof.Machine

variable {s : State} {r : Run} {b : Block} {d : BitVec 512}

/-! What faults and local reads leave alone. -/

/-- What faults leave alone of a run. -/
theorem fault_keeps {α : Type} (g : Run → α) (h : ∀ (r : Run) st det sus, g { r with e := { r.e with status := st, detail := det, suspect := sus } } = g r) {st detail : Nat} :
    g (r.fault st detail) = g r := by
  unfold Run.fault Started.faultS Started.fault
  split
  · exact h r _ _ _
  · exact h r r.e.status r.e.detail _

theorem faults_keeps {α : Type} (g : Run → α) (h : ∀ (r : Run) st det sus, g { r with e := { r.e with status := st, detail := det, suspect := sus } } = g r) {l : List (Nat × Nat)} :
    g (r.faults l) = g r := foldl_keeps (g := g) (fun _ _ => fault_keeps g h) l r

/-- A local read changes what its command has met, and the source of unknown values. -/
theorem localRead_keeps {α : Type} (g : Run → α) (h : ∀ (r : Run) st det sus, g { r with e := { r.e with status := st, detail := det, suspect := sus } } = g r)
    (hf : ∀ (r : Run) n, g { r with s := { r.s with fresh := n } } = g r) {base a n : Nat} : g (r.localRead base a n).2 = g r := by
  unfold Run.localRead
  dsimp only
  rw [faults_keeps g h]
  split
  · rw [fault_keeps g h]
    split
    · exact hf r _
    · rfl
  · split
    · exact hf r _
    · rfl

theorem fault_desc {st detail : Nat} : (r.fault st detail).e.desc = r.e.desc := fault_keeps (fun r => r.e.desc) fun _ _ _ _ => rfl

theorem failWith_desc {st detail : Nat} : (r.failWith st detail).e.desc = r.e.desc := fault_desc

theorem localRead_desc {base a n : Nat} : (r.localRead base a n).2.e.desc = r.e.desc := localRead_keeps (fun r => r.e.desc) (fun _ _ _ _ => rfl) fun _ _ => rfl

theorem readRec_desc {c : EpiCfg} : (r.readRec c).2.e.desc = r.e.desc := by
  unfold Run.readRec
  split
  · rfl
  · dsimp only
    split
    · exact localRead_desc
    · split
      · exact localRead_desc
      · exact failWith_desc.trans localRead_desc

theorem checked_done {ms : List Mismatch} : (r.checked ms).e.done = r.e.done := by
  unfold Run.checked
  split
  · rfl
  · exact fault_keeps (fun r => r.e.done) fun _ _ _ _ => rfl

/-- A matrix command whose record is read and whose panels end without a fault is checked, tapped and held back. -/
theorem attemptMatrix_runs {us : List ArrayUpset} {late : List Nat} {x : BitVec 512} (hx : ((takeArrays r).readRec (epiCfg (matArgs r.e.desc).epi)).1 = some x)
    (hd : dropTooFar (epiCfg (matArgs r.e.desc).epi) x (matArgs r.e.desc).tokens (matArgs r.e.desc).vectors = false)
    (hw : (matPanels (matArgs r.e.desc) r.actl (epiCfg (matArgs r.e.desc).epi) x us (late.eraseDups.filter fun i => decide (i < (matArgs r.e.desc).tokens * (matArgs r.e.desc).vectors))
      ((takeArrays r).readRec (epiCfg (matArgs r.e.desc).epi)).2).run.e.done = false) :
    attemptMatrix us late r =
      let m := matArgs r.e.desc
      let c := epiCfg m.epi
      let r0 := ((takeArrays r).readRec c).2
      let ls := late.eraseDups.filter fun i => decide (i < m.tokens * m.vectors)
      let w := matPanels m r.actl c x us ls r0
      let t := (w.run.checked (allChecks m r.actl us w.reached w.rows w.wts)).tap c x r.actl (tapImage m.tokens m.vectors c.fmt w.outs)
      (t.holdBack r0.k m.out c.fmt (ls.map fun i =>
        (m.out + layoutOff m.vectors c.fmt (i / m.vectors) (i % m.vectors), (((w.outs.getD (i / m.vectors) [])[i % m.vectors]?).map fun o => o.flags).getD 0))).outsDone := by
  have control : ((takeArrays r).readRec (epiCfg (matArgs r.e.desc).epi)).2.actl = r.actl := by
    rw [Run.actl, readRec_desc]
    rfl
  simp only [attemptMatrix, hx, hd, matWork, control, hw, checked_done, Bool.false_eq_true, if_false]

/-- A panel of a running matrix command whose epilogue vectors are read writes its outputs. -/
theorem matPanel_run {m : MatArgs} {a : Actl} {c : EpiCfg} {x : BitVec 512} {us : List ArrayUpset} {late : List Nat} {st : MatRun} {lt p : Nat} {v : EpiVecs} (hd : st.run.e.done = false) :
    let lanes := (shapeGeom m.shape m.statFmt).lanes
    let t0 := lt * lanes
    let n0 := p * m.panel
    let tn := min lanes (m.tokens - t0)
    let nn := min m.panel (m.vectors - n0)
    let g := loadPanel m a lt p tn nn st
    let start := accStart m a t0 tn n0 nn g.2.2
    let rv := start.2.readVecs c x n0 nn
    rv.1 = some v →
    (matPanel m a c x us late st (lt, p)).run = rv.2.writeGrid m.out m.vectors c.fmt t0 n0 late (epiGrid rv.2.k rv.2.e a us c x v t0 n0 (accumulators m a us lt p g.1 g.2.1 start.1)) := by
  intro lanes t0 n0 tn nn g start rv hv
  unfold matPanel
  rw [hd, if_neg Bool.false_ne_true]
  dsimp only
  rw [show ((accStart m a (lt * (shapeGeom m.shape m.statFmt).lanes) (min (shapeGeom m.shape m.statFmt).lanes (m.tokens - lt * (shapeGeom m.shape m.statFmt).lanes)) (p * m.panel)
    (min m.panel (m.vectors - p * m.panel)) (loadPanel m a lt p (min (shapeGeom m.shape m.statFmt).lanes (m.tokens - lt * (shapeGeom m.shape m.statFmt).lanes))
    (min m.panel (m.vectors - p * m.panel)) st).2.2).2.readVecs c x (p * m.panel) (min m.panel (m.vectors - p * m.panel))).1 = some v from hv]

/-- An ELTWISE whose record, operands and epilogue vectors are read writes its products' outputs, taps them and holds the late ones back. -/
theorem attemptEltwise_runs {us : List ArrayUpset} {late : List Nat} {x : BitVec 512} {v : EpiVecs} (hx : ((takeArrays r).readRec (eltEpi r)).1 = some x)
    (hd : dropTooFar (eltEpi r) x 1 (eltCount (cmdBody r.e.desc)) = false) (hv : (eltVecs r x).1 = some v) :
    attemptEltwise us late r =
      let c := eltEpi r
      let out := fld (cmdBody r.e.desc) 183 160
      let ls := late.eraseDups.filter fun i => decide (i < eltCount (cmdBody r.e.desc))
      let rv := eltVecs r x
      let outs := (epiGrid rv.2.k rv.2.e r.actl us c x v 0 0 [((eltRead r).1.map (eltProduct r.actl)).zipIdx.map fun p => (drainErr us 0 p.2 p.1.1, p.1.2)]).flatten
      let w := (rv.2.localWrite out out (outBytes c.fmt outs)).flag (dueFlags ls 0 outs)
      ((w.tap c x r.actl (outs.flatMap fun o => leBytes (fmtBytes c.fmt) o.tap)).holdBack rv.2.k out c.fmt (ls.map fun i =>
        (out + i * fmtBytes c.fmt, ((outs[i]?).map fun o => o.flags).getD 0))).outsDone := by
  unfold eltEpi at hx hd
  unfold eltVecs eltRead eltEpi at hv
  dsimp only at hv
  unfold attemptEltwise
  dsimp only
  simp only [hx, hd, hv, Bool.false_eq_true, if_false]
  rfl

/-- Settles O25: the matrix commands by `attemptMatrix_runs` and `matPanel_run`, ELTWISE by `attemptEltwise_runs`. -/
theorem matrixCommandsComputeTheirOutputs : Obligations.MatrixCommandsComputeTheirOutputs := by
  intro core queue us late s b d x r a
  refine ⟨?_, ?_, ?_⟩
  · intro op hop h m c r0 ls hx hd w hw t
    have runs := congrArg stored (attemptMatrix_runs (r := entered core.val queue.val s b d) hx hd hw)
    rcases hop with rfl | rfl
    · show execMatmul core queue us late s = _
      rw [execMatmul, startCmd_starts h]
      exact runs
    · show execConv core queue us late s = _
      rw [execConv, startCmd_starts h]
      exact runs
  · exact fun m c ls st lt p v hd => matPanel_run hd
  · intro v h bd c n out ls hx hd g rv hv outs w
    show execEltwise core queue us late s = _
    rw [execEltwise, startCmd_starts h]
    exact congrArg stored (attemptEltwise_runs (r := entered core.val queue.val s b d) hx hd hv)

end Sys2Proof.Machine
end

section
/-! PROOFS. Vector commands -/

namespace Sys2Proof.Machine

variable {s : State} {r w : Run} {b : Block} {d : BitVec 512} {v : VecArgs} {x : BitVec 512} {row : Nat}

/-! Reading a local range leaves the core, and what a command draws its random bits from. -/

theorem rowBytesAt_some {base a n : Nat} {bs : List Byte} (h : (r.rowBytesAt base a n).1 = some bs) : (r.rowBytesAt base a n).2 = (r.localRead base a n).2 := by
  unfold Run.rowBytesAt at h ⊢
  dsimp only at h ⊢
  split at h
  · cases h
  · next hg => rw [if_neg hg]

theorem rowBytesAt_k {base a n : Nat} {bs : List Byte} (h : (r.rowBytesAt base a n).1 = some bs) : (r.rowBytesAt base a n).2.k = r.k := by
  rw [rowBytesAt_some h]
  exact localRead_keeps Run.k (fun _ _ _ _ => rfl) (fun _ _ => rfl)

/-- The draws of a dropout depend on the command's seed and place. -/
theorem rowBytesAt_dropKeeps {base a n i : Nat} {bs : List Byte} (h : (r.rowBytesAt base a n).1 = some bs) : dropKeeps (r.rowBytesAt base a n).2.e x i = dropKeeps r.e x i := by
  rw [rowBytesAt_some h]
  exact localRead_keeps (fun r => dropKeeps r.e x i) (fun _ _ _ _ => rfl) (fun _ _ => rfl)

/-- A row of an elementwise command of one operand. -/
theorem vecRow_unary {bs : List Byte} (hu : v.unary = true) (h : (r.rowBytesAt v.a (v.a + row * v.stride v.aFmt) (rowBytes v.aFmt v.len)).1 = some bs) :
    r.vecRow v x row = (r.rowBytesAt v.a (v.a + row * v.stride v.aFmt) (rowBytes v.aFmt v.len)).2.writeRow
      (unaryRow (r.rowBytesAt v.a (v.a + row * v.stride v.aFmt) (rowBytes v.aFmt v.len)).2.k (r.rowBytesAt v.a (v.a + row * v.stride v.aFmt) (rowBytes v.aFmt v.len)).2.e
        v (actlOf v.actl) x row bs) := by
  have draws : unaryRow r.k (r.rowBytesAt v.a (v.a + row * v.stride v.aFmt) (rowBytes v.aFmt v.len)).2.e v (actlOf v.actl) x row bs = unaryRow r.k r.e v (actlOf v.actl) x row bs := by
    unfold unaryRow dropRow
    simp only [rowBytesAt_dropKeeps h]
  rw [rowBytesAt_k h, draws]
  simp only [Run.vecRow, hu, if_true, h]

theorem op_of_starts {op c q : Nat} {accept : State → BitVec 512 → Bool} (h : starts op c q s accept b d = true) : cmdOp d = op := by
  simp only [starts, Bool.and_eq_true, beq_iff_eq] at h
  obtain ⟨⟨⟨⟨-, hop⟩, -⟩, -⟩, -⟩ := h
  exact hop

/-- A dropout whose record is read works row by row. -/
theorem attemptVector_drop (hop : (vecArgs r.e.desc).op = 0x20 ∧ (vecArgs r.e.desc).func = 9) (hx : ((takeVector r).readRec (dropCfg (vecArgs r.e.desc))).1 = some x)
    (hd : dropTooFar (dropCfg (vecArgs r.e.desc)) x (vecArgs r.e.desc).rows (vecArgs r.e.desc).len = false) :
    attemptVector r = (Run.vecRows (vecArgs r.e.desc) x (vecArgs r.e.desc).rows 0 ((takeVector r).readRec (dropCfg (vecArgs r.e.desc))).2).finish := by
  simp only [attemptVector, if_pos hop, hx, hd, Bool.false_eq_true, if_false]

/-- A row of a command that works on whole rows, from the operands that it uses. -/
theorem vecRow_plain {xv yv zv : List FV} (hu : v.unary = false) (hop : ¬(v.op = 0x23 ∧ v.func = 1)) :
    let a := actlOf v.actl
    let xs := r.rowVals true a v.aFmt v.a (row * v.stride v.aFmt) v.len
    let ys := xs.2.rowVals v.uses.1 a v.bFmt v.b (if v.bBcast then 0 else row * v.stride v.bFmt) v.len
    let zs := ys.2.rowVals v.uses.2.1 a v.bFmt v.c (if v.cBcast then 0 else row * v.stride v.bFmt) v.len
    xs.1 = some xv → ys.1 = some yv → zs.1 = some zv → r.vecRow v x row = zs.2.writeRow (plainRow v a row xv yv zv) := by
  intro a xs ys zs hx hy hz
  simp only [xs, ys, zs] at hx hy hz
  simp only [Run.vecRow, hu, if_neg hop, hx, hy, hz, Bool.false_eq_true, if_false, xs, ys, zs, a]

/-- A row of the online softmax, from its values and its record. -/
theorem vecRow_online {xv : List FV} {p : (FV × Flags) × (FV × Flags)} (hop : v.op = 0x23) (hf : v.func = 1) :
    let a := actlOf v.actl
    let xs := r.rowVals true a v.aFmt v.a (row * v.stride v.aFmt) v.len
    xs.1 = some xv → (xs.2.softRec v a row).1 = some p → r.vecRow v x row = (xs.2.softRec v a row).2.writeRow (onlineRow v a row xv p.1 p.2) := by
  intro a xs hx hp
  have hu : v.unary = false := by rw [VecArgs.unary, hop]; rfl
  simp only [xs, a] at hx hp
  simp only [Run.vecRow, hu, if_pos (And.intro hop hf), hx, hp, Bool.false_eq_true, if_false, xs, a]

/-- Settles O26: the command takes the unit and goes through its rows, each by the lemma of its kind. -/
theorem vectorCommandsWorkRowByRow : Obligations.VectorCommandsWorkRowByRow := by
  intro core queue s b d r v a
  refine ⟨?_, ?_, ?_, ?_, ?_⟩
  · intro op i hi h hv
    have runs : attemptVector (entered core.val queue.val s b d) = (Run.vecRows v 0 v.rows 0 r).finish := if_neg hv
    have begins : startCmd [op] core.val queue.val s (vectorAccepts core.val) attemptVector = stored (Run.vecRows v 0 v.rows 0 r).finish := by
      rw [startCmd_starts h, runs]
    simp only [List.mem_cons, Prod.mk.injEq, List.not_mem_nil, or_false] at hi
    rcases hi with ⟨rfl, rfl⟩ | ⟨rfl, rfl⟩ | ⟨rfl, rfl⟩ | ⟨rfl, rfl⟩ | ⟨rfl, rfl⟩ <;> exact begins
  · intro x h hf hx hd
    have hop : v.op = 0x20 := op_of_starts h
    show execVecElem core queue s = _
    rw [execVecElem, startCmd_starts h]
    exact congrArg stored (attemptVector_drop (r := entered core.val queue.val s b d) ⟨hop, hf⟩ hx hd)
  · intro x row r xv yv zv hu xs ys zs hop
    exact vecRow_plain hu hop
  · intro x row r xv p xs hop hf
    exact vecRow_online hop hf
  · intro x row r bs hu hb w
    exact vecRow_unary hu hb

end Sys2Proof.Machine
end

section
/-! PROOFS. DMA and tag commands -/

namespace Sys2Proof.Machine

variable {s : State} {r w : Run} {b : Block} {d : BitVec 512} {sd : Side × Side} {t : TagPlan} {n : Nat}

/-! A transfer's work stays that of its command. -/

/-- The command that a run works on: its core, its queue and its number. -/
def Run.ident (r : Run) : Nat × Nat × Nat := (r.core, r.queue, r.e.id)

theorem fault_ident {st detail : Nat} : (r.fault st detail).ident = r.ident := fault_keeps Run.ident fun _ _ _ _ => rfl

theorem faults_ident {l : List (Nat × Nat)} : (r.faults l).ident = r.ident := faults_keeps Run.ident fun _ _ _ _ => rfl

theorem failWith_ident {st detail : Nat} : (r.failWith st detail).ident = r.ident := fault_ident (r := r)

theorem localRead_ident {base a n : Nat} : (r.localRead base a n).2.ident = r.ident := localRead_keeps Run.ident (fun _ _ _ _ => rfl) fun _ _ => rfl

theorem openFault_ident {st : Nat} : (r.openFault st).ident = r.ident := by
  unfold Run.openFault
  exact fault_ident

theorem fabric_ident {bs : List Bt} : (r.fabric bs).2.ident = r.ident := by
  unfold Run.fabric
  split
  · rfl
  · dsimp only
    split
    · exact openFault_ident
    · rfl

theorem readSide_ident {side : Side} {pos n : Nat} : (r.readSide side pos n).2.ident = r.ident := by
  unfold Run.readSide
  split
  · exact localRead_ident
  · refine foldl_keeps (g := fun x : List Bt × Run => x.2.ident) ?_ _ _
    exact fun acc p => localRead_ident (r := acc.2)
  · exact faults_ident
  · rfl

theorem carry_ident {keep : Bool} {bs : List Bt} : (r.carry sd keep bs).2.ident = r.ident := by
  unfold Run.carry
  dsimp only
  split
  · exact fabric_ident
  · rfl

theorem tagGate_ident {slot addr : Nat} {full : Bool} (h : r.tagGate slot addr full = some w) : w.ident = r.ident := by
  unfold Run.tagGate at h
  split at h
  · cases h
    exact failWith_ident
  · split at h <;> cases h
    rfl

theorem gates_ident {pos k : Nat} : (r.gates sd t pos k).1.ident = r.ident := by
  have gate : ∀ (acc : Run × Bool) (slot addr : Nat) (full : Bool), (if !acc.2 then acc
      else match acc.1.tagGate slot addr full with
        | some x => (x, false)
        | none => ({ acc.1 with e := { acc.1.e with granted := acc.1.e.granted ++ [(slot, full)] } }, true)).1.ident = acc.1.ident := by
    intro acc slot addr full
    split
    · rfl
    · split
      next stops => exact tagGate_ident stops
      next => rfl
  unfold Run.gates
  dsimp only
  split
  · refine (foldl_keeps (g := fun x : Run × Bool => x.1.ident) (fun acc y => gate acc _ _ _) _ _).trans ?_
    split
    · exact foldl_keeps (g := fun x : Run × Bool => x.1.ident) (fun acc y => gate acc _ _ _) _ _
    · rfl
  · split
    · exact foldl_keeps (g := fun x : Run × Bool => x.1.ident) (fun acc y => gate acc _ _ _) _ _
    · rfl

/-- A change of the state only is no change of the command. -/
theorem ident_withState {u : State} : ({ r with s := u } : Run).ident = r.ident := rfl

theorem setSlots_ident {xs : List (Nat × Nat)} {v : Bool} : (r.setSlots xs v).ident = r.ident := by
  unfold Run.setSlots
  exact foldl_keeps (g := Run.ident) (fun _ _ => ident_withState) _ _

theorem tagEffects_ident {stop n : Nat} : (r.tagEffects sd t stop n).ident = r.ident := by
  unfold Run.tagEffects
  dsimp only
  split
  · rw [setSlots_ident]
    split
    · exact setSlots_ident
    · rfl
  · split
    · exact setSlots_ident
    · rfl

/-- A chunk that keeps its bytes works on for its command. -/
theorem chunk_ident : (r.chunk sd true t n).ident = r.ident := by
  unfold Run.chunk
  dsimp only
  generalize min (n - r.e.cursor) _ = k
  have gated := gates_ident (r := r) (sd := sd) (t := t) (pos := r.e.cursor) (k := k)
  generalize r.gates sd t r.e.cursor k = g at gated ⊢
  split
  · exact gated
  · have got := readSide_ident (r := g.1) (side := sd.1) (pos := r.e.cursor) (n := k)
    generalize g.1.readSide sd.1 r.e.cursor k = d at got ⊢
    have carried := carry_ident (r := d.2) (sd := sd) (keep := true) (bs := d.1.takeWhile fun b => b.got)
    generalize d.2.carry sd true (d.1.takeWhile fun b => b.got) = c at carried ⊢
    rw [if_pos rfl]
    have work : c.2.ident = r.ident := carried.trans (got.trans gated)
    split
    · exact work
    · exact tagEffects_ident.trans work

theorem chunks_ident {fuel : Nat} : (Run.chunks sd true t n fuel r).ident = r.ident := by
  induction fuel generalizing r with
  | zero => rfl
  | succ fuel ih =>
    unfold Run.chunks
    split
    · rfl
    · dsimp only
      split
      · exact chunk_ident
      · exact ih.trans chunk_ident

theorem reserve_ident (h : r.reserve n = some w) : w.ident = r.ident := by
  unfold Run.reserve at h
  split at h
  · cases h
  · split at h
    · cases h
    · split at h
      · cases h
        exact openFault_ident (r := r) (st := 0x300)
      · split at h <;> cases h <;> rfl

theorem coherent_go_ident {reads writes : List (Nat × Nat)} (h : r.coherent reads writes = .go w) : w.ident = r.ident := by
  unfold Run.coherent at h
  dsimp only at h
  split at h
  · split at h <;> cases h <;> rfl
  · split at h <;> cases h

/-! DMA commands at their start. -/

/-- A transfer whose ring, if any, has reserved its bytes goes on. -/
theorem attemptDma_transfers {want : Nat} {r0 : Run} (hw : r.e.wait = .none)
    (h : (r.reserve (dmaLen r.e.desc) = none ∧ r0 = r) ∨ (r.reserve (dmaLen r.e.desc) = some r0 ∧ r0.e.wait = .none)) :
    attemptDma want r = r0.transfer (dmaSides r.s r.core r.e.desc) (dmaLen r.e.desc) want := by
  have same : ({ r with e := { r.e with wait := .none } } : Run) = r := by rw [← hw]
  rw [attemptDma_eq]
  dsimp only
  rw [same]
  rcases h with ⟨hn, rfl⟩ | ⟨hs, hr⟩
  · rw [hn]
  · rw [hs]
    exact if_pos hr

/-- A transfer within the device, from its start. -/
theorem transfer_inside {want : Nat} {r1 : Run} (h1 : sd.1.remote = false) (h2 : sd.2.remote = false) (h0 : r.e.cursor = 0)
    (hco : r.coherent (sideRange sd.1 0 n) (sideRange sd.2 0 n) = .go r1) (hd : (Run.chunks sd false r1.tagPlan n (2 * (n / 2048 + 8)) r1).e.done = false)
    (hc : n ≤ (Run.chunks sd false r1.tagPlan n (2 * (n / 2048 + 8)) r1).e.cursor) :
    r.transfer sd n want = ((Run.chunks sd false r1.tagPlan n (2 * (n / 2048 + 8)) r1).countCopy sd.2 n).finish := by
  simp only [Run.transfer, h1, h2, Run.inside, h0, hco, hd, decide_eq_false (Nat.not_lt.mpr hc), Bool.or_self, Bool.false_eq_true, if_false]

/-- A transfer into another chip, from its start. -/
theorem transfer_toRemote {want p tag : Nat} {via : Via} {r1 : Run} (h1 : sd.1.remote = false) (h2 : sd.2.remote = true) (h0 : r.e.cursor = 0)
    (hco : r.coherent (sideRange sd.1 0 n) [] = .go r1) (hg : gateOf r1.s (r1.target sd.2).1 want = .go via p) :
    let r2 := Run.chunks sd true { r1.tagPlan with guarded := false, publish := false } n (n / 2048 + 8) r1
    r2.e.done = false → n ≤ r2.e.cursor → gateOf r2.s (r2.target sd.2).1 want = .go via p → r2.s.freeTag r2.core = some tag →
    r.transfer sd n want = Run.block { r2 with
      s := sendWrite r2.s (.cmd r2.core r2.queue r2.e.id) .write tag via ((r2.target sd.2).1.getD 0) 2 { (r2.target sd.2).2.1 with publish := r2.field 15 14 == 2 } (r2.target sd.2).2.2 (bufBytes r2.e.buf)
      e := { r2.e with cursor := n + 1, buf := [] } } .net := by
  intro r2 hd hc hg2 ht
  have begun0 : ¬r1.e.cursor = n + 1 := by rw [(coherent_go_still hco).cursor, h0]; omega
  obtain ⟨src, dst⟩ := sd
  simp only [r2] at hd hc hg2 ht
  simp only [Run.transfer, h1, h2, h0, Nat.zero_min, hco, Bool.false_eq_true, if_false, if_true]
  cases src
  case board => cases h1
  case win => cases h1
  all_goals
    simp only [Run.toRemote, if_neg begun0, hg, hd, decide_eq_false (Nat.not_lt.mpr hc), Bool.or_self, Bool.false_eq_true, if_false, Run.sendKept, hg2, ht, r2]

/-- A transfer out of another chip, from its start, while READs are under way. -/
theorem transfer_fromRemote {want : Nat} {r1 : Run} (h1 : sd.1.remote = true) (h0 : r.e.cursor = 0) (hco : r.coherent [] (sideRange sd.2 0 n) = .go r1) :
    let r2 := Run.issueReads sd r1.tagPlan n want (n + 1) r1
    r2.e.done = false → r2.ops ≠ [] → r.transfer sd n want = if r2.e.wait = .none then r2.block .net else r2 := by
  intro r2 hd ho
  have begun0 : ¬r1.e.cursor = n + 1 := by rw [(coherent_go_still hco).cursor, h0]; omega
  have under : (!r2.ops.isEmpty) = true := by rw [List.isEmpty_eq_false_iff.mpr ho]; rfl
  simp only [r2] at hd under
  simp only [Run.transfer, h1, h0, Nat.zero_min, hco, Run.fromRemote, if_neg begun0, hd, under, Bool.false_eq_true, if_false, if_true, r2]

/-- TAG that clears or sets slots, none of them in a dead segment. -/
theorem attemptTag_sets (hop : r.field 33 32 < 2) (hd : (r.tagRange.find? fun i => r.k.segDead (2048 * i)) = none) :
    attemptTag r = (r.setSlots (r.tagRange.map fun i => (r.core, i)) (r.field 33 32 == 1)).finish := by
  have all : r.tagRange.takeWhile (fun i => !r.k.segDead (2048 * i)) = r.tagRange := by
    rw [List.takeWhile_eq_self_iff]
    intro i hi
    have := List.find?_eq_none.mp hd i hi
    simpa using this
  simp only [attemptTag, if_pos hop, all, hd]

/-- TAG that comes to a dead segment sets the slots before it and fails. -/
theorem attemptTag_dead {i : Nat} (hop : r.field 33 32 < 2) (hd : (r.tagRange.find? fun i => r.k.segDead (2048 * i)) = some i) :
    attemptTag r = (r.setSlots ((r.tagRange.takeWhile fun i => !r.k.segDead (2048 * i)).map fun i => (r.core, i)) (r.field 33 32 == 1)).failWith 0x302 (2048 * i) := by
  simp only [attemptTag, if_pos hop, hd]

/-- What a TAG that waits has seen of its slots: those that meet its condition. -/
def tagSeen (r : Run) : Started :=
  { r.e with granted := (r.tagRange.filter fun i => r.k.full i == (r.field 33 32 == 2)).map fun i => (i, r.field 33 32 == 2) }

/-- A TAG that waits for its slots, none of them in a dead segment, as it starts. -/
theorem attemptTag_waits (hop : 2 ≤ r.field 33 32) (hd : (r.tagRange.find? fun i => r.k.segDead (2048 * i)) = none) (hg : r.e.granted = []) (hw : r.e.wait = .none) :
    ((tagSeen r).firstUnmet (r.field 33 32 == 2) = none → attemptTag r = Run.finish { r with e := tagSeen r })
    ∧ (∀ i, (tagSeen r).firstUnmet (r.field 33 32 == 2) = some i → attemptTag r = Run.block { r with e := tagSeen r } (.tagSlot i (r.field 33 32 == 2) (2048 * i))) := by
  have live : (r.tagRange.find? fun i => r.k.segDead (2048 * i) && !r.e.granted.contains (i, r.field 33 32 == 2)) = none := by
    rw [List.find?_eq_none] at hd ⊢
    exact fun i hi h => hd i hi (Bool.and_eq_true_iff.mp h).1
  have fresh : (r.tagRange.filter fun i => r.k.full i == (r.field 33 32 == 2) && !r.e.granted.contains (i, r.field 33 32 == 2)) = r.tagRange.filter fun i => r.k.full i == (r.field 33 32 == 2) := by
    simp only [hg, List.contains_nil, Bool.not_false, Bool.and_true]
  have seen : ({ r.e with granted := r.e.granted ++ (r.tagRange.filter fun i => r.k.full i == (r.field 33 32 == 2)).map fun i => (i, r.field 33 32 == 2), wait := .none } : Started) = tagSeen r := by
    rw [hg, List.nil_append, ← hw]
    rfl
  refine ⟨fun hu => ?_, fun i hu => ?_⟩
  · simp only [attemptTag, if_neg (Nat.not_lt.mpr hop), live, fresh, seen, hu]
  · simp only [attemptTag, if_neg (Nat.not_lt.mpr hop), live, fresh, seen, hu]

/-- Settles O27: the transfers by their three kinds, TAG by its two. -/
theorem dmaCommandsDoTheirWork : Obligations.DmaCommandsDoTheirWork := by
  intro core queue port s b d r n sd
  refine ⟨fun r0 hr => ?_, ?_, ?_⟩
  · have work : attemptDma port.val r = r0.transfer sd n port.val := attemptDma_transfers (r := r) rfl hr
    have start : r0.e.cursor = 0 := by
      rcases hr with ⟨-, rfl⟩ | ⟨hs, -⟩
      · rfl
      · exact (reserve_progress hs).2
    have same : r0.ident = r.ident := by
      rcases hr with ⟨-, rfl⟩ | ⟨hs, -⟩
      · rfl
      · exact reserve_ident hs
    refine ⟨?_, ?_, ?_⟩
    · intro r1 h h1 h2 hco r2 hd hc
      show execCopy core queue port s = _
      rw [execCopy, startCmd_starts h]
      exact congrArg stored (work.trans (transfer_inside h1 h2 start hco hd hc))
    · intro r1 via p tag h h1 h2 hco hg r2 hd hc hg2 ht
      show execRemoteWrite core queue port s = _
      rw [execRemoteWrite, startCmd_starts h]
      refine congrArg stored (work.trans ?_)
      have ident : r2.ident = r.ident := chunks_ident.trans ((coherent_go_ident hco).trans same)
      have hcore : r2.core = core.val := congrArg Prod.fst ident
      have hqueue : r2.queue = queue.val := congrArg (fun x => x.2.1) ident
      have hid : r2.e.id = r.e.id := congrArg (fun x => x.2.2) ident
      rw [transfer_toRemote h1 h2 start hco hg hd hc hg2 (by rw [hcore]; exact ht), ← hcore, ← hqueue, ← hid]
    · intro r1 h h1 hco r2 hd ho
      show execRemoteRead core queue port s = _
      rw [execRemoteRead, startCmd_starts h]
      exact congrArg stored (work.trans (transfer_fromRemote h1 start hco hd ho))
  · intro h hd op
    refine ⟨fun hop => ?_, ?_⟩
    · show execTag core queue s = _
      rw [execTag, startCmd_starts h]
      exact congrArg stored (attemptTag_sets (r := r) hop hd)
    · intro hop met e
      show execTag core queue s = _
      rw [execTag, startCmd_starts h]
      refine congrArg stored ?_
      obtain ⟨finished, waits⟩ := attemptTag_waits (r := r) hop hd rfl rfl
      cases hu : e.firstUnmet (op == 2) with
      | none => exact finished hu
      | some i => exact waits i hu
  · intro i h hd hop
    show execTag core queue s = _
    rw [execTag, startCmd_starts h]
    exact congrArg stored (attemptTag_dead (r := r) hop hd)

end Sys2Proof.Machine
end

section
/-! PROOFS. Save, Tarn, bucket and update commands -/

namespace Sys2Proof.Machine

variable {s : State} {r w : Run} {b : Block} {d : BitVec 512}

/-! The save commands. -/

/-- SAVE_OPEN of a free stream opens a record in room that no record has. -/
theorem attemptOpen_opens {m : StreamMode} (hm : tget StreamMode.init r.k.cfg.streams (r.field 10 8) = m)
    (hin : inRegion r.s (r.field 15 12) (r.field 135 96) (r.field 91 64) m.coding.toNat = true)
    (hfree : hits (recRange r.s (r.field 15 12) (r.field 135 96) (r.field 91 64) m.coding.toNat).1 (recRange r.s (r.field 15 12) (r.field 135 96) (r.field 91 64) m.coding.toNat).2 (openRanges r.s) = false)
    (hnone : r.k.saveRec (r.field 10 8) = none) :
    attemptOpen r = Run.finish { r with s := r.s.setRec r.core (r.field 10 8) (some
      { queue := r.queue, region := r.field 15 12, offset := r.field 135 96, blocks := r.field 91 64, used := 0, coding := m.coding, view := m.view, written := 0 }) } := by
  simp only [attemptOpen, hm, hin, hfree, hnone, Bool.not_true, Bool.or_self, Option.isSome_none, Bool.false_eq_true, if_false]

/-- SAVE_COPY of a stream that takes its blocks appends them. -/
theorem attemptSaveCopy_appends (h : appendFault r (r.field 10 8) (ceilDiv (r.field 63 32) 4096) true = none) :
    let g := r.localRead (r.field 183 160) (r.field 183 160) (r.field 63 32)
    attemptSaveCopy r = ((g.2.append (r.field 10 8) (actlOf (fb (cmdBody r.e.desc) 0 8)) g.1 true).claims (r.field 10 8)).finish := by
  simp only [attemptSaveCopy, h]

/-- SAVE_CLOSE of its queue's record, no append of which is left, closes it and reports what was written. -/
theorem attemptClose_closes {x : SaveRec} (hx : r.k.saveRec (r.field 10 8) = some x) (hq : x.queue = r.queue) (hb : streamBusy r.s r.core (r.field 10 8) = false) :
    attemptClose r = Run.finish { r with s := r.s.setRec r.core (r.field 10 8) none, e := { r.e with result := BitVec.ofNat 32 (min x.written 0xFFFFFFFF) } } := by
  simp only [attemptClose, hx, hq, hb, ne_eq, not_true_eq_false, Bool.false_eq_true, if_false]

/-- RESTORE from a region reads its blocks and stores their bytes. -/
theorem attemptRestore_restores (h : inRegion r.s (r.field 15 12) (r.field 135 96) (r.field 91 64 + ceilDiv (r.field 63 32) 4096) (r.field 17 16) = true) :
    let g := restoreBlocks (actlOf (fb (cmdBody r.e.desc) 0 8)) (r.field 17 16) (recRange r.s (r.field 15 12) (r.field 135 96) 0 (r.field 17 16)).1 (ceilDiv (r.field 63 32) 4096) (r.field 91 64) r
    attemptRestore r = (g.2.localWrite (r.field 183 160) (r.field 183 160) (g.1.take (r.field 63 32))).finish := by
  simp only [attemptRestore, h, Bool.not_true, Bool.false_eq_true, if_false]

/-- Settles O28, command by command. -/
theorem saveCommandsDoTheirWork : Obligations.SaveCommandsDoTheirWork := by
  intro core queue s b d r bd st
  refine ⟨fun h => ?_, fun h hf => ?_, fun x h hx hq hb => ?_, fun h hin => ?_⟩
  · intro m range hin hfree hnone
    show execSaveOpen core queue s = _
    rw [execSaveOpen, startCmd_starts h]
    exact congrArg stored (attemptOpen_opens (r := r) rfl hin hfree hnone)
  · show execSaveCopy core queue s = _
    rw [execSaveCopy, startCmd_starts h]
    exact congrArg stored (attemptSaveCopy_appends (r := r) hf)
  · show execSaveClose core queue s = _
    rw [execSaveClose, startCmd_starts h]
    exact congrArg stored (attemptClose_closes (r := r) hx hq hb)
  · show execRestore core queue s = _
    rw [execRestore, startCmd_starts h]
    exact congrArg stored (attemptRestore_restores (r := r) hin)

/-! The Tarn commands. -/

/-- A query of a published epoch joins the batch that collects, and closes it where the batch is then complete. -/
theorem joinBatch_joins {k j : Index} (hk : r.s.index (queryArgs r.e.desc).index = some k) (ha : r.e.absent = false) (hlo : k.floor.toNat ≤ (queryArgs r.e.desc).epoch)
    (hhi : (queryArgs r.e.desc).epoch ≤ k.published.toNat) (hj : ({ k with collecting := k.collecting ++ [{ core := r.core, queue := r.queue, id := r.e.id, pool := none }] } : Index) = j) :
    joinBatch r = Run.block { r with s := r.s.modIndex (queryArgs r.e.desc).index fun _ =>
      if k.rdvMax ≤ j.collecting.length ∨ k.rdvWait = 0 ∨ (queryArgs r.e.desc).flush = true then closeBatch j else j } .batch := by
  have published : ¬((queryArgs r.e.desc).epoch < k.floor.toNat ∨ k.published.toNat < (queryArgs r.e.desc).epoch) := by omega
  subst hj
  simp only [joinBatch, hk, ha, if_neg published, Bool.or_eq_true, decide_eq_true_eq, beq_iff_eq, Bool.false_eq_true, if_false, or_assoc]

/-- A Tarn write that starts, and that neither a rewrite nor a delete keeps back, does its work. -/
theorem tarnWrite_runs {onList : Bool} {k : Index} {f : Index → Nat → Run} (hk : r.s.index (r.field 11 8) = some k) (ha : r.e.absent = false)
    (hl : onList = true → r.field 39 16 < k.lists ∧ k.rewriting (r.field 39 16) = false) (h0 : r.e.cursor = 0) (hd : deleting r.s (r.field 11 8) = false)
    (hp : k.pendingEpoch ≠ 0xFFFFFFFF) : r.tarnWrite onList f = f k (r.field 39 16) := by
  have inside : (onList && decide (k.lists ≤ r.field 39 16)) = false := by
    cases onList with
    | false => rfl
    | true => exact decide_eq_false (Nat.not_le.mpr (hl rfl).1)
  have settled : (onList && k.rewriting (r.field 39 16)) = false := by
    cases onList with
    | false => rfl
    | true => exact (hl rfl).2
  simp only [Run.tarnWrite, hk, ha, inside, settled, h0, hd, if_neg hp, Bool.or_self, Bool.false_eq_true, zero_ne_one, if_false]

/-- A command that waits for nothing stays as it is when its wait is cleared. -/
theorem clearWait_id (h : r.e.wait = .none) : ({ r with e := { r.e with wait := .none } } : Run) = r := by rw [← h]

/-- TARN_INSERT of entries that the list has room for stores them, their tombstones and the list's length. -/
theorem attemptInsert_appends {k : Index} {r1 : Run} (hw : r.e.wait = .none) (hk : r.s.index (r.field 11 8) = some k) (ha : r.e.absent = false)
    (hl : r.field 39 16 < k.lists) (hr : k.rewriting (r.field 39 16) = false) (h0 : r.e.cursor = 0) (hd : deleting r.s (r.field 11 8) = false) (hp : k.pendingEpoch ≠ 0xFFFFFFFF) :
    let l := r.field 39 16
    let n := r.field 55 40 + 1
    let sz := entryBytes k.width
    let src := r.field 167 128
    r.coherent [(src, n * sz)] [] = .go r1 → r1.field 167 128 = src →
    let e := r1.dirRead k l
    let g := e.2.devRead src (n * sz)
    e.1.length + n ≤ e.1.cap → (g.1.any fun b => !b.got) = false →
    let w := g.2.devWrite (e.1.log + e.1.length * sz) ((chunksOf sz n (travel (.dev src) g.1)).flatMap (entryImage k.width k.pendingEpoch))
    let w := w.devWrite (e.1.tomb + 4 * e.1.length) (cleanBytes (List.replicate (4 * n) 0xFF#8))
    let w := w.devWrite (k.dir + 32 * l + 12) (cleanBytes (leBytes 4 (e.1.length + n)))
    attemptInsert r = Run.finish { w with e := { w.e with result := BitVec.ofNat 32 e.1.length, cursor := 1 } } := by
  intro l n sz src hc hsrc e g hcap hgot
  rw [attemptInsert, clearWait_id hw, tarnWrite_runs hk ha (fun _ => ⟨hl, hr⟩) h0 hd hp]
  dsimp only [e, g, src, n, sz, l] at hc hsrc hcap hgot ⊢
  simp only [hc, hsrc, if_neg (Nat.not_lt.mpr hcap), hgot, Bool.false_eq_true, if_false]

/-- TARN_DELETE stamps the positions that it reaches at once. -/
theorem attemptDelete_stamps {k : Index} (hw : r.e.wait = .none) (hk : r.s.index (r.field 11 8) = some k) (ha : r.e.absent = false)
    (hl : r.field 39 16 < k.lists) (hr : k.rewriting (r.field 39 16) = false) (h0 : r.e.cursor = 0) (hd : deleting r.s (r.field 11 8) = false) (hp : k.pendingEpoch ≠ 0xFFFFFFFF) :
    let e := r.dirRead k (r.field 39 16)
    let y := ((List.range e.1.length).filter fun j => r.e.first.contains j).foldl (Run.stamp k e.1 (r.field 103 64)) (0, e.2)
    attemptDelete r = { y.2 with e := { y.2.e with result := y.2.e.result + BitVec.ofNat 32 y.1, cursor := 1 } } := by
  intro e y
  rw [attemptDelete, clearWait_id hw, tarnWrite_runs hk ha (fun _ => ⟨hl, hr⟩) h0 hd hp]
  simp only [h0, zero_ne_one, decide_false, Bool.false_or, Bool.false_eq_true, if_false]
  rfl

/-- EPOCH_PUBLISH, no earlier write being left, publishes the pending epoch. -/
theorem attemptPublish_publishes {k : Index} (hw : r.e.wait = .none) (hk : r.s.index (r.field 11 8) = some k) (ha : r.e.absent = false) (h0 : r.e.cursor = 0)
    (hd : deleting r.s (r.field 11 8) = false) (hp : k.pendingEpoch ≠ 0xFFFFFFFF) (hn : (r.s.allStarted.any fun e => applied (r.field 11 8) e.2.2) = false) :
    attemptPublish r = Run.finish { r with
      s := r.s.modIndex (r.field 11 8) fun x => { x with published := k.pendingEpoch, pendingEpoch := k.pendingEpoch + 1 }, e := { r.e with result := k.pendingEpoch } } := by
  rw [attemptPublish, clearWait_id hw, tarnWrite_runs hk ha (by intro h; cases h) h0 hd hp]
  simp only [hn, Bool.false_eq_true, if_false]

/-- What a coherence check lets go on keeps the command's descriptor, and what of it is done first. -/
theorem coherent_go_keeps {α : Type} (f : Run → α) (keeps : ∀ (r : Run) l, f { r with e := { r.e with lines := l } } = f r) {reads writes : List (Nat × Nat)}
    (h : r.coherent reads writes = .go w) : f w = f r := by
  unfold Run.coherent at h
  dsimp only at h
  split at h
  · split at h <;> cases h
    · rfl
    · exact keeps r []
  · split at h <;> cases h

/-! Batches and rewrites. -/

/-- A batch with queries, and none closed before it, closes at its timer. -/
theorem execRendezvousTimeout_closes {index : Fin 16} {k : Index} (hk : s.index index.val = some k) (hc : k.collecting ≠ []) (hn : k.closed = none) :
    execRendezvousTimeout index s = .next (s.modIndex index.val fun k => { k with closed := some k.collecting, collecting := [] }) := by
  have still : (k.collecting.isEmpty || k.closed.isSome) = false := by
    rw [List.isEmpty_eq_false_iff.mpr hc, hn]
    rfl
  simp only [execRendezvousTimeout, hk, still, Bool.false_eq_true, if_false]
  rfl

/-- A batch that is not over goes on with each of its queries. -/
theorem execBatchRun_steps {index : Fin 16} {port : PortId} {k : Index} (hk : s.index index.val = some k) (hp : s.power.standby = false) (hc : s.clocked = true)
    (ho : batchOver s k = false) : execBatchRun index port s = .next (k.running.foldl (stepQuery port.val) s) := by
  simp only [execBatchRun, hk, hp, hc, ho, Bool.not_true, Bool.or_self, Bool.not_false, Bool.false_eq_true, if_false, if_true]

/-- A closed batch whose lines need no snoop is streamed once the one before it is over. -/
theorem execBatchRun_streams {index : Fin 16} {port : PortId} {k : Index} {l : List QueryRef} (hk : s.index index.val = some k) (hp : s.power.standby = false) (hc : s.clocked = true)
    (ho : batchOver s k = true) (hl : k.closed = some l) (hn : l.flatMap (queryLines s k) = []) :
    let t := streamBatch (l.foldl dropLines s) index.val k l
    execBatchRun index port s = .next (serveHost (((t.index index.val).getD k).running.foldl (stepQuery port.val) t)) := by
  simp only [execBatchRun, hk, hp, hc, ho, hl, hn, Bool.not_true, Bool.or_self, List.isEmpty_nil, List.any_nil, Bool.false_and, Bool.false_eq_true, if_false]

/-- A rewrite that no delete keeps back ends, and its message with it. -/
theorem execRewriteComplete_ends {index : Fin 16} {list : Nat} {k : Index} {w : Rewrite} {h : Held} (hk : s.index index.val = some k) (hp : s.power.standby = false) (hc : s.clocked = true)
    (hw : (k.rewrites.find? fun w => w.list == list) = some w)
    (hd : (s.allStarted.any fun e => cmdOp e.2.2.desc == 0x52 && applied index.val e.2.2 && !e.2.2.done && fld (cmdBody e.2.2.desc) 39 16 == list) = false) :
    let t := (rewriteList s k w).1.modIndex index.val fun k => { k with rewrites := k.rewrites.filter fun x => x.list != list }
    t.heldBy w.src = some h → execRewriteComplete index list s = .next (resumeWaiting (endHeld t h (rewriteList s k w).2) fun x => x == .rewrite) := by
  intro t ht
  dsimp only [t] at ht
  simp only [execRewriteComplete, hk, hp, hc, hw, hd, ht, Bool.not_true, Bool.or_self, Bool.false_eq_true, if_false, t]

/-- Settles O29: each command by its attempt, each event by its handler. -/
theorem tarnCommandsDoTheirWork : Obligations.TarnCommandsDoTheirWork := by
  refine ⟨?_, fun index s k hk => ⟨execRendezvousTimeout_closes hk, fun port => execBatchRun_steps hk, fun port l => execBatchRun_streams hk, fun list w h => execRewriteComplete_ends hk⟩⟩
  intro core queue s b d k r l hk
  refine ⟨fun h => ?_, fun r1 h ha hl hr hd hp => ?_, fun first h ha hl hr hd hp => ?_, fun h ha hp hd hn => ?_⟩
  · intro a j ha hlo hhi
    show execTarnQuery core queue s = _
    rw [execTarnQuery, startCmd_starts h]
    exact congrArg stored (joinBatch_joins (r := r) hk ha hlo hhi rfl)
  · intro n sz src hc
    have desc : r1.e.desc = r.e.desc := coherent_go_keeps (fun r => r.e.desc) (fun _ _ => rfl) hc
    intro e g hcap hgot
    show execTarnInsert core queue s = _
    rw [execTarnInsert, startCmd_starts h]
    exact congrArg stored (attemptInsert_appends (r := r) rfl hk ha hl hr rfl hd hp hc (congrArg (fun x => fld (cmdBody x) 167 128) desc) hcap hgot)
  · show execTarnDelete core queue first s = _
    rw [execTarnDelete, startCmd_starts h]
    exact congrArg stored (attemptDelete_stamps (r := r.doing first) rfl hk ha hl hr rfl hd hp)
  · show execEpochPublish core queue s = _
    rw [execEpochPublish, startCmd_starts h]
    exact congrArg stored (attemptPublish_publishes (r := r) rfl hk ha rfl hd hp hn)

/-! Bucket and update commands. -/

/-- A command on a bucket of a whole group works on them. -/
theorem withBucket_runs {k : Bucket} {g : Group} {f : Bucket → Nat → Group → Run} (hk : r.s.bucket (bucketOf r.e.desc) = some k) (hg : r.s.group k.group = some g)
    (hb : g.broken = false) : r.withBucket f = f k k.group g := by
  simp only [Run.withBucket, hk, hg, hb, Bool.false_eq_true, if_false]

/-- The sums of a BUCKET_ADD's lines, and the run after them. -/
def bucketSums (k : Bucket) (r : Run) (src : Run) : List (List BufPart) × Run :=
  let bd := cmdBody r.e.desc
  (addLines k (k.addr + fld bd 63 32 * k.elem) (fld bd 95 64 + 1)).foldl (fun acc l =>
    let d := addLine k (actlOf (fb bd 0 8)) (decide (fld bd 20 20 = 1)) (fld bd 21 21) (fld bd 119 96) (k.addr + fld bd 63 32 * k.elem) acc.2 l.1 l.2
    (acc.1 ++ [d.1], d.2)) ([], src)

/-- BUCKET_ADD of data that is all there writes the sums that it does first, and keeps the others. -/
theorem attemptAdd_adds {k : Bucket} {g : Group} {r1 : Run} (hk : r.s.bucket (bucketOf r.e.desc) = some k) (hg : r.s.group k.group = some g) (hb : g.broken = false)
    (h0 : r.e.cursor = 0)
    (hc : r.coherent (if r.field 20 20 = 1 then [] else [(k.addr + r.field 63 32 * k.elem, (r.field 95 64 + 1) * k.elem)])
      [(k.addr + r.field 63 32 * k.elem, (r.field 95 64 + 1) * k.elem)] = .go r1) (hdesc : r1.e.desc = r.e.desc) (hfirst : r1.e.first = r.e.first)
    (hgot : ((r1.localRead (r.field 119 96) (r.field 119 96) ((r.field 95 64 + 1) * fmtBytes (r.field 21 21))).1.any fun x => !x.got) = false) :
    let w := (bucketSums k r r1).2.putBlocks r.e.first.contains (bucketSums k r r1).1
    attemptAdd r = if w.e.buf.isEmpty then w.finish else w := by
  have same (hi lo : Nat) : r1.field hi lo = r.field hi lo := congrArg (fun x => fld (cmdBody x) hi lo) hdesc
  rw [attemptAdd, withBucket_runs hk hg hb]
  simp only [h0, hc, same, hgot, hdesc, hfirst, zero_ne_one, Bool.false_eq_true, if_false]
  rfl

/-- BUCKET_FLUSH, no member of its group being lost, runs its stages. -/
theorem attemptFlush_runs {k : Bucket} {g : Group} {want : Nat} (hk : r.s.bucket (bucketOf r.e.desc) = some k) (hg : r.s.group k.group = some g) (hb : g.broken = false)
    (hw : r.e.wait = .none) (ho : r.e.opLost = false) (hn : (g.ranks.findSome? fun ep => (memberFault r.s ep.toNat).map fun st => (st, ep)) = none) :
    attemptFlush want r = Run.flushStages k k.group g want 8 r := by
  have none' : (if r.e.cursor / 256 < 4 && !r.e.opLost then g.ranks.findSome? fun ep => (memberFault r.s ep.toNat).map fun st => (st, ep) else none) = none := by
    split
    · exact hn
    · rfl
  rw [attemptFlush, withBucket_runs hk hg hb, clearWait_id hw]
  simp only [none']
  simp only [ho, Bool.false_eq_true, if_false]

/-- UPDATE of a valid slot computes its blocks, writes those that it does first, and keeps the others. -/
theorem attemptUpdate_updates {r1 : Run} (hw : r.e.wait = .none) (h0 : r.e.cursor = 0) (hu : updateOk r.s r.e.desc = true)
    (hc : r.coherent ((updArgs r.e.desc).used (r.s.optSlot (updArgs r.e.desc).slot)) ((updArgs r.e.desc).used (r.s.optSlot (updArgs r.e.desc).slot)) = .go r1)
    (hfirst : r1.e.first = r.e.first) :
    let u := updArgs r.e.desc
    let bs := updateBlocks u (r.s.optSlot u.slot) (actlOf u.actl) (u.count / 32 + 1) 0 r1
    let w := bs.2.putBlocks r.e.first.contains bs.1
    attemptUpdate r = if w.e.buf.isEmpty then w.finish else w := by
  unfold attemptUpdate
  rw [clearWait_id hw]
  simp only [h0, hu, hc, hfirst, zero_ne_one, Bool.not_true, Bool.false_eq_true, if_false]

/-- Settles O30, command by command. -/
theorem gradientCommandsDoTheirWork : Obligations.GradientCommandsDoTheirWork := by
  intro core queue port s b d k g r bd
  refine ⟨fun hk hg hb => ⟨fun r1 first h => ?_, fun h hn => ?_⟩, fun r1 first h => ?_⟩
  · intro n sf at' fresh hc src hgot
    have desc : r1.e.desc = d := coherent_go_keeps (fun r => r.e.desc) (fun _ _ => rfl) hc
    have done : r1.e.first = first := coherent_go_keeps (fun r => r.e.first) (fun _ _ => rfl) hc
    show execBucketAdd core queue first s = _
    rw [execBucketAdd, startCmd_starts h]
    simp only [fresh, beq_iff_eq] at hc
    exact congrArg stored (attemptAdd_adds (r := r.doing first) hk hg hb rfl hc desc done hgot)
  · show execBucketFlush core queue port s = _
    rw [execBucketFlush, startCmd_starts h]
    exact congrArg stored (attemptFlush_runs (r := r) hk hg hb rfl rfl hn)
  · intro u o hu hc
    have done : r1.e.first = first := coherent_go_keeps (fun r => r.e.first) (fun _ _ => rfl) hc
    show execUpdate core queue first s = _
    rw [execUpdate, startCmd_starts h]
    exact congrArg stored (attemptUpdate_updates (r := takeUpdate (r.doing first)) rfl rfl hu hc done)

end Sys2Proof.Machine
end

section
/-! PROOFS. Queue events and registers -/

namespace Sys2Proof.Machine

variable {s : State} {c q id : Nat} {e : Started}

/-! Queue events. -/

/-- A command that is done is not performed further. -/
theorem resume_of_done {want : Nat} (h : s.started c q id = some e) (hd : e.done = true) : resume s c q id want = s := by
  simp only [resume, h, hd, Bool.true_or, if_true]

/-- A command that is done is not ended by a quarantine. -/
theorem endQuarantined_of_done (h : s.started c q id = some e) (hd : e.done = true) : endQuarantined s c q id = s := by
  simp only [endQuarantined, h, hd, Bool.not_true, Bool.and_false, Bool.false_eq_true, if_false]

/-- A command whose work is done, and that its units have run, completes, or first asks for the lines of its record. -/
theorem execCommandComplete_done {core : CoreId} {queue : QueueId} {port : PortId} (hc : s.clocked = true) (h : s.started core.val queue.val id = some e) (hd : e.done = true)
    (hu : unitsDone (s.core core.val) queue.val id = true) (hp : (s.power.standby && stopsInStandby e.desc) = false) :
    execCommandComplete core queue id port s = if (linesDue s core.val queue.val e).isEmpty then .next (serveHost (retire s core.val queue.val e))
      else .next (sendSnoops (s.modStarted core.val queue.val id fun e' => { e' with lines := linesDue s core.val queue.val e }) (linesDue s core.val queue.val e) true) := by
  simp only [execCommandComplete, hc, resume_of_done h hd, endQuarantined_of_done h hd, h, hd, hu, hp, Bool.not_true, Bool.or_self, Bool.false_eq_true, if_false]

/-- A done command under number 0, with or without a record (bit 8 of its descriptor). -/
def doneCommand (record : Bool) : Started :=
  { startedOf CmdQueue.init { seq := 0, start := 0, cmds := [], absent := [], nStarted := 0, nDone := 0, seed := 0, step := 0, client := 0 } (if record then 2 ^ 8 else 0) with done := true }

/-- A device whose queue holds two done commands under one number, one with a record and one without, while the host holds the line of the next record. -/
def twinDevice : State :=
  { State.reset with
    boot := { Boot.init with pwrgood := true }
    host := { HostIf.init with window := some (0, 4096), tracker := [(1, some true)] }
    cores := [(0, { Core.init with queues := [(0, { CmdQueue.init with
      cpl := some { base := 64, log2 := 4, vector := 127, headAddr := 0, written := 0, head := 0 }, started := [doneCommand true, doneCommand false] })] })] }

/-- Refutes O31: the statement writes into each command of the number the lines that its own record needs, and the model those of the command that it looked up; two commands under
one number, only the first with a record, tell them apart. -/
theorem not_queueEventsDoTheirWork : ¬ Obligations.QueueEventsDoTheirWork := by
  intro h
  have asks : linesDue twinDevice 0 0 (doneCommand true) ≠ [] := by decide +kernel
  have on : twinDevice.clocked = true := by decide +kernel
  have found : twinDevice.started 0 0 0 = some (doneCommand true) := by decide +kernel
  have run : unitsDone (twinDevice.core 0) 0 0 = true := by decide +kernel
  have powered : (twinDevice.power.standby && stopsInStandby (doneCommand true).desc) = false := by decide +kernel
  obtain ⟨complete, -⟩ := h 0 0 twinDevice (doneCommand true)
  have claimed := (complete 0 0 on found rfl run powered).2 asks
  have model := execCommandComplete_done (core := 0) (queue := 0) (port := 0) on found rfl run powered
  rw [if_neg (by rwa [List.isEmpty_iff])] at model
  have same := congrArg (fun r : Res => match r with | .next t => t.cores | _ => []) (model.symm.trans claimed)
  simp only [sendSnoops_cores] at same
  revert same
  decide +kernel

/-! Registers. -/

/-- A command of the host acts while the host link is up and the clocks run. -/
theorem byHost_open {t : State} (h : s.hostOpen = true) : byHost s t = .next t := by
  rw [byHost, if_pos h]

/-- Enabling a channel that can be enabled makes it READY and evaluates its doorbell. -/
theorem setEnable_on {n : Nat} (h1 : (s.chan n).enabled = false) (h2 : (s.chan n).state = 0) (h3 : s.ready = true) (h4 : (s.chan n).reqBase ≠ 0) (h5 : (s.chan n).cplBase ≠ 0) :
    setEnable s n true = evalDoorbell (s.modChan n fun c => { c with enabled := true, state := 1, phase := true }) n := by
  simp only [setEnable, h1, h2, h3, bne_iff_ne.mpr h4, bne_iff_ne.mpr h5, Bool.not_false, BEq.rfl, Bool.and_self, if_true]

@[simp] theorem setFwStage_bootAddr {v : BitVec 4} : (s.setFwStage v).boot.bootAddr = s.boot.bootAddr := by
  unfold State.setFwStage
  split
  · rfl
  · rw [setIrq_boot]

/-- BOOT_GO with a boot address, while boot waits for it, begins the fetch. -/
theorem bootGo_begins (h : s.boot.fwStage = 1 ∨ s.boot.fwStage = 7) (ha : s.boot.bootAddr ≠ 0) :
    bootGo s = State.setFwStage { s with boot := { s.boot with fetching := true, reason := 0 } } 2 := by
  have kept : (State.setFwStage { s with boot := { s.boot with fetching := true, reason := 0 } } 2).boot.bootAddr ≠ 0 := by
    rw [setFwStage_bootAddr]
    exact ha
  simp only [bootGo, if_pos h, if_neg kept]

/-- A register write of one or two aligned words writes them. -/
theorem writeRegister_word {bar : Bar} {o : Nat} {v : BitVec 64} (h : o % 4 = 0) : writeRegister s bar o 4 v false = writeWord bar s o (fb v 0 32) := by
  simp only [writeRegister, h, Bool.false_eq_true, if_false, true_or, and_self, if_true, Nat.reduceEqDiff]

theorem writeRegister_words {bar : Bar} {o : Nat} {v : BitVec 64} (h : o % 8 = 0) :
    writeRegister s bar o 8 v false = writeWord bar (writeWord bar s o (fb v 0 32)) (o + 4) (fb v 32 32) := by
  simp only [writeRegister, h, Bool.false_eq_true, if_false, or_true, and_self, if_true]

/-- A BAR0 write of another size or alignment is logged. -/
theorem writeRegister_refused {o n : Nat} {v : BitVec 64} (h : ¬((n = 4 ∨ n = 8) ∧ o % n = 0)) : writeRegister s .bar0 o n v false = s.postErr (mkErr 0x201 0 6 0) := by
  simp only [writeRegister, if_neg h, Bool.false_eq_true, if_false]

/-- An aligned word of a BAR is read as the register's word. -/
theorem readRegister_word {bar : Bar} {o : Nat} (hs : s.hostOpen = true) (h : o % 4 = 0) : readRegister s bar o 4 = some (0#32 ++ regWord bar s o) := by
  simp only [readRegister, hs, h, Bool.not_true, Bool.false_eq_true, if_false, and_self, if_true]
  rfl

theorem readRegister_words {bar : Bar} {o : Nat} (hs : s.hostOpen = true) (h : o % 8 = 0) : readRegister s bar o 8 = some (regWord bar s (o + 4) ++ regWord bar s o) := by
  simp only [readRegister, hs, h, Bool.not_true, Bool.false_eq_true, if_false, and_self, if_true, Nat.reduceEqDiff, false_and]

/-- The halves of an address whose halves were both written. -/
theorem setHalf_halves {x : BitVec 64} {lo hi : BitVec 32} :
    half (setHalf (setHalf x false lo) true hi) false = lo &&& 0xFFFFF000 ∧ half (setHalf (setHalf x false lo) true hi) true = hi := by
  have low : (fb (setHalf x false lo) 0 32 : BitVec 32) = lo &&& 0xFFFFF000 := BitVec.extractLsb'_append_eq_right (a := (fb x 32 32 : BitVec 32))
  exact ⟨(BitVec.extractLsb'_append_eq_right (a := hi)).trans low, BitVec.extractLsb'_append_eq_left (a := hi) (b := (fb (setHalf x false lo) 0 32 : BitVec 32))⟩

/-- The boot address is written as two words. -/
theorem write_bootAddr {v : BitVec 64} (h : bootAddrOpen s = true) :
    writeRegister s .bar0 0x10 8 v false = { s with boot := { s.boot with bootAddr := setHalf (setHalf s.boot.bootAddr false (fb v 0 32)) true (fb v 32 32) } } := by
  have still : bootAddrOpen { s with boot := { s.boot with bootAddr := setHalf s.boot.bootAddr false (fb v 0 32) } } = true := h
  rw [writeRegister_words (by decide)]
  have low : writeBar0 s 0x10 (fb v 0 32) = { s with boot := { s.boot with bootAddr := setHalf s.boot.bootAddr false (fb v 0 32) } } := by
    rw [writeBar0, if_pos (by decide), if_pos h]
    rfl
  show writeBar0 (writeBar0 s 0x10 (fb v 0 32)) 0x14 (fb v 32 32) = _
  rw [low, writeBar0, if_pos (by decide), if_pos still]
  rfl

/-- A core's CONFLICT_CLR reads as zero. -/
theorem readBar0_conflictClr {c : CoreId} : readBar0 s (0x200000 + 16 * c.val + 8) = 0 := by
  have := c.isLt
  have other (x : Nat) (hx : x < 0x200000) : ¬0x200000 + 16 * c.val + 8 = x := by omega
  unfold readBar0
  simp only [other, Nat.reduceLT, or_self, if_false]
  rw [if_neg (by omega), if_neg (by omega), if_pos (by omega), if_neg (by omega), if_neg (by omega)]

/-- Settles O32: registers by number and by offset, reads, and the mailbox timers. -/
theorem registerCommandsTakeEffect : Obligations.RegisterCommandsTakeEffect := by
  refine ⟨fun s hs => ⟨fun n v => byHost_open hs, fun n => byHost_open hs, fun n h1 h2 h3 h4 h5 => ?_, fun n => byHost_open hs, fun n v => byHost_open hs, fun v hv hst ha => ?_, fun v hv => ?_,
    fun v => byHost_open hs, fun c v hv => ?_, fun bar o v ho => ?_, fun bar o v ho => ?_, fun bar o n v => byHost_open hs, fun o n v ho => ?_,
    fun o ho => ⟨readRegister_word hs ho, readRegister_word hs ho⟩, fun o ho => ⟨readRegister_words hs ho, readRegister_words hs ho⟩, fun v hb => ?_⟩,
    fun s c => ⟨rfl, rfl, readBar0_conflictClr, rfl, fun h => ?_⟩, fun s => ⟨fun n h1 h2 h3 => ?_, fun h x hr hx he hl => ?_, fun n hd => ?_⟩⟩
  · exact (byHost_open hs).trans (congrArg Host.Outcome.next (setEnable_on h1 h2 h3 h4 h5))
  · refine (byHost_open hs).trans (congrArg Host.Outcome.next ?_)
    rw [if_pos hv, bootGo_begins hst ha]
  · exact (byHost_open hs).trans (congrArg Host.Outcome.next (if_pos hv))
  · exact (byHost_open hs).trans (congrArg Host.Outcome.next (if_pos hv))
  · exact (byHost_open hs).trans (congrArg Host.Outcome.next (writeRegister_word ho))
  · exact (byHost_open hs).trans (congrArg Host.Outcome.next (writeRegister_words ho))
  · exact (byHost_open hs).trans (congrArg Host.Outcome.next (writeRegister_refused ho))
  · refine ⟨_, (byHost_open hs).trans (congrArg Host.Outcome.next (write_bootAddr hb)), ?_⟩
    exact setHalf_halves
  · have status : fuseStatus s = 0 := by simp only [fuseStatus, h, Bool.false_eq_true, if_false]
    have serial : fuseSerial s = 0 := by simp only [fuseSerial, h, Bool.false_eq_true, if_false]
    refine ⟨status, (congrArg (half · false) serial).trans (by decide), (congrArg (half · true) serial).trans (by decide)⟩
  · show execModerationTimer n s = _
    simp only [execModerationTimer, bne_iff_ne.mpr h1, bne_iff_ne.mpr h2, h3, Bool.and_self, if_true]
  · have leased : (s.mbx.sessions.any fun x => x.handle == h && x.leaseMs != 0) = true :=
      List.any_eq_true.mpr ⟨x, hx, by rw [he, beq_self_eq_true, bne_iff_ne.mpr hl, Bool.and_self]⟩
    show execSessionLeaseExpiry h s = _
    simp only [execSessionLeaseExpiry, hr, leased, Bool.and_self, if_true]
  · show execFetchError n s = _
    simp only [execFetchError, hd, if_true]
    rfl

end Sys2Proof.Machine
end

section
/-! PROOFS. The host window and the host link -/

namespace Sys2Proof.Machine

variable {s : State} {line a n : Nat}

/-! The host's requests on a line. -/

/-- A request on a line that nothing claims, and that needs no tracker entry, is admitted. -/
theorem admitReq_free (h : s.claimed line = false) : admitReq s line false = (s, none) := by
  simp only [admitReq, h, Bool.false_and, Bool.false_eq_true, if_false]

/-- A request on a line that nothing claims is admitted while the tracker has room. -/
theorem admitReq_room {needs : Bool} (h : s.claimed line = false) (hr : s.host.tracker.length < trackerSize) : admitReq s line needs = (s, none) := by
  simp only [admitReq, h, decide_eq_false (Nat.not_le.mpr hr), Bool.and_false, Bool.false_eq_true, if_false]

/-- A read of an admitted line answers its bytes and tracks it as the request asks. -/
theorem hostRead_admitted {i : Instr} {mv : Meta} {rd : Bool} (ha : lineAddr s line = some a) (h : admitReq s line (mv != .i) = (s, none)) :
    hostRead s i line mv rd = readEntry (readLine s line a) line mv rd := by
  simp only [hostRead, ha, h]

/-- A write with meta-value I of a line that nothing else claims stores its bytes and drops the line. -/
theorem hostWrite_dropped {i : Instr} {bs : List Bt} (ha : lineAddr s line = some a) (h : s.snooped line = true ∨ s.claimed line = false) :
    hostWrite s i line .i bs = ((crossLine (hbmWrite s a bs).s line).track line none).emit (.cxlCmp line) := by
  have admitted : (if s.snooped line = true then (s, none) else admitReq s line false) = (s, none) := by
    rcases h with h | h
    · rw [if_pos h]
    · rw [admitReq_free h, ite_self]
  simp only [hostWrite, ha, show (Meta.i == Meta.s) = false from rfl, admitted]

/-- An invalidation of a line that nothing claims drops it. -/
theorem hostInv_free {i : Instr} (ha : lineAddr s line = some a) (h : s.claimed line = false) : hostInv s i line = (s.track line none).emit (.cxlCmp line) := by
  simp only [hostInv, ha, h, Bool.false_eq_true, if_false]
  rfl

/-- An eviction drops its line. -/
theorem hostEvict_drops (ha : lineAddr s line = some a) : hostEvict s line = ((crossLine s line).track line none).emit (.cxlCmp line) := by
  simp only [hostEvict, ha]
  rfl

/-- A list none of whose elements meets a test is its own filter by the test's negation, and the filter by the test is empty. -/
theorem filter_of_none {α : Type} {l : List α} {p : α → Bool} (h : l.any p = false) : l.filter p = [] ∧ l.filter (fun x => !p x) = l := by
  have none' (x : α) (hx : x ∈ l) : p x = false := by simpa using List.any_eq_false.mp h x hx
  exact ⟨List.filter_eq_nil_iff.mpr fun x hx => by rw [none' x hx]; exact Bool.false_ne_true, List.filter_eq_self.mpr fun x hx => by rw [none' x hx]; rfl⟩

/-- A request that waits to invalidate a line. -/
def owesInv (line : Nat) (r : HostReq) : Bool := match r.instr with
  | .memInv l => l == line
  | _ => false

/-- A conflict on a line that no request waits to invalidate is acknowledged. -/
theorem execBiConflict_acks (ho : s.hostOpen = true) (hs : s.snooped line = true) (hn : s.host.waiting.any (owesInv line) = false) :
    execBiConflict line s = .next (s.emit (.conflictAck line)) := by
  obtain ⟨mine, rest⟩ := filter_of_none hn
  unfold execBiConflict
  rw [ho, hs, if_neg (by decide)]
  show Host.Outcome.next (State.emit ((s.host.waiting.filter (owesInv line)).foldl (fun s _ => hostDrop s line)
    { s with host := { s.host with waiting := s.host.waiting.filter fun r => !owesInv line r } }) (.conflictAck line)) = _
  rw [mine, rest]
  rfl

/-! The reset of the host link. -/

/-- What a state holds that a snoop's end, or a settled checkpoint, could let go on: nothing. -/
structure State.Quiet (s : State) : Prop where
  held : s.mbx.held = []
  started : s.allStarted = []
  jobs : s.ovt.jobs = []
  replay : s.ovt.replay = none

/-- Where nothing waits, the end of a snoop lets nothing go on. -/
theorem resumeSnooped_quiet (h : s.Quiet) : resumeSnooped s = s := by
  obtain ⟨held, started, jobs, replay⟩ := h
  have waiting (p : Wait → Bool) : resumeWaiting s p = s := by simp only [resumeWaiting, started, List.filter_nil, List.foldl_nil]
  have submits : settleSubmits s = s := by simp only [settleSubmits, held, List.filter_nil, List.foldl_nil]
  have ckpts : settleCheckpoints s = s := by simp only [settleCheckpoints, held, List.filter_nil, List.foldl_nil]
  have digest : resumeDigest s = s := by simp only [resumeDigest, jobs]
  have log : settleLog s = s := by simp only [settleLog, held, List.find?_nil]
  have begins : beginReplay s = s := by simp only [beginReplay, held, List.find?_nil]
  have replays : settleReplay s = s := by simp only [settleReplay, replay]
  rw [resumeSnooped, waiting, submits, ckpts, digest, log, begins, replays]

/-- Where no message is held, no checkpoint is aborted. -/
theorem abortWindowCkpts_quiet (h : s.mbx.held = []) : abortWindowCkpts s = s := by
  simp only [abortWindowCkpts, h, List.filter_nil, List.foldl_nil, List.any_nil, Bool.false_eq_true, if_false]

/-- The pause frames of a settled receive buffer change only the Ethernet ports and what is sent. -/
theorem settlePfc_keeps {α : Type} (g : State → α) (port : ∀ (s : State) p f, g (s.modEth p f) = g s) (sent : ∀ (s : State) o, g (s.emit o) = g s) : g s.settlePfc = g s := by
  unfold State.settlePfc
  refine foldl_keeps (g := g) (fun t p => ?_) _ _
  dsimp only
  split
  · rfl
  · rw [sent, port]

/-- A change of each of the first `n` channels. -/
theorem foldl_modChan_chan {f : Channel → Channel} {k : Nat} :
    ((List.range n).foldl (fun s i => s.modChan i f) s).chan k = if k < n then f (s.chan k) else s.chan k := by
  induction n with
  | zero => rfl
  | succ n ih =>
    rw [List.range_succ, List.foldl_append]
    show (State.modChan ((List.range n).foldl (fun s i => s.modChan i f) s) n f).chan k = _
    rcases eq_or_ne k n with rfl | hne
    · rw [chan_modChan_same, ih, if_neg (lt_irrefl k), if_pos (Nat.lt_succ_self k)]
    · rw [chan_modChan_ne hne, ih]
      exact if_congr (by omega) rfl rfl

/-- A change of each of the first `n` channels keeps whatever a change of one keeps. -/
theorem foldl_modChan_keeps {α : Type} (g : State → α) {f : Nat → Channel → Channel} (h : ∀ (s : State) i, g (s.modChan i (f i)) = g s) :
    g ((List.range n).foldl (fun s i => s.modChan i (f i)) s) = g s := foldl_keeps (g := g) h _ _

/-- What a reset of the host link leaves of a channel. -/
def Channel.unlinked (c : Channel) : Channel :=
  { c with reqHead := 0, reqTail := 0, cplTail := 0, cplHead := 0, doorbell := 0, enabled := false, session := 0, reason := 0, unsignalled := 0, phase := true,
           state := if c.busy then 3 else 0, dropCpl := c.busy, reqBase := 0, cplBase := 0, irqEnable := false, vector := 0, moderation := 0 }

/-- The state with its first `n` channels reset as by the host link. -/
def unlinkChans (n : Nat) (s : State) : State :=
  (List.range n).foldl (fun s i => s.modChan i fun c => { c with reqBase := 0, cplBase := 0, irqEnable := false, vector := 0, moderation := 0 })
    ((List.range n).foldl (fun s i => resetChan s i) s)

/-- The channels' reset changes the channels only. -/
theorem unlinkChans_leaves : unlinkChans n s = { s with mbx := { s.mbx with chans := (unlinkChans n s).mbx.chans } } := by
  have rest : ({ unlinkChans n s with mbx := { (unlinkChans n s).mbx with chans := [] } } : State) = { s with mbx := { s.mbx with chans := [] } } :=
    (foldl_modChan_keeps (fun t => { t with mbx := { t.mbx with chans := [] } }) fun _ _ => rfl).trans
      (foldl_modChan_keeps (fun t => { t with mbx := { t.mbx with chans := [] } }) fun _ _ => rfl)
  exact congrArg (fun t : State => { t with mbx := { t.mbx with chans := (unlinkChans n s).mbx.chans } }) rest

/-- The channels' reset leaves each of the channels unlinked. -/
theorem unlinkChans_chan {k : Nat} (h : k < n) : (unlinkChans n s).chan k = (s.chan k).unlinked := by
  refine foldl_modChan_chan.trans ((if_pos h).trans ?_)
  rw [show ((List.range n).foldl (fun s i => resetChan s i) s).chan k = _ from foldl_modChan_chan.trans (if_pos h)]
  rfl

/-- The host link's two bits and PERST# after its reset. -/
def relink (h : HostIf) (cause : HostLinkCause) (t : State) : State :=
  { t with host := { t.host with linkUp := h.linkUp && cause == .flr, cxl := (h.linkUp && cause == .flr) && h.cxl }, power := { t.power with perst := if cause = .perst then true else t.power.perst } }

/-- What follows the reset of the host link: what its snoops kept back goes on. -/
def goOn (t : State) : State := (settleSnapshots (resumeSnooped t).telem.due (resumeSnooped t)).settlePfc

/-- The reset of the host link where no request of the network waits. -/
theorem execHostLinkReset_goesOn {cause : HostLinkCause} (hc : s.clocked = true) (hw : s.host.waiting = []) :
    execHostLinkReset cause s = .next (goOn (relink s.host cause (resetHostLink (abortWindowCkpts s)))) := by
  simp only [execHostLinkReset, hc, hw, List.filter_nil, List.foldl_nil, Bool.not_true, Bool.false_eq_true, if_false]
  unfold goOn relink
  with_reducible rfl

/-- Where nothing waits, nothing goes on. -/
theorem goOn_quiet (h : s.Quiet) (hd : s.telem.due = 0) : goOn s = s.settlePfc := by
  rw [goOn, resumeSnooped_quiet h, hd, settleSnapshots]

/-- The state that a reset of the host link leaves where nothing waits, with some channels. -/
def unlinked (s : State) (chans : Tbl Channel) (cause : HostLinkCause) : State :=
  relink s.host cause { s with mbx := { s.mbx with chans := chans }, host := HostIf.init, irq := Irq.init }

/-- The host link's reset while no image is fetched: it resets the channels, the host's part and the interrupt registers. -/
theorem resetHostLink_leaves (h : s.boot.fwStage ≠ 2) : ∃ chans, resetHostLink s = { s with mbx := { s.mbx with chans := chans }, host := HostIf.init, irq := Irq.init }
    ∧ ∀ k, k < 64 → tget Channel.init chans k = (s.chan k).unlinked := by
  unfold resetHostLink
  change ∃ chans, (let t : State := { unlinkChans 64 s with host := HostIf.init, irq := Irq.init }
    if t.boot.fwStage = 2 ∧ t.boot.fetching = true then t.bootFailed 9 else t) = _ ∧ _
  generalize hn : 64 = n
  rw [unlinkChans_leaves]
  exact ⟨_, if_neg fun hs => h hs.1, fun k hk => unlinkChans_chan hk⟩

/-- The reset of the host link where nothing waits. -/
theorem execHostLinkReset_quiet {cause : HostLinkCause} (hc : s.clocked = true) (hw : s.host.waiting = []) (hd : s.telem.due = 0) (hq : s.Quiet) (hb : s.boot.fwStage ≠ 2) :
    ∃ chans, execHostLinkReset cause s = .next (unlinked s chans cause).settlePfc ∧ ∀ k, k < 64 → tget Channel.init chans k = (s.chan k).unlinked := by
  obtain ⟨chans, leaves, each⟩ := resetHostLink_leaves hb
  refine ⟨chans, ?_, each⟩
  rw [execHostLinkReset_goesOn hc hw, abortWindowCkpts_quiet hq.held, leaves]
  exact congrArg Host.Outcome.next (goOn_quiet (s := unlinked s chans cause) ⟨hq.held, hq.started, hq.jobs, hq.replay⟩ hd)

/-- Settles O33, request by request. -/
theorem hostWindowCommandsTakeEffect : Obligations.HostWindowCommandsTakeEffect := by
  refine ⟨fun s ho => ⟨fun o n a hc hw => ?_, fun o bs p a hc hw => ?_, fun line a ha => ⟨?_, fun bs p h => ?_, fun bs be p h => ?_⟩, fun line a ha hf => ⟨?_, ?_, ?_, fun hr => ⟨?_, ?_, ?_, ?_⟩⟩,
    fun line hs => ⟨?_, ?_, ?_, fun hn => ?_, ?_⟩, fun base size w hx hc hw hsize => ?_⟩,
    fun s hc => ⟨fun width gts hl hw => ?_, fun cause hw hd hh ha hj hr hb => ?_⟩⟩
  · show execBar2Read o n s = _
    simp only [execBar2Read, ho, hc, hw, Bool.not_true, Bool.false_eq_true, if_false]
  · show execBar2Write o bs p s = _
    simp only [execBar2Write, ho, hc, hw, Bool.not_true, Bool.false_eq_true, if_false]
  · exact congrArg Host.Outcome.next (hostEvict_drops ha)
  · exact congrArg Host.Outcome.next (hostWrite_dropped ha h)
  · exact congrArg Host.Outcome.next (hostWrite_dropped ha h)
  · exact congrArg Host.Outcome.next (hostInv_free ha hf)
  · exact congrArg Host.Outcome.next (hostRead_admitted ha (admitReq_free hf))
  · exact congrArg Host.Outcome.next (hostRead_admitted ha (admitReq_free hf))
  · exact congrArg Host.Outcome.next (hostRead_admitted ha (admitReq_room hf hr))
  · exact congrArg Host.Outcome.next (hostRead_admitted ha (admitReq_room hf hr))
  · exact congrArg Host.Outcome.next (hostRead_admitted ha (admitReq_room hf hr))
  · exact congrArg Host.Outcome.next (hostRead_admitted ha (admitReq_room hf hr))
  · show execBiRsp line .i s = _
    simp only [execBiRsp, ho, hs, Bool.not_true, Bool.or_self, Bool.false_eq_true, if_false]
  · show execBiRsp line .s s = _
    simp only [execBiRsp, ho, hs, Bool.not_true, Bool.or_self, Bool.false_eq_true, if_false]
  · show execBiRsp line .e s = _
    simp only [execBiRsp, ho, hs, Bool.not_true, Bool.or_self, Bool.false_eq_true, if_false]
  · exact execBiConflict_acks ho hs hn
  · show execSnoopTimeout line s = _
    have clocked : s.clocked = true := (Bool.and_eq_true_iff.mp ho).2
    simp only [execSnoopTimeout, hs, clocked, Bool.not_true, Bool.or_self, Bool.false_eq_true, if_false, postErr_host]
  · show execHdmDecoderCommit base size 1 s = _
    simp only [execHdmDecoderCommit, ho, hx, hc, hw, hsize, beq_self_eq_true, Bool.not_true, Bool.or_self, Bool.and_self, Bool.false_eq_true, if_false, if_true]
  · show execPcieLinkTrained width gts s = _
    have known : [4, 8, 16].contains width = true := by
      rcases hw with rfl | rfl | rfl <;> decide
    simp only [execPcieLinkTrained, hl, hc, known, Bool.not_true, Bool.or_self, Bool.false_eq_true, if_false]
  · obtain ⟨chans, resets, each⟩ := execHostLinkReset_quiet (cause := cause) hc hw hd ⟨hh, ha, hj, hr⟩ hb
    refine ⟨_, resets, ?_, ?_, ?_, ?_, ?_, ?_, ?_, fun n hn => ?_⟩
    · exact settlePfc_keeps State.host (fun _ _ _ => rfl) fun _ _ => rfl
    · exact settlePfc_keeps State.irq (fun _ _ _ => rfl) fun _ _ => rfl
    · exact settlePfc_keeps State.hbm (fun _ _ _ => rfl) fun _ _ => rfl
    · exact settlePfc_keeps State.cores (fun _ _ _ => rfl) fun _ _ => rfl
    · exact settlePfc_keeps State.stage (fun _ _ _ => rfl) fun _ _ => rfl
    · exact settlePfc_keeps State.fabric (fun _ _ _ => rfl) fun _ _ => rfl
    · exact settlePfc_keeps State.err (fun _ _ _ => rfl) fun _ _ => rfl
    · have chan : (unlinked s chans cause).settlePfc.chan n = (s.chan n).unlinked := (settlePfc_keeps (fun t => t.chan n) (fun _ _ _ => rfl) fun _ _ => rfl).trans (each n hn)
      rw [chan]
      exact ⟨rfl, rfl, rfl, rfl, rfl, rfl⟩

end Sys2Proof.Machine
end

section
/-! PROOFS. Frames, responses and credits -/

namespace Sys2Proof.Machine

variable {s : State} {via : Via} {f : Frame}

/-! Frames that a port or a connection accepts. -/

/-- A frame that is accepted by a device out of quarantine, and that its window takes, is written. -/
theorem execWrite_lands {t : Target} (ha : (acceptFrame s via 2 f).2 = true) (hq : (acceptFrame s via 2 f).1.boot.quarantined = false)
    (ht : frameTarget (acceptFrame s via 2 f).1 f f.payload.length = some t) (hw : windowReason (acceptFrame s via 2 f).1 f (some t) true = none) :
    execWrite via f s = .next (landWrite (acceptFrame s via 2 f).1 via f t) := by
  simp only [execWrite, ha, hq, ht, hw, Bool.not_true, Bool.false_eq_true, if_false]

/-- A READ that its window takes is answered with the window's bytes. -/
theorem execRead_answersBytes {t : Target} (ha : (acceptFrame s via 3 f).2 = true) (hq : (acceptFrame s via 3 f).1.boot.quarantined = false)
    (hs : quarantineOf (acceptFrame s via 3 f).1 f.srcEp.toNat = none)
    (ht : frameTarget (acceptFrame s via 3 f).1 f (f.lenM1.toNat + 1) = some t) (hw : windowReason (acceptFrame s via 3 f).1 f (some t) false = none)
    (hd : (spadRead (acceptFrame s via 3 f).1 t.core t.addr (f.lenM1.toNat + 1)).dead = none) :
    execRead via f s = .next (respond (acceptFrame s via 3 f).1 via f 5 0 0 (spadRead (acceptFrame s via 3 f).1 t.core t.addr (f.lenM1.toNat + 1)).bytes) := by
  simp only [execRead, ha, hq, hs, ht, hw, hd, Option.isSome_none, Bool.not_true, Bool.false_eq_true, if_false]

/-- Settles O34, frame by frame. -/
theorem linkFramesReachTheirTargets : Obligations.LinkFramesReachTheirTargets := by
  intro via f s
  refine ⟨fun t ha hq ht hw => execWrite_lands ha hq ht hw, fun t ha hq hs ht hw hd => execRead_answersBytes ha hq hs ht hw hd, fun x ha hq _ => ?_⟩
  show execSlotWrite via f s = _
  simp only [execSlotWrite, ha, hq, Bool.not_true, Bool.false_eq_true, if_false]

/-- A WRITE that its window refuses is logged and answered with the reason. -/
theorem execWrite_refused {n : Nat} (ha : (acceptFrame s via 2 f).2 = true) (hq : (acceptFrame s via 2 f).1.boot.quarantined = false)
    (hw : windowReason (acceptFrame s via 2 f).1 f (frameTarget (acceptFrame s via 2 f).1 f f.payload.length) true = some n) :
    execWrite via f s = .next (respond (logRefusal (acceptFrame s via 2 f).1 (frameUnit (acceptFrame s via 2 f).1 via f) f n f.window.toNat) via f 6 0x301 n []) := by
  simp only [execWrite, ha, hq, hw, Option.getD_some, Bool.not_true, Bool.false_eq_true, if_false]

/-- A READ that its window refuses is logged and answered with the reason. -/
theorem execRead_refused {n : Nat} (ha : (acceptFrame s via 3 f).2 = true) (hq : (acceptFrame s via 3 f).1.boot.quarantined = false)
    (hs : quarantineOf (acceptFrame s via 3 f).1 f.srcEp.toNat = none)
    (hw : windowReason (acceptFrame s via 3 f).1 f (frameTarget (acceptFrame s via 3 f).1 f (f.lenM1.toNat + 1)) false = some n) :
    execRead via f s = .next (respond (logRefusal (acceptFrame s via 3 f).1 (frameUnit (acceptFrame s via 3 f).1 via f) f n f.window.toNat) via f 5 0x301 n []) := by
  simp only [execRead, ha, hq, hs, hw, Option.getD_some, Bool.not_true, Bool.false_eq_true, if_false]

/-- Settles O35: a refusal by the window, by the target's quarantine and by the source's. -/
theorem refusedFramesAreAnswered : Obligations.RefusedFramesAreAnswered := by
  intro via f s n
  refine ⟨fun ha hq hw => execWrite_refused ha hq hw, fun ha hq hs hw => execRead_refused ha hq hs hw, fun ha hq => ?_, fun ha hq => ?_, fun ha hq hs => ?_, fun ha hq => ?_⟩
  · show execWrite via f s = _
    simp only [execWrite, ha, hq, Bool.not_true, Bool.false_eq_true, if_false, if_true]
  · show execRead via f s = _
    simp only [execRead, ha, hq, Bool.not_true, Bool.false_eq_true, if_false, if_true]
  · show execRead via f s = _
    simp only [execRead, ha, hq, hs, Bool.not_true, Bool.false_eq_true, if_false]
  · show execSlotWrite via f s = _
    simp only [execSlotWrite, ha, hq, Bool.not_true, Bool.false_eq_true, if_false, if_true]

/-! Responses and credits. -/

/-- The remote slot that a credit names, after it. -/
theorem rslot_modRemote_same {g : Stage} {q i : Nat} {h : RemoteSlot → RemoteSlot} : (g.modRemote q i h).rslot q i = h (g.rslot q i) := by
  unfold Stage.rslot Stage.modRemote
  rw [tget_tmod_same, tget_tmod_same]

/-- A credit for a remote slot that has none is taken. -/
theorem landCredit_takes {a : StageAddr} (hq : f.queue.toNat < 2) (ha : s.stage.receiver (f.queue.toNat + 2) = some a) (he : a.endpoint = f.srcEp) (hi : f.slot.toNat < a.peerInSlots)
    (hn : (s.stage.rslot (f.queue.toNat + 2) f.slot.toNat).newest = none) (hc : (s.stage.rslot (f.queue.toNat + 2) f.slot.toNat).credit = none) :
    ∃ newest, landCredit s via f = { s with stage := s.stage.modRemote (f.queue.toNat + 2) f.slot.toNat fun _ => { newest := newest, credit := some f.slotGen } } := by
  have inside : f.queue.toNat + 2 < 4 := by omega
  have named : ¬(a.endpoint ≠ f.srcEp ∨ a.peerInSlots ≤ f.slot.toNat) := by
    rintro (h | h)
    · exact h he
    · omega
  simp only [landCredit, if_pos inside, ha, if_neg named, hn, hc, Option.isSome_none, Bool.false_eq_true, if_false]
  refine ⟨_, ite_self _⟩

/-- Settles O36, response by response. -/
theorem responsesReachTheirOperations : Obligations.ResponsesReachTheirOperations := by
  intro via f s
  refine ⟨fun ha => ⟨fun o ho => ?_, fun ho => ?_⟩, fun ha => ⟨fun o ho => ?_, fun ho => ?_⟩, fun ha a hq hr he hi hn hc => ?_⟩
  · show execReadData via f s = _
    simp only [execReadData, ha, ho, Bool.not_true, Bool.false_eq_true, if_false]
  · show execReadData via f s = _
    simp only [execReadData, ha, ho, Bool.not_true, Bool.false_eq_true, if_false]
    rfl
  · show execWriteAck via f s = _
    simp only [execWriteAck, ha, ho, Bool.not_true, Bool.false_eq_true, if_false]
  · show execWriteAck via f s = _
    simp only [execWriteAck, ha, ho, Bool.not_true, Bool.false_eq_true, if_false]
    rfl
  · obtain ⟨newest, taken⟩ := landCredit_takes (via := via) hq hr he hi hn hc
    refine ⟨landCredit (acceptFrame s via 7 f).1 via f, ?_, ?_, ?_, ?_⟩
    · show execSlotCredit via f s = _
      simp only [execSlotCredit, ha, Bool.not_true, Bool.false_eq_true, if_false]
    · rw [taken]
      exact congrArg RemoteSlot.credit rslot_modRemote_same
    · rw [taken]
    · rw [taken]

end Sys2Proof.Machine
end

section
/-! PROOFS. Link, training and Ethernet events -/

namespace Sys2Proof.Machine

variable {s : State}

/-! The link layer. -/

/-- A port with a session that has not ended hears its partner while the clocks run. -/
theorem hears_of_live {p : Nat} (hl : (s.port p).live = true) (hc : s.clocked = true) : s.hears p = true := by
  rw [State.hears, hl, hc, Bool.true_or, Bool.and_self]

/-- What a frame's link fields acknowledge and credit leaves the port's state alone. -/
theorem linked_state {pt : Port} {ack : BitVec 16} {vc : BitVec 2} {units : BitVec 14} : (pt.linked ack vc units).state = pt.state := by
  have acked : (pt.acked ack).state = pt.state := by
    unfold Port.acked
    dsimp only
    split <;> rfl
  unfold Port.linked Port.credited
  split
  · exact acked
  · exact acked

/-- A device that leads time, or is its root, takes no source. -/
theorem takeSource_leads (h : s.clock.mode = 1 ∨ s.clock.root = true) : takeSource s = s := by
  rw [takeSource, if_pos h]

/-- Settles O37, event by event. -/
theorem linkEventsTakeEffect : Obligations.LinkEventsTakeEffect := by
  intro port s p
  refine ⟨fun f hl hc => ?_, fun h l hl hc hg hsw => ?_, fun t l hl hc hr => ?_, fun id l hc h1 ha hlan hv => ?_, fun id l hc h1 hin hid => ?_, fun h0 hl => ?_, fun hl ha => ?_,
    fun ht hin => ?_, fun hin ho => ?_, fun h2 hr ht => ?_⟩
  · intro t
    have state : (t.port p).state = (s.port p).state := by
      simp only [t, port_modPort_same]
      exact linked_state
    have hears : s.hears p = true := hears_of_live hl hc
    have step : execLinkCtl port f s = .next ((if !f.replayReq then t else if (t.port p).state = 2 then replayFrames t p else t.modPort p fun pt => { pt with replayDue := true }).drain p) := by
      simp only [execLinkCtl, show s.hears port.val = true from hears, Bool.not_true, Bool.false_eq_true, if_false]
      rfl
    refine ⟨fun hf => step.trans ?_, fun hf h2 => step.trans ?_, fun hf h2 => step.trans ?_⟩
    · rw [hf]
      rfl
    · rw [hf, state, if_pos h2]
      rfl
    · rw [hf, state, if_neg h2]
      rfl
  · intro u
    show execHello port h l s = _
    simp only [execHello, show s.hears port.val = true from hears_of_live hl hc, if_neg hg, show (s.port port.val).switchSeen = false from hsw, Bool.not_true, Bool.false_eq_true, if_false]
    rfl
  · intro u
    have clock : u.clock = s.clock := drain_clock
    have leads : u.clock.mode = 1 ∨ u.clock.root = true := by rwa [clock]
    show execTime port t l s = _
    rw [← clock]
    simp only [execTime, show (s.port port.val).live = true from hl, hc, Bool.not_true, Bool.or_self, Bool.false_eq_true, if_false]
    exact if_pos leads
  · show execRetrainSync port id l s = _
    simp only [execRetrainSync, hc, show (s.port port.val).state = 1 from h1, show (s.port port.val).lanes = 0xFF from hlan, show (s.port port.val).version = (s.port port.val).agreed from hv,
      show (s.port port.val).agreed ≠ 0 from ha, Bool.not_true, Bool.false_eq_true, if_false, if_true, ne_eq, not_false_eq_true, and_self]
    rfl
  · show execRetrainSync port id l s = _
    simp only [execRetrainSync, hc, if_neg (show (s.port port.val).state ≠ 1 from h1), show (s.port port.val).inSession = true from hin, Bool.not_true, Bool.false_eq_true, if_false, if_true]
    exact if_pos (Or.inl hid)
  · show execFrameDrop port s = _
    have silent : ((s.modPort p fun pt => { pt with counts := { pt.counts with crcErrors := satInc pt.counts.crcErrors 1 } }).port p).live = false := by
      rw [port_modPort_same]
      exact hl
    simp only [execFrameDrop, if_neg (show (s.port port.val).state ≠ 0 from h0)]
    exact congrArg Host.Outcome.next (if_neg (by rw [silent]; exact Bool.false_ne_true))
  · show execReplayRequestRepeat port s = _
    simp only [execReplayRequestRepeat, show (s.port port.val).live = true from hl, show (s.port port.val).replayAsked = some (s.port port.val).rxSeq from ha, beq_self_eq_true, Bool.and_self, if_true]
    rfl
  · exact if_pos ⟨ht, hin⟩
  · obtain ⟨o, mem, sent, via⟩ := ho
    have found : (s.net.ops.any fun o => allSent s o && decide (o.via = .port port)) = true := List.any_eq_true.mpr ⟨o, mem, by rw [sent, decide_eq_true via, Bool.and_self]⟩
    show execResponseTimer port s = _
    simp only [execResponseTimer, show (s.port port.val).inSession = true from hin, found, Bool.and_self, if_true]
    rfl
  · show execTimeFrameTx port s = _
    simp only [execTimeFrameTx, show (s.port port.val).state = 2 from h2, takeSource_leads hr, reportedRoot, if_pos hr, show (s.port port.val).lastTimeRx = 0 from ht, if_true]

/-! Training. -/

/-- Settles O38, event by event. -/
theorem trainingEventsTakeEffect : Obligations.TrainingEventsTakeEffect := by
  intro port s p hc
  have on : (s.clocked = false) = False := by rw [hc]; exact eq_false Bool.noConfusion
  refine ⟨fun id hl h1 ha => ?_, fun id hl h3 => ?_, fun lane h3 => ?_, fun lane h1 => ?_, fun lane h2 => ?_, fun h1 => if_pos h1, fun h3 hl => if_pos ⟨h3, hl⟩, fun core queue id e he hw => ?_,
    fun queue hh hf => ?_⟩
  · show execLaneLock port id s = _
    simp only [execLaneLock, on, or_false, if_neg (show ¬(s.port port.val).lanes = 0xFF from hl), if_pos (show (s.port port.val).state = 1 from h1), if_pos (show (s.port port.val).agreed = 0 from ha)]
    rfl
  · show execLaneLock port id s = _
    simp only [execLaneLock, on, or_false, if_neg (show ¬(s.port port.val).lanes = 0xFF from hl), show (s.port port.val).state = 3 from h3, if_true]
    rfl
  · show execLaneUnlock port lane s = _
    simp only [execLaneUnlock, show (s.port port.val).state = 3 from h3, if_true]
    rfl
  · show execLaneUnlock port lane s = _
    simp only [execLaneUnlock, show (s.port port.val).state = 1 from h1, if_true]
    rfl
  · refine ⟨(enterRetrain s p).modPort p fun pt => { pt with lanes := (s.port p).lanes &&& ~~~(1#8 <<< lane.val) }, ?_, ?_, ?_, ?_⟩
    · show execLaneUnlock port lane s = _
      simp only [execLaneUnlock, show (s.port port.val).state = 2 from h2]
      rfl
    all_goals
      rw [port_modPort_same, enterRetrain, port_modPort_same]
  · show execEndpointWaitTimeout core queue id s = _
    simp only [execEndpointWaitTimeout, he, hw, if_true]
  · show execV1CreditHold queue s = _
    simp only [execV1CreditHold, hh, hf, Bool.and_self, if_true]

/-! Ethernet. -/

/-- A change of a connection that exists. -/
theorem conn_modConn_same {c : Nat} {k : Conn} {f : Conn → Conn} (h : s.conn c = some k) : (s.modConn c f).conn c = some (f k) := by
  unfold State.conn at h
  unfold State.conn State.modConn
  rw [tget_tmod_same, h]
  rfl

/-- Only a change's effect on the port itself counts. -/
theorem modEth_congr {p : Nat} {f g : EthPort → EthPort} (h : f (s.ethPort p) = g (s.ethPort p)) : s.modEth p f = s.modEth p g := by
  unfold State.ethPort at h
  unfold State.modEth tmod
  rw [h]

/-- Settles O39, event by event. -/
theorem ethernetEventsTakeEffect : Obligations.EthernetEventsTakeEffect := by
  intro s
  refine ⟨fun c spill k hk => ⟨_, rfl, conn_modConn_same hk⟩, fun c spill k hk => ⟨_, rfl, conn_modConn_same hk⟩, fun port pr on hu => ?_, fun c k hk he hu => ?_, fun port hu => if_pos hu,
    fun c k hk => ⟨fun hr => ?_, fun hw => ?_⟩, fun port seq origin corr hen hu hc => ?_, fun port h1 h2 h3 hc => ?_, fun port => rfl, fun c k hk he hu => ⟨?_, fun hr => ⟨?_, ?_⟩⟩⟩
  · show execPfcPause port pr on s = _
    simp only [execPfcPause, hu, Bool.not_true, Bool.false_eq_true, if_false]
  · show execRdmaInbound c s = _
    simp only [execRdmaInbound, hk, he, hu, Bool.not_true, Bool.or_self, Bool.false_eq_true, if_false]
  · show execRcRetransmit c s = _
    simp only [execRcRetransmit, hk, hr, if_true]
    rfl
  · show execConnectionError c s = _
    simp only [execConnectionError, hk, hw, if_true]
  · intro p asks
    have mine : ((s.ethPort port.val).ptpEn && (s.ethPort port.val).up && s.clocked) = true := by
      rw [hen, hu, hc]
      rfl
    refine ⟨?_, ?_, fun t2 hs => ?_, fun t1 t2 t3 hseq hp hq => ?_⟩
    · show execPtpMessage port (.sync (s.ethPort port.val).ptpDomain seq false origin corr) s = _
      simp only [execPtpMessage, mine, beq_self_eq_true, Bool.and_self, Bool.not_true, Bool.false_eq_true, if_false]
      rfl
    · show execPtpMessage port (.sync (s.ethPort port.val).ptpDomain seq true origin corr) s = _
      simp only [execPtpMessage, mine, beq_self_eq_true, Bool.and_self, Bool.not_true, Bool.false_eq_true, if_false, if_true]
    · show execPtpMessage port (.followUp (s.ethPort port.val).ptpDomain seq origin corr) s = _
      simp only [execPtpMessage, show (s.ethPort port.val).ptpSync = some (seq, t2) from hs, mine, beq_self_eq_true, Bool.and_self, if_true]
      rfl
    · intro delay
      show execPtpMessage port (.delayResp (s.ethPort port.val).ptpDomain seq origin corr) s = _
      simp only [execPtpMessage, mine, show seq + 1 = (s.ethPort port.val).ptpSeq from hseq, beq_self_eq_true, Bool.and_self, if_true]
      refine congrArg Host.Outcome.next (modEth_congr ?_)
      rw [measured1588, show (s.ethPort port.val).ptpPair = some (t1, t2) from hp, show (s.ethPort port.val).ptpReq = some t3 from hq]
  · show execEthernetLinkUp port s = _
    simp only [execEthernetLinkUp, h1, h2, h3, hc, Bool.not_false, Bool.and_self, if_true]
  · intro t
    show execRoceAck c .ack s = _
    simp only [execRoceAck, hk, he, hu, Bool.not_true, Bool.or_self, Bool.false_eq_true, if_false]
    rfl
  · show execRoceAck c .nak s = _
    simp only [execRoceAck, hk, he, hu, hr, Bool.not_true, Bool.or_self, Bool.false_eq_true, if_false, if_true]
  · show execRoceAck c .rnr s = _
    simp only [execRoceAck, hk, he, hu, hr, Bool.not_true, Bool.or_self, Bool.false_eq_true, if_false, if_true]

end Sys2Proof.Machine
end

section
/-! PROOFS. Error events -/

namespace Sys2Proof.Machine

variable {s : State}

/-! Scrubbing and error events. -/

/-- Correcting weak words leaves the broken ones, and the scrubber's place, alone. -/
theorem correctWeak_hbmKeeps {α : Type} (g : Hbm → α) (h : ∀ (m : Hbm) w c, g { m with weak := w, corrected := c } = g m) {a n : Nat} : g (correctWeak s a n).hbm = g s.hbm := by
  unfold correctWeak
  dsimp only
  exact foldl_keeps (g := fun t : State => g t.hbm) (fun t e => by rw [postErr_hbm, h]) _ _

/-- The scrubber's read of a word that is not broken corrects its weak bits and goes on. -/
theorem execPatrolScrub_goesOn (hc : s.clocked = true) (ht : s.boot.needTrain = false)
    (hb : tget false s.hbm.broken (chanAddr (s.hbm.scrubPos % 128) (32 * (s.hbm.scrubPos / 128)) / 32) = false) :
    let t := correctWeak s (chanAddr (s.hbm.scrubPos % 128) (32 * (s.hbm.scrubPos / 128))) 32
    execPatrolScrub s = .next { t with hbm := if s.hbm.scrubPos + 1 = scrubWords then { t.hbm with scrubPos := 0, scrubPasses := satInc t.hbm.scrubPasses 1 } else { t.hbm with scrubPos := s.hbm.scrubPos + 1 } } := by
  intro t
  have broken : tget false t.hbm.broken (chanAddr (s.hbm.scrubPos % 128) (32 * (s.hbm.scrubPos / 128)) / 32) = false := by
    rw [show t.hbm.broken = s.hbm.broken from correctWeak_hbmKeeps Hbm.broken fun _ _ _ => rfl]
    exact hb
  simp only [t] at broken
  simp only [execPatrolScrub, hc, ht, broken, Bool.not_true, Bool.or_self, Bool.false_eq_true, if_false, t]

/-- The next error event is recorded. -/
theorem handleEvent_records {i : Nat} {r : ErrRec} {rest : List ErrRec} (hi : s.itkan = true) (hq : nextQueue s = some i) (hr : tget [] s.err.queues i = r :: rest) :
    handleEvent s = writeRecord { s with err := { s.err with queues := tset [] s.err.queues i rest } } r := by
  simp only [handleEvent, hi, hq, hr, Bool.not_true, Bool.false_eq_true, if_false]

/-! Containment and the watchdog. -/

@[simp] theorem setFwStage_fwStage {v : BitVec 4} : (s.setFwStage v).boot.fwStage = v := by
  unfold State.setFwStage
  split
  next h => exact h
  next => rw [setIrq_boot]

/-- A change of FW_STAGE keeps whatever of the boot state does not speak of it. -/
theorem setFwStage_bootKeeps {α : Type} (g : Boot → α) (h : ∀ (b : Boot) v, g { b with fwStage := v } = g b) {v : BitVec 4} : g (s.setFwStage v).boot = g s.boot := by
  unfold State.setFwStage
  split
  · rfl
  · rw [setIrq_boot, h]

/-- The alert is asserted, and nothing else of the error state changes. -/
theorem assertAlert_err : s.assertAlert.err = { s.err with alert := true } := by
  unfold State.assertAlert
  split
  next h => rw [← h]
  next => simp

/-- A containment quarantines the device and then asserts the alert. -/
theorem contain_alerts : ∃ t : State, s.contain = t.assertAlert ∧ t.err = s.err ∧ t.boot.quarantined = true := by
  unfold State.contain
  split
  next h => exact ⟨s, rfl, rfl, h⟩
  next =>
    refine ⟨_, rfl, ?_, ?_⟩
    · rw [helloAll_err, foldl_keeps (g := State.err) (fun t cq => by split <;> rfl), setIrq_err]
    · rw [helloAll_boot, foldl_keeps (g := State.boot) (fun t cq => by split <;> rfl), setIrq_boot]

theorem contain_err : s.contain.err = { s.err with alert := true } := by
  obtain ⟨t, ht, he, -⟩ := contain_alerts (s := s)
  rw [ht, assertAlert_err, he]

theorem contain_quarantined : s.contain.boot.quarantined = true := by
  obtain ⟨t, ht, -, hq⟩ := contain_alerts (s := s)
  rw [ht, assertAlert_boot, hq]

/-- A control reset's last part: held work is dropped, the firmware's operations end, and every channel is free. -/
def settleReset (s : State) : State :=
  let t := dropHeldWork s
  ((List.range 64).foldl (fun s n => s.modChan n fun c => { c with busy := false, dropCpl := false, state := if c.state = 3 then 0 else c.state })
    ((t.net.ops.filter fun o => match o.owner with | .cmd _ _ _ => false | .firmware => true).foldl (fun s o => s.endOp o.tag) t)).setFwStage 0

/-- The last part of a control reset keeps whatever its changes keep. -/
theorem settleReset_keeps {α : Type} (g : State → α) (queue : ∀ (s : State) c q f, g (s.modQueue c q f) = g s) (tarn : ∀ (s : State) x, g { s with tarn := x } = g s)
    (op : ∀ (s : State) t, g (s.endOp t) = g s) (chan : ∀ (s : State) n c, g { s with mbx := { s.mbx with chans := tset Channel.init s.mbx.chans n c } } = g s)
    (stage : ∀ (s : State) v, g (s.setFwStage v) = g s) : g (settleReset s) = g s := by
  unfold settleReset
  refine (stage _ _).trans ((foldl_keeps (g := g) (fun t n => chan t n _) _ _).trans ((foldl_keeps (g := g) (fun t o => op t _) _ _).trans ?_))
  unfold dropHeldWork
  refine (tarn _ _).trans (foldl_keeps (g := g) (fun t cq => ?_) _ _)
  split
  · exact queue t _ _ _
  · rfl

/-- A control reset by the watchdog empties the event queues and drops what is held. -/
theorem controlReset_settles : ∃ u, controlReset s true = settleReset u ∧ u.err = { s.err with queues := [], overflow := u.err.overflow, alertLost := u.err.alertLost } ∧ u.mbx.held = []
    ∧ u.sec.debugOpened = false ∧ u.boot.quarantined = s.boot.quarantined ∧ u.hbm = s.hbm :=
  ⟨_, rfl, rfl, rfl, rfl, rfl, rfl⟩

/-- The device as a trip records it. -/
def tripped (s : State) (cause : BitVec 4) (hart : BitVec 2) (hs : BitVec 2048) (handling : Bool) : State :=
  recordTrip s.contain.assertAlert (gaspOf s.contain.assertAlert cause hart hs handling)

/-- After its control reset, a trip stops at the last gasp's limit or boots again. -/
def restart (t : State) : State :=
  State.setFwStage { t with boot := { t.boot with afterTrip := true, restartDue := false } } (if t.err.halted then 8 else 2)

/-- A trip with a cause of the four, while the control complex runs. -/
theorem execWatchdogTrip_trips {cause : BitVec 4} {hart : BitVec 2} {hs : BitVec 2048} {handling : Bool} (hcause : cause.toNat < 4) (h0 : s.boot.fwStage ≠ 0) (h8 : s.boot.fwStage ≠ 8)
    (hc : s.clocked = true) : execWatchdogTrip cause hart hs handling s = .next (restart (controlReset (tripped s cause hart hs handling) true)) := by
  simp only [execWatchdogTrip, decide_eq_false (Nat.not_le.mpr hcause), beq_false_of_ne h0, beq_false_of_ne h8, hc, Bool.not_true, Bool.or_self, Bool.false_eq_true, if_false]
  unfold restart tripped
  with_reducible rfl

/-- What the control reset of a trip leaves. -/
theorem controlReset_leaves : (controlReset s true).boot.quarantined = s.boot.quarantined ∧ (∃ overflow lost, (controlReset s true).err = { s.err with queues := [], overflow := overflow, alertLost := lost })
    ∧ (controlReset s true).mbx.held = [] ∧ (controlReset s true).sec.debugOpened = false ∧ (controlReset s true).hbm = s.hbm := by
  obtain ⟨u, hu, err, held, sec, boot, hbm⟩ := controlReset_settles (s := s)
  rw [hu]
  refine ⟨?_, ⟨u.err.overflow, u.err.alertLost, ?_⟩, ?_, ?_, ?_⟩
  · exact (settleReset_keeps (fun t => t.boot.quarantined) (fun _ _ _ _ => rfl) (fun _ _ => rfl) (fun _ _ => rfl) (fun _ _ _ => rfl)
      fun _ _ => setFwStage_bootKeeps Boot.quarantined fun _ _ => rfl).trans boot
  · exact (settleReset_keeps State.err (fun _ _ _ _ => rfl) (fun _ _ => rfl) (fun _ _ => rfl) (fun _ _ _ => rfl) fun _ _ => setFwStage_err).trans err
  · exact (settleReset_keeps (fun t => t.mbx.held) (fun _ _ _ _ => rfl) (fun _ _ => rfl) (fun _ _ => rfl) (fun _ _ _ => rfl) fun _ _ => congrArg Mailbox.held setFwStage_mbx).trans held
  · exact (settleReset_keeps (fun t => t.sec.debugOpened) (fun _ _ _ _ => rfl) (fun _ _ => rfl) (fun _ _ => rfl) (fun _ _ _ => rfl)
      fun _ _ => congrArg Security.debugOpened setFwStage_sec).trans sec
  · exact (settleReset_keeps State.hbm (fun _ _ _ _ => rfl) (fun _ _ => rfl) (fun _ _ => rfl) (fun _ _ _ => rfl) fun _ _ => setFwStage_hbm).trans hbm

/-- What a restart changes: the boot state only. -/
theorem restart_leaves : (restart s).boot.fwStage = (if (restart s).err.halted then 8 else 2) ∧ (restart s).boot.quarantined = s.boot.quarantined ∧ (restart s).boot.afterTrip = true
    ∧ (restart s).err = s.err ∧ (restart s).mbx = s.mbx ∧ (restart s).sec = s.sec ∧ (restart s).hbm = s.hbm := by
  unfold restart
  refine ⟨?_, setFwStage_bootKeeps Boot.quarantined fun _ _ => rfl, setFwStage_bootKeeps Boot.afterTrip fun _ _ => rfl, setFwStage_err, setFwStage_mbx, setFwStage_sec, setFwStage_hbm⟩
  rw [setFwStage_fwStage, setFwStage_err]

/-- What a trip's record adds to the error state, and what it leaves. -/
theorem tripped_leaves {cause : BitVec 4} {hart : BitVec 2} {hs : BitVec 2048} {handling : Bool} :
    let t := tripped s cause hart hs handling
    t.boot.quarantined = true ∧ t.err.lastCause = cause ∧ t.err.tripCount = satInc s.err.tripCount 1 ∧ t.err.alert = true ∧ (∀ l, s.err.lgFirst = some l → t.err.lgFirst = some l)
    ∧ (∃ l, t.err.lgLatest = some l ∧ l.cause = cause ∧ l.hart = hart ∧ l.hartState = hs) ∧ t.hbm = s.hbm := by
  have err : s.contain.assertAlert.err = { s.err with alert := true } := by rw [assertAlert_err, contain_err]
  refine ⟨?_, rfl, ?_, ?_, fun l hl => ?_, ⟨_, rfl, rfl, rfl, rfl⟩, ?_⟩
  · exact (congrArg Boot.quarantined assertAlert_boot).trans contain_quarantined
  · show satInc s.contain.assertAlert.err.tripCount 1 = _
    rw [err]
  · exact congrArg Errors.alert err
  · have first : s.contain.assertAlert.err.lgFirst = some l := (congrArg Errors.lgFirst err).trans hl
    show (if s.contain.assertAlert.err.lgFirst.isSome then s.contain.assertAlert.err.lgFirst else _) = some l
    rw [first]
    rfl
  · exact assertAlert_hbm.trans contain_hbm

/-- Settles O40, event by event; a trip's effects are those of its containment, its record and its control reset. -/
theorem errorEventsTakeEffect : Obligations.ErrorEventsTakeEffect := by
  intro s
  refine ⟨fun hc ht hb => execPatrolScrub_goesOn hc ht hb, fun c hf hc => ?_, fun i r rest hc hi hq hr => ?_, fun cause hart hs handling hcause h0 h8 hc => ?_⟩
  · show execHbmChannelFailure c s = _
    simp only [execHbmChannelFailure, hf, hc, Bool.not_true, Bool.or_self, Bool.false_eq_true, if_false]
  · show execErrorEventHandle [] s = _
    simp only [execErrorEventHandle, hc, List.foldl_nil, if_true]
    exact congrArg Host.Outcome.next (handleEvent_records hi hq hr)
  · obtain ⟨quarantined, lastCause, tripCount, alert, first, latest, hbm⟩ := tripped_leaves (s := s) (cause := cause) (hart := hart) (hs := hs) (handling := handling)
    obtain ⟨boot, ⟨overflow, lost, err⟩, held, sec, mem⟩ := controlReset_leaves (s := tripped s cause hart hs handling)
    obtain ⟨stage, quarantinedKept, after, errKept, mbxKept, secKept, hbmKept⟩ := restart_leaves (s := controlReset (tripped s cause hart hs handling) true)
    refine ⟨_, execWatchdogTrip_trips hcause h0 h8 hc, stage, quarantinedKept.trans (boot.trans quarantined), after, ?_, ?_, ?_, ?_, ?_, ?_, ?_, ?_, hbmKept.trans (mem.trans hbm)⟩
    · rw [errKept, err]
      exact lastCause
    · rw [errKept, err]
      exact tripCount
    · rw [errKept, err]
    · rw [mbxKept]
      exact held
    · rw [secKept]
      exact sec
    · rw [errKept, err]
      exact alert
    · rw [errKept, err]
      exact first
    · rw [errKept, err]
      exact latest

end Sys2Proof.Machine
end

section
/-! PROOFS. Boot events -/

namespace Sys2Proof.Machine

variable {s : State}

/-! Boot events. -/

/-- A channel after a restart of the control complex. -/
def Channel.faulted (c : Channel) : Channel :=
  { c with session := 0, busy := false, dropCpl := false, state := if c.enabled then 2 else c.state, reason := if c.enabled then 5 else c.reason }

/-- Itkan's start faults every enabled channel. -/
theorem faultChannels_chan {n : Nat} (h : n < 64) : (faultChannels s).chan n = (s.chan n).faulted := by
  unfold faultChannels
  exact foldl_modChan_chan.trans (if_pos h)

/-- Itkan's start changes its channels, and nothing that no channel is in. -/
theorem faultChannels_keeps {α : Type} (g : State → α) (h : ∀ (s : State) i f, g (s.modChan i f) = g s) : g (faultChannels s) = g s := by
  unfold faultChannels
  exact foldl_modChan_keeps g fun s i => h s i _

/-- The state as the control complex starts, its FW_STAGE apart. -/
def starting (t : State) : State :=
  { t with
    boot := { t.boot with fwInstance := t.boot.fwInstance + 1, startReady := false, afterTrip := false }
    mbx := { t.mbx with sessions := [], issued := [], held := [] }
    sec := { t.sec with nonce := none } }

/-- Itkan starts an image that is ready, no trip having come before. -/
theorem execItkanStart_starts (hr : s.boot.startReady = true) (h2 : s.boot.fwStage = 2) (ht : s.boot.afterTrip = false) (hc : s.clocked = true) :
    execItkanStart s = .next ((starting (faultChannels s)).setFwStage 3) := by
  simp only [execItkanStart, hr, h2, ht, hc, Bool.not_true, bne_self_eq_false, Bool.or_self, Bool.false_eq_true, if_false]
  unfold starting
  with_reducible rfl

/-- What a started control complex holds. -/
theorem starting_leaves : let t := (starting s).setFwStage 3
    t.boot.fwStage = 3 ∧ t.boot.fwInstance = s.boot.fwInstance + 1 ∧ t.boot.startReady = false ∧ t.mbx = { s.mbx with sessions := [], issued := [], held := [] } ∧ t.sec.nonce = none
    ∧ t.hbm = s.hbm ∧ t.cores = s.cores ∧ t.stage = s.stage ∧ t.err = s.err :=
  ⟨setFwStage_fwStage, setFwStage_bootKeeps Boot.fwInstance fun _ _ => rfl, setFwStage_bootKeeps Boot.startReady fun _ _ => rfl, setFwStage_mbx,
    congrArg Security.nonce setFwStage_sec, setFwStage_hbm, setFwStage_cores, setFwStage_stage, setFwStage_err⟩

/-- The control complex's start leaves the channels. -/
theorem starting_chan {n : Nat} : ((starting s).setFwStage 3).chan n = s.chan n := by
  show tget Channel.init ((starting s).setFwStage 3).mbx.chans n = _
  rw [setFwStage_mbx]
  rfl

/-- Becoming READY keeps whatever neither the doorbells' evaluation nor FW_STAGE changes. -/
theorem becomeReady_keeps {α : Type} (g : State → α) (each : ∀ (s : State) n, g (evalDoorbell s n) = g s) : g (becomeReady s) = g (s.setFwStage 6) := by
  rw [becomeReady, evalDoorbells, foldl_keeps each]

/-- Settles O41, event by event. -/
theorem bootEventsTakeEffect : Obligations.BootEventsTakeEffect := by
  intro s hc
  refine ⟨fun h h0 => ?_, fun bs h2 hr hf hb => ?_, fun img r h2 hr hf hb => ?_, fun hr h2 ht => ?_, fun h4 => ?_, fun h5 => ?_⟩
  · show execFuseSense s = _
    simp only [execFuseSense, h, h0, hc, Bool.not_true, Bool.or_self, Bool.false_eq_true, if_false, if_true]
  · show execImageCheck (some bs) s = _
    simp only [execImageCheck, h2, hr, hf, hc, hb, bne_self_eq_false, Bool.not_true, Bool.or_self, Bool.false_eq_true, if_false, if_true]
  · show execImageCheck img s = _
    simp only [execImageCheck, h2, hr, hf, hc, hb, bne_self_eq_false, Bool.not_true, Bool.or_self, Bool.false_eq_true, if_false, if_true]
  · obtain ⟨stage, count, ready, mbx, nonce, hbm, cores, stages, err⟩ := starting_leaves (s := faultChannels s)
    have boot : (faultChannels s).boot = s.boot := faultChannels_keeps State.boot fun _ _ _ => rfl
    refine ⟨_, execItkanStart_starts hr h2 ht hc, stage, ?_, ready, ?_, ?_, nonce, fun n hn => ?_, ?_, ?_, ?_, ?_⟩
    · rw [count, boot]
    · rw [mbx]
    · rw [mbx]
    · rw [starting_chan, faultChannels_chan hn]
      exact ⟨rfl, fun he => ⟨if_pos he, if_pos he⟩⟩
    · exact hbm.trans (faultChannels_keeps State.hbm fun _ _ _ => rfl)
    · exact cores.trans (faultChannels_keeps State.cores fun _ _ _ => rfl)
    · exact stages.trans (faultChannels_keeps State.stage fun _ _ _ => rfl)
    · exact err.trans (faultChannels_keeps State.err fun _ _ _ => rfl)
  · show execHbmTrainingDone 0 s = _
    have unfailed : ((List.range 128).filter fun i => (0 : BitVec 128).getLsbD i) = [] := List.filter_eq_nil_iff.mpr fun i _ => by simp
    simp only [execHbmTrainingDone, h4, hc, unfailed, List.foldl_nil, bne_self_eq_false, Bool.not_true, Bool.or_self, Bool.false_eq_true, if_false]
  · have boot {w : State} : (becomeReady w).boot = (w.setFwStage 6).boot := becomeReady_keeps State.boot fun _ _ => evalDoorbell_boot
    have hbm {w : State} : (becomeReady w).hbm = w.hbm := (becomeReady_keeps State.hbm fun _ _ => evalDoorbell_hbm).trans setFwStage_hbm
    refine ⟨becomeReady { s with hbm := { s.hbm with mem := [], poison := [], weak := [], broken := [] }, boot := { s.boot with needTrain := false } }, ?_, ?_, ?_, ?_, ?_, ?_, ?_, ?_, ?_, ?_⟩
    · show execHbmZeroingDone s = _
      simp only [execHbmZeroingDone, h5, hc, bne_self_eq_false, Bool.not_true, Bool.or_self, Bool.false_eq_true, if_false]
    · rw [boot, setFwStage_fwStage]
    · rw [boot]
      exact setFwStage_bootKeeps Boot.needTrain fun _ _ => rfl
    iterate 4 rw [hbm]
    · exact (becomeReady_keeps State.cores fun _ _ => evalDoorbell_cores).trans setFwStage_cores
    · exact (becomeReady_keeps State.stage fun _ _ => evalDoorbell_stage).trans setFwStage_stage
    · exact (becomeReady_keeps State.fabric fun _ _ => evalDoorbell_fabric).trans setFwStage_fabric

end Sys2Proof.Machine
end

section
/-! PROOFS. Power events -/

namespace Sys2Proof.Machine

variable {s : State}

/-! Tables written entry by entry. -/

/-- A table whose first `n` entries are each rewritten from its old value. -/
theorem tget_foldl_tset {α : Type} [DecidableEq α] {d : α} {f : Nat → α → α} {t : Tbl α} {n j : Nat} :
    tget d ((List.range n).foldl (fun t i => tset d t i (f i (tget d t i))) t) j = if j < n then f j (tget d t j) else tget d t j := by
  induction n with
  | zero => rfl
  | succ n ih =>
    rw [List.range_succ, List.foldl_append, List.foldl_cons, List.foldl_nil]
    rcases eq_or_ne j n with rfl | hne
    · rw [tget_tset_same, ih, if_neg (lt_irrefl j), if_pos (Nat.lt_succ_self j)]
    · rw [tget_tset_ne hne, ih]
      exact if_congr (by omega) rfl rfl

/-- A list written into a table is read back from its place on. -/
theorem tget_tsetList {α : Type} [DecidableEq α] {d : α} {t : Tbl α} {k j : Nat} {l : List α} :
    tget d (tsetList d t k l) j = if k ≤ j ∧ j < k + l.length then l.getD (j - k) d else tget d t j := by
  induction l generalizing t k with
  | nil => rw [if_neg (by rw [List.length_nil]; omega), tsetList]
  | cons v l ih =>
    rw [tsetList, ih, List.length_cons]
    rcases Nat.lt_trichotomy j k with h | rfl | h
    · rw [if_neg (by omega), if_neg (by omega), tget_tset_ne (by omega)]
    · rw [if_neg (by omega), if_pos (by omega), tget_tset_same, Nat.sub_self, List.getD_cons_zero]
    · rw [tget_tset_ne (by omega), show j - k = (j - (k + 1)) + 1 by omega, List.getD_cons_succ]
      exact if_congr (by omega) rfl rfl

/-! The power manager. -/

/-- A tick's last part: the voltage write, if any, leaves, and its first loss is noted. -/
def tickTail (writes notes : Bool) (v : BitVec 16) (r : ErrRec) (u : State) : State :=
  let t := if writes then u.emit (.avs v) else u
  if notes then t.postErr r else t

/-- A tick's last part changes neither power, memory, cores nor stage. -/
theorem tickTail_keeps {α : Type} (g : State → α) {writes notes : Bool} {v : BitVec 16} {r : ErrRec} (sent : ∀ (s : State) o, g (s.emit o) = g s) (noted : ∀ (s : State) r, g (s.postErr r) = g s) :
    g (tickTail writes notes v r s) = g s := by
  have left : g (if writes then s.emit (.avs v) else s) = g s := by
    split
    · exact sent _ _
    · rfl
  unfold tickTail
  dsimp only
  split
  · exact (noted _ _).trans left
  · exact left

/-- The frequency that a tick gives a core: its target, or less where the voltage for it is lost. -/
def tickClock (s : State) (limits : List (BitVec 16)) (lost : Bool) (top c : Nat) : Nat :=
  let want := targetMhz s (nextThermal s) (limits.getD c 1800).toNat c
  if lost && decide (s.mhz c < want) then min want (max (s.mhz c) top) else want

/-- What a tick of the power manager sets. -/
theorem execPowerManagerTick_sets {limits : List (BitVec 16)} {hold : BitVec 8} {acked : Bool} (hc : s.clocked = true) (hi : s.itkan = true) :
    ∃ writes notes v r p lost top, execPowerManagerTick limits hold acked s = .next (tickTail writes notes v r { s with power := p })
      ∧ p.thermalLimit = BitVec.ofNat 16 (nextThermal s) ∧ p.clock = allCores.foldl (fun t c => tset 800 t c (BitVec.ofNat 16 (tickClock s limits lost top c))) s.power.clock
      ∧ p.hold = (if allCores.all fun c => s.mhz c == 800 then hold else 0) ∧ p.holdLeft = p.hold.toNat * 100000 / 256 ∧ (acked = true → lost = false) := by
  simp only [execPowerManagerTick, hc, hi, Bool.not_true, Bool.or_self, Bool.false_eq_true, if_false]
  refine ⟨_, _, _, _, _, _, _, rfl, rfl, rfl, rfl, rfl, fun h => ?_⟩
  rw [h, Bool.not_true, Bool.and_false]

/-- A core's target fits a frequency's 16 bits. -/
theorem targetMhz_lt {thermal c : Nat} {limit : BitVec 16} : targetMhz s thermal limit.toNat c < 2 ^ 16 := by
  have := limit.isLt
  unfold targetMhz
  split
  · decide
  · omega

/-- A tick gives a core at most its target, and its target where no voltage is lost. -/
theorem tickClock_le {limits : List (BitVec 16)} {lost : Bool} {top c : Nat} :
    tickClock s limits lost top c ≤ targetMhz s (nextThermal s) (limits.getD c 1800).toNat c ∧ (lost = false → tickClock s limits lost top c = targetMhz s (nextThermal s) (limits.getD c 1800).toNat c) := by
  unfold tickClock
  dsimp only
  refine ⟨?_, fun h => by rw [h, Bool.false_and, if_neg Bool.false_ne_true]⟩
  split
  · exact Nat.min_le_left _ _
  · exact le_rfl

/-- A core's frequency after a tick. -/
theorem mhz_ticked {w : State} {t : Tbl (BitVec 16)} {limits : List (BitVec 16)} {lost : Bool} {top c : Nat} (hc : c < 24)
    (h : s.power.clock = allCores.foldl (fun t c => tset 800 t c (BitVec.ofNat 16 (tickClock w limits lost top c))) t) : s.mhz c = tickClock w limits lost top c := by
  have entry : tget 800 s.power.clock c = BitVec.ofNat 16 (tickClock w limits lost top c) := by
    rw [h]
    exact (tget_foldl_tset (f := fun c _ => BitVec.ofNat 16 (tickClock w limits lost top c))).trans (if_pos hc)
  rw [State.mhz, entry, BitVec.toNat_ofNat]
  exact Nat.mod_eq_of_lt (Nat.lt_of_le_of_lt tickClock_le.1 targetMhz_lt)

/-- The hold that a tick sets: the one given while every core runs at 800 MHz, else none. -/
theorem tick_hold {hold : BitVec 8} {p : Power} (h : p.hold = if allCores.all fun c => s.mhz c == 800 then hold else 0) (hl : p.holdLeft = p.hold.toNat * 100000 / 256) :
    ((∀ c, c < 24 → s.mhz c = 800) → p.hold = hold ∧ p.holdLeft = hold.toNat * 100000 / 256) ∧ ((∃ c, c < 24 ∧ s.mhz c ≠ 800) → p.hold = 0 ∧ p.holdLeft = 0) := by
  constructor
  · intro slow
    have all : (allCores.all fun c => s.mhz c == 800) = true := List.all_eq_true.mpr fun c hc => beq_iff_eq.mpr (slow c (List.mem_range.mp hc))
    rw [all, if_pos rfl] at h
    exact ⟨h, by rw [hl, h]⟩
  · rintro ⟨c, hc, fast⟩
    have some : (allCores.all fun c => s.mhz c == 800) = false := List.all_eq_false.mpr ⟨c, List.mem_range.mpr hc, by simpa using fast⟩
    rw [some, if_neg Bool.false_ne_true] at h
    exact ⟨h, by rw [hl, h]; rfl⟩

/-! Telemetry. -/

/-- A sample of the sensor block is taken. -/
theorem execTelemetrySample_takes {a p : BitVec 16} {e : BitVec 64} {temps : List (BitVec 8)} {lim : List (BitVec 64)} (hc : s.clocked = true) :
    ∃ t, execTelemetrySample a p e temps lim s = .next t ∧ t.power = { s.power with avgW := a, peakW := p, energy := e, temps := tsetList 0 s.power.temps 0 (temps.take 41) }
      ∧ t.telem.power = s.power.cap ++ a ∧ t.telem.lim = (List.range limiterCount).foldl (fun t i => tset 0 t i (tget 0 t i + lim.getD i 0)) s.telem.lim ∧ t.hbm = s.hbm ∧ t.cores = s.cores := by
  simp only [execTelemetrySample, hc, Bool.not_true, Bool.false_eq_true, if_false]
  refine ⟨_, rfl, rfl, rfl, by with_reducible rfl, rfl, rfl⟩

/-- A periodic snapshot whose lines need no snoop, and that raises no vector, is written. -/
theorem execTelemetrySnapshot_writes (hc : s.clocked = true) (hp : s.telem.period ≠ 0) (hd : s.telem.due = 0) (hl : snoopsFor s (snapAddr s.telem) 2048 true = []) (hv : s.telem.vector = 127) :
    let u : State := { s with telem := { s.telem with lines := [] } }
    let w := (hbmWrite u (snapAddr s.telem) (cleanBytes (snapshot s))).s
    execTelemetrySnapshot s = .next { w with telem := { w.telem with snapSeq := w.telem.snapSeq + 1 } } := by
  intro u w
  have lines : (snoopsFor { s with telem := { s.telem with due := s.telem.due + 1 } } (snapAddr s.telem) 2048 true).isEmpty = true := List.isEmpty_iff.mpr hl
  have settled : settleSnapshots 1 { s with telem := { s.telem with due := s.telem.due + 1 } } = writeSnapshot u := by
    rw [settleSnapshots]
    exact (if_neg (Nat.succ_ne_zero _)).trans (if_pos lines)
  have same : snapshot u = snapshot s := rfl
  have waits : (s.telem.due != 0) = false := by rw [hd, bne_self_eq_false]
  simp only [execTelemetrySnapshot, hc, hp, waits, Bool.not_true, decide_false, Bool.or_self, Bool.false_eq_true, if_false]
  rw [settled, writeSnapshot, same]
  exact congrArg Host.Outcome.next (if_pos hv)

/-- Settles O42, event by event. -/
theorem powerEventsTakeEffect : Obligations.PowerEventsTakeEffect := by
  intro s hc
  refine ⟨fun limits hold acked hi => ?_, fun v hv => ⟨?_, ?_⟩, fun a p e temps lim hlen => ?_, fun hp hd hl hv => execTelemetrySnapshot_writes hc hp hd hl hv, fun i v hi hv => ?_, fun i v hi hv => ?_,
    fun i v hv => ?_, fun i v hd hh => ?_, fun k v hv => ?_⟩
  · obtain ⟨writes, notes, v, r, p, lost, top, ticks, thermal, clock, held, left, acks⟩ := execPowerManagerTick_sets (limits := limits) (hold := hold) (acked := acked) hc hi
    have power : (tickTail writes notes v r { s with power := p }).power = p := tickTail_keeps State.power (fun _ _ => rfl) fun _ _ => postErr_power
    obtain ⟨slow, fast⟩ := tick_hold held left
    have mhz {c : Nat} (hc : c < 24) : (tickTail writes notes v r { s with power := p }).mhz c = tickClock s limits lost top c := mhz_ticked hc (by rw [power]; exact clock)
    refine ⟨_, ticks, ?_, ?_, ?_, ?_, ?_, ?_, fun c hc => ?_, fun ha c hc => ?_⟩
    · rw [power, thermal]
    · rw [power]
      exact slow
    · rw [power]
      exact fast
    · exact tickTail_keeps State.hbm (fun _ _ => rfl) fun _ _ => postErr_hbm
    · exact tickTail_keeps State.cores (fun _ _ => rfl) fun _ _ => postErr_cores
    · exact tickTail_keeps State.stage (fun _ _ => rfl) fun _ _ => postErr_stage
    · rw [mhz hc]
      exact tickClock_le.1
    · rw [mhz hc]
      exact tickClock_le.2 (acks ha)
  · show execAvsRetry true s = _
    simp only [execAvsRetry, hv, if_true]
  · show execAvsRetry false s = _
    simp only [execAvsRetry, hv, Bool.false_eq_true, if_false]
  · obtain ⟨t, takes, power, watts, limiters, hbm, cores⟩ := execTelemetrySample_takes (a := a) (p := p) (e := e) (temps := temps) (lim := lim) hc
    refine ⟨t, takes, ?_, ?_, ?_, fun i hi => ?_, fun i hi => ?_, watts, hbm, cores⟩
    · rw [power]
    · rw [power]
    · rw [power]
    · have whole : temps.take 41 = temps := List.take_of_length_le (by omega)
      rw [power, whole, tget_tsetList, if_pos (by omega), Nat.sub_zero]
    · rw [limiters]
      exact (tget_foldl_tset (f := fun i v => v + lim.getD i 0)).trans (if_pos hi)
  · show execThermalThrottle i v s = _
    have hot : ¬v.toInt < 95 := by omega
    simp only [execThermalThrottle, hot, hc, hi, decide_false, Bool.not_true, Bool.or_self, Bool.false_eq_true, if_false, if_true]
    rfl
  · show execThermalThrottle i v s = _
    have hot : ¬v.toInt < 95 := by omega
    simp only [execThermalThrottle, hot, hc, if_neg (Nat.not_lt.mpr hi), decide_false, Bool.not_true, Bool.or_self, Bool.false_eq_true, if_false]
    rfl
  · have hot : ¬v.toInt < 105 := by omega
    refine ⟨State.deviceErr { setTemp s i.val v with power := { (setTemp s i.val v).power with thermalLimit := 800, clock := [] } } (mkEvent 7 i.val 3 (sensorUnit i.val).1 (sensorUnit i.val).2),
      ?_, ?_, fun c => ?_, ?_, ?_⟩
    · show execThermalCritical i v s = _
      simp only [execThermalCritical, hot, hc, decide_false, Bool.not_true, Bool.or_self, Bool.false_eq_true, if_false]
    · rw [State.deviceErr, postErr_boot]
      exact contain_quarantined
    · rw [State.mhz, deviceErr_power]
      rfl
    · rw [deviceErr_power]
    · rw [deviceErr_hbm]
      rfl
  · show execThermalTrip i v s = _
    have hot : ¬v.toInt < if i.val < 33 then 120 else 110 := by
      split
      next h => exact not_lt.mpr (hd h)
      next h => exact not_lt.mpr (hh (Nat.not_lt.mp h))
    simp only [execThermalTrip, hot, hc, decide_false, Bool.not_true, Bool.or_self, Bool.false_eq_true, if_false]
    rfl
  · show execRefreshThreshold k v s = _
    have hot : ¬v.toInt < 85 := by omega
    simp only [execRefreshThreshold, hot, hc, decide_false, Bool.not_true, Bool.or_self, Bool.false_eq_true, if_false]
    rfl

end Sys2Proof.Machine
end
